-- ==== Sys2Proof/Word.lean ====
section
/-! DEFINITION. The word types of the device and its word-level names. -/

namespace Sys2Proof

/-- A scalar register or a generic address (03 R61, R68). -/
abbrev Word := BitVec 64
/-- A byte of memory (00 R5). -/
abbrev Byte := BitVec 8
/-- One 32-bit lane of a vector register (03 R61). -/
abbrev Lane := BitVec 32
/-- An instruction word of 80 bits (06 R162). -/
abbrev IWord := BitVec 80

end Sys2Proof
end

