-- ==== Sys2Proof/Config.lean ====
section
/-! DEFINITION. What the manual leaves open: free values and the functions of outside standards.  Each is an opaque
constant: nothing in Lean can evaluate it, so a statement about the machine holds whatever it is. -/

namespace Sys2Proof
namespace Config

/-- Free values: the n-th value that the manual leaves unspecified (00 R13); the machine counts n in
`State.freeCtr`. -/
opaque freeWord : Nat → BitVec 64

/-- SHA-384 of a byte string (22 R552, R556, R561; 01 R15 Signatures). -/
opaque sha384 : List Byte → BitVec 384

/-- ECDSA over brainpoolP384r1: whether a signature of a digest verifies under a public key (01 R15; 22 R556, R561). -/
opaque ecdsaVerify : List Byte → BitVec 384 → List Byte → Bool

/-- ECDSA over brainpoolP384r1: the signature of a digest under a private key (22 R553). -/
opaque ecdsaSign : BitVec 384 → BitVec 384 → BitVec 768

/-- The key derivation of 22 R552: a label, a secret and a digest give a seed. -/
opaque derive : BitVec 384 → BitVec 384 → BitVec 384

/-- The authentication tag of a link flit under AES-GCM (20 R510): key, salt, counter, header and payload. -/
opaque gcmTag : BitVec 256 → BitVec 32 → BitVec 64 → BitVec 32 → List Byte → BitVec 128

/-- The payload under AES-GCM's key stream (20 R510): encryption and decryption are the same exclusive or. -/
opaque gcmStream : BitVec 256 → BitVec 32 → BitVec 64 → List Byte → List Byte

/-- The chip's fused identity secret (22 R552). -/
opaque fusedSecret : BitVec 256

/-- The manufacturing certificate of the device identity key (22 R552). -/
opaque mfrCert : List Byte

/-- The public key of a private key (22 R552). -/
opaque ecdsaPublic : BitVec 384 → List Byte

/-- The random generator's draws: a partition's key for memory (22 R548). -/
opaque randomKey : Nat → BitVec 512

/-- The key of a partition's IDE stream, set through SPDM (22 R550). -/
opaque ideKey : Nat → Nat → BitVec 256

/-- The key of an SPDM session from its transcript (22 R553). -/
opaque sessionKey : BitVec 384 → BitVec 256

/-- The 256 bytes of a reply of firmware to a request of a code: whether it was refused, and what it returns (22 R547). -/
opaque fwReplyBytes : Nat → Bool → List Byte → List Byte

/-- The payload of a control flit (20 R504): NAK 0 with the SEQ, KEYDONE 1, DREQ 2 and SYNC 3 with their pod times. -/
opaque controlBytes : Nat → List Nat → List Byte

/-- What a control flit's payload says (20 R504). -/
opaque controlOf : List Byte → Option (Nat × List Nat)

/-- The flit buffers of a virtual channel at the far end of a link, less one (20 R504). -/
opaque flitBuffers : Nat → Nat

/-- The public key against which firmware images are verified, fused in the chip (22 R561). -/
opaque fwPublicKey : List Byte

/-- The responder's answer to an SPDM message as a function of the session's transcript (22 R553): its bytes are those of
the SPDM standard, which the manual names and does not restate. -/
opaque spdmAnswer : Nat → BitVec 384 → BitVec 384

/-- Which of eight CONTIG leaves that break R484's conditions an access translates through, by the address of the first and the
cycle (19 R484). -/
opaque contigLeaf : Nat → Nat → Nat

/-- Whether the n-th walk goes by what a walk cache holds of the tables, where it holds any (19 R488): which is not given. -/
opaque walkCached : Nat → Bool

/-- The virtual function of its port, of 64, that a partition and incarnation is bound to (21 R524, 22 R550): which one is not
given. -/
opaque virtualFn : Nat → Nat → Nat

/-- The phase of a die's monitor scans in their 4,096 cycles (18 R474): fixed for each die, and not given. -/
opaque scanPhase : Nat → Nat

/-- The entries of a function's MSI-X table (21 R534): each function has its own number, and it is not given. -/
opaque msixVectors : Nat → Nat

/-- The host that owns a partition's flag window (21 R536): which host a partition is assigned to lies outside the device. -/
opaque flagHost : Nat → Nat

/-- The interface report of a partition as a function of its configuration (22 R551): its layout is not given. -/
opaque reportBytes : List Byte → List Byte

/-- The base of a partition's second-stage tables at a LOCK_INTERFACE, by partition and incarnation (19 R485, 22 R551): the
host VMM writes the tables, and how it names their base is not given. -/
opaque stage2Base : Nat → Nat → Nat

/-- Whether a die's links train and its self-test passes at the boot that a number names (22 Table 22-6 step 3). -/
opaque dieTest : Nat → Nat → Bool
/-- Whether an HBM stack trains at a boot (22 Table 22-6 step 3). -/
opaque stackTest : Nat → Nat → Bool
/-- Whether a core passes its self-test at a boot (22 Table 22-6 step 3). -/
opaque coreTest : Nat → Nat → Bool

/-- The pod chip number that firmware takes from the integrator's cabling record at a boot (20 R501). -/
opaque podChip : Nat → BitVec 11
/-- The ports bonded at a boot into the link whose lowest port is given, none where no link begins there (20 R502, R503). -/
opaque linkPorts : Nat → Nat → List Nat
/-- The working lanes of a link that has been trained at a boot: by twice its lowest port for the sending direction, and one more for the
other (20 R503). -/
opaque linkLanes : Nat → Nat → List Nat
/-- The key and salt that SPDM installs at a boot in a link's first bank, sending or receiving, if any (20 R510). -/
opaque linkKey : Nat → Nat → Bool → Option (BitVec 256 × BitVec 32)
/-- The links that lead toward a chip, as the integrator has cabled them (20 R502, R513). -/
opaque linkPaths : Nat → Nat → List Nat
/-- The time tree that firmware sets up at a boot: TIMECTL, and the pod time that it sets first (20 R521). -/
opaque timeTree : Nat → BitVec 64 × BitVec 64

/-- The digest of the boot ROM (22 Table 22-3). -/
opaque romDigest : BitVec 384

end Config
end Sys2Proof
end

