-- ==== Sys2Proof/Syntax.lean ====
section
/-! DEFINITION. The instruction words and the device events: one constructor of `Instr` for each row of the opcode
table.  A program word carries its common header (06 Table 6-1) and its format's fields (06 Table 6-3); a device event
carries what the outside party or the unit names. -/

namespace Sys2Proof

/-- The common header of a word less OPC and FN, which the constructor names (06 Table 6-1). -/
structure Hdr where
  /-- S: the word ends its issue group. -/
  stop : Bool
  /-- PR: [3] negate, [2:0] predicate index. -/
  pr : BitVec 4
  /-- TA: the tag allocated, 0 for none. -/
  ta : BitVec 3
  /-- TC: the tag consumed, 0 for none. -/
  tc : BitVec 3
  deriving DecidableEq, Repr

/-- Format RR (06 Table 6-3). -/
structure FmtRR where
  dst : BitVec 8
  a : BitVec 9
  b : BitVec 9
  c : BitVec 9
  cmask : BitVec 8
  ty : BitVec 4
  aux : BitVec 9
  deriving DecidableEq, Repr

/-- Format RI (06 Table 6-3); MOD holds TYPE in [6:3]. -/
structure FmtRI where
  dst : BitVec 8
  a : BitVec 9
  imm : BitVec 32
  ty : BitVec 4
  modLow : BitVec 3
  deriving DecidableEq, Repr

/-- The two forms of a word that FN selects (06 R197). -/
inductive RRI where
  | rr (f : FmtRR)
  | ri (f : FmtRI)
  deriving DecidableEq, Repr

/-- Format M (06 Table 6-3, R169). -/
structure FmtM where
  x : BitVec 9
  base : BitVec 9
  ofs : BitVec 24
  size : BitVec 3
  ord : BitVec 3
  scope : BitVec 3
  cl : BitVec 3
  hint : BitVec 2
  deriving DecidableEq, Repr

/-- Format B (06 Table 6-3). -/
structure FmtB where
  ofs : BitVec 32
  deriving DecidableEq, Repr

/-- Format L (06 Table 6-3). -/
structure FmtL where
  count : BitVec 9
  body : BitVec 16
  deriving DecidableEq, Repr

/-- Format P (06 Table 6-3): COUNT - 1 and STEP, whose bits [3:0] are DST, A, B, C. -/
structure FmtP where
  countM1 : BitVec 6
  step : BitVec 4
  deriving DecidableEq, Repr

/-- Format AT (06 Table 6-3). -/
structure FmtAT where
  dst : BitVec 8
  a : BitVec 9
  b : BitVec 9
  c : BitVec 9
  size : BitVec 3
  ord : BitVec 3
  scope : BitVec 3
  deriving DecidableEq, Repr

/-- Format G (06 Table 6-3). -/
structure FmtG where
  x : BitVec 9
  base : BitVec 9
  idx : BitVec 9
  scl : BitVec 2
  size : BitVec 3
  ord : BitVec 3
  scope : BitVec 3
  cmask : BitVec 8
  deriving DecidableEq, Repr

/-- Format T (06 Table 6-3). -/
structure FmtT where
  dst : BitVec 8
  a : BitVec 9
  b : BitVec 9
  c : BitVec 9
  imm : BitVec 12
  scope : BitVec 3
  acq : BitVec 1
  rel : BitVec 1
  deriving DecidableEq, Repr

/-- Format F (06 Table 6-3). -/
structure FmtF where
  a : BitVec 9
  b : BitVec 9
  c : BitVec 9
  d : BitVec 9
  opt : BitVec 8
  ty : BitVec 4
  scope : BitVec 3
  acq : BitVec 1
  rel : BitVec 1
  deriving DecidableEq, Repr

/-- Format E (06 Table 6-3). -/
structure FmtE where
  ed : BitVec 8
  ea : BitVec 8
  eb : BitVec 8
  sa : BitVec 9
  mode : BitVec 3
  wu : BitVec 2
  ty : BitVec 4
  aux : BitVec 9
  scope : BitVec 3
  acq : BitVec 1
  rel : BitVec 1
  deriving DecidableEq, Repr

/-- Format C (06 Table 6-3). -/
structure FmtC where
  dst : BitVec 8
  a : BitVec 9
  csrn : BitVec 12
  deriving DecidableEq, Repr

/-- The condition codes of CMP, FCMP, VCMP and VFCMP, in the order of FN[2:0] (07 R201). -/
inductive Cc where
  | eq | ne | lt | le | gt | ge
  deriving DecidableEq, Repr

/-- Where the egress unit takes its next word from (12 R361). -/
inductive EgressSrc where
  | mailbox | august | fired
  deriving DecidableEq, Repr

/-- A fabric packet, its header fields (20 Table 20-2) and data.  `fn` is the operation of an ATOMIC (09 Table 9-3) and
`poison` says that the arriving data carried poison (20 Table 20-7). -/
structure Packet where
  op : BitVec 8
  flags : BitVec 8
  job : BitVec 16
  src : BitVec 16
  score : BitVec 16
  dst : BitVec 16
  seg : BitVec 8
  typ : BitVec 8
  pseq : BitVec 32
  ofs : BitVec 40
  len : BitVec 24
  wofs : BitVec 40
  wlen : BitVec 32
  fofs : BitVec 40
  fn : BitVec 8
  poison : Bool
  data : List Byte
  vc : Nat := 0
  deriving DecidableEq, Repr

/-- A write to a notify page (21 Table 21-4, R530, R531): whether it was exactly 64 aligned bytes, the PASID that
travelled with it, and its fields; `rest` is bytes 0x20 to 0x3F. -/
structure ReqPacket where
  whole : Bool
  pasid : Option (BitVec 20)
  op : BitVec 8
  flags : BitVec 8
  vec : BitVec 16
  tag : BitVec 32
  arg0 : BitVec 64
  arg1 : BitVec 64
  cpl : BitVec 64
  rest : BitVec 256
  deriving DecidableEq, Repr

/-- A link flit: header word, 236 payload bytes and tag (20 R504). -/
structure Flit where
  hdr : BitVec 32
  payload : List Byte
  tag : BitVec 128
  deriving DecidableEq, Repr

/-- A host's access to a coherent line (21 R536, R539). -/
inductive HostAccess where
  | read
  | readOwn
  | write (ofs : Nat) (data : List Byte)
  | writeBack (data : List Byte)
  deriving DecidableEq, Repr

/-- Registers that a host write reaches and that have no behaviour of their own (00 R6; 18 Table 18-1,
20 Table 20-8, 21 Tables 21-1, 21-3, 21-6, 16 Table 16-1). -/
inductive HostReg where
  | march (die part : Nat) (ofs : BitVec 8)
  | qcfg (port q : Nat)
  | pasidTab (port q i : Nat)
  | hostMap (h : Nat)
  | jobBase
  | timeCtl
  | extentWord (ext w : Nat)
  | record (part stack r w : Nat)
  | msixEntry (port vec w : Nat)
  deriving DecidableEq, Repr

/-- An ASSIGN request (22 Table 22-1). -/
structure AssignReq where
  part : Nat
  blocks : BitVec 128
  units : List Nat
  shareBase : List (BitVec 32)
  shareSize : List (BitVec 32)
  errBase : BitVec 64
  errCnt : BitVec 32
  keyDigest : BitVec 384
  reservedZero : Bool
  deriving DecidableEq, Repr

/-- A debug policy blob and its signature (22 R556); `shape` says that magic, version and the zero bytes are right. -/
structure PolicyBlob where
  shape : Bool
  part : Nat
  incarn : BitVec 32
  bits : BitVec 32
  pubKey : List Byte
  signature : List Byte
  deriving DecidableEq, Repr

/-- A firmware image (22 R561). -/
structure FwImage where
  magic : BitVec 32
  format : BitVec 32
  secVersion : Nat
  raiseMin : Bool
  bodyDigest : BitVec 384
  body : List Byte
  signature : List Byte
  deriving DecidableEq, Repr

/-- A unit that FENCE names (22 Table 22-1). -/
inductive FenceUnit where
  | core (c : Nat) | block (b : Nat) | die (d : Nat) | link (l : Nat) | unit (u : Nat)
  deriving DecidableEq, Repr

/-- Where a corrected or uncorrected error, or a scrub, falls (22 Table 22-4). -/
inductive ErrUnit where
  | scratchLine (core line : Nat)
  | hbmLine (line : Nat)
  | slot (core slot : Nat)
  | coreShared (core : Nat)
  | blockUnit (block : Nat)
  | dieSram (die : Nat)
  | link (l : Nat)
  | memUnit (u : Nat)
  deriving DecidableEq, Repr

/-- One constructor per row of the opcode table (06 Table 6-8 and the chapters' events).  An event's argument with a default is, where
it is not given: the physical function of port 0, reserved fields of zero, the sending direction, session 0, the link's own ports, the same
lanes in both directions. -/
inductive Instr where
  /-- NOP (R194). -/
  | nop (h : Hdr)
  /-- ADD (R203). -/
  | add (h : Hdr) (f : RRI)
  /-- SUB (R203). -/
  | sub (h : Hdr) (f : RRI)
  /-- MUL (R203). -/
  | mul (h : Hdr) (f : RRI)
  /-- MUL_HI (R203). -/
  | mulHi (h : Hdr) (f : RRI)
  /-- DIV (R203). -/
  | divI (h : Hdr) (f : RRI)
  /-- DIV_REM (R203). -/
  | divRem (h : Hdr) (f : RRI)
  /-- AND (R203). -/
  | andI (h : Hdr) (f : RRI)
  /-- OR (R203). -/
  | orI (h : Hdr) (f : RRI)
  /-- XOR (R203). -/
  | xorI (h : Hdr) (f : RRI)
  /-- ANDN (R203). -/
  | andn (h : Hdr) (f : RRI)
  /-- SHL (R203). -/
  | shl (h : Hdr) (f : RRI)
  /-- SHR (R203). -/
  | shr (h : Hdr) (f : RRI)
  /-- SRA (R203). -/
  | sra (h : Hdr) (f : RRI)
  /-- ROT (R203). -/
  | rot (h : Hdr) (f : RRI)
  /-- MIN (R203). -/
  | minI (h : Hdr) (f : RRI)
  /-- MAX (R203). -/
  | maxI (h : Hdr) (f : RRI)
  /-- CMP (R211). -/
  | cmp (h : Hdr) (cc : Cc) (f : RRI)
  /-- SEL (R208). -/
  | sel (h : Hdr) (f : FmtRR)
  /-- MOVI (R206). -/
  | movi (h : Hdr) (f : FmtRI)
  /-- MOVHI (R207). -/
  | movhi (h : Hdr) (f : FmtRI)
  /-- LEA (R209). -/
  | lea (h : Hdr) (f : RRI)
  /-- BITS_CLZ (R204). -/
  | bitsClz (h : Hdr) (f : FmtRR)
  /-- BITS_CTZ (R204). -/
  | bitsCtz (h : Hdr) (f : FmtRR)
  /-- BITS_POPC (R204). -/
  | bitsPopc (h : Hdr) (f : FmtRR)
  /-- BITS_BREV (R204). -/
  | bitsBrev (h : Hdr) (f : FmtRR)
  /-- BITS_BFX (R205). -/
  | bitsBfx (h : Hdr) (f : FmtRR)
  /-- BITS_BFI (R205). -/
  | bitsBfi (h : Hdr) (f : FmtRR)
  /-- BITS_ABS (R204). -/
  | bitsAbs (h : Hdr) (f : FmtRR)
  /-- BITS_NEG (R204). -/
  | bitsNeg (h : Hdr) (f : FmtRR)
  /-- PLOG_AND (R212). -/
  | plogAnd (h : Hdr) (f : FmtRR)
  /-- PLOG_OR (R212). -/
  | plogOr (h : Hdr) (f : FmtRR)
  /-- PLOG_XOR (R212). -/
  | plogXor (h : Hdr) (f : FmtRR)
  /-- PLOG_ANDN (R212). -/
  | plogAndn (h : Hdr) (f : FmtRR)
  /-- FADD (R214). -/
  | fadd (h : Hdr) (f : FmtRR)
  /-- FADD_SUB (R214). -/
  | faddSub (h : Hdr) (f : FmtRR)
  /-- FMUL (R214). -/
  | fmul (h : Hdr) (f : FmtRR)
  /-- FMA (R214). -/
  | fma (h : Hdr) (f : FmtRR)
  /-- FMA_FMS (R214). -/
  | fmaFms (h : Hdr) (f : FmtRR)
  /-- FMA_FNMA (R214). -/
  | fmaFnma (h : Hdr) (f : FmtRR)
  /-- FDIV (R214). -/
  | fdiv (h : Hdr) (f : FmtRR)
  /-- FDIV_SQRT (R214). -/
  | fdivSqrt (h : Hdr) (f : FmtRR)
  /-- FMIN (R215). -/
  | fmin (h : Hdr) (f : FmtRR)
  /-- FMAX (R215). -/
  | fmax (h : Hdr) (f : FmtRR)
  /-- FCMP (R216). -/
  | fcmp (h : Hdr) (cc : Cc) (f : FmtRR)
  /-- FCVT (R217). -/
  | fcvt (h : Hdr) (f : FmtRR)
  /-- BR (R218). -/
  | br (h : Hdr) (f : FmtB)
  /-- JMP (R218). -/
  | jmp (h : Hdr) (f : FmtRR)
  /-- CALL (R218). -/
  | call (h : Hdr) (f : FmtRR)
  /-- RET (R218). -/
  | ret (h : Hdr) (f : FmtRR)
  /-- LOOP (R222). -/
  | loopI (h : Hdr) (f : FmtL)
  /-- BRKL (R227). -/
  | brkl (h : Hdr)
  /-- RPT (R191). -/
  | rpt (h : Hdr) (f : FmtP)
  /-- TRAP (R231). -/
  | trap (h : Hdr) (f : FmtRR)
  /-- RESULT_LANDING (R178). -/
  | resultLanding (core slot : Nat)
  /-- VADD (R238). -/
  | vadd (h : Hdr) (f : FmtRR)
  /-- VSUB (R238). -/
  | vsub (h : Hdr) (f : FmtRR)
  /-- VMUL (R238). -/
  | vmul (h : Hdr) (f : FmtRR)
  /-- VMUL_HI (R238). -/
  | vmulHi (h : Hdr) (f : FmtRR)
  /-- VMAD (R238). -/
  | vmad (h : Hdr) (f : FmtRR)
  /-- VLOG_AND (R238). -/
  | vlogAnd (h : Hdr) (f : FmtRR)
  /-- VLOG_OR (R238). -/
  | vlogOr (h : Hdr) (f : FmtRR)
  /-- VLOG_XOR (R238). -/
  | vlogXor (h : Hdr) (f : FmtRR)
  /-- VLOG_ANDN (R238). -/
  | vlogAndn (h : Hdr) (f : FmtRR)
  /-- VSH_SHL (R238). -/
  | vshShl (h : Hdr) (f : FmtRR)
  /-- VSH_SHR (R238). -/
  | vshShr (h : Hdr) (f : FmtRR)
  /-- VSH_SRA (R238). -/
  | vshSra (h : Hdr) (f : FmtRR)
  /-- VSH_ROT (R238). -/
  | vshRot (h : Hdr) (f : FmtRR)
  /-- VMIN (R238). -/
  | vmin (h : Hdr) (f : FmtRR)
  /-- VMAX (R238). -/
  | vmax (h : Hdr) (f : FmtRR)
  /-- VCMP (R239). -/
  | vcmp (h : Hdr) (cc : Cc) (f : FmtRR)
  /-- VSEL (R240). -/
  | vsel (h : Hdr) (f : FmtRR)
  /-- VFADD (R243). -/
  | vfadd (h : Hdr) (f : FmtRR)
  /-- VFADD_SUB (R243). -/
  | vfaddSub (h : Hdr) (f : FmtRR)
  /-- VFMUL (R243). -/
  | vfmul (h : Hdr) (f : FmtRR)
  /-- VFMA (R243). -/
  | vfma (h : Hdr) (f : FmtRR)
  /-- VFMA_FMS (R243). -/
  | vfmaFms (h : Hdr) (f : FmtRR)
  /-- VFMA_FNMA (R243). -/
  | vfmaFnma (h : Hdr) (f : FmtRR)
  /-- VFMIN (R243). -/
  | vfmin (h : Hdr) (f : FmtRR)
  /-- VFMAX (R243). -/
  | vfmax (h : Hdr) (f : FmtRR)
  /-- VFCMP (R239). -/
  | vfcmp (h : Hdr) (cc : Cc) (f : FmtRR)
  /-- VSF_RCP (R244). -/
  | vsfRcp (h : Hdr) (f : FmtRR)
  /-- VSF_RSQRT (R244). -/
  | vsfRsqrt (h : Hdr) (f : FmtRR)
  /-- VSF_EXP2 (R244). -/
  | vsfExp2 (h : Hdr) (f : FmtRR)
  /-- VSF_LOG2 (R244). -/
  | vsfLog2 (h : Hdr) (f : FmtRR)
  /-- VSF_SIN (R244). -/
  | vsfSin (h : Hdr) (f : FmtRR)
  /-- VSF_COS (R244). -/
  | vsfCos (h : Hdr) (f : FmtRR)
  /-- VSF_TANH (R244). -/
  | vsfTanh (h : Hdr) (f : FmtRR)
  /-- VSF_SIGM (R244). -/
  | vsfSigm (h : Hdr) (f : FmtRR)
  /-- VCVT (R245). -/
  | vcvt (h : Hdr) (f : FmtRR)
  /-- VCVT_BS_PACK (R247). -/
  | vcvtBsPack (h : Hdr) (f : FmtRR)
  /-- VCVT_BS_UNPACK (R248). -/
  | vcvtBsUnpack (h : Hdr) (f : FmtRR)
  /-- VSHUF (R250). -/
  | vshuf (h : Hdr) (f : FmtRR)
  /-- VRED_ADD (R251). -/
  | vredAdd (h : Hdr) (f : FmtRR)
  /-- VRED_MIN (R251). -/
  | vredMin (h : Hdr) (f : FmtRR)
  /-- VRED_MAX (R251). -/
  | vredMax (h : Hdr) (f : FmtRR)
  /-- VXCP (R252). -/
  | vxcp (h : Hdr) (f : FmtRR)
  /-- VSPLAT (R253). -/
  | vsplat (h : Hdr) (f : FmtRR)
  /-- VEXT (R254). -/
  | vext (h : Hdr) (f : FmtRR)
  /-- VIOTA (R255). -/
  | viota (h : Hdr) (f : FmtRR)
  /-- VRNG (R256). -/
  | vrng (h : Hdr) (f : FmtRR)
  /-- VPLOG_AND (R241). -/
  | vplogAnd (h : Hdr) (f : FmtRR)
  /-- VPLOG_OR (R241). -/
  | vplogOr (h : Hdr) (f : FmtRR)
  /-- VPLOG_XOR (R241). -/
  | vplogXor (h : Hdr) (f : FmtRR)
  /-- VPLOG_ANDN (R241). -/
  | vplogAndn (h : Hdr) (f : FmtRR)
  /-- VPCNT (R242). -/
  | vpcnt (h : Hdr) (f : FmtRR)
  /-- LD (R261). -/
  | ld (h : Hdr) (f : FmtM)
  /-- LOAD_RETURN (R261). -/
  | loadReturn (core slot tag : Nat)
  /-- ST (R262). -/
  | st (h : Hdr) (f : FmtM)
  /-- LDV (R263). -/
  | ldv (h : Hdr) (f : FmtM)
  /-- STV (R263). -/
  | stv (h : Hdr) (f : FmtM)
  /-- VGATH (R265). -/
  | vgath (h : Hdr) (f : FmtG)
  /-- VSCAT (R265). -/
  | vscat (h : Hdr) (f : FmtG)
  /-- ATOM_ADD (R267). -/
  | atomAdd (h : Hdr) (f : FmtAT)
  /-- ATOM_AND (R267). -/
  | atomAnd (h : Hdr) (f : FmtAT)
  /-- ATOM_OR (R267). -/
  | atomOr (h : Hdr) (f : FmtAT)
  /-- ATOM_XOR (R267). -/
  | atomXor (h : Hdr) (f : FmtAT)
  /-- ATOM_MIN (R267). -/
  | atomMin (h : Hdr) (f : FmtAT)
  /-- ATOM_MAX (R267). -/
  | atomMax (h : Hdr) (f : FmtAT)
  /-- ATOM_SWAP (R267). -/
  | atomSwap (h : Hdr) (f : FmtAT)
  /-- ATOM_CAS (R267). -/
  | atomCas (h : Hdr) (f : FmtAT)
  /-- ATOM_FADD (R267). -/
  | atomFadd (h : Hdr) (f : FmtAT)
  /-- ATOM_BFADD (R267). -/
  | atomBfadd (h : Hdr) (f : FmtAT)
  /-- FENCE (R270). -/
  | fence (h : Hdr) (f : FmtM)
  /-- FLAG (R273). -/
  | flagI (h : Hdr) (f : FmtAT)
  /-- WAITF (R275). -/
  | waitf (h : Hdr) (f : FmtT)
  /-- WAITF_T (R277). -/
  | waitfT (h : Hdr) (f : FmtT)
  /-- WAIT_TIMEOUT (R277). -/
  | waitTimeout (core slot : Nat)
  /-- MONITOR_SCAN (R474). -/
  | monitorScan (die : Nat)
  /-- CFLUSH_WB (R271). -/
  | cflushWb (h : Hdr) (f : FmtM)
  /-- CFLUSH_INV (R271). -/
  | cflushInv (h : Hdr) (f : FmtM)
  /-- CFLUSH_WBINV (R271). -/
  | cflushWbinv (h : Hdr) (f : FmtM)
  /-- PREF (R272). -/
  | pref (h : Hdr) (f : FmtM)
  /-- CPY (R280). -/
  | cpy (h : Hdr) (f : FmtT)
  /-- CPY_SCALE (R282). -/
  | cpyScale (h : Hdr) (f : FmtT)
  /-- COPY_INTAKE_DISPATCH (R279). -/
  | copyIntakeDispatch (core : Nat)
  /-- COPY_LINE_FILL (R281). -/
  | copyLineFill (core cmd : Nat)
  /-- CPY_COMPLETION (R283). -/
  | cpyCompletion (core cmd : Nat)
  /-- RING_BIND (R286). -/
  | ringBind (h : Hdr) (f : FmtT)
  /-- RING_GET (R287). -/
  | ringGet (h : Hdr) (f : FmtT)
  /-- RING_COMMIT (R288). -/
  | ringCommit (h : Hdr) (f : FmtT)
  /-- RING_EOS (R288). -/
  | ringEos (h : Hdr) (f : FmtT)
  /-- RING_FREE (R289). -/
  | ringFree (h : Hdr) (f : FmtT)
  /-- RING_STAT (R290). -/
  | ringStat (h : Hdr) (f : FmtT)
  /-- SPAWN (R292). -/
  | spawn (h : Hdr) (f : FmtT)
  /-- SPAWN_L (R293). -/
  | spawnL (h : Hdr) (f : FmtT)
  /-- DEP_ADD (R294). -/
  | depAdd (h : Hdr) (f : FmtT)
  /-- DEP_SIGNAL (R294). -/
  | depSignal (h : Hdr) (f : FmtT)
  /-- SUSP_SUSPEND (R295). -/
  | suspSuspend (h : Hdr) (f : FmtT)
  /-- SUSP_YIELD (R296). -/
  | suspYield (h : Hdr) (f : FmtT)
  /-- SUSP_FINISH (R296). -/
  | suspFinish (h : Hdr) (f : FmtT)
  /-- BAR_ARRIVE (R297). -/
  | barArrive (h : Hdr) (f : FmtT)
  /-- BAR_WAIT (R297). -/
  | barWait (h : Hdr) (f : FmtT)
  /-- BAR_BOTH (R297). -/
  | barBoth (h : Hdr) (f : FmtT)
  /-- GETC_COORD (R298). -/
  | getcCoord (h : Hdr) (f : FmtT)
  /-- GETC_SHAPE (R298). -/
  | getcShape (h : Hdr) (f : FmtT)
  /-- GETC_LAUNCH (R298). -/
  | getcLaunch (h : Hdr) (f : FmtT)
  /-- GETC_CORE (R298). -/
  | getcCore (h : Hdr) (f : FmtT)
  /-- RPUT (R367). -/
  | rput (h : Hdr) (f : FmtF)
  /-- RPUT_SIG (R368). -/
  | rputSig (h : Hdr) (f : FmtF)
  /-- RCOPY (R369). -/
  | rcopy (h : Hdr) (f : FmtF)
  /-- RCOPY_SIG (R369). -/
  | rcopySig (h : Hdr) (f : FmtF)
  /-- RSEM (R370). -/
  | rsem (h : Hdr) (f : FmtF)
  /-- RRED (R371). -/
  | rred (h : Hdr) (f : FmtF)
  /-- MCRED (R372). -/
  | mcred (h : Hdr) (f : FmtF)
  /-- QPOST (R378). -/
  | qpost (h : Hdr) (f : FmtF)
  /-- QPOST_ENTRY_FIRE (R381). -/
  | qpostEntryFire (block entry : Nat)
  /-- QPOST_TIMED_FIRE (R381). -/
  | qpostTimedFire (block entry : Nat)
  /-- MBX_POST (R375). -/
  | mbxPost (h : Hdr) (f : FmtT)
  /-- MBX_TAKE (R376). -/
  | mbxTake (h : Hdr) (f : FmtT)
  /-- MBX_STATUS (R376). -/
  | mbxStatus (h : Hdr) (f : FmtT)
  /-- MBX_POSTNB (R375). -/
  | mbxPostnb (h : Hdr) (f : FmtT)
  /-- RACK (R377). -/
  | rack (h : Hdr) (f : FmtT)
  /-- EGRESS_ACCEPT (R361). -/
  | egressAccept (block : Nat) (src : EgressSrc)
  /-- WCFG (R333). -/
  | wcfg (h : Hdr) (f : FmtE)
  /-- WCFG_EG (R333). -/
  | wcfgEg (h : Hdr) (f : FmtE)
  /-- PACK (R334). -/
  | pack (h : Hdr) (f : FmtE)
  /-- PACK_REV (R334). -/
  | packRev (h : Hdr) (f : FmtE)
  /-- PACK_LIMB (R334). -/
  | packLimb (h : Hdr) (f : FmtE)
  /-- WMUL_CONV (R335). -/
  | wmulConv (h : Hdr) (f : FmtE)
  /-- WMUL_CORR (R335). -/
  | wmulCorr (h : Hdr) (f : FmtE)
  /-- WMUL_LIMB (R335). -/
  | wmulLimb (h : Hdr) (f : FmtE)
  /-- WMUL_OUTER (R336). -/
  | wmulOuter (h : Hdr) (f : FmtE)
  /-- WMUL_OUTER_SP (R338). -/
  | wmulOuterSp (h : Hdr) (f : FmtE)
  /-- WMAC_CONV (R335). -/
  | wmacConv (h : Hdr) (f : FmtE)
  /-- WMAC_CORR (R335). -/
  | wmacCorr (h : Hdr) (f : FmtE)
  /-- WMAC_LIMB (R335). -/
  | wmacLimb (h : Hdr) (f : FmtE)
  /-- WMAC_OUTER (R336). -/
  | wmacOuter (h : Hdr) (f : FmtE)
  /-- WMAC_OUTER_SP (R338). -/
  | wmacOuterSp (h : Hdr) (f : FmtE)
  /-- STREAM_FETCH (R317). -/
  | streamFetch (core wm port : Nat)
  /-- EXTR_DIGM (R339). -/
  | extrDigm (h : Hdr) (f : FmtE)
  /-- EXTR_DIGS (R339). -/
  | extrDigs (h : Hdr) (f : FmtE)
  /-- EXTR_LIMB (R339). -/
  | extrLimb (h : Hdr) (f : FmtE)
  /-- EXTR_TILE (R340). -/
  | extrTile (h : Hdr) (f : FmtE)
  /-- EXTR_TILE_CLR (R340). -/
  | extrTileClr (h : Hdr) (f : FmtE)
  /-- WCLR (R343). -/
  | wclr (h : Hdr) (f : FmtE)
  /-- WMOV (R343). -/
  | wmov (h : Hdr) (f : FmtE)
  /-- SBIND_A (R350). -/
  | sbindA (h : Hdr) (f : FmtE)
  /-- SBIND_B (R350). -/
  | sbindB (h : Hdr) (f : FmtE)
  /-- SBIND_UNBIND (R350). -/
  | sbindUnbind (h : Hdr) (f : FmtE)
  /-- MCALL (R351). -/
  | mcall (h : Hdr) (f : FmtE)
  /-- ROUTINE_START (R351). -/
  | routineStart (core wm : Nat)
  /-- ROUTINE_COMPLETION (R351). -/
  | routineCompletion (core wm : Nat)
  /-- MPLD (R349). -/
  | mpld (h : Hdr) (f : FmtE)
  /-- MLDR (R348). -/
  | mldr (h : Hdr) (f : FmtE)
  /-- MLDR_ENTRIES (R348). -/
  | mldrEntries (h : Hdr) (f : FmtE)
  /-- FTLD (R345). -/
  | ftld (h : Hdr) (f : FmtE)
  /-- SCLD (R346). -/
  | scld (h : Hdr) (f : FmtE)
  /-- SCLD_RD (R346). -/
  | scldRd (h : Hdr) (f : FmtE)
  /-- METAQ_PUSH (R347). -/
  | metaqPush (h : Hdr) (f : FmtE)
  /-- METAQ_CLEAR (R347). -/
  | metaqClear (h : Hdr) (f : FmtE)
  /-- WSTAT (R344). -/
  | wstat (h : Hdr) (f : FmtE)
  /-- WSTAT_CLR (R344). -/
  | wstatClr (h : Hdr) (f : FmtE)
  /-- MLOOP (R355). -/
  | mloop (h : Hdr) (f : FmtE)
  /-- MJMP (R356). -/
  | mjmp (h : Hdr) (f : FmtE)
  /-- MRET (R356). -/
  | mret (h : Hdr) (f : FmtE)
  /-- APXB (R392). -/
  | apxb (h : Hdr) (f : FmtE)
  /-- APXE (R392). -/
  | apxe (h : Hdr) (f : FmtE)
  /-- APXC (R395). -/
  | apxc (h : Hdr) (f : FmtE)
  /-- APXS_RD (R397). -/
  | apxsRd (h : Hdr) (f : FmtE)
  /-- APXS_WR (R397). -/
  | apxsWr (h : Hdr) (f : FmtE)
  /-- APXS_INV (R397). -/
  | apxsInv (h : Hdr) (f : FmtE)
  /-- EQUINOX_BATCH_UPDATE (R389). -/
  | equinoxBatchUpdate (block rslot : Nat)
  /-- CSR_RD (R437). -/
  | csrRd (h : Hdr) (f : FmtC)
  /-- CSR_WR (R437). -/
  | csrWr (h : Hdr) (f : FmtC)
  /-- CSR_SET (R437). -/
  | csrSet (h : Hdr) (f : FmtC)
  /-- CSR_CLR (R437). -/
  | csrClr (h : Hdr) (f : FmtC)
  /-- RFT (R446). -/
  | rft (h : Hdr)
  /-- TLBI_ALL (R453). -/
  | tlbiAll (h : Hdr) (f : FmtRR)
  /-- TLBI_ADDR (R453). -/
  | tlbiAddr (h : Hdr) (f : FmtRR)
  /-- TLBI_CTX (R453). -/
  | tlbiCtx (h : Hdr) (f : FmtRR)
  /-- CTX_SAVE (R452). -/
  | ctxSave (h : Hdr) (f : FmtRR)
  /-- CTX_RESTORE (R452). -/
  | ctxRestore (h : Hdr) (f : FmtRR)
  /-- WFE (R454). -/
  | wfe (h : Hdr)
  /-- WFE_TIMEOUT (R454). -/
  | wfeTimeout (core slot : Nat)
  /-- HALT (R455). -/
  | halt (h : Hdr)
  /-- PAGE_WALK_COMPLETE (R439). -/
  | pageWalkComplete (core slot : Nat)
  /-- LAUNCH_INTAKE (R41). -/
  | launchIntake
  /-- LAUNCH_COMPLETION (R43). -/
  | launchCompletion (handle : Nat)
  /-- DISPATCH_DECISION (R461). -/
  | dispatchDecision (die : Nat)
  /-- READY_RECORD_REFILL (R459). -/
  | readyRecordRefill (die : Nat)
  /-- PRIORITY_AGING (R460). -/
  | priorityAging (die : Nat) (rec : Nat)
  /-- PREEMPT (R469). -/
  | preempt (die part : Nat) (rec : BitVec 64) (port : Nat := 0)
  /-- PREEMPT_WINDOW_EXPIRY (R471). -/
  | preemptWindowExpiry (core slot : Nat)
  /-- GANG_FRAME_WRITE (R472). -/
  | gangFrameWrite (die : Nat) (launch gang : Nat)
  /-- RESUME (R468). -/
  | resume (die part : Nat) (rec : BitVec 64) (port : Nat := 0)
  /-- LAUNCHKILL (R475). -/
  | launchkill (die part : Nat) (handle : BitVec 64) (port : Nat := 0)
  /-- REGISTER_WRITE (R6). -/
  | registerWrite (port : Nat) (reg : HostReg) (value : BitVec 64)
  /-- SPRING_FILL (R419). -/
  | springFill (stack rec : Nat)
  /-- FALL_DRAIN (R420). -/
  | fallDrain (stack rec : Nat)
  /-- FLIT_RECEIVE (R506). -/
  | flitReceive (link : Nat) (flit : Flit)
  /-- NAK (R506). -/
  | nakFlit (link : Nat) (seq : BitVec 10)
  /-- KEYDONE (R510). -/
  | keydone (link : Nat)
  /-- LANE_FAILURE (R508). -/
  | laneFailure (link lane : Nat) (rx : Bool := false)
  /-- RETRAIN_TIMEOUT (R508). -/
  | retrainTimeout (link : Nat)
  /-- PUT (R515). -/
  | putPkt (pkt : Packet)
  /-- RED (R515). -/
  | redPkt (pkt : Packet)
  /-- SEM (R515). -/
  | semPkt (pkt : Packet)
  /-- MCRED_CONTRIBUTION (R520). -/
  | mcredContribution (pkt : Packet)
  /-- MCRED_ROUND_TIMEOUT (R520). -/
  | mcredRoundTimeout (job group : Nat)
  /-- MCDATA (R520). -/
  | mcdata (pkt : Packet)
  /-- READ (R490). -/
  | readPkt (pkt : Packet)
  /-- ATOMIC (R490). -/
  | atomic (pkt : Packet)
  /-- RESP (R490). -/
  | respPkt (pkt : Packet)
  /-- ACK (R155). -/
  | ackPkt (pkt : Packet)
  /-- TIME_SYNC_EXCHANGE (R521). -/
  | timeSyncExchange (t1 t2 t3 t4 : Nat)
  /-- CPSEM (R527). -/
  | cpsem (port : Nat) (value : BitVec 64) (other : Option (BitVec 64))
  /-- HOST_LINK_DOWN (R527). -/
  | hostLinkDown (port : Nat)
  /-- EVTDOOR (R528). -/
  | evtdoor (port part : Nat)
  /-- QERR_CLEAR (R529). -/
  | qerrClear (port q : Nat)
  /-- FLTQPTR_HEAD_WRITE (R493). -/
  | fltqptrHeadWrite (part : Nat) (value : BitVec 32)
  /-- FLTQBASE_WRITE (R493). -/
  | fltqbaseWrite (part : Nat) (value : BitVec 64)
  /-- LAUNCH (R533). -/
  | launchReq (port q : Nat) (pkt : ReqPacket)
  /-- DEPSIG (R533). -/
  | depsig (port q : Nat) (pkt : ReqPacket)
  /-- FLAGADD (R533). -/
  | flagadd (port q : Nat) (pkt : ReqPacket)
  /-- PACKET_NOP (R533). -/
  | packetNop (port q : Nat) (pkt : ReqPacket)
  /-- ATS_INVALIDATION (R532). -/
  | atsInvalidation (port : Nat) (pasid : BitVec 20) (page : BitVec 64)
  /-- HOST_FLAG_ACCESS (R536). -/
  | hostFlagAccess (host part ofs : Nat) (kind : HostAccess)
  /-- HOST_EXTENT_ACCESS (R539). -/
  | hostExtentAccess (host ext line : Nat) (kind : HostAccess)
  /-- SNAPVIEW_PIN (R541). -/
  | snapviewPin (host ext : Nat)
  /-- SNAPVIEW_UNPIN (R541). -/
  | snapviewUnpin (host ext : Nat)
  /-- EXTENT_REVOKE (R543). -/
  | extentRevoke (port ext : Nat)
  /-- DRAIN_TIMEOUT (R543). -/
  | drainTimeout (ext : Nat)
  /-- RECALL_TIMEOUT (R544). -/
  | recallTimeout (ext line : Nat)
  /-- EXTENT_ZEROING (R543). -/
  | extentZeroing (ext : Nat)
  /-- ASSIGN (R547). -/
  | assign (port : Nat) (req : AssignReq)
  /-- GROW (R547). -/
  | grow (port part : Nat) (blocks : BitVec 128) (units : List Nat) (zero : Bool := true)
  /-- SHRINK (R549). -/
  | shrink (port part : Nat) (blocks : BitVec 128) (units : List Nat) (zero : Bool := true)
  /-- REMOVE (R547). -/
  | remove (port part : Nat) (zero : Bool := true)
  /-- DEBUGPOL (R556). -/
  | debugpol (port part : Nat) (policy : PolicyBlob) (zero : Bool := true)
  /-- IMAGE (R561). -/
  | imageReq (port : Nat) (image : FwImage) (zero : Bool := true)
  /-- FW_FENCE (R547). -/
  | fwFence (port : Nat) (unit : FenceUnit) (lift : Bool) (zero : Bool := true)
  /-- FW_STATUS (R547). -/
  | fwStatus (port : Nat) (zero : Bool := true)
  /-- LOCK_INTERFACE (R551). -/
  | lockInterface (part : Nat)
  /-- STOP_INTERFACE (R551). -/
  | stopInterface (part : Nat)
  /-- START_INTERFACE (R550). -/
  | startInterface (part : Nat)
  /-- GET_DEVICE_INTERFACE_STATE (R550). -/
  | getDeviceInterfaceState (part : Nat)
  /-- GET_DEVICE_INTERFACE_REPORT (R551). -/
  | getDeviceInterfaceReport (part : Nat)
  /-- GET_VERSION (R553). -/
  | getVersion (ses : Nat) (msg : BitVec 384)
  /-- GET_CAPABILITIES (R553). -/
  | getCapabilities (ses : Nat) (msg : BitVec 384)
  /-- NEGOTIATE_ALGORITHMS (R553). -/
  | negotiateAlgorithms (ses : Nat) (msg : BitVec 384)
  /-- GET_DIGESTS (R553). -/
  | getDigests (ses : Nat) (msg : BitVec 384)
  /-- GET_CERTIFICATE (R553). -/
  | getCertificate (ses : Nat) (msg : BitVec 384)
  /-- CHALLENGE (R553). -/
  | challenge (ses : Nat) (msg : BitVec 384)
  /-- GET_MEASUREMENTS (R554). -/
  | getMeasurements (ses index : Nat) (msg : BitVec 384)
  /-- KEY_EXCHANGE (R553). -/
  | keyExchange (ses : Nat) (msg : BitVec 384)
  /-- FINISH (R553). -/
  | finish (ses : Nat) (msg : BitVec 384)
  /-- KEY_UPDATE (R510). -/
  | keyUpdate (link : Nat) (tx : Bool) (key : BitVec 256) (salt : BitVec 32) (ses : Nat := 0)
  /-- HEARTBEAT (R553). -/
  | heartbeat (ses : Nat) (msg : BitVec 384)
  /-- END_SESSION (R553). -/
  | endSession (ses : Nat) (msg : BitVec 384)
  /-- RESET (R560). -/
  | resetDev
  /-- RECOVERY_IMAGE_LOAD (R560). -/
  | recoveryImageLoad (port : Nat) (image : FwImage)
  /-- GOVERNOR_LOWER (R562). -/
  | governorLower (power junction : Nat)
  /-- GOVERNOR_RAISE (R562). -/
  | governorRaise (power junction : Nat)
  /-- THERMAL_SHUTDOWN (R562). -/
  | thermalShutdown (junction : Nat)
  /-- PATROL_SCRUB (R557). -/
  | patrolScrub (unit : ErrUnit)
  /-- CORRECTED_ERROR (R558). -/
  | correctedError (unit : ErrUnit)
  /-- UNCORRECTED_ERROR (R558). -/
  | uncorrectedError (unit : ErrUnit)
  /-- RETRAINING_COMPLETE (R508). -/
  | retrainingComplete (link : Nat) (lanes : List Nat) (ports : List Nat := []) (rxLanes : List Nat := lanes)
  /-- RECALL_RESPONSE (R539). -/
  | recallResponse (ext line host : Nat) (dirty : Option (List (BitVec 8)))
  deriving DecidableEq, Repr

end Sys2Proof
end

