-- ==== Sys2Proof/WellFormed.lean ====
section
/-! DEFINITION. Well-formed instructions: for a program word, what ILLEGAL_ENCODING refuses (06 R165 to R173, R179, R191,
and each word's own rule); for a device event, that it names units that exist. -/

namespace Sys2Proof.WellFormed

/-! ## Specifiers (06 R165, R167, R171) -/

/-- A scalar source specifier with its zero fields zero (06 Table 6-2). -/
def src (x : BitVec 9) : Bool :=
  match (x.extractLsb' 7 2).toNat with
  | 1 => x.extractLsb' 4 3 == 0
  | 2 => x.extractLsb' 3 4 == 0
  | _ => true

/-- A vector source specifier (08 R234). -/
def vsrc (x : BitVec 9) : Bool :=
  match (x.extractLsb' 7 2).toNat with
  | 0 => x.extractLsb' 6 1 == 0
  | 1 => x.extractLsb' 3 4 == 0
  | 2 => x.extractLsb' 3 4 == 0
  | _ => true

/-- A scalar destination specifier (06 R167). -/
def dst (x : BitVec 8) : Bool := x.extractLsb' 7 1 == 0 || x.extractLsb' 4 3 == 0

/-- A vector destination specifier (06 R167, 08 R234). -/
def vdst (x : BitVec 8) : Bool :=
  if x.extractLsb' 7 1 == 0 then x.extractLsb' 6 1 == 0 else x.extractLsb' 3 4 == 0

/-- A destination that is a predicate or a lane mask (06 R167). -/
def pdst (x : BitVec 8) : Bool := x.extractLsb' 3 5 == 0

/-- A source that names a predicate or a lane mask (07 R212, 08 R234). -/
def psrc (x : BitVec 9) : Bool := x.extractLsb' 3 6 == 0

/-- The load-side X field of the M and G formats (06 R169). -/
def xdst (x : BitVec 9) : Bool := x.extractLsb' 8 1 == 0 && dst (x.extractLsb' 0 8)
def xvdst (x : BitVec 9) : Bool := x.extractLsb' 8 1 == 0 && vdst (x.extractLsb' 0 8)

/-- Engine register codes by file (06 Table 6-5). -/
def isW (x : BitVec 8) : Bool := x.extractLsb' 5 3 == 0 && (x.extractLsb' 0 5).toNat < 8
def isAcc (x : BitVec 8) : Bool := x.extractLsb' 5 3 == 1 && (x.extractLsb' 0 5).toNat < 4
def isTa (x : BitVec 8) : Bool := x.extractLsb' 5 3 == 2 && (x.extractLsb' 0 5).toNat < 4
def isMp (x : BitVec 8) : Bool := x.extractLsb' 5 3 == 3 && (x.extractLsb' 0 5).toNat < 8
def isRh (x : BitVec 8) : Bool := x.extractLsb' 5 3 == 4
def isSq (x : BitVec 8) : Bool := x.extractLsb' 5 3 == 5 && (x.extractLsb' 0 5).toNat < 4
def isS (x : BitVec 8) : Bool := x.extractLsb' 5 3 == 6

/-! ## Field codes -/

/-- The integer codes of TYPE (07 R201). -/
def tyInt (t : BitVec 4) : Bool := t.toNat < 4 || (8 <= t.toNat && t.toNat < 12)
/-- The float codes of TYPE (07 R201). -/
def tyFloat (t : BitVec 4) : Bool := 4 <= t.toNat && t.toNat < 8
/-- Every code but 1100 and the reserved ones. -/
def tyAny (t : BitVec 4) : Bool := t.toNat < 12
/-- The signed integer codes. -/
def tySigned (t : BitVec 4) : Bool := t == 0 || t == 1 || t == 8 || t == 10
/-- The rounding field of FCVT and VCVT (07 R217). -/
def rnd (r : BitVec 3) : Bool := r == 0 || 4 <= r.toNat
/-- The element width of a TYPE code in bits (06 Table 6-6). -/
def tyWidth (t : BitVec 4) : Nat :=
  match t.toNat with
  | 0 => 32 | 1 => 64 | 2 => 32 | 3 => 64 | 4 => 32 | 5 => 64 | 6 => 16 | 7 => 16
  | 8 => 16 | 9 => 16 | 10 => 8 | 11 => 8 | _ => 0
/-- SCOPE beside an ORD field (06 R169, R170). -/
def ordScope (ord scope : BitVec 3) : Bool := if ord == 0 then scope == 0 else scope.toNat < 6
/-- SCOPE beside ACQ and REL (06 R170). -/
def flagScope (acq rel : BitVec 1) (scope : BitVec 3) : Bool :=
  if acq == 0 && rel == 0 then scope == 0 else scope.toNat < 6

/-- No tag is allocated (06 R179). -/
def noTag (h : Hdr) : Bool := h.ta == 0
/-- A variable-latency word with a register result has a tag (06 R179). -/
def hasTag (h : Hdr) : Bool := h.ta != 0

/-! ## Shapes of S words (07 R201, R202) -/

def rrS (f : FmtRR) : Bool := f.cmask == 0
def intRR (f : FmtRR) : Bool := src f.a && src f.b && f.c == 0 && f.cmask == 0 && tyInt f.ty && f.aux == 0
def intRRI : RRI → Bool
  | .rr f => dst f.dst && intRR f
  | .ri f => dst f.dst && src f.a && tyInt f.ty && f.modLow == 0
def cmpRRI : RRI → Bool
  | .rr f => pdst f.dst && intRR f
  | .ri f => pdst f.dst && src f.a && tyInt f.ty && f.modLow == 0
def leaRRI : RRI → Bool
  | .rr f => dst f.dst && src f.a && src f.b && f.c == 0 && f.cmask == 0 && f.ty == 1 && f.aux.extractLsb' 2 7 == 0
  | .ri f => dst f.dst && src f.a && f.ty == 1 && f.modLow.extractLsb' 2 1 == 0
def bits1 (f : FmtRR) : Bool :=
  dst f.dst && src f.a && f.b == 0 && f.c == 0 && f.cmask == 0 && tyInt f.ty && f.aux == 0
def plog (f : FmtRR) : Bool :=
  pdst f.dst && psrc f.a && psrc f.b && f.c == 0 && f.cmask == 0 && f.ty == 0 && f.aux.extractLsb' 2 7 == 0
def float1 (f : FmtRR) : Bool :=
  dst f.dst && src f.a && f.b == 0 && f.c == 0 && f.cmask == 0 && tyFloat f.ty && f.aux == 0
def float2 (f : FmtRR) : Bool :=
  dst f.dst && src f.a && src f.b && f.c == 0 && f.cmask == 0 && tyFloat f.ty && f.aux == 0
def float3 (f : FmtRR) : Bool :=
  dst f.dst && src f.a && src f.b && src f.c && f.cmask == 0 && tyFloat f.ty && f.aux == 0
def jump (f : FmtRR) : Bool := src f.a && f.b == 0 && f.c == 0 && f.cmask == 0 && f.ty == 0 && f.aux == 0

/-! ## Shapes of V words (08 Table 8-1) -/

def vbase (f : FmtRR) : Bool := f.cmask != 0
def vec1 (f : FmtRR) : Bool := vbase f && vdst f.dst && vsrc f.a && f.b == 0 && f.c == 0
def vec2 (f : FmtRR) : Bool := vbase f && vdst f.dst && vsrc f.a && vsrc f.b && f.c == 0
def vec3 (f : FmtRR) : Bool := vbase f && vdst f.dst && vsrc f.a && vsrc f.b && vsrc f.c
def vint2 (f : FmtRR) : Bool := vec2 f && tyInt f.ty && f.aux == 0
def vfloat2 (f : FmtRR) : Bool := vec2 f && tyFloat f.ty && f.aux == 0
def vfloat3 (f : FmtRR) : Bool := vec3 f && tyFloat f.ty && f.aux == 0
def vcmpShape (f : FmtRR) : Bool :=
  vbase f && pdst f.dst && vsrc f.a && vsrc f.b && f.c == 0 && f.aux == 0
def vsf (f : FmtRR) : Bool := vec1 f && f.ty == 4 && f.aux == 0
/-- The ratio of the wider element width to the narrower one (08 R245). -/
def cvtRatio (f : FmtRR) : Nat :=
  let ws := tyWidth (f.aux.extractLsb' 0 4)
  let wd := tyWidth f.ty
  if ws ≤ wd then wd / ws else ws / wd
def vcvt (f : FmtRR) : Bool :=
  vec1 f && tyAny f.ty && tyAny (f.aux.extractLsb' 0 4) && rnd (f.aux.extractLsb' 4 3) && cvtRatio f < 8
    && (f.aux.extractLsb' 7 2).toNat < cvtRatio f
/-- CMASK holds whole cluster pairs only (08 R246). -/
def pairs (m : BitVec 8) : Bool := (m &&& 0x55) == ((m >>> 1) &&& 0x55)
def cvtBsFmt (f : FmtRR) : Bool := 4 <= (f.aux.extractLsb' 0 5).toNat && (f.aux.extractLsb' 0 5).toNat <= 9
def vredTy (f : FmtRR) : Bool := vec1 f && f.ty.toNat < 6
def vplog (f : FmtRR) : Bool :=
  vbase f && pdst f.dst && psrc f.a && psrc f.b && f.c == 0 && f.ty == 0 && f.aux.extractLsb' 2 7 == 0
/-- CMASK names exactly one cluster (08 R254). -/
def oneCluster (m : BitVec 8) : Bool := m != 0 && (m &&& (m - 1)) == 0

/-! ## Shapes of M, G, AT, T and F words (09 Tables 9-1, 9-2; 12 Tables 12-3, 12-4) -/

def ldOrd (o : BitVec 3) : Bool := o == 0 || o == 1
def stOrd (o : BitVec 3) : Bool := o == 0 || o == 2
def memM (f : FmtM) : Bool :=
  src f.base && f.size.toNat < 4 && ordScope f.ord f.scope && f.cl == 0 && f.hint != 3
def memV (f : FmtM) : Bool :=
  src f.base && (f.size == 4 || (f.size == 5 && f.cl == 0)) && ordScope f.ord f.scope && f.hint != 3
def memG (f : FmtG) : Bool := src f.base && vsrc f.idx && f.size.toNat < 3 && ordScope f.ord f.scope
def plainM (f : FmtM) : Bool := src f.base && f.size == 0 && f.ord == 0 && f.scope == 0 && f.cl == 0
def atom (f : FmtAT) : Bool :=
  dst f.dst && src f.a && src f.b && (f.size == 2 || f.size == 3) && f.ord.toNat < 4 && ordScope f.ord f.scope
def noFlags (f : FmtT) : Bool := f.acq == 0 && f.rel == 0 && f.scope == 0
def tZero (f : FmtT) : Bool := f.dst == 0 && f.a == 0 && f.b == 0 && f.c == 0 && noFlags f
def waitf (f : FmtT) : Bool :=
  dst f.dst && src f.a && src f.b && f.imm.extractLsb' 2 10 == 0 && f.imm.extractLsb' 0 2 != 3 && f.rel == 0
    && flagScope f.acq f.rel f.scope
def ringImm (f : FmtT) : Bool := f.imm.extractLsb' 5 7 == 0
def ringDst (f : FmtT) : Bool := dst f.dst && f.a == 0 && f.b == 0 && f.c == 0 && noFlags f && ringImm f
def dep (f : FmtT) : Bool := f.dst == 0 && src f.a && f.c == 0 && f.imm == 0 && f.rel == 1 && f.acq == 0 && f.scope.toNat < 6
def bar (f : FmtT) : Bool := tZero f && f.imm.extractLsb' 4 8 == 0
def getc (f : FmtT) : Bool := dst f.dst && f.a == 0 && f.b == 0 && f.c == 0 && noFlags f && f.imm.extractLsb' 2 10 == 0
def optFill (f : FmtF) : Bool := f.opt.extractLsb' 2 6 == 0 && (f.opt.extractLsb' 1 1 == 0 || f.opt.extractLsb' 0 1 == 1)
def fAcq (f : FmtF) : Bool := f.rel == 0 && (if f.acq == 0 then f.scope == 0 else f.scope.toNat < 6)
def fNoAcq (f : FmtF) : Bool := f.rel == 0 && f.acq == 0 && f.scope == 0
def rput (f : FmtF) : Bool := src f.a && src f.b && src f.c && optFill f && f.ty == 0 && fAcq f
def redTy (t : BitVec 4) : Bool := t.toNat < 5 || t == 7
def rred (f : FmtF) : Bool :=
  src f.a && src f.b && src f.c && (f.opt &&& 0xFB) == 0 && (if f.opt.extractLsb' 2 1 == 1 then src f.d else f.d == 0)
    && redTy f.ty && fAcq f

/-! ## Shapes of E words (11 Table 11-1) -/

def eNoFlags (f : FmtE) : Bool := f.scope == 0 && f.acq == 0 && f.rel == 0
/-- No TYPE, AUX or flag. -/
def ePlain (f : FmtE) : Bool := eNoFlags f && f.ty == 0 && f.aux == 0
/-- The format-table operand of an outer step or a tile extraction (04 R118, 11 R336). -/
def ftOp (f : FmtE) : Bool :=
  (f.ty == 12 && (f.aux.extractLsb' 6 3).toNat < 6) || (f.ty == 0 && f.aux.extractLsb' 6 3 == 0)
def packTy (t : BitVec 4) : Bool := 8 <= t.toNat && t.toNat < 12
def packAux (f : FmtE) : Bool := f.aux.toNat < 96
def pack (f : FmtE) (m : BitVec 3) : Bool :=
  f.mode == m && isW f.ed && f.ea == 0 && f.eb == 0 && src f.sa && packAux f && f.wu == 0 && eNoFlags f
def digits (f : FmtE) (m : BitVec 3) : Bool :=
  f.mode == m && isAcc f.ed && isW f.ea && isW f.eb && f.sa == 0 && ePlain f
def outer (f : FmtE) (m : BitVec 3) : Bool :=
  f.mode == m && isTa f.ed && f.ea == 0 && (if m == 4 then isSq f.eb else f.eb == 0) && src f.sa && ftOp f && eNoFlags f
def extrMem (f : FmtE) (m : BitVec 3) : Bool := f.mode == m && f.ed == 0 && isS f.eb && src f.sa && eNoFlags f
def clearable (x : BitVec 8) : Bool := isW x || isAcc x || isTa x
def apx (f : FmtE) : Bool :=
  f.ed == 0 && f.ea == 0 && f.eb == 0 && f.sa == 0 && f.mode == 0 && f.wu == 0 && f.ty == 0 && eNoFlags f
def region (f : FmtE) : Bool := f.aux.extractLsb' 4 5 == 0
def apxsReg (f : FmtE) : Bool := f.aux.extractLsb' 7 2 == 0 && (f.aux.extractLsb' 4 3).toNat < 5

/-- The control registers of 17 Table 17-1. -/
def csrNumber (n : BitVec 12) : Bool :=
  n.toNat < 8 || (0x40 <= n.toNat && n.toNat < 0x49) || n == 0x50 || (0x100 <= n.toNat && n.toNat < 0x105) || n == 0x110

def sysRR (f : FmtRR) : Bool := dst f.dst && f.c == 0 && f.cmask == 0 && f.ty == 0 && f.aux == 0

/-! ## Events -/

def core (c : Nat) : Bool := c < 1024
def slot (k : Nat) : Bool := k < 4
def block (b : Nat) : Bool := b < 128
def die (d : Nat) : Bool := d < 8
def part (p : Nat) : Bool := p < 8
def port (p : Nat) : Bool := p < 2
/-- A function of a port: the physical function, 0 + port, or its virtual function v, 2 (v + 1) + port (21 R524). -/
def fn (f : Nat) : Bool := f < 130
/-- An image's security version is a field of 32 bits (22 R561). -/
def image (i : FwImage) : Bool := i.secVersion < 2 ^ 32
def ext (x : Nat) : Bool := x < 1024

/-- A register that a write may name (16 R417; 18 Table 18-1; 21 Tables 21-1, 21-3, 21-6). -/
def hostReg : HostReg → Bool
  | .march d p _ => die d && part p
  | .qcfg p q => port p && q < 8
  | .pasidTab p q i => port p && q < 8 && i < 16
  | .hostMap h => h < 32
  | .jobBase | .timeCtl => true
  | .extentWord x w => ext x && w < 4
  | .msixEntry p v w => port p && v < 2048 && w < 2
  | .record p k r w => part p && k < 16 && r < 256 && w < 8

/-- A unit that FENCE may name (22 Table 22-1). -/
def fenceUnit : FenceUnit → Bool
  | .core c => core c
  | .block b => block b
  | .die d => die d
  | .link _ => true
  | .unit u => ext u

/-- Where an error may fall (22 Table 22-4): lines of 128 bytes of a scratchpad, of 64 bytes of HBM. -/
def errUnit : ErrUnit → Bool
  | .scratchLine c l => core c && l < 65536
  | .hbmLine l => l < 17179869184
  | .slot c k => core c && slot k
  | .coreShared c => core c
  | .blockUnit b => block b
  | .dieSram d => die d
  | .link _ => true
  | .memUnit u => ext u

end Sys2Proof.WellFormed

namespace Sys2Proof
open WellFormed

/-- The encoding rules of each word, and the ranges of each event. -/
def wellFormed : Instr → Bool
  | .nop h => noTag h
  | .add h f => noTag h && intRRI f
  | .sub h f => noTag h && intRRI f
  | .mul h f => noTag h && intRRI f
  | .mulHi h f => noTag h && intRRI f
  | .divI h f => noTag h && intRRI f
  | .divRem h f => noTag h && intRRI f
  | .andI h f => noTag h && intRRI f
  | .orI h f => noTag h && intRRI f
  | .xorI h f => noTag h && intRRI f
  | .andn h f => noTag h && intRRI f
  | .shl h f => noTag h && intRRI f
  | .shr h f => noTag h && intRRI f
  | .sra h f => noTag h && intRRI f
  | .rot h f => noTag h && intRRI f
  | .minI h f => noTag h && intRRI f
  | .maxI h f => noTag h && intRRI f
  | .cmp h _ f => noTag h && cmpRRI f
  | .sel h f => noTag h && dst f.dst && src f.a && src f.b && f.c == 0 && f.cmask == 0 && f.ty == 1 && f.aux.extractLsb' 3 6 == 0
  | .movi h f => noTag h && dst f.dst && f.a == 0 && tyInt f.ty && f.modLow != 7
  | .movhi h f => noTag h && dst f.dst && src f.a && (f.ty == 1 || f.ty == 3) && f.modLow == 0
  | .lea h f => noTag h && leaRRI f
  | .bitsClz h f => noTag h && bits1 f
  | .bitsCtz h f => noTag h && bits1 f
  | .bitsPopc h f => noTag h && bits1 f
  | .bitsBrev h f => noTag h && bits1 f
  | .bitsBfx h f => noTag h && dst f.dst && src f.a && f.b == 0 && src f.c && f.cmask == 0 && tyInt f.ty && f.aux == 0
  | .bitsBfi h f => noTag h && dst f.dst && src f.a && src f.b && src f.c && f.cmask == 0 && tyInt f.ty && f.aux == 0
  | .bitsAbs h f => noTag h && bits1 f && tySigned f.ty
  | .bitsNeg h f => noTag h && bits1 f && tySigned f.ty
  | .plogAnd h f => noTag h && plog f
  | .plogOr h f => noTag h && plog f
  | .plogXor h f => noTag h && plog f
  | .plogAndn h f => noTag h && plog f
  | .fadd h f => noTag h && float2 f
  | .faddSub h f => noTag h && float2 f
  | .fmul h f => noTag h && float2 f
  | .fma h f => noTag h && float3 f
  | .fmaFms h f => noTag h && float3 f
  | .fmaFnma h f => noTag h && float3 f
  | .fdiv h f => noTag h && float2 f
  | .fdivSqrt h f => noTag h && float1 f
  | .fmin h f => noTag h && float2 f
  | .fmax h f => noTag h && float2 f
  | .fcmp h _ f => noTag h && pdst f.dst && src f.a && src f.b && f.c == 0 && f.cmask == 0 && tyFloat f.ty && f.aux == 0
  | .fcvt h f => noTag h && dst f.dst && src f.a && f.b == 0 && f.c == 0 && f.cmask == 0 && tyAny f.ty && tyAny (f.aux.extractLsb' 0 4) && rnd (f.aux.extractLsb' 4 3) && f.aux.extractLsb' 7 2 == 0
  | .br h _ => noTag h
  | .jmp h f => noTag h && f.dst == 0 && jump f
  | .call h f => noTag h && dst f.dst && jump f
  | .ret h f => noTag h && f.dst == 0 && jump f
  | .loopI h f => noTag h && src f.count && f.body != 0
  | .brkl h => noTag h
  | .rpt h _ => noTag h && h.tc == 0 && h.pr == 0 && !h.stop
  | .trap h f => noTag h && f.dst == 0 && src f.a && f.b == 0 && f.c == 0 && f.cmask == 0 && f.ty == 0 && f.aux.extractLsb' 6 3 == 0
  | .resultLanding core slot => WellFormed.core core && WellFormed.slot slot
  | .vadd h f => noTag h && vec2 f && tyInt f.ty && f.aux.extractLsb' 1 8 == 0
  | .vsub h f => noTag h && vec2 f && tyInt f.ty && f.aux.extractLsb' 1 8 == 0
  | .vmul h f => noTag h && vint2 f
  | .vmulHi h f => noTag h && vint2 f
  | .vmad h f => noTag h && vec3 f && tyInt f.ty && f.aux.extractLsb' 1 8 == 0
  | .vlogAnd h f => noTag h && vint2 f
  | .vlogOr h f => noTag h && vint2 f
  | .vlogXor h f => noTag h && vint2 f
  | .vlogAndn h f => noTag h && vint2 f
  | .vshShl h f => noTag h && vint2 f
  | .vshShr h f => noTag h && vint2 f
  | .vshSra h f => noTag h && vint2 f
  | .vshRot h f => noTag h && vint2 f
  | .vmin h f => noTag h && vint2 f
  | .vmax h f => noTag h && vint2 f
  | .vcmp h _ f => noTag h && vcmpShape f && f.ty.toNat < 4
  | .vsel h f => noTag h && vec2 f && f.ty == 0 && f.aux.extractLsb' 3 6 == 0
  | .vfadd h f => noTag h && vfloat2 f
  | .vfaddSub h f => noTag h && vfloat2 f
  | .vfmul h f => noTag h && vfloat2 f
  | .vfma h f => noTag h && vfloat3 f
  | .vfmaFms h f => noTag h && vfloat3 f
  | .vfmaFnma h f => noTag h && vfloat3 f
  | .vfmin h f => noTag h && vfloat2 f
  | .vfmax h f => noTag h && vfloat2 f
  | .vfcmp h _ f => noTag h && vcmpShape f && (f.ty == 4 || f.ty == 5)
  | .vsfRcp h f => noTag h && vsf f
  | .vsfRsqrt h f => noTag h && vsf f
  | .vsfExp2 h f => noTag h && vsf f
  | .vsfLog2 h f => noTag h && vsf f
  | .vsfSin h f => noTag h && vsf f
  | .vsfCos h f => noTag h && vsf f
  | .vsfTanh h f => noTag h && vsf f
  | .vsfSigm h f => noTag h && vsf f
  | .vcvt h f => noTag h && vcvt f
  | .vcvtBsPack h f => noTag h && vbase f && vdst f.dst && vsrc f.a && f.c == 0 && f.ty == 4 && cvtBsFmt f && pairs f.cmask && f.aux.extractLsb' 5 1 == 0 && f.aux.extractLsb' 7 2 == 0 && (if f.aux.extractLsb' 6 1 == 1 then f.b == 0 else vsrc f.b)
  | .vcvtBsUnpack h f => noTag h && vec1 f && f.ty == 4 && cvtBsFmt f && pairs f.cmask && f.aux.extractLsb' 5 4 == 1
  | .vshuf h f => noTag h && vec2 f && f.ty == 0 && f.aux == 0
  | .vredAdd h f => noTag h && vredTy f && f.aux.extractLsb' 1 8 == 0 && (f.aux == 0 || f.ty.toNat < 4)
  | .vredMin h f => noTag h && vredTy f && f.aux == 0
  | .vredMax h f => noTag h && vredTy f && f.aux == 0
  | .vxcp h f => noTag h && vec1 f && f.ty == 0 && f.a.extractLsb' 7 2 != 3 && f.aux.extractLsb' 4 5 == 0
  | .vsplat h f => noTag h && vbase f && vdst f.dst && src f.a && f.b == 0 && f.c == 0 && tyAny f.ty && f.aux == 0
  | .vext h f => noTag h && oneCluster f.cmask && dst f.dst && vsrc f.a && src f.b && f.c == 0 && tyAny f.ty && f.aux == 0
  | .viota h f => noTag h && vbase f && vdst f.dst && src f.a && f.b == 0 && f.c == 0 && tyInt f.ty && f.aux.extractLsb' 1 8 == 0
  | .vrng h f => noTag h && vbase f && vdst f.dst && vsrc f.a && src f.b && f.c == 0 && f.ty == 0 && f.aux == 0
  | .vplogAnd h f => noTag h && vplog f
  | .vplogOr h f => noTag h && vplog f
  | .vplogXor h f => noTag h && vplog f
  | .vplogAndn h f => noTag h && vplog f
  | .vpcnt h f => noTag h && vbase f && vdst f.dst && psrc f.a && f.b == 0 && f.c == 0 && f.ty == 0 && f.aux.extractLsb' 2 7 == 0
  | .ld h f => hasTag h && xdst f.x && memM f && ldOrd f.ord
  | .loadReturn core slot tag => WellFormed.core core && WellFormed.slot slot && decide (tag < 8)
  | .st h f => noTag h && src f.x && memM f && stOrd f.ord
  | .ldv h f => hasTag h && xvdst f.x && memV f && ldOrd f.ord
  | .stv h f => noTag h && vsrc f.x && memV f && stOrd f.ord
  | .vgath h f => hasTag h && xvdst f.x && memG f && ldOrd f.ord
  | .vscat h f => noTag h && vsrc f.x && memG f && stOrd f.ord
  | .atomAdd h f => hasTag h && atom f && f.c == 0
  | .atomAnd h f => hasTag h && atom f && f.c == 0
  | .atomOr h f => hasTag h && atom f && f.c == 0
  | .atomXor h f => hasTag h && atom f && f.c == 0
  | .atomMin h f => hasTag h && atom f && f.c == 0
  | .atomMax h f => hasTag h && atom f && f.c == 0
  | .atomSwap h f => hasTag h && atom f && f.c == 0
  | .atomCas h f => hasTag h && atom f && src f.c
  | .atomFadd h f => hasTag h && atom f && f.c == 0 && f.size == 2
  | .atomBfadd h f => hasTag h && atom f && f.c == 0 && f.size == 2
  | .fence h f => hasTag h && xdst f.x && f.base == 0 && f.ofs == 0 && f.size == 0 && f.ord.toNat < 4 && f.scope.toNat < 6 && f.cl == 0 && f.hint == 0
  | .flagI h f => noTag h && f.dst == 0 && src f.a && src f.b && f.c == 0 && f.size == 3 && stOrd f.ord && ordScope f.ord f.scope
  | .waitf h f => hasTag h && waitf f && f.c == 0
  | .waitfT h f => hasTag h && waitf f && src f.c
  | .waitTimeout core slot => WellFormed.core core && WellFormed.slot slot
  | .monitorScan die => WellFormed.die die
  | .cflushWb h f => noTag h && src f.x && plainM f && f.hint == 0
  | .cflushInv h f => noTag h && src f.x && plainM f && f.hint == 0
  | .cflushWbinv h f => noTag h && src f.x && plainM f && f.hint == 0
  | .pref h f => noTag h && f.x == 0 && plainM f && f.hint != 3
  | .cpy h f => hasTag h && dst f.dst && src f.a && src f.b && src f.c && flagScope f.acq f.rel f.scope
  | .cpyScale h f => hasTag h && dst f.dst && src f.a && src f.b && f.c == 0 && f.imm == 0 && flagScope f.acq f.rel f.scope
  | .copyIntakeDispatch core => WellFormed.core core
  | .copyLineFill core _ => WellFormed.core core
  | .cpyCompletion core _ => WellFormed.core core
  | .ringBind h f => noTag h && f.dst == 0 && src f.a && src f.b && src f.c && noFlags f && ringImm f
  | .ringGet h f => hasTag h && ringDst f
  | .ringCommit h f => noTag h && tZero f && ringImm f
  | .ringEos h f => noTag h && tZero f && ringImm f
  | .ringFree h f => noTag h && tZero f && ringImm f
  | .ringStat h f => hasTag h && ringDst f
  | .spawn h f => noTag h && f.dst == 0 && src f.a && f.b == 0 && f.c == 0 && f.imm == 0 && noFlags f
  | .spawnL h f => noTag h && f.dst == 0 && src f.a && f.b == 0 && f.c == 0 && f.imm == 0 && noFlags f
  | .depAdd h f => noTag h && dep f && src f.b
  | .depSignal h f => noTag h && dep f && f.b == 0
  | .suspSuspend h f => noTag h && f.dst == 0 && src f.a && f.b == 0 && noFlags f && f.imm.extractLsb' 1 11 == 0 && (if f.imm.extractLsb' 0 1 == 1 then src f.c else f.c == 0)
  | .suspYield h f => noTag h && tZero f && f.imm == 0
  | .suspFinish h f => noTag h && tZero f && f.imm == 0
  | .barArrive h f => noTag h && bar f
  | .barWait h f => noTag h && bar f
  | .barBoth h f => noTag h && bar f
  | .getcCoord h f => hasTag h && getc f && f.imm.extractLsb' 0 2 == 0
  | .getcShape h f => hasTag h && getc f && f.imm.extractLsb' 0 2 == 1
  | .getcLaunch h f => hasTag h && getc f && f.imm.extractLsb' 0 2 == 2
  | .getcCore h f => hasTag h && getc f && f.imm.extractLsb' 0 2 == 3
  | .rput _ f => rput f && f.d == 0
  | .rputSig _ f => rput f && src f.d
  | .rcopy _ f => rput f && f.d == 0
  | .rcopySig _ f => rput f && src f.d
  | .rsem _ f => src f.a && src f.b && f.c == 0 && f.d == 0 && f.opt == 0 && f.ty == 0 && fNoAcq f
  | .rred _ f => rred f
  | .mcred _ f => rred f
  | .qpost h f => noTag h && src f.a && f.b == 0 && f.c == 0 && f.d == 0 && f.opt == 0 && f.ty == 0 && fNoAcq f
  | .qpostEntryFire block _ => WellFormed.block block
  | .qpostTimedFire block _ => WellFormed.block block
  | .mbxPost h f => noTag h && f.dst == 0 && src f.a && f.b == 0 && f.c == 0 && f.imm == 0 && noFlags f
  | .mbxTake h f => hasTag h && dst f.dst && f.a == 0 && f.b == 0 && f.c == 0 && f.imm == 0 && noFlags f
  | .mbxStatus h f => hasTag h && dst f.dst && f.a == 0 && f.b == 0 && f.c == 0 && f.imm == 0 && noFlags f
  | .mbxPostnb h f => hasTag h && dst f.dst && src f.a && f.b == 0 && f.c == 0 && f.imm == 0 && noFlags f
  | .rack h f => hasTag h && dst f.dst && f.a == 0 && f.b == 0 && f.c == 0 && f.imm.extractLsb' 1 11 == 0 && noFlags f
  | .egressAccept block _ => WellFormed.block block
  | .wcfg h f => noTag h && f.mode == 0 && f.ed == 0 && f.ea == 0 && f.eb == 0 && src f.sa && ePlain f
  | .wcfgEg h f => noTag h && f.mode == 1 && f.ed == 0 && f.ea == 0 && f.eb == 0 && f.sa == 0 && f.ty == 0 && eNoFlags f
  | .pack h f => noTag h && pack f 0 && packTy f.ty
  | .packRev h f => noTag h && pack f 1 && packTy f.ty
  | .packLimb h f => noTag h && pack f 2 && f.ty == 0
  | .wmulConv h f => noTag h && digits f 0
  | .wmulCorr h f => noTag h && digits f 1
  | .wmulLimb h f => noTag h && digits f 2
  | .wmulOuter h f => noTag h && outer f 3
  | .wmulOuterSp h f => noTag h && outer f 4
  | .wmacConv h f => noTag h && digits f 0
  | .wmacCorr h f => noTag h && digits f 1
  | .wmacLimb h f => noTag h && digits f 2
  | .wmacOuter h f => noTag h && outer f 3
  | .wmacOuterSp h f => noTag h && outer f 4
  | .streamFetch core wm port => WellFormed.core core && decide (wm < 4) && decide (port < 2)
  | .extrDigm _ f => extrMem f 0 && isAcc f.ea && tyInt f.ty && f.aux == 0
  | .extrDigs h f => hasTag h && f.mode == 1 && isS f.ed && isAcc f.ea && f.eb == 0 && f.sa == 0 && f.ty == 0 && f.aux.toNat < 192 && eNoFlags f
  | .extrLimb _ f => extrMem f 2 && isAcc f.ea && f.ty == 0 && f.aux == 0
  | .extrTile _ f => extrMem f 3 && isTa f.ea && ftOp f
  | .extrTileClr _ f => extrMem f 4 && isTa f.ea && ftOp f
  | .wclr h f => noTag h && f.mode == 0 && clearable f.ed && f.ea == 0 && f.eb == 0 && f.sa == 0 && f.wu == 0 && ePlain f
  | .wmov h f => noTag h && f.mode == 0 && clearable f.ed && clearable f.ea && f.ed.extractLsb' 5 3 == f.ea.extractLsb' 5 3 && f.eb == 0 && f.sa == 0 && ePlain f
  | .sbindA h f => noTag h && f.mode == 0 && f.ed == 0 && isRh f.ea && f.eb == 0 && f.sa == 0 && ePlain f
  | .sbindB h f => noTag h && f.mode == 1 && f.ed == 0 && isRh f.ea && f.eb == 0 && f.sa == 0 && ePlain f
  | .sbindUnbind h f => noTag h && (f.mode == 2 || f.mode == 3) && f.ed == 0 && f.ea == 0 && f.eb == 0 && f.sa == 0 && ePlain f
  | .mcall h f => hasTag h && f.mode == 0 && isS f.ed && f.ea == 0 && f.eb == 0 && f.sa == 0 && f.ty == 0 && f.aux.toNat < 256 && flagScope f.acq f.rel f.scope
  | .routineStart core wm => WellFormed.core core && decide (wm < 4)
  | .routineCompletion core wm => WellFormed.core core && decide (wm < 4)
  | .mpld h f => noTag h && f.mode == 0 && isMp f.ed && f.ea == 0 && f.eb == 0 && src f.sa && f.wu == 0 && ePlain f
  | .mldr _ f => f.mode == 0 && f.ed == 0 && isS f.ea && f.eb == 0 && src f.sa && f.wu == 0 && ePlain f
  | .mldrEntries _ f => f.mode == 1 && f.ed == 0 && f.ea == 0 && f.eb == 0 && src f.sa && f.wu == 0 && ePlain f
  | .ftld h f => noTag h && f.mode == 0 && f.ed == 0 && f.ea == 0 && f.eb == 0 && src f.sa && f.wu == 0 && f.ty == 0 && f.aux.toNat < 64 && eNoFlags f
  | .scld h f => noTag h && f.mode == 0 && f.ed == 0 && isS f.ea && f.eb == 0 && src f.sa && ePlain f
  | .scldRd h f => hasTag h && f.mode == 1 && isS f.ed && isS f.ea && f.eb == 0 && f.sa == 0 && ePlain f
  | .metaqPush h f => hasTag h && f.mode == 0 && isS f.ed && isSq f.ea && f.eb == 0 && src f.sa && f.wu == 0 && f.ty == 0 && f.aux.toNat < 16 && eNoFlags f
  | .metaqClear h f => noTag h && f.mode == 0 && f.ed == 0 && isSq f.ea && f.eb == 0 && f.sa == 0 && f.wu == 0 && ePlain f
  | .wstat h f => hasTag h && f.mode == 0 && isS f.ed && f.ea == 0 && f.eb == 0 && f.sa == 0 && ePlain f
  | .wstatClr h f => noTag h && f.mode == 0 && f.ed == 0 && f.ea == 0 && f.eb == 0 && src f.sa && ePlain f
  | .mloop h f => noTag h && f.mode == 0 && f.ed == 0 && f.ea == 0 && f.eb == 0 && src f.sa && f.wu == 0 && f.ty == 0 && f.aux != 0 && eNoFlags f
  | .mjmp h f => noTag h && f.mode.toNat < 4 && f.ed == 0 && f.ea == 0 && f.eb == 0 && f.sa == 0 && f.wu == 0 && f.ty == 0 && eNoFlags f
  | .mret h f => noTag h && f.mode == 0 && f.ed == 0 && f.ea == 0 && f.eb == 0 && f.sa == 0 && f.wu == 0 && ePlain f
  | .apxb h f => noTag h && apx f && region f
  | .apxe h f => noTag h && apx f && region f
  | .apxc h f => noTag h && apx f && f.aux == 0
  | .apxsRd h f => hasTag h && isS f.ed && f.ea == 0 && f.eb == 0 && f.sa == 0 && f.mode == 0 && f.wu == 0 && f.ty == 0 && eNoFlags f && apxsReg f
  | .apxsWr h f => noTag h && f.ed == 0 && f.ea == 0 && f.eb == 0 && src f.sa && f.mode == 0 && f.wu == 0 && f.ty == 0 && eNoFlags f && apxsReg f
  | .apxsInv h f => noTag h && apx f && region f
  | .equinoxBatchUpdate block _ => WellFormed.block block
  | .csrRd h f => hasTag h && dst f.dst && f.a == 0 && csrNumber f.csrn
  | .csrWr h f => noTag h && f.dst == 0 && src f.a && csrNumber f.csrn
  | .csrSet h f => noTag h && f.dst == 0 && src f.a && csrNumber f.csrn
  | .csrClr h f => noTag h && f.dst == 0 && src f.a && csrNumber f.csrn
  | .rft h => noTag h
  | .tlbiAll h f => hasTag h && sysRR f && f.a == 0 && f.b == 0
  | .tlbiAddr h f => hasTag h && sysRR f && src f.a && src f.b
  | .tlbiCtx h f => hasTag h && sysRR f && f.a == 0 && src f.b
  | .ctxSave h f => hasTag h && sysRR f && src f.a && f.b == 0
  | .ctxRestore h f => hasTag h && sysRR f && src f.a && f.b == 0
  | .wfe h => noTag h
  | .wfeTimeout core slot => WellFormed.core core && WellFormed.slot slot
  | .halt h => noTag h
  | .pageWalkComplete core slot => WellFormed.core core && WellFormed.slot slot
  | .launchIntake => true
  | .launchCompletion _ => true
  | .dispatchDecision die => WellFormed.die die
  | .readyRecordRefill die => WellFormed.die die
  | .priorityAging die _ => WellFormed.die die
  | .preempt die part _ port => WellFormed.fn port && WellFormed.die die && WellFormed.part part
  | .preemptWindowExpiry core slot => WellFormed.core core && WellFormed.slot slot
  | .gangFrameWrite die _ _ => WellFormed.die die
  | .resume die part _ port => WellFormed.fn port && WellFormed.die die && WellFormed.part part
  | .launchkill die part _ port => WellFormed.fn port && WellFormed.die die && WellFormed.part part
  | .registerWrite port r _ => WellFormed.fn port && hostReg r
  | .springFill stack rec => decide (stack < 16) && decide (rec < 256)
  | .fallDrain stack rec => decide (stack < 16) && decide (rec < 256)
  | .flitReceive _ _ => true
  | .nakFlit _ _ => true
  | .keydone _ => true
  | .laneFailure _ lane _ => decide (lane < 16)
  | .retrainTimeout _ => true
  | .putPkt p => p.op == 1
  | .redPkt p => p.op == 2
  | .semPkt p => p.op == 3
  | .mcredContribution p => p.op == 4
  | .mcredRoundTimeout _ _ => true
  | .mcdata p => p.op == 5
  | .readPkt p => p.op == 6
  | .atomic p => p.op == 7
  | .respPkt p => p.op == 8
  | .ackPkt p => p.op == 9
  | .timeSyncExchange _ _ _ _ => true
  | .cpsem port _ _ => WellFormed.port port
  | .hostLinkDown port => WellFormed.port port
  | .evtdoor port part => WellFormed.fn port && WellFormed.part part
  | .qerrClear port q => WellFormed.port port && decide (q < 8)
  | .fltqptrHeadWrite part _ => WellFormed.part part
  | .fltqbaseWrite part _ => WellFormed.part part
  | .launchReq port q _ => WellFormed.port port && decide (q < 8)
  | .depsig port q _ => WellFormed.port port && decide (q < 8)
  | .flagadd port q _ => WellFormed.port port && decide (q < 8)
  | .packetNop port q _ => WellFormed.port port && decide (q < 8)
  | .atsInvalidation port _ _ => WellFormed.port port
  | .hostFlagAccess host part ofs _ => decide (host < 32) && WellFormed.part part && decide (ofs < 65536)
  | .hostExtentAccess host ext _ _ => decide (host < 32) && WellFormed.ext ext
  | .snapviewPin host ext => decide (host < 32) && WellFormed.ext ext
  | .snapviewUnpin host ext => decide (host < 32) && WellFormed.ext ext
  | .extentRevoke port ext => WellFormed.port port && WellFormed.ext ext
  | .drainTimeout ext => WellFormed.ext ext
  | .recallTimeout ext _ => WellFormed.ext ext
  | .extentZeroing ext => WellFormed.ext ext
  | .assign port req => WellFormed.port port && WellFormed.part req.part
  | .grow port part _ _ _ => WellFormed.port port && WellFormed.part part
  | .shrink port part _ _ _ => WellFormed.port port && WellFormed.part part
  | .remove port part _ => WellFormed.port port && WellFormed.part part
  | .debugpol port part _ _ => WellFormed.port port && WellFormed.part part
  | .imageReq port i _ => WellFormed.port port && image i
  | .fwFence port u _ _ => WellFormed.port port && fenceUnit u
  | .fwStatus port _ => WellFormed.port port
  | .lockInterface part => WellFormed.part part
  | .stopInterface part => WellFormed.part part
  | .startInterface part => WellFormed.part part
  | .getDeviceInterfaceState part => WellFormed.part part
  | .getDeviceInterfaceReport part => WellFormed.part part
  | .getVersion _ _ => true
  | .getCapabilities _ _ => true
  | .negotiateAlgorithms _ _ => true
  | .getDigests _ _ => true
  | .getCertificate _ _ => true
  | .challenge _ _ => true
  | .getMeasurements _ _ _ => true
  | .keyExchange _ _ => true
  | .finish _ _ => true
  | .keyUpdate _ _ _ _ _ => true
  | .heartbeat _ _ => true
  | .endSession _ _ => true
  | .resetDev => true
  | .recoveryImageLoad port i => WellFormed.port port && image i
  | .governorLower _ _ => true
  | .governorRaise _ _ => true
  | .thermalShutdown _ => true
  | .patrolScrub u => errUnit u
  | .correctedError u => errUnit u
  | .uncorrectedError u => errUnit u
  | .retrainingComplete _ _ _ _ => true
  | .recallResponse ext _ host _ => WellFormed.ext ext && decide (host < 32)

end Sys2Proof
end

