-- ==== Sys2Proof/Decode.lean ====
section
/-! DEFINITION. Decoding of instruction words, total and rejecting by name, and the encoder written from the same tables
(06 Tables 6-1, 6-3, 6-8). -/

namespace Sys2Proof

/-- Why a word is not an instruction (06 R195 steps 1 and 3). -/
inductive DecodeErr where
  /-- An unassigned or reserved major or FN (06 R196). -/
  | illegalOpcode
  /-- A field the word does not allow (06 R168 and the words' own rules). -/
  | illegalEncoding
  deriving DecidableEq, Repr

/-! ## Formats (06 Table 6-3) -/

/-- The fields of format RR. -/
def FmtRR.ofBits (p : BitVec 56) : FmtRR :=
  { dst := p.extractLsb' 48 8
    a := p.extractLsb' 39 9
    b := p.extractLsb' 30 9
    c := p.extractLsb' 21 9
    cmask := p.extractLsb' 13 8
    ty := p.extractLsb' 9 4
    aux := p.extractLsb' 0 9 }

/-- Bits [55:0] of format RR. -/
def FmtRR.toBits (f : FmtRR) : BitVec 56 :=
  f.dst ++ f.a ++ f.b ++ f.c ++ f.cmask ++ f.ty ++ f.aux

/-- The fields of format RI. -/
def FmtRI.ofBits (p : BitVec 56) : FmtRI :=
  { dst := p.extractLsb' 48 8
    a := p.extractLsb' 39 9
    imm := p.extractLsb' 7 32
    ty := p.extractLsb' 3 4
    modLow := p.extractLsb' 0 3 }

/-- Bits [55:0] of format RI. -/
def FmtRI.toBits (f : FmtRI) : BitVec 56 :=
  f.dst ++ f.a ++ f.imm ++ f.ty ++ f.modLow

/-- The fields of format M. -/
def FmtM.ofBits (p : BitVec 56) : FmtM :=
  { x := p.extractLsb' 47 9
    base := p.extractLsb' 38 9
    ofs := p.extractLsb' 14 24
    size := p.extractLsb' 11 3
    ord := p.extractLsb' 8 3
    scope := p.extractLsb' 5 3
    cl := p.extractLsb' 2 3
    hint := p.extractLsb' 0 2 }

/-- Bits [55:0] of format M. -/
def FmtM.toBits (f : FmtM) : BitVec 56 :=
  f.x ++ f.base ++ f.ofs ++ f.size ++ f.ord ++ f.scope ++ f.cl ++ f.hint

/-- The fields of format B. -/
def FmtB.ofBits (p : BitVec 56) : FmtB :=
  { ofs := p.extractLsb' 24 32 }

/-- Bits [55:0] of format B. -/
def FmtB.toBits (f : FmtB) : BitVec 56 :=
  f.ofs ++ 0#24

/-- The fields of format L. -/
def FmtL.ofBits (p : BitVec 56) : FmtL :=
  { count := p.extractLsb' 47 9
    body := p.extractLsb' 31 16 }

/-- Bits [55:0] of format L. -/
def FmtL.toBits (f : FmtL) : BitVec 56 :=
  f.count ++ f.body ++ 0#31

/-- The fields of format P. -/
def FmtP.ofBits (p : BitVec 56) : FmtP :=
  { countM1 := p.extractLsb' 50 6
    step := p.extractLsb' 46 4 }

/-- Bits [55:0] of format P. -/
def FmtP.toBits (f : FmtP) : BitVec 56 :=
  f.countM1 ++ f.step ++ 0#46

/-- The fields of format AT. -/
def FmtAT.ofBits (p : BitVec 56) : FmtAT :=
  { dst := p.extractLsb' 48 8
    a := p.extractLsb' 39 9
    b := p.extractLsb' 30 9
    c := p.extractLsb' 21 9
    size := p.extractLsb' 18 3
    ord := p.extractLsb' 15 3
    scope := p.extractLsb' 12 3 }

/-- Bits [55:0] of format AT. -/
def FmtAT.toBits (f : FmtAT) : BitVec 56 :=
  f.dst ++ f.a ++ f.b ++ f.c ++ f.size ++ f.ord ++ f.scope ++ 0#12

/-- The fields of format G. -/
def FmtG.ofBits (p : BitVec 56) : FmtG :=
  { x := p.extractLsb' 47 9
    base := p.extractLsb' 38 9
    idx := p.extractLsb' 29 9
    scl := p.extractLsb' 27 2
    size := p.extractLsb' 24 3
    ord := p.extractLsb' 21 3
    scope := p.extractLsb' 18 3
    cmask := p.extractLsb' 10 8 }

/-- Bits [55:0] of format G. -/
def FmtG.toBits (f : FmtG) : BitVec 56 :=
  f.x ++ f.base ++ f.idx ++ f.scl ++ f.size ++ f.ord ++ f.scope ++ f.cmask ++ 0#10

/-- The fields of format T. -/
def FmtT.ofBits (p : BitVec 56) : FmtT :=
  { dst := p.extractLsb' 48 8
    a := p.extractLsb' 39 9
    b := p.extractLsb' 30 9
    c := p.extractLsb' 21 9
    imm := p.extractLsb' 9 12
    scope := p.extractLsb' 6 3
    acq := p.extractLsb' 5 1
    rel := p.extractLsb' 4 1 }

/-- Bits [55:0] of format T. -/
def FmtT.toBits (f : FmtT) : BitVec 56 :=
  f.dst ++ f.a ++ f.b ++ f.c ++ f.imm ++ f.scope ++ f.acq ++ f.rel ++ 0#4

/-- The fields of format F. -/
def FmtF.ofBits (p : BitVec 56) : FmtF :=
  { a := p.extractLsb' 47 9
    b := p.extractLsb' 38 9
    c := p.extractLsb' 29 9
    d := p.extractLsb' 20 9
    opt := p.extractLsb' 12 8
    ty := p.extractLsb' 8 4
    scope := p.extractLsb' 5 3
    acq := p.extractLsb' 4 1
    rel := p.extractLsb' 3 1 }

/-- Bits [55:0] of format F. -/
def FmtF.toBits (f : FmtF) : BitVec 56 :=
  f.a ++ f.b ++ f.c ++ f.d ++ f.opt ++ f.ty ++ f.scope ++ f.acq ++ f.rel ++ 0#3

/-- The fields of format E. -/
def FmtE.ofBits (p : BitVec 56) : FmtE :=
  { ed := p.extractLsb' 48 8
    ea := p.extractLsb' 40 8
    eb := p.extractLsb' 32 8
    sa := p.extractLsb' 23 9
    mode := p.extractLsb' 20 3
    wu := p.extractLsb' 18 2
    ty := p.extractLsb' 14 4
    aux := p.extractLsb' 5 9
    scope := p.extractLsb' 2 3
    acq := p.extractLsb' 1 1
    rel := p.extractLsb' 0 1 }

/-- Bits [55:0] of format E. -/
def FmtE.toBits (f : FmtE) : BitVec 56 :=
  f.ed ++ f.ea ++ f.eb ++ f.sa ++ f.mode ++ f.wu ++ f.ty ++ f.aux ++ f.scope ++ f.acq ++ f.rel

/-- The fields of format C. -/
def FmtC.ofBits (p : BitVec 56) : FmtC :=
  { dst := p.extractLsb' 48 8
    a := p.extractLsb' 39 9
    csrn := p.extractLsb' 27 12 }

/-- Bits [55:0] of format C. -/
def FmtC.toBits (f : FmtC) : BitVec 56 :=
  f.dst ++ f.a ++ f.csrn ++ 0#27

/-- Decode through a format whose low n bits are zero. -/
def lowZero (n : Nat) (p : BitVec 56) (i : Instr) : Except DecodeErr Instr :=
  if p.toNat % 2 ^ n = 0 then .ok i else .error .illegalEncoding

/-- The condition that FN[2:0] selects (07 R201). -/
def Cc.ofNat? : Nat → Option Cc
  | 0 => some .eq | 1 => some .ne | 2 => some .lt | 3 => some .le | 4 => some .gt | 5 => some .ge | _ => none

/-- FN[2:0] of a condition. -/
def Cc.toNat : Cc → Nat
  | .eq => 0 | .ne => 1 | .lt => 2 | .le => 3 | .gt => 4 | .ge => 5

/-- A condition-coded row: an FN outside 0 to 5 is unassigned. -/
def ccRow (n : Nat) (k : Cc → Instr) : Except DecodeErr Instr :=
  match Cc.ofNat? n with
  | some c => .ok (k c)
  | none => .error .illegalOpcode

/-! ## The opcode map (06 Table 6-8) -/

/-- The majors of the S-slot words (07). -/
def decodeS (opc fn : Nat) (h : Hdr) (p : BitVec 56) : Except DecodeErr Instr :=
  match opc with
  | 0 =>
    match fn with
    | 0 => lowZero 56 p (.nop h)
    | _ => .error .illegalOpcode
  | 1 =>
    match fn with
    | 0 => .ok (.add h (.rr (FmtRR.ofBits p)))
    | 1 => .ok (.add h (.ri (FmtRI.ofBits p)))
    | _ => .error .illegalOpcode
  | 2 =>
    match fn with
    | 0 => .ok (.sub h (.rr (FmtRR.ofBits p)))
    | 1 => .ok (.sub h (.ri (FmtRI.ofBits p)))
    | _ => .error .illegalOpcode
  | 3 =>
    match fn with
    | 0 => .ok (.mul h (.rr (FmtRR.ofBits p)))
    | 1 => .ok (.mul h (.ri (FmtRI.ofBits p)))
    | 2 => .ok (.mulHi h (.rr (FmtRR.ofBits p)))
    | 3 => .ok (.mulHi h (.ri (FmtRI.ofBits p)))
    | _ => .error .illegalOpcode
  | 4 =>
    match fn with
    | 0 => .ok (.divI h (.rr (FmtRR.ofBits p)))
    | 1 => .ok (.divI h (.ri (FmtRI.ofBits p)))
    | 2 => .ok (.divRem h (.rr (FmtRR.ofBits p)))
    | 3 => .ok (.divRem h (.ri (FmtRI.ofBits p)))
    | _ => .error .illegalOpcode
  | 5 =>
    match fn with
    | 0 => .ok (.andI h (.rr (FmtRR.ofBits p)))
    | 1 => .ok (.andI h (.ri (FmtRI.ofBits p)))
    | _ => .error .illegalOpcode
  | 6 =>
    match fn with
    | 0 => .ok (.orI h (.rr (FmtRR.ofBits p)))
    | 1 => .ok (.orI h (.ri (FmtRI.ofBits p)))
    | _ => .error .illegalOpcode
  | 7 =>
    match fn with
    | 0 => .ok (.xorI h (.rr (FmtRR.ofBits p)))
    | 1 => .ok (.xorI h (.ri (FmtRI.ofBits p)))
    | _ => .error .illegalOpcode
  | 8 =>
    match fn with
    | 0 => .ok (.andn h (.rr (FmtRR.ofBits p)))
    | 1 => .ok (.andn h (.ri (FmtRI.ofBits p)))
    | _ => .error .illegalOpcode
  | 9 =>
    match fn with
    | 0 => .ok (.shl h (.rr (FmtRR.ofBits p)))
    | 1 => .ok (.shl h (.ri (FmtRI.ofBits p)))
    | _ => .error .illegalOpcode
  | 10 =>
    match fn with
    | 0 => .ok (.shr h (.rr (FmtRR.ofBits p)))
    | 1 => .ok (.shr h (.ri (FmtRI.ofBits p)))
    | _ => .error .illegalOpcode
  | 11 =>
    match fn with
    | 0 => .ok (.sra h (.rr (FmtRR.ofBits p)))
    | 1 => .ok (.sra h (.ri (FmtRI.ofBits p)))
    | _ => .error .illegalOpcode
  | 12 =>
    match fn with
    | 0 => .ok (.rot h (.rr (FmtRR.ofBits p)))
    | 1 => .ok (.rot h (.ri (FmtRI.ofBits p)))
    | _ => .error .illegalOpcode
  | 13 =>
    match fn with
    | 0 => .ok (.minI h (.rr (FmtRR.ofBits p)))
    | 1 => .ok (.minI h (.ri (FmtRI.ofBits p)))
    | 2 => .ok (.maxI h (.rr (FmtRR.ofBits p)))
    | 3 => .ok (.maxI h (.ri (FmtRI.ofBits p)))
    | _ => .error .illegalOpcode
  | 14 =>
    if fn < 8 then ccRow fn (fun cc => .cmp h cc (.rr (FmtRR.ofBits p)))
    else ccRow (fn - 8) (fun cc => .cmp h cc (.ri (FmtRI.ofBits p)))
  | 15 =>
    match fn with
    | 0 => .ok (.sel h (FmtRR.ofBits p))
    | _ => .error .illegalOpcode
  | 16 =>
    match fn with
    | 1 => .ok (.movi h (FmtRI.ofBits p))
    | 3 => .ok (.movhi h (FmtRI.ofBits p))
    | _ => .error .illegalOpcode
  | 17 =>
    match fn with
    | 0 => .ok (.lea h (.rr (FmtRR.ofBits p)))
    | 1 => .ok (.lea h (.ri (FmtRI.ofBits p)))
    | _ => .error .illegalOpcode
  | 18 =>
    match fn with
    | 0 => .ok (.bitsClz h (FmtRR.ofBits p))
    | 1 => .ok (.bitsCtz h (FmtRR.ofBits p))
    | 2 => .ok (.bitsPopc h (FmtRR.ofBits p))
    | 3 => .ok (.bitsBrev h (FmtRR.ofBits p))
    | 4 => .ok (.bitsBfx h (FmtRR.ofBits p))
    | 5 => .ok (.bitsBfi h (FmtRR.ofBits p))
    | 6 => .ok (.bitsAbs h (FmtRR.ofBits p))
    | 7 => .ok (.bitsNeg h (FmtRR.ofBits p))
    | _ => .error .illegalOpcode
  | 19 =>
    match fn with
    | 0 => .ok (.plogAnd h (FmtRR.ofBits p))
    | 1 => .ok (.plogOr h (FmtRR.ofBits p))
    | 2 => .ok (.plogXor h (FmtRR.ofBits p))
    | 3 => .ok (.plogAndn h (FmtRR.ofBits p))
    | _ => .error .illegalOpcode
  | 20 =>
    match fn with
    | 0 => .ok (.fadd h (FmtRR.ofBits p))
    | 1 => .ok (.faddSub h (FmtRR.ofBits p))
    | _ => .error .illegalOpcode
  | 21 =>
    match fn with
    | 0 => .ok (.fmul h (FmtRR.ofBits p))
    | _ => .error .illegalOpcode
  | 22 =>
    match fn with
    | 0 => .ok (.fma h (FmtRR.ofBits p))
    | 1 => .ok (.fmaFms h (FmtRR.ofBits p))
    | 2 => .ok (.fmaFnma h (FmtRR.ofBits p))
    | _ => .error .illegalOpcode
  | 23 =>
    match fn with
    | 0 => .ok (.fdiv h (FmtRR.ofBits p))
    | 1 => .ok (.fdivSqrt h (FmtRR.ofBits p))
    | _ => .error .illegalOpcode
  | 24 =>
    match fn with
    | 0 => .ok (.fmin h (FmtRR.ofBits p))
    | 1 => .ok (.fmax h (FmtRR.ofBits p))
    | fn => if fn < 8 then .error .illegalOpcode else ccRow (fn - 8) (fun cc => .fcmp h cc (FmtRR.ofBits p))
  | 25 =>
    match fn with
    | 0 => .ok (.fcvt h (FmtRR.ofBits p))
    | _ => .error .illegalOpcode
  | 26 =>
    match fn with
    | 0 => lowZero 24 p (.br h (FmtB.ofBits p))
    | _ => .error .illegalOpcode
  | 27 =>
    match fn with
    | 0 => .ok (.jmp h (FmtRR.ofBits p))
    | 1 => .ok (.call h (FmtRR.ofBits p))
    | 2 => .ok (.ret h (FmtRR.ofBits p))
    | _ => .error .illegalOpcode
  | 28 =>
    match fn with
    | 0 => lowZero 31 p (.loopI h (FmtL.ofBits p))
    | 1 => lowZero 56 p (.brkl h)
    | _ => .error .illegalOpcode
  | 29 =>
    match fn with
    | 0 => lowZero 46 p (.rpt h (FmtP.ofBits p))
    | _ => .error .illegalOpcode
  | 30 =>
    match fn with
    | 0 => .ok (.trap h (FmtRR.ofBits p))
    | _ => .error .illegalOpcode
  | _ => .error .illegalOpcode

/-- The majors of the V-slot words (08). -/
def decodeV (opc fn : Nat) (h : Hdr) (p : BitVec 56) : Except DecodeErr Instr :=
  match opc with
  | 32 =>
    match fn with
    | 0 => .ok (.vadd h (FmtRR.ofBits p))
    | _ => .error .illegalOpcode
  | 33 =>
    match fn with
    | 0 => .ok (.vsub h (FmtRR.ofBits p))
    | _ => .error .illegalOpcode
  | 34 =>
    match fn with
    | 0 => .ok (.vmul h (FmtRR.ofBits p))
    | 1 => .ok (.vmulHi h (FmtRR.ofBits p))
    | _ => .error .illegalOpcode
  | 35 =>
    match fn with
    | 0 => .ok (.vmad h (FmtRR.ofBits p))
    | _ => .error .illegalOpcode
  | 36 =>
    match fn with
    | 0 => .ok (.vlogAnd h (FmtRR.ofBits p))
    | 1 => .ok (.vlogOr h (FmtRR.ofBits p))
    | 2 => .ok (.vlogXor h (FmtRR.ofBits p))
    | 3 => .ok (.vlogAndn h (FmtRR.ofBits p))
    | _ => .error .illegalOpcode
  | 37 =>
    match fn with
    | 0 => .ok (.vshShl h (FmtRR.ofBits p))
    | 1 => .ok (.vshShr h (FmtRR.ofBits p))
    | 2 => .ok (.vshSra h (FmtRR.ofBits p))
    | 3 => .ok (.vshRot h (FmtRR.ofBits p))
    | _ => .error .illegalOpcode
  | 38 =>
    match fn with
    | 0 => .ok (.vmin h (FmtRR.ofBits p))
    | 1 => .ok (.vmax h (FmtRR.ofBits p))
    | _ => .error .illegalOpcode
  | 39 =>
    ccRow fn (fun cc => .vcmp h cc (FmtRR.ofBits p))
  | 40 =>
    match fn with
    | 0 => .ok (.vsel h (FmtRR.ofBits p))
    | _ => .error .illegalOpcode
  | 41 =>
    match fn with
    | 0 => .ok (.vfadd h (FmtRR.ofBits p))
    | 1 => .ok (.vfaddSub h (FmtRR.ofBits p))
    | _ => .error .illegalOpcode
  | 42 =>
    match fn with
    | 0 => .ok (.vfmul h (FmtRR.ofBits p))
    | _ => .error .illegalOpcode
  | 43 =>
    match fn with
    | 0 => .ok (.vfma h (FmtRR.ofBits p))
    | 1 => .ok (.vfmaFms h (FmtRR.ofBits p))
    | 2 => .ok (.vfmaFnma h (FmtRR.ofBits p))
    | _ => .error .illegalOpcode
  | 44 =>
    match fn with
    | 0 => .ok (.vfmin h (FmtRR.ofBits p))
    | 1 => .ok (.vfmax h (FmtRR.ofBits p))
    | _ => .error .illegalOpcode
  | 45 =>
    ccRow fn (fun cc => .vfcmp h cc (FmtRR.ofBits p))
  | 46 =>
    match fn with
    | 0 => .ok (.vsfRcp h (FmtRR.ofBits p))
    | 1 => .ok (.vsfRsqrt h (FmtRR.ofBits p))
    | 2 => .ok (.vsfExp2 h (FmtRR.ofBits p))
    | 3 => .ok (.vsfLog2 h (FmtRR.ofBits p))
    | 4 => .ok (.vsfSin h (FmtRR.ofBits p))
    | 5 => .ok (.vsfCos h (FmtRR.ofBits p))
    | 6 => .ok (.vsfTanh h (FmtRR.ofBits p))
    | 7 => .ok (.vsfSigm h (FmtRR.ofBits p))
    | _ => .error .illegalOpcode
  | 47 =>
    match fn with
    | 0 => .ok (.vcvt h (FmtRR.ofBits p))
    | 1 => if p.extractLsb' 5 1 == 0 then .ok (.vcvtBsPack h (FmtRR.ofBits p)) else .ok (.vcvtBsUnpack h (FmtRR.ofBits p))
    | _ => .error .illegalOpcode
  | 48 =>
    match fn with
    | 0 => .ok (.vshuf h (FmtRR.ofBits p))
    | _ => .error .illegalOpcode
  | 49 =>
    match fn with
    | 0 => .ok (.vredAdd h (FmtRR.ofBits p))
    | 1 => .ok (.vredMin h (FmtRR.ofBits p))
    | 2 => .ok (.vredMax h (FmtRR.ofBits p))
    | _ => .error .illegalOpcode
  | 50 =>
    match fn with
    | 0 => .ok (.vxcp h (FmtRR.ofBits p))
    | _ => .error .illegalOpcode
  | 51 =>
    match fn with
    | 0 => .ok (.vsplat h (FmtRR.ofBits p))
    | _ => .error .illegalOpcode
  | 52 =>
    match fn with
    | 0 => .ok (.vext h (FmtRR.ofBits p))
    | _ => .error .illegalOpcode
  | 53 =>
    match fn with
    | 0 => .ok (.viota h (FmtRR.ofBits p))
    | _ => .error .illegalOpcode
  | 54 =>
    match fn with
    | 0 => .ok (.vrng h (FmtRR.ofBits p))
    | _ => .error .illegalOpcode
  | 55 =>
    match fn with
    | 0 => .ok (.vplogAnd h (FmtRR.ofBits p))
    | 1 => .ok (.vplogOr h (FmtRR.ofBits p))
    | 2 => .ok (.vplogXor h (FmtRR.ofBits p))
    | 3 => .ok (.vplogAndn h (FmtRR.ofBits p))
    | _ => .error .illegalOpcode
  | 56 =>
    match fn with
    | 0 => .ok (.vpcnt h (FmtRR.ofBits p))
    | _ => .error .illegalOpcode
  | _ => .error .illegalOpcode

/-- The majors of the M-slot words (09, 12). -/
def decodeM (opc fn : Nat) (h : Hdr) (p : BitVec 56) : Except DecodeErr Instr :=
  match opc with
  | 64 =>
    match fn with
    | 0 => .ok (.ld h (FmtM.ofBits p))
    | _ => .error .illegalOpcode
  | 65 =>
    match fn with
    | 0 => .ok (.st h (FmtM.ofBits p))
    | _ => .error .illegalOpcode
  | 66 =>
    match fn with
    | 0 => .ok (.ldv h (FmtM.ofBits p))
    | _ => .error .illegalOpcode
  | 67 =>
    match fn with
    | 0 => .ok (.stv h (FmtM.ofBits p))
    | _ => .error .illegalOpcode
  | 68 =>
    match fn with
    | 0 => lowZero 10 p (.vgath h (FmtG.ofBits p))
    | _ => .error .illegalOpcode
  | 69 =>
    match fn with
    | 0 => lowZero 10 p (.vscat h (FmtG.ofBits p))
    | _ => .error .illegalOpcode
  | 70 =>
    match fn with
    | 0 => lowZero 12 p (.atomAdd h (FmtAT.ofBits p))
    | 1 => lowZero 12 p (.atomAnd h (FmtAT.ofBits p))
    | 2 => lowZero 12 p (.atomOr h (FmtAT.ofBits p))
    | 3 => lowZero 12 p (.atomXor h (FmtAT.ofBits p))
    | 4 => lowZero 12 p (.atomMin h (FmtAT.ofBits p))
    | 5 => lowZero 12 p (.atomMax h (FmtAT.ofBits p))
    | 6 => lowZero 12 p (.atomSwap h (FmtAT.ofBits p))
    | 7 => lowZero 12 p (.atomCas h (FmtAT.ofBits p))
    | 8 => lowZero 12 p (.atomFadd h (FmtAT.ofBits p))
    | 9 => lowZero 12 p (.atomBfadd h (FmtAT.ofBits p))
    | _ => .error .illegalOpcode
  | 71 =>
    match fn with
    | 0 => .ok (.fence h (FmtM.ofBits p))
    | _ => .error .illegalOpcode
  | 72 =>
    match fn with
    | 0 => lowZero 12 p (.flagI h (FmtAT.ofBits p))
    | _ => .error .illegalOpcode
  | 73 =>
    match fn with
    | 0 => lowZero 4 p (.waitf h (FmtT.ofBits p))
    | 1 => lowZero 4 p (.waitfT h (FmtT.ofBits p))
    | _ => .error .illegalOpcode
  | 74 =>
    match fn with
    | 0 => .ok (.cflushWb h (FmtM.ofBits p))
    | 1 => .ok (.cflushInv h (FmtM.ofBits p))
    | 2 => .ok (.cflushWbinv h (FmtM.ofBits p))
    | _ => .error .illegalOpcode
  | 75 =>
    match fn with
    | 0 => lowZero 4 p (.cpy h (FmtT.ofBits p))
    | 1 => lowZero 4 p (.cpyScale h (FmtT.ofBits p))
    | _ => .error .illegalOpcode
  | 76 =>
    match fn with
    | 0 => lowZero 4 p (.ringBind h (FmtT.ofBits p))
    | 1 => lowZero 4 p (.ringGet h (FmtT.ofBits p))
    | 2 => lowZero 4 p (.ringCommit h (FmtT.ofBits p))
    | 3 => lowZero 4 p (.ringEos h (FmtT.ofBits p))
    | 4 => lowZero 4 p (.ringFree h (FmtT.ofBits p))
    | 5 => lowZero 4 p (.ringStat h (FmtT.ofBits p))
    | _ => .error .illegalOpcode
  | 77 =>
    match fn with
    | 0 => lowZero 4 p (.spawn h (FmtT.ofBits p))
    | 1 => lowZero 4 p (.spawnL h (FmtT.ofBits p))
    | _ => .error .illegalOpcode
  | 78 =>
    match fn with
    | 0 => lowZero 4 p (.depAdd h (FmtT.ofBits p))
    | 1 => lowZero 4 p (.depSignal h (FmtT.ofBits p))
    | _ => .error .illegalOpcode
  | 79 =>
    match fn with
    | 0 => lowZero 4 p (.suspSuspend h (FmtT.ofBits p))
    | 1 => lowZero 4 p (.suspYield h (FmtT.ofBits p))
    | 2 => lowZero 4 p (.suspFinish h (FmtT.ofBits p))
    | _ => .error .illegalOpcode
  | 80 =>
    match fn with
    | 0 => lowZero 4 p (.barArrive h (FmtT.ofBits p))
    | 1 => lowZero 4 p (.barWait h (FmtT.ofBits p))
    | 2 => lowZero 4 p (.barBoth h (FmtT.ofBits p))
    | _ => .error .illegalOpcode
  | 81 =>
    match fn with
    | 0 =>
      match (p.extractLsb' 9 2).toNat with
      | 0 => lowZero 4 p (.getcCoord h (FmtT.ofBits p))
      | 1 => lowZero 4 p (.getcShape h (FmtT.ofBits p))
      | 2 => lowZero 4 p (.getcLaunch h (FmtT.ofBits p))
      | _ => lowZero 4 p (.getcCore h (FmtT.ofBits p))
    | _ => .error .illegalOpcode
  | 82 =>
    match fn with
    | 0 => .ok (.pref h (FmtM.ofBits p))
    | _ => .error .illegalOpcode
  | 88 =>
    match fn with
    | 0 => lowZero 3 p (.rput h (FmtF.ofBits p))
    | 1 => lowZero 3 p (.rputSig h (FmtF.ofBits p))
    | _ => .error .illegalOpcode
  | 89 =>
    match fn with
    | 0 => lowZero 3 p (.rcopy h (FmtF.ofBits p))
    | 1 => lowZero 3 p (.rcopySig h (FmtF.ofBits p))
    | _ => .error .illegalOpcode
  | 90 =>
    match fn with
    | 0 => lowZero 3 p (.rsem h (FmtF.ofBits p))
    | _ => .error .illegalOpcode
  | 91 =>
    match fn with
    | 0 => lowZero 3 p (.rred h (FmtF.ofBits p))
    | _ => .error .illegalOpcode
  | 92 =>
    match fn with
    | 0 => lowZero 3 p (.mcred h (FmtF.ofBits p))
    | _ => .error .illegalOpcode
  | 93 =>
    match fn with
    | 0 => lowZero 3 p (.qpost h (FmtF.ofBits p))
    | _ => .error .illegalOpcode
  | 94 =>
    match fn with
    | 0 => lowZero 4 p (.mbxPost h (FmtT.ofBits p))
    | 1 => lowZero 4 p (.mbxTake h (FmtT.ofBits p))
    | 2 => lowZero 4 p (.mbxStatus h (FmtT.ofBits p))
    | 3 => lowZero 4 p (.mbxPostnb h (FmtT.ofBits p))
    | _ => .error .illegalOpcode
  | 95 =>
    match fn with
    | 0 => lowZero 4 p (.rack h (FmtT.ofBits p))
    | _ => .error .illegalOpcode
  | _ => .error .illegalOpcode

/-- The majors of the E-slot words (11, 13). -/
def decodeE (opc fn : Nat) (h : Hdr) (p : BitVec 56) : Except DecodeErr Instr :=
  match opc with
  | 96 =>
    match fn with
    | 0 =>
      match (p.extractLsb' 20 3).toNat with
      | 0 => .ok (.wcfg h (FmtE.ofBits p))
      | 1 => .ok (.wcfgEg h (FmtE.ofBits p))
      | _ => .error .illegalEncoding
    | _ => .error .illegalOpcode
  | 97 =>
    match fn with
    | 0 =>
      match (p.extractLsb' 20 3).toNat with
      | 0 => .ok (.pack h (FmtE.ofBits p))
      | 1 => .ok (.packRev h (FmtE.ofBits p))
      | 2 => .ok (.packLimb h (FmtE.ofBits p))
      | _ => .error .illegalEncoding
    | _ => .error .illegalOpcode
  | 99 =>
    match fn with
    | 0 =>
      match (p.extractLsb' 20 3).toNat with
      | 0 => .ok (.wmulConv h (FmtE.ofBits p))
      | 1 => .ok (.wmulCorr h (FmtE.ofBits p))
      | 2 => .ok (.wmulLimb h (FmtE.ofBits p))
      | 3 => .ok (.wmulOuter h (FmtE.ofBits p))
      | 4 => .ok (.wmulOuterSp h (FmtE.ofBits p))
      | _ => .error .illegalEncoding
    | _ => .error .illegalOpcode
  | 100 =>
    match fn with
    | 0 =>
      match (p.extractLsb' 20 3).toNat with
      | 0 => .ok (.wmacConv h (FmtE.ofBits p))
      | 1 => .ok (.wmacCorr h (FmtE.ofBits p))
      | 2 => .ok (.wmacLimb h (FmtE.ofBits p))
      | 3 => .ok (.wmacOuter h (FmtE.ofBits p))
      | 4 => .ok (.wmacOuterSp h (FmtE.ofBits p))
      | _ => .error .illegalEncoding
    | _ => .error .illegalOpcode
  | 101 =>
    match fn with
    | 0 =>
      match (p.extractLsb' 20 3).toNat with
      | 0 => .ok (.extrDigm h (FmtE.ofBits p))
      | 1 => .ok (.extrDigs h (FmtE.ofBits p))
      | 2 => .ok (.extrLimb h (FmtE.ofBits p))
      | 3 => .ok (.extrTile h (FmtE.ofBits p))
      | 4 => .ok (.extrTileClr h (FmtE.ofBits p))
      | _ => .error .illegalEncoding
    | _ => .error .illegalOpcode
  | 102 =>
    match fn with
    | 0 => .ok (.wclr h (FmtE.ofBits p))
    | 1 => .ok (.wmov h (FmtE.ofBits p))
    | _ => .error .illegalOpcode
  | 103 =>
    match fn with
    | 0 =>
      match (p.extractLsb' 20 3).toNat with
      | 0 => .ok (.sbindA h (FmtE.ofBits p))
      | 1 => .ok (.sbindB h (FmtE.ofBits p))
      | 2 => .ok (.sbindUnbind h (FmtE.ofBits p))
      | 3 => .ok (.sbindUnbind h (FmtE.ofBits p))
      | _ => .error .illegalEncoding
    | _ => .error .illegalOpcode
  | 104 =>
    match fn with
    | 0 => .ok (.mcall h (FmtE.ofBits p))
    | _ => .error .illegalOpcode
  | 105 =>
    match fn with
    | 0 => .ok (.mpld h (FmtE.ofBits p))
    | _ => .error .illegalOpcode
  | 106 =>
    match fn with
    | 0 =>
      match (p.extractLsb' 20 3).toNat with
      | 0 => .ok (.mldr h (FmtE.ofBits p))
      | 1 => .ok (.mldrEntries h (FmtE.ofBits p))
      | _ => .error .illegalEncoding
    | _ => .error .illegalOpcode
  | 107 =>
    match fn with
    | 0 => .ok (.ftld h (FmtE.ofBits p))
    | _ => .error .illegalOpcode
  | 108 =>
    match fn with
    | 0 =>
      match (p.extractLsb' 20 3).toNat with
      | 0 => .ok (.scld h (FmtE.ofBits p))
      | 1 => .ok (.scldRd h (FmtE.ofBits p))
      | _ => .error .illegalEncoding
    | _ => .error .illegalOpcode
  | 109 =>
    match fn with
    | 0 => .ok (.metaqPush h (FmtE.ofBits p))
    | 1 => .ok (.metaqClear h (FmtE.ofBits p))
    | _ => .error .illegalOpcode
  | 110 =>
    match fn with
    | 0 => .ok (.wstat h (FmtE.ofBits p))
    | 1 => .ok (.wstatClr h (FmtE.ofBits p))
    | _ => .error .illegalOpcode
  | 111 =>
    match fn with
    | 0 => .ok (.mloop h (FmtE.ofBits p))
    | 1 => .ok (.mjmp h (FmtE.ofBits p))
    | 2 => .ok (.mret h (FmtE.ofBits p))
    | _ => .error .illegalOpcode
  | 112 =>
    match fn with
    | 0 => .ok (.apxb h (FmtE.ofBits p))
    | _ => .error .illegalOpcode
  | 113 =>
    match fn with
    | 0 => .ok (.apxe h (FmtE.ofBits p))
    | _ => .error .illegalOpcode
  | 114 =>
    match fn with
    | 0 => .ok (.apxc h (FmtE.ofBits p))
    | _ => .error .illegalOpcode
  | 115 =>
    match fn with
    | 0 => .ok (.apxsRd h (FmtE.ofBits p))
    | 1 => .ok (.apxsWr h (FmtE.ofBits p))
    | 2 => .ok (.apxsInv h (FmtE.ofBits p))
    | _ => .error .illegalOpcode
  | _ => .error .illegalOpcode

/-- The majors of the system words (17). -/
def decodeX (opc fn : Nat) (h : Hdr) (p : BitVec 56) : Except DecodeErr Instr :=
  match opc with
  | 116 =>
    match fn with
    | 0 => lowZero 27 p (.csrRd h (FmtC.ofBits p))
    | 1 => lowZero 27 p (.csrWr h (FmtC.ofBits p))
    | 2 => lowZero 27 p (.csrSet h (FmtC.ofBits p))
    | 3 => lowZero 27 p (.csrClr h (FmtC.ofBits p))
    | _ => .error .illegalOpcode
  | 117 =>
    match fn with
    | 0 => lowZero 56 p (.rft h)
    | _ => .error .illegalOpcode
  | 118 =>
    match fn with
    | 0 => .ok (.tlbiAll h (FmtRR.ofBits p))
    | 1 => .ok (.tlbiAddr h (FmtRR.ofBits p))
    | 2 => .ok (.tlbiCtx h (FmtRR.ofBits p))
    | _ => .error .illegalOpcode
  | 119 =>
    match fn with
    | 0 => .ok (.ctxSave h (FmtRR.ofBits p))
    | 1 => .ok (.ctxRestore h (FmtRR.ofBits p))
    | _ => .error .illegalOpcode
  | 120 =>
    match fn with
    | 0 => lowZero 56 p (.wfe h)
    | _ => .error .illegalOpcode
  | 121 =>
    match fn with
    | 0 => lowZero 56 p (.halt h)
    | _ => .error .illegalOpcode
  | _ => .error .illegalOpcode

/-- A row of the opcode map: the slot class follows from OPC alone (06 R164). -/
def decodeRow (opc fn : Nat) (h : Hdr) (p : BitVec 56) : Except DecodeErr Instr :=
  if opc < 32 then decodeS opc fn h p
  else if opc < 64 then decodeV opc fn h p
  else if opc < 96 then decodeM opc fn h p
  else if opc < 116 then decodeE opc fn h p
  else decodeX opc fn h p

/-- The common header (06 Table 6-1). -/
def Hdr.ofWord (w : IWord) : Hdr :=
  { stop := w.getLsbD 79
    pr := w.extractLsb' 68 4
    ta := w.extractLsb' 65 3
    tc := w.extractLsb' 62 3 }

/-- Decode one 80-bit word: the row first (step 1 of 06 R195), then the encoding rules (step 3). -/
def decodeWord (w : IWord) : Except DecodeErr Instr :=
  match decodeRow (w.extractLsb' 72 7).toNat (w.extractLsb' 56 6).toNat (Hdr.ofWord w) (w.extractLsb' 0 56) with
  | .error e => .error e
  | .ok i => if wellFormed i then .ok i else .error .illegalEncoding

/-- Ten bytes, lowest address first, as one word (06 R162, 00 R5). -/
def wordOfBytes : List Byte → IWord
  | [] => 0
  | b :: bs => (b.zeroExtend 80) ||| (wordOfBytes bs <<< 8)

/-- Decode from bytes: the instruction and the rest; fewer than ten bytes are no word. -/
def decode (bs : List Byte) : Except DecodeErr (Instr × List Byte) :=
  if (bs.take 10).length = 10 then
    match decodeWord (wordOfBytes (bs.take 10)) with
    | .ok i => .ok (i, bs.drop 10)
    | .error e => .error e
  else .error .illegalOpcode

/-! ## The encoder -/

/-- Major and FN of a program word (06 Table 6-8). -/
def opFn : Instr → Option (Nat × Nat)
  | .nop _ => some (0, 0)
  | .add _ (.rr _) => some (1, 0)
  | .add _ (.ri _) => some (1, 1)
  | .sub _ (.rr _) => some (2, 0)
  | .sub _ (.ri _) => some (2, 1)
  | .mul _ (.rr _) => some (3, 0)
  | .mul _ (.ri _) => some (3, 1)
  | .mulHi _ (.rr _) => some (3, 2)
  | .mulHi _ (.ri _) => some (3, 3)
  | .divI _ (.rr _) => some (4, 0)
  | .divI _ (.ri _) => some (4, 1)
  | .divRem _ (.rr _) => some (4, 2)
  | .divRem _ (.ri _) => some (4, 3)
  | .andI _ (.rr _) => some (5, 0)
  | .andI _ (.ri _) => some (5, 1)
  | .orI _ (.rr _) => some (6, 0)
  | .orI _ (.ri _) => some (6, 1)
  | .xorI _ (.rr _) => some (7, 0)
  | .xorI _ (.ri _) => some (7, 1)
  | .andn _ (.rr _) => some (8, 0)
  | .andn _ (.ri _) => some (8, 1)
  | .shl _ (.rr _) => some (9, 0)
  | .shl _ (.ri _) => some (9, 1)
  | .shr _ (.rr _) => some (10, 0)
  | .shr _ (.ri _) => some (10, 1)
  | .sra _ (.rr _) => some (11, 0)
  | .sra _ (.ri _) => some (11, 1)
  | .rot _ (.rr _) => some (12, 0)
  | .rot _ (.ri _) => some (12, 1)
  | .minI _ (.rr _) => some (13, 0)
  | .minI _ (.ri _) => some (13, 1)
  | .maxI _ (.rr _) => some (13, 2)
  | .maxI _ (.ri _) => some (13, 3)
  | .cmp _ cc (.rr _) => some (14, cc.toNat)
  | .cmp _ cc (.ri _) => some (14, cc.toNat + 8)
  | .sel _ _ => some (15, 0)
  | .movi _ _ => some (16, 1)
  | .movhi _ _ => some (16, 3)
  | .lea _ (.rr _) => some (17, 0)
  | .lea _ (.ri _) => some (17, 1)
  | .bitsClz _ _ => some (18, 0)
  | .bitsCtz _ _ => some (18, 1)
  | .bitsPopc _ _ => some (18, 2)
  | .bitsBrev _ _ => some (18, 3)
  | .bitsBfx _ _ => some (18, 4)
  | .bitsBfi _ _ => some (18, 5)
  | .bitsAbs _ _ => some (18, 6)
  | .bitsNeg _ _ => some (18, 7)
  | .plogAnd _ _ => some (19, 0)
  | .plogOr _ _ => some (19, 1)
  | .plogXor _ _ => some (19, 2)
  | .plogAndn _ _ => some (19, 3)
  | .fadd _ _ => some (20, 0)
  | .faddSub _ _ => some (20, 1)
  | .fmul _ _ => some (21, 0)
  | .fma _ _ => some (22, 0)
  | .fmaFms _ _ => some (22, 1)
  | .fmaFnma _ _ => some (22, 2)
  | .fdiv _ _ => some (23, 0)
  | .fdivSqrt _ _ => some (23, 1)
  | .fmin _ _ => some (24, 0)
  | .fmax _ _ => some (24, 1)
  | .fcmp _ cc _ => some (24, cc.toNat + 8)
  | .fcvt _ _ => some (25, 0)
  | .br _ _ => some (26, 0)
  | .jmp _ _ => some (27, 0)
  | .call _ _ => some (27, 1)
  | .ret _ _ => some (27, 2)
  | .loopI _ _ => some (28, 0)
  | .brkl _ => some (28, 1)
  | .rpt _ _ => some (29, 0)
  | .trap _ _ => some (30, 0)
  | .vadd _ _ => some (32, 0)
  | .vsub _ _ => some (33, 0)
  | .vmul _ _ => some (34, 0)
  | .vmulHi _ _ => some (34, 1)
  | .vmad _ _ => some (35, 0)
  | .vlogAnd _ _ => some (36, 0)
  | .vlogOr _ _ => some (36, 1)
  | .vlogXor _ _ => some (36, 2)
  | .vlogAndn _ _ => some (36, 3)
  | .vshShl _ _ => some (37, 0)
  | .vshShr _ _ => some (37, 1)
  | .vshSra _ _ => some (37, 2)
  | .vshRot _ _ => some (37, 3)
  | .vmin _ _ => some (38, 0)
  | .vmax _ _ => some (38, 1)
  | .vcmp _ cc _ => some (39, cc.toNat + 0)
  | .vsel _ _ => some (40, 0)
  | .vfadd _ _ => some (41, 0)
  | .vfaddSub _ _ => some (41, 1)
  | .vfmul _ _ => some (42, 0)
  | .vfma _ _ => some (43, 0)
  | .vfmaFms _ _ => some (43, 1)
  | .vfmaFnma _ _ => some (43, 2)
  | .vfmin _ _ => some (44, 0)
  | .vfmax _ _ => some (44, 1)
  | .vfcmp _ cc _ => some (45, cc.toNat + 0)
  | .vsfRcp _ _ => some (46, 0)
  | .vsfRsqrt _ _ => some (46, 1)
  | .vsfExp2 _ _ => some (46, 2)
  | .vsfLog2 _ _ => some (46, 3)
  | .vsfSin _ _ => some (46, 4)
  | .vsfCos _ _ => some (46, 5)
  | .vsfTanh _ _ => some (46, 6)
  | .vsfSigm _ _ => some (46, 7)
  | .vcvt _ _ => some (47, 0)
  | .vcvtBsPack _ _ => some (47, 1)
  | .vcvtBsUnpack _ _ => some (47, 1)
  | .vshuf _ _ => some (48, 0)
  | .vredAdd _ _ => some (49, 0)
  | .vredMin _ _ => some (49, 1)
  | .vredMax _ _ => some (49, 2)
  | .vxcp _ _ => some (50, 0)
  | .vsplat _ _ => some (51, 0)
  | .vext _ _ => some (52, 0)
  | .viota _ _ => some (53, 0)
  | .vrng _ _ => some (54, 0)
  | .vplogAnd _ _ => some (55, 0)
  | .vplogOr _ _ => some (55, 1)
  | .vplogXor _ _ => some (55, 2)
  | .vplogAndn _ _ => some (55, 3)
  | .vpcnt _ _ => some (56, 0)
  | .ld _ _ => some (64, 0)
  | .st _ _ => some (65, 0)
  | .ldv _ _ => some (66, 0)
  | .stv _ _ => some (67, 0)
  | .vgath _ _ => some (68, 0)
  | .vscat _ _ => some (69, 0)
  | .atomAdd _ _ => some (70, 0)
  | .atomAnd _ _ => some (70, 1)
  | .atomOr _ _ => some (70, 2)
  | .atomXor _ _ => some (70, 3)
  | .atomMin _ _ => some (70, 4)
  | .atomMax _ _ => some (70, 5)
  | .atomSwap _ _ => some (70, 6)
  | .atomCas _ _ => some (70, 7)
  | .atomFadd _ _ => some (70, 8)
  | .atomBfadd _ _ => some (70, 9)
  | .fence _ _ => some (71, 0)
  | .flagI _ _ => some (72, 0)
  | .waitf _ _ => some (73, 0)
  | .waitfT _ _ => some (73, 1)
  | .cflushWb _ _ => some (74, 0)
  | .cflushInv _ _ => some (74, 1)
  | .cflushWbinv _ _ => some (74, 2)
  | .pref _ _ => some (82, 0)
  | .cpy _ _ => some (75, 0)
  | .cpyScale _ _ => some (75, 1)
  | .ringBind _ _ => some (76, 0)
  | .ringGet _ _ => some (76, 1)
  | .ringCommit _ _ => some (76, 2)
  | .ringEos _ _ => some (76, 3)
  | .ringFree _ _ => some (76, 4)
  | .ringStat _ _ => some (76, 5)
  | .spawn _ _ => some (77, 0)
  | .spawnL _ _ => some (77, 1)
  | .depAdd _ _ => some (78, 0)
  | .depSignal _ _ => some (78, 1)
  | .suspSuspend _ _ => some (79, 0)
  | .suspYield _ _ => some (79, 1)
  | .suspFinish _ _ => some (79, 2)
  | .barArrive _ _ => some (80, 0)
  | .barWait _ _ => some (80, 1)
  | .barBoth _ _ => some (80, 2)
  | .getcCoord _ _ => some (81, 0)
  | .getcShape _ _ => some (81, 0)
  | .getcLaunch _ _ => some (81, 0)
  | .getcCore _ _ => some (81, 0)
  | .rput _ _ => some (88, 0)
  | .rputSig _ _ => some (88, 1)
  | .rcopy _ _ => some (89, 0)
  | .rcopySig _ _ => some (89, 1)
  | .rsem _ _ => some (90, 0)
  | .rred _ _ => some (91, 0)
  | .mcred _ _ => some (92, 0)
  | .qpost _ _ => some (93, 0)
  | .mbxPost _ _ => some (94, 0)
  | .mbxTake _ _ => some (94, 1)
  | .mbxStatus _ _ => some (94, 2)
  | .mbxPostnb _ _ => some (94, 3)
  | .rack _ _ => some (95, 0)
  | .wcfg _ _ => some (96, 0)
  | .wcfgEg _ _ => some (96, 0)
  | .pack _ _ => some (97, 0)
  | .packRev _ _ => some (97, 0)
  | .packLimb _ _ => some (97, 0)
  | .wmulConv _ _ => some (99, 0)
  | .wmulCorr _ _ => some (99, 0)
  | .wmulLimb _ _ => some (99, 0)
  | .wmulOuter _ _ => some (99, 0)
  | .wmulOuterSp _ _ => some (99, 0)
  | .wmacConv _ _ => some (100, 0)
  | .wmacCorr _ _ => some (100, 0)
  | .wmacLimb _ _ => some (100, 0)
  | .wmacOuter _ _ => some (100, 0)
  | .wmacOuterSp _ _ => some (100, 0)
  | .extrDigm _ _ => some (101, 0)
  | .extrDigs _ _ => some (101, 0)
  | .extrLimb _ _ => some (101, 0)
  | .extrTile _ _ => some (101, 0)
  | .extrTileClr _ _ => some (101, 0)
  | .wclr _ _ => some (102, 0)
  | .wmov _ _ => some (102, 1)
  | .sbindA _ _ => some (103, 0)
  | .sbindB _ _ => some (103, 0)
  | .sbindUnbind _ _ => some (103, 0)
  | .mcall _ _ => some (104, 0)
  | .mpld _ _ => some (105, 0)
  | .mldr _ _ => some (106, 0)
  | .mldrEntries _ _ => some (106, 0)
  | .ftld _ _ => some (107, 0)
  | .scld _ _ => some (108, 0)
  | .scldRd _ _ => some (108, 0)
  | .metaqPush _ _ => some (109, 0)
  | .metaqClear _ _ => some (109, 1)
  | .wstat _ _ => some (110, 0)
  | .wstatClr _ _ => some (110, 1)
  | .mloop _ _ => some (111, 0)
  | .mjmp _ _ => some (111, 1)
  | .mret _ _ => some (111, 2)
  | .apxb _ _ => some (112, 0)
  | .apxe _ _ => some (113, 0)
  | .apxc _ _ => some (114, 0)
  | .apxsRd _ _ => some (115, 0)
  | .apxsWr _ _ => some (115, 1)
  | .apxsInv _ _ => some (115, 2)
  | .csrRd _ _ => some (116, 0)
  | .csrWr _ _ => some (116, 1)
  | .csrSet _ _ => some (116, 2)
  | .csrClr _ _ => some (116, 3)
  | .rft _ => some (117, 0)
  | .tlbiAll _ _ => some (118, 0)
  | .tlbiAddr _ _ => some (118, 1)
  | .tlbiCtx _ _ => some (118, 2)
  | .ctxSave _ _ => some (119, 0)
  | .ctxRestore _ _ => some (119, 1)
  | .wfe _ => some (120, 0)
  | .halt _ => some (121, 0)
  | _ => none

/-- The two operand forms as bits. -/
def RRI.toBits : RRI → BitVec 56
  | .rr f => f.toBits
  | .ri f => f.toBits

/-- The header and bits [55:0] of a program word; none for a device event, which has no encoding. -/
def headPayload : Instr → Option (Hdr × BitVec 56)
  | .nop h => some (h, 0)
  | .add h f => some (h, f.toBits)
  | .sub h f => some (h, f.toBits)
  | .mul h f => some (h, f.toBits)
  | .mulHi h f => some (h, f.toBits)
  | .divI h f => some (h, f.toBits)
  | .divRem h f => some (h, f.toBits)
  | .andI h f => some (h, f.toBits)
  | .orI h f => some (h, f.toBits)
  | .xorI h f => some (h, f.toBits)
  | .andn h f => some (h, f.toBits)
  | .shl h f => some (h, f.toBits)
  | .shr h f => some (h, f.toBits)
  | .sra h f => some (h, f.toBits)
  | .rot h f => some (h, f.toBits)
  | .minI h f => some (h, f.toBits)
  | .maxI h f => some (h, f.toBits)
  | .cmp h _ f => some (h, f.toBits)
  | .sel h f => some (h, f.toBits)
  | .movi h f => some (h, f.toBits)
  | .movhi h f => some (h, f.toBits)
  | .lea h f => some (h, f.toBits)
  | .bitsClz h f => some (h, f.toBits)
  | .bitsCtz h f => some (h, f.toBits)
  | .bitsPopc h f => some (h, f.toBits)
  | .bitsBrev h f => some (h, f.toBits)
  | .bitsBfx h f => some (h, f.toBits)
  | .bitsBfi h f => some (h, f.toBits)
  | .bitsAbs h f => some (h, f.toBits)
  | .bitsNeg h f => some (h, f.toBits)
  | .plogAnd h f => some (h, f.toBits)
  | .plogOr h f => some (h, f.toBits)
  | .plogXor h f => some (h, f.toBits)
  | .plogAndn h f => some (h, f.toBits)
  | .fadd h f => some (h, f.toBits)
  | .faddSub h f => some (h, f.toBits)
  | .fmul h f => some (h, f.toBits)
  | .fma h f => some (h, f.toBits)
  | .fmaFms h f => some (h, f.toBits)
  | .fmaFnma h f => some (h, f.toBits)
  | .fdiv h f => some (h, f.toBits)
  | .fdivSqrt h f => some (h, f.toBits)
  | .fmin h f => some (h, f.toBits)
  | .fmax h f => some (h, f.toBits)
  | .fcmp h _ f => some (h, f.toBits)
  | .fcvt h f => some (h, f.toBits)
  | .br h f => some (h, f.toBits)
  | .jmp h f => some (h, f.toBits)
  | .call h f => some (h, f.toBits)
  | .ret h f => some (h, f.toBits)
  | .loopI h f => some (h, f.toBits)
  | .brkl h => some (h, 0)
  | .rpt h f => some (h, f.toBits)
  | .trap h f => some (h, f.toBits)
  | .vadd h f => some (h, f.toBits)
  | .vsub h f => some (h, f.toBits)
  | .vmul h f => some (h, f.toBits)
  | .vmulHi h f => some (h, f.toBits)
  | .vmad h f => some (h, f.toBits)
  | .vlogAnd h f => some (h, f.toBits)
  | .vlogOr h f => some (h, f.toBits)
  | .vlogXor h f => some (h, f.toBits)
  | .vlogAndn h f => some (h, f.toBits)
  | .vshShl h f => some (h, f.toBits)
  | .vshShr h f => some (h, f.toBits)
  | .vshSra h f => some (h, f.toBits)
  | .vshRot h f => some (h, f.toBits)
  | .vmin h f => some (h, f.toBits)
  | .vmax h f => some (h, f.toBits)
  | .vcmp h _ f => some (h, f.toBits)
  | .vsel h f => some (h, f.toBits)
  | .vfadd h f => some (h, f.toBits)
  | .vfaddSub h f => some (h, f.toBits)
  | .vfmul h f => some (h, f.toBits)
  | .vfma h f => some (h, f.toBits)
  | .vfmaFms h f => some (h, f.toBits)
  | .vfmaFnma h f => some (h, f.toBits)
  | .vfmin h f => some (h, f.toBits)
  | .vfmax h f => some (h, f.toBits)
  | .vfcmp h _ f => some (h, f.toBits)
  | .vsfRcp h f => some (h, f.toBits)
  | .vsfRsqrt h f => some (h, f.toBits)
  | .vsfExp2 h f => some (h, f.toBits)
  | .vsfLog2 h f => some (h, f.toBits)
  | .vsfSin h f => some (h, f.toBits)
  | .vsfCos h f => some (h, f.toBits)
  | .vsfTanh h f => some (h, f.toBits)
  | .vsfSigm h f => some (h, f.toBits)
  | .vcvt h f => some (h, f.toBits)
  | .vcvtBsPack h f => some (h, f.toBits)
  | .vcvtBsUnpack h f => some (h, f.toBits)
  | .vshuf h f => some (h, f.toBits)
  | .vredAdd h f => some (h, f.toBits)
  | .vredMin h f => some (h, f.toBits)
  | .vredMax h f => some (h, f.toBits)
  | .vxcp h f => some (h, f.toBits)
  | .vsplat h f => some (h, f.toBits)
  | .vext h f => some (h, f.toBits)
  | .viota h f => some (h, f.toBits)
  | .vrng h f => some (h, f.toBits)
  | .vplogAnd h f => some (h, f.toBits)
  | .vplogOr h f => some (h, f.toBits)
  | .vplogXor h f => some (h, f.toBits)
  | .vplogAndn h f => some (h, f.toBits)
  | .vpcnt h f => some (h, f.toBits)
  | .ld h f => some (h, f.toBits)
  | .st h f => some (h, f.toBits)
  | .ldv h f => some (h, f.toBits)
  | .stv h f => some (h, f.toBits)
  | .vgath h f => some (h, f.toBits)
  | .vscat h f => some (h, f.toBits)
  | .atomAdd h f => some (h, f.toBits)
  | .atomAnd h f => some (h, f.toBits)
  | .atomOr h f => some (h, f.toBits)
  | .atomXor h f => some (h, f.toBits)
  | .atomMin h f => some (h, f.toBits)
  | .atomMax h f => some (h, f.toBits)
  | .atomSwap h f => some (h, f.toBits)
  | .atomCas h f => some (h, f.toBits)
  | .atomFadd h f => some (h, f.toBits)
  | .atomBfadd h f => some (h, f.toBits)
  | .fence h f => some (h, f.toBits)
  | .flagI h f => some (h, f.toBits)
  | .waitf h f => some (h, f.toBits)
  | .waitfT h f => some (h, f.toBits)
  | .cflushWb h f => some (h, f.toBits)
  | .cflushInv h f => some (h, f.toBits)
  | .cflushWbinv h f => some (h, f.toBits)
  | .pref h f => some (h, f.toBits)
  | .cpy h f => some (h, f.toBits)
  | .cpyScale h f => some (h, f.toBits)
  | .ringBind h f => some (h, f.toBits)
  | .ringGet h f => some (h, f.toBits)
  | .ringCommit h f => some (h, f.toBits)
  | .ringEos h f => some (h, f.toBits)
  | .ringFree h f => some (h, f.toBits)
  | .ringStat h f => some (h, f.toBits)
  | .spawn h f => some (h, f.toBits)
  | .spawnL h f => some (h, f.toBits)
  | .depAdd h f => some (h, f.toBits)
  | .depSignal h f => some (h, f.toBits)
  | .suspSuspend h f => some (h, f.toBits)
  | .suspYield h f => some (h, f.toBits)
  | .suspFinish h f => some (h, f.toBits)
  | .barArrive h f => some (h, f.toBits)
  | .barWait h f => some (h, f.toBits)
  | .barBoth h f => some (h, f.toBits)
  | .getcCoord h f => some (h, f.toBits)
  | .getcShape h f => some (h, f.toBits)
  | .getcLaunch h f => some (h, f.toBits)
  | .getcCore h f => some (h, f.toBits)
  | .rput h f => some (h, f.toBits)
  | .rputSig h f => some (h, f.toBits)
  | .rcopy h f => some (h, f.toBits)
  | .rcopySig h f => some (h, f.toBits)
  | .rsem h f => some (h, f.toBits)
  | .rred h f => some (h, f.toBits)
  | .mcred h f => some (h, f.toBits)
  | .qpost h f => some (h, f.toBits)
  | .mbxPost h f => some (h, f.toBits)
  | .mbxTake h f => some (h, f.toBits)
  | .mbxStatus h f => some (h, f.toBits)
  | .mbxPostnb h f => some (h, f.toBits)
  | .rack h f => some (h, f.toBits)
  | .wcfg h f => some (h, f.toBits)
  | .wcfgEg h f => some (h, f.toBits)
  | .pack h f => some (h, f.toBits)
  | .packRev h f => some (h, f.toBits)
  | .packLimb h f => some (h, f.toBits)
  | .wmulConv h f => some (h, f.toBits)
  | .wmulCorr h f => some (h, f.toBits)
  | .wmulLimb h f => some (h, f.toBits)
  | .wmulOuter h f => some (h, f.toBits)
  | .wmulOuterSp h f => some (h, f.toBits)
  | .wmacConv h f => some (h, f.toBits)
  | .wmacCorr h f => some (h, f.toBits)
  | .wmacLimb h f => some (h, f.toBits)
  | .wmacOuter h f => some (h, f.toBits)
  | .wmacOuterSp h f => some (h, f.toBits)
  | .extrDigm h f => some (h, f.toBits)
  | .extrDigs h f => some (h, f.toBits)
  | .extrLimb h f => some (h, f.toBits)
  | .extrTile h f => some (h, f.toBits)
  | .extrTileClr h f => some (h, f.toBits)
  | .wclr h f => some (h, f.toBits)
  | .wmov h f => some (h, f.toBits)
  | .sbindA h f => some (h, f.toBits)
  | .sbindB h f => some (h, f.toBits)
  | .sbindUnbind h f => some (h, f.toBits)
  | .mcall h f => some (h, f.toBits)
  | .mpld h f => some (h, f.toBits)
  | .mldr h f => some (h, f.toBits)
  | .mldrEntries h f => some (h, f.toBits)
  | .ftld h f => some (h, f.toBits)
  | .scld h f => some (h, f.toBits)
  | .scldRd h f => some (h, f.toBits)
  | .metaqPush h f => some (h, f.toBits)
  | .metaqClear h f => some (h, f.toBits)
  | .wstat h f => some (h, f.toBits)
  | .wstatClr h f => some (h, f.toBits)
  | .mloop h f => some (h, f.toBits)
  | .mjmp h f => some (h, f.toBits)
  | .mret h f => some (h, f.toBits)
  | .apxb h f => some (h, f.toBits)
  | .apxe h f => some (h, f.toBits)
  | .apxc h f => some (h, f.toBits)
  | .apxsRd h f => some (h, f.toBits)
  | .apxsWr h f => some (h, f.toBits)
  | .apxsInv h f => some (h, f.toBits)
  | .csrRd h f => some (h, f.toBits)
  | .csrWr h f => some (h, f.toBits)
  | .csrSet h f => some (h, f.toBits)
  | .csrClr h f => some (h, f.toBits)
  | .rft h => some (h, 0)
  | .tlbiAll h f => some (h, f.toBits)
  | .tlbiAddr h f => some (h, f.toBits)
  | .tlbiCtx h f => some (h, f.toBits)
  | .ctxSave h f => some (h, f.toBits)
  | .ctxRestore h f => some (h, f.toBits)
  | .wfe h => some (h, 0)
  | .halt h => some (h, 0)
  | _ => none

/-- The word with a header, major, FN and payload (06 Table 6-1). -/
def packWord (h : Hdr) (opc fn : Nat) (p : BitVec 56) : IWord :=
  BitVec.ofBool h.stop ++ BitVec.ofNat 7 opc ++ h.pr ++ h.ta ++ h.tc ++ BitVec.ofNat 6 fn ++ p

/-- The word of an instruction; none for a device event. -/
def encode (i : Instr) : Option IWord :=
  match opFn i, headPayload i with
  | some (opc, fn), some (h, p) => some (packWord h opc fn p)
  | _, _ => none

/-- The bytes of a word, lowest address first (00 R5). -/
def bytesOfWord (w : IWord) : List Byte := (List.range 10).map (fun k => w.extractLsb' (8 * k) 8)

/-- What the decoder reads from an instruction whose bits are w (bits above nbits are zero). -/
def decodeTableWord (nbits w : Nat) : Option Instr :=
  match decode (bytesOfWord (BitVec.ofNat 80 (w % 2 ^ nbits))) with
  | .ok (i, _) => some i
  | .error _ => none

end Sys2Proof
end

