-- ==== Sys2Proof/Machine/State.lean ====
section
/-! DEFINITION. The state of one package as plain data: task slots, cores, blocks, dies, memories, and the units of the
second book.  Register files and memories are sparse lists of (key, value) with rising keys and no default entries. -/

namespace Sys2Proof
namespace Machine

/-- A sparse map: keys strictly rising, no entry equal to the default. -/
abbrev SMap (β : Type) := List (Nat × β)
/-- Memory: bytes at rising addresses, none equal to what an unlisted address reads as, which is zero. -/
abbrev Mem := List Host.Cell
/-- A vector register of one cluster: 16 lanes of 32 bits (03 R61). -/
abbrev Vec := BitVec 512

/-- The states of a task (02 Table 2-1). -/
inductive TState where
  | empty | pending | ready | running | waiting | parked | done | error
  deriving DecidableEq, Repr

/-- The privilege levels (17 R431). -/
inductive Level where
  | t | s | f
  deriving DecidableEq, Repr

/-- The trap causes (17 Table 17-3). -/
inductive Cause where
  | illegalOpcode | illegalEncoding | illegalGroup | regUndeclared | barUndeclared | priv | misalign | windowStraddle
  | podRead | addrUnmapped | loopDepth | pageNotPresent | perm | enginePerm | ownership | remoteAtomic | dataPoison
  | guardOverflow | format | streamEosMisuse | mseqOutside | fpTrap | remoteError | user (n : BitVec 6)
  deriving DecidableEq, Repr

/-- The kinds of traps (17 Traps): group, precise, deferred, user. -/
inductive TKind where
  | g | p | f | u
  deriving DecidableEq, Repr

/-- A trap that has been raised. -/
structure Trap where
  cause : Cause
  info : Word
  wpc : BitVec 32
  deriving DecidableEq, Repr

/-- A hardware loop frame (07 R222). -/
structure LoopFrame where
  s0 : BitVec 32
  e : BitVec 32
  n : BitVec 32
  k : BitVec 32
  deriving DecidableEq, Repr

/-- A register as a destination (17 Table 17-7); `v` and `vq` name the clusters of a mask. -/
inductive RegRef where
  | s (i : Nat) | q (i : Nat) | p (i : Nat)
  | v (cm : BitVec 8) (i : Nat) | vq (cm : BitVec 8) (i : Nat) | vp (c i : Nat)
  | eng (code : BitVec 8) | mcall (wm : Nat) | none
  deriving DecidableEq, Repr

/-- A fixed-latency result in flight (06 R178, R181): `left` issue cycles remain; `val` of 64 bits or 16 lanes goes to the
lanes of `mask`; `entry` is its last-result entry (03 R64, R65); `flags` join FPC (04 R108), `en` the captured enables. -/
structure Landing where
  unit : Nat
  dst : RegRef
  left : Nat
  val : Vec
  mask : BitVec 16
  entry : Option Vec
  flags : BitVec 5
  en : BitVec 5
  wpc : BitVec 32
  deriving DecidableEq, Repr

/-- What retires a tag's result (06 R182): a value that returns, with the address of poison met if any (17 R440); a copy
command (09 R283); a routine (11 R351); a remote word, a read or an atomic of a peer chip (19 R490), `acq` for one that acquires
(05 R136); several reads of a load, with what has come of its result, which lands whole with the last of them (06 R185); or a wait (09
R276). -/
inductive TagOp where
  | value (v : BitVec 4096) (poison : Option Word)
  | copy (id : Nat)
  | routine (wm : Nat)
  | remote (seq : Nat) (acq : Bool := false)
  | parts (seqs : List Nat) (acq : Bool) (image : BitVec 4096)
  | wait
  | none
  deriving DecidableEq, Repr

/-- One result that a tag awaits. -/
structure TagRes where
  dst : RegRef
  op : TagOp
  wpc : BitVec 32
  deriving DecidableEq, Repr

/-- The state that level S has its own copy of (17 R432): the task's bank and the S bank. `sHi` is s120 to s127. -/
structure Bank where
  sHi : SMap Word := []
  p : BitVec 8 := 1
  fpc : BitVec 32 := 0x10
  ds : List Word := []
  loops : List LoopFrame := []
  tags : SMap (List TagRes) := []
  inflight : List Landing := []
  deriving DecidableEq, Repr

/-- The task's registers that no handler has a copy of (03 R61), by number; vector files by 64c + i, 8c + i. -/
structure Files where
  s : SMap Word := []
  q : SMap Word := []
  v : SMap Vec := []
  vq : SMap Vec := []
  vp : SMap (BitVec 16) := []
  dv : SMap (List Vec) := []
  deriving DecidableEq, Repr

/-- The task's control and trap registers (17 Tables 17-1, 17-2, 17-8). -/
structure Csrs where
  ctxstat : BitVec 6 := 0
  oorAddr : Word := 0
  rptrem : BitVec 7 := 0
  apxregion : BitVec 7 := 0
  trapDefer : Bool := false
  trapCause : BitVec 8 := 0
  trapPc : BitVec 32 := 0
  trapInfo : Word := 0
  trapWpc : BitVec 32 := 0
  rplNext : BitVec 32 := 0
  heldFp : Option Trap := none
  heldRoutine : Option Trap := none
  heldPoison : Option Trap := none
  heldRemote : Option Trap := none
  deriving DecidableEq, Repr

/-- What the replay buffer keeps of an unperformed word (17 R445): its enable, FPC capture, lane masks by cluster, and the
last-result files as they stood at the group's original issue. -/
structure Capture where
  en : Bool
  fpc : BitVec 32
  masks : SMap (BitVec 16)
  ds : List Word
  dv : SMap (List Vec)
  deriving DecidableEq, Repr

/-- The replay buffer (17 R436, R445). `taken` and `point`: whether the buffered group has transferred control, and whether its
BRKL has made it a pre-emption point (02 R56). -/
structure Replay where
  valid : Bool := false
  leadPc : BitVec 32 := 0
  perf : BitVec 8 := 0
  count : BitVec 4 := 0
  words : List IWord := []
  caps : SMap Capture := []
  taken : Bool := false
  point : Bool := false
  deriving DecidableEq, Repr

/-- How a group leaves the slot when it closes. -/
inductive GroupEnd where
  | next | yield | finish | suspend (rec : Word) (pc : Option (BitVec 32)) | halt | rft
  deriving DecidableEq, Repr

/-- The group in progress (06 R176): its PC and words, the word whose turn it is, what has performed, the first trap, the
control transfer, whether a BRKL of it has left its loop already (`point`), and the repeat of an RPT group.  `csrs` are the CSR writes that land at the end of the cycle, `ctxSet` the
CTXSTAT bits that events have set in it, `ctx0` CTXSTAT as the group issued (17 R437). -/
structure Group where
  pc : BitVec 32
  words : List IWord
  idx : Nat := 0
  perf : BitVec 8 := 0
  checked : Bool := false
  reissue : Bool := false
  trap : Option Trap := none
  walks : Bool := false
  user : Option Trap := none
  userBit : BitVec 8 := 0
  target : Option (BitVec 32) := none
  push : Option LoopFrame := none
  brkl : Bool := false
  point : Bool := false
  bubble : Bool := false
  rptCount : Nat := 0
  rptM : Nat := 0
  rptStep : BitVec 4 := 0
  fin : GroupEnd := .next
  finBit : BitVec 8 := 0
  defer : List Trap := []
  caps : SMap Capture := []
  csrs : List (Nat × Word) := []
  ctxSet : BitVec 6 := 0
  ctx0 : Option (BitVec 6) := none
  deriving DecidableEq, Repr

/-- Where a byte lies physically (03 R68 to R74, 19 R483).  `oor` is out of range (03 R82); `denied` reads zero and drops
writes (21 R538, 22 R548), with its local address where it is HBM; `ext` is HBM through a leaf of aperture 11. -/
inductive Loc where
  | oor
  | denied (a : Option Nat)
  | scr (core ofs : Nat)
  | sync (die ofs : Nat)
  | flag (part ofs : Nat)
  | ctr (block ofs : Nat)
  | hbm (a : Nat)
  | ext (a : Nat)
  | host (a : Nat)
  | peer (chip : Nat) (ofs : Nat)
  deriving DecidableEq, Repr

/-- A run of bytes at one place. -/
structure Seg where
  loc : Loc
  len : Nat
  deriving DecidableEq, Repr

/-- A segment entry (20 Table 20-5), with the partition of its job. -/
structure SegEnt where
  base : Nat
  limit : Nat
  rights : Nat
  hbm : Bool
  tcore : Nat
  part : Nat
  deriving DecidableEq, Repr

/-- The kinds of waits (17 Table 17-6 WAITKIND). -/
inductive WaitKind where
  | waitf | waitfT | bar | ringGet | mbxTake
  deriving DecidableEq, Repr

/-- Where a monitor stands (09 R278, 18 R568). -/
inductive MonPlace where
  | none | table | overflow | deferred
  deriving DecidableEq, Repr

/-- A wait in progress (09 R275, R277, R287, R297; 17 Table 17-6). `order` is the arrival order of monitors, `entry` the entry of
the overflow area that holds a spilled one (18 R473). -/
structure Wait where
  kind : WaitKind
  addr : Word
  val : Word
  rel : BitVec 2
  loc : Loc
  deadline : Option Nat
  tag : Nat
  place : MonPlace
  order : Nat
  since : Nat
  entry : Nat := 0
  deriving DecidableEq, Repr

/-- The counts of a kernel header (02 Table 2-8). -/
structure Header where
  entry : BitVec 32 := 0
  codeLen : Nat := 0
  ns : Nat := 0
  nq : Nat := 0
  nv : Nat := 0
  nvq : Nat := 0
  nw : Nat := 0
  nacc : Nat := 0
  nta : Nat := 0
  nrh : Nat := 0
  nbar : Nat := 0
  stages : Nat := 1
  scratch : Nat := 0
  routines : Nat := 0
  routLen : Nat := 0
  napx : Nat := 0
  apxTab : Nat := 0
  data : Nat := 0
  dataLen : Nat := 0
  deriving DecidableEq, Repr

/-- Who the slot's task is (02 Tables 2-2, 2-4; 03 R62): its record, kernel, launch and the first register of its range in
each per-core file. -/
structure TaskId where
  recAddr : Word := 0
  kernel : Word := 0
  part : Nat := 0
  handle : Nat := 0
  coord : BitVec 32 := 0
  affinity : Word := 0
  prio : Nat := 0
  member : Bool := true
  w0 : Nat := 0
  acc0 : Nat := 0
  ta0 : Nat := 0
  rh0 : Nat := 0
  seq : Nat := 0
  hdr : Header := {}
  deriving DecidableEq, Repr

/-- A walk that a word, or a fetch, waits for (17 R439, 19 R488): the address, the access, and the cycle of the miss. -/
structure Walk where
  addr : Word
  fetch : Bool
  write : Bool
  atomic : Bool
  wpc : BitVec 32
  since : Nat := 0
  deriving DecidableEq, Repr

/-- A pre-emption request on a task (18 R469 to R471): the level-T cycles counted up to cycle `since`, whether it counts from
there, whether it has landed. -/
structure PreReq where
  count : Nat := 0
  since : Nat := 0
  counting : Bool := true
  landed : Bool := false
  deriving DecidableEq, Repr

/-- The open Equinox sample (13 R392). -/
structure ApxSample where
  rslot : Nat
  inputs : List (BitVec 64)
  gen : Nat
  deriving DecidableEq, Repr

/-- A stream port's binding (10 R315 to R318, 17 Table 17-10): the handle with the port's own INDEX and EOS, the bytes of the
slot already used, and the bytes of the lines already read for the next step, which begins in the slot of handle `gotH` at its byte
`gotPos`; `idx` is the handle's number. -/
structure Port where
  h : Word := 0
  idx : Nat := 0
  pos : Nat := 0
  got : List Byte := []
  gotH : Word := 0
  gotPos : Nat := 0
  deriving DecidableEq, Repr

/-- A value in the cells: NaN, an infinity, or m · 2^e exactly (04 R119 to R125). -/
inductive XVal where
  | nan
  | inf (neg : Bool)
  | fin (neg : Bool) (m : Nat) (e : Int)
  deriving DecidableEq, Repr

/-- The hidden partial of one tile element (04 R120 to R122): the products of the open group, oldest first, each with the sum
of its operands' exponents, the count n of its k-values, the scale codes of its block, whether R122 truncates it, and whether steps
that differ in these joined one group, of which the manual gives no T. -/
structure TileP where
  prods : List (XVal × Int) := []
  xa : Nat := 127
  xb : Nat := 127
  trunc : Bool := false
  mixed : Bool := false
  n : Nat := 0
  deriving DecidableEq, Repr

/-- A tile accumulator (03 R61, 04 R120, 11 R337): S by 96i + j, the open groups, KCOUNT, and whether it has been written since
WCLR (17 R449). -/
structure Tile where
  s : SMap Word := []
  p : SMap TileP := []
  kcount : BitVec 32 := 0
  live : Bool := false
  deriving DecidableEq, Repr

/-- What a task's registers would hold after the true code of a region: what R394 lets them hold beside their values at its APXB (13
R393, R394).  The model's own. -/
structure Truth where
  bank : Bank
  files : Files
  mp : SMap Word
  w : SMap (BitVec 12)
  acc : SMap (BitVec 48)
  ta : SMap Tile
  deriving DecidableEq, Repr

/-- The fetch of a group that lies on a page of another chip (19 R490): the address of its first word, the bytes that have come by their
address, the number of the read outstanding, and the first byte that carried poison. -/
structure PeerFetch where
  base : Nat
  got : SMap Byte := []
  seq : Option Nat := none
  bad : Option Nat := none
  deriving DecidableEq, Repr

/-- A task slot (01 Table 1-1 Task slots). `wfe` is a WFE in progress: EVTCNT at its issue and the cycle of its limit (17
R454); `parks` a PARKED task whose frame waits for its loads and copy commands (17 R451); `ends` what a SUSP of a group does when the handler of a
trap that came with it returns (07 R231); `fetch` a fetch from another chip under way (19 R490); `notBefore` the cycle of its first
group after a dispatch (18 R461); `truth` stands only between a turn's look ahead and the APXB that it runs. -/
structure Slot where
  st : TState := .empty
  id : TaskId := {}
  level : Level := .t
  tb : Bank := {}
  sb : Bank := {}
  files : Files := {}
  vIssued : Bool := false
  pc : BitVec 32 := 0
  codeBase : Word := 0
  hBase : Word := 0
  hLen : Nat := 0
  csr : Csrs := {}
  rpl : Replay := {}
  rptResume : Bool := false
  grp : Option Group := none
  wait : Option Wait := none
  wfe : Option (Word × Nat) := none
  refused : BitVec 32 := 0
  first : BitVec 8 := 0
  walk : Option Walk := none
  mp : SMap Word := []
  wmcfg : SMap (BitVec 32) := []
  apx : Option ApxSample := none
  bars : SMap Nat := []
  ports : SMap Port := []
  pre : Option PreReq := none
  parks : Bool := false
  ends : GroupEnd := .next
  notBefore : Nat := 0
  truth : Option Truth := none
  fetch : Option PeerFetch := none
  deriving DecidableEq, Repr

/-- Which task an engine works for: its slot when it commanded, its record and the level of the bank that its tag is in. -/
structure Owner where
  core : Nat
  slot : Nat
  recAddr : Word
  seq : Nat
  level : Level
  deriving DecidableEq, Repr

/-- An MLOOP frame (11 R355, 17 Table 17-9). -/
structure MFrame where
  first : Nat
  last : Nat
  n : BitVec 32
  k : BitVec 32
  deriving DecidableEq, Repr

/-- A matrix routine in a sequencer (11 R351, 17 Table 17-9); `added` lists the tiles of its task that its steps
added to, each as 128 j + the limit of their rows and columns. -/
structure Routine where
  own : Owner
  rpc : Nat
  entry : BitVec 8
  tag : Nat
  token : RegRef
  wmcfg : BitVec 32
  fpc : BitVec 32
  steps : Nat
  callPc : BitVec 32
  kcap : List (BitVec 32)
  mloops : List MFrame
  mp : List Word
  acq : Bool
  rel : Bool
  scope : BitVec 3
  done : Bool
  order : Nat
  added : List Nat
  deriving DecidableEq, Repr

/-- A wide multiplier (10): its status (Table 10-5), scale memory and sequencer. -/
structure Wm where
  gdig : BitVec 8 := 0
  flags : BitVec 6 := 0
  scale : Mem := []
  run : Option Routine := none
  pend : Option Routine := none
  deriving DecidableEq, Repr

/-- An engine's wait for a page (19 R492): EVTCNT at the walk that failed last, and the byte of its fault record. -/
structure PageWait where
  evt : Word
  addr : Word
  deriving DecidableEq, Repr

/-- A copy command in an engine or in the intake (09 R279 to R284): `pos` bytes, lines or entries are behind it; `waits` a
page that it waits for (19 R492); `got` is what has been read of the piece in progress, `asked` says that a read of its source
on a peer page is under way; `line` is what has been read of the line in progress, or beyond the piece of a plain copy, `due` the scale entries written so far, and
`outs` counts its writes to peer pages that are not acknowledged (05 R142). -/
structure CopyCmd where
  own : Owner
  tag : Nat
  dst : RegRef
  wpc : BitVec 32
  isScale : Bool
  d : Word
  s : Word
  lines : Nat
  lay : List Byte
  t : Word
  acq : Bool
  rel : Bool
  scope : BitVec 3
  engine : Option Nat
  pos : Nat
  doneN : Nat
  code : BitVec 8
  finished : Bool
  waits : Option PageWait := none
  asked : Bool := false
  got : List Byte := []
  gotBad : Bool := false
  line : List Byte := []
  lineBad : Bool := false
  badUnits : List Nat := []
  due : List (Nat × List Byte) := []
  outs : Nat := 0
  handle : Nat
  scratch : Nat
  job : Nat
  part : Nat
  deriving DecidableEq, Repr

/-- A translation held in a TLB (19 R488): partition, context, first address, size in bits, target and rights; `group` where its leaf is
one of a contiguous group, whose first stands at `leafAddr` (19 R484). -/
structure TlbEntry where
  part : Nat
  ctx : Nat
  base : Nat
  bits : Nat
  target : Nat
  aperture : BitVec 2
  rap : Bool
  r : Bool
  w : Bool
  x : Bool
  hostOwn : Bool
  dirty : Bool
  peer : BitVec 11
  eperm : BitVec 32
  leafAddr : Nat
  group : Bool := false
  deriving DecidableEq, Repr

/-- A launch's scratchpad region on a core (03 R71, 18 R463). -/
structure Region where
  handle : Nat
  base : Nat
  size : Nat
  deriving DecidableEq, Repr

/-- Scale entries of a CPY.SCALE that has completed and whose token its task has not consumed: no routine sees them yet (09 R283).
The task, the tag, the token's register, the WM, and the bytes by their address. -/
structure ScaleDue where
  seq : Nat
  tag : Nat
  dst : RegRef
  wm : Nat
  parts : List (Nat × List Byte)
  deriving DecidableEq, Repr

/-- A core (01 R16). `w` by 96r + slot, `acc` by 192r + lane; `loading` counts reads of MLDR from peer pages in flight,
whose pieces of words that two of them share stand in `pieces`, by the load and the byte (11 R348). -/
structure Core where
  slots : SMap Slot := []
  w : SMap (BitVec 12) := []
  acc : SMap (BitVec 48) := []
  ta : SMap Tile := []
  rh : SMap Word := []
  sq : SMap (List (List (BitVec 12))) := []
  ft : SMap Word := []
  wms : SMap Wm := []
  store : SMap IWord := []
  entries : SMap (BitVec 16) := []
  loading : Nat := 0
  pieces : SMap (List (Nat × Byte)) := []
  scr : Mem := []
  lines : SMap (BitVec 2) := []
  regions : List Region := []
  copies : SMap CopyCmd := []
  scaleDue : List ScaleDue := []
  nextCopy : Nat := 0
  acks : Nat := 0
  nextRemote : Nat := 0
  tlb : List TlbEntry := []
  resetCycle : Nat := 0
  fenced : Bool := false
  halted : Bool := false
  deriving DecidableEq, Repr

/-- A remote word on its way through the egress path (12 R361, R364): the operation and its operand values. `fired` is the
QPOST entry that sent it; `waits` is a page that it waits for (19 R492); `asked` and `got` are a read of its source on a
peer page; `reply` says what a read serves: a register (0), a copy command (1), the source of another word (2), the routine
store (3), the entry table (4) or a fetch (6); of a put, 5 says that the copy command of number `b` sent it.  `npk` counts its packets,
`left` the response bytes outstanding, whose parts begin at `came`; `bad` is the reason code that its source read has earned it; `lay`
is the layout record that RCOPY has read; `via` the context and the address through whose translation the word goes to a peer page, where
it is known (17 R453); `poison` says that the data of a put carries poison (09 R284). -/
structure RemoteWord where
  op : Nat
  a : Word
  b : Word
  c : Word
  d : Word
  fill : Bool
  eos : Bool
  sig : Bool
  ty : BitVec 4
  acq : Bool
  scope : BitVec 3
  data : List Byte
  core : Nat
  own : Owner
  tag : Nat
  wpc : BitVec 32
  part : Nat
  job : Nat
  fired : Option Nat
  seq : Nat
  handle : Nat
  scratch : Nat
  waits : Option PageWait := none
  asked : Bool := false
  got : List Byte := []
  reply : Nat := 0
  npk : Nat := 0
  left : Nat := 0
  bad : Nat := 0
  lay : List Byte := []
  timed : Bool := false
  via : Option (Nat × Nat) := none
  poison : Bool := false
  came : List Nat := []
  deriving DecidableEq, Repr

/-- A mailbox entry (12 R363, R375). -/
inductive MbxEntry where
  | hw (w : RemoteWord)
  | sw (sender : Nat) (payload : BitVec 56)
  deriving DecidableEq, Repr

/-- An armed QPOST work entry (12 R378 to R382): its 64 bytes, the resolved flag, the arming task, and its progress; `acked` is the
code of the acknowledgement of an entry whose release still waits for others (05 R156). -/
structure QEntry where
  bytes : List Byte
  watch : Loc
  cpl : Loc
  own : Owner
  part : Nat
  job : Nat
  ready : Option Nat
  sent : Bool
  late : Bool
  skew : Bool
  order : Nat
  handle : Nat
  scratch : Nat
  acked : Option Nat := none
  deriving DecidableEq, Repr

/-- An Equinox region slot (13 R385 to R397). `part` and `kernel` and `region` are its key; `table` is the region table's entry
as it was bound; `ctxs` are the contexts of the launches that it is bound to, in which its code is translated; `gen` counts the times
that open executions were told to record nothing. -/
structure RSlot where
  part : Nat
  kernel : Word
  region : Nat
  state : Nat
  bpc : Nat
  epc : Nat
  nin : Nat
  nout : Nat
  hid : Nat
  inreg : List (BitVec 8)
  outreg : List (BitVec 8)
  batch : BitVec 2
  lr : BitVec 5
  samp : BitVec 4
  thresh : BitVec 32
  weights : SMap (BitVec 32)
  buffer : List (List (BitVec 32) × List (BitVec 32))
  window : List (BitVec 32)
  exec : BitVec 32
  subst : BitVec 32
  ctxs : List Nat
  table : List Byte
  gen : Nat
  deriving DecidableEq, Repr

/-- The arrivals at one barrier of a gang (09 R297): for each member the phases it has arrived in, the barrier's phases
completed, and the members that are DONE. -/
structure Barrier where
  arrived : SMap Nat := []
  phase : Nat := 0
  deriving DecidableEq, Repr

/-- A co-resident gang on its block (02 R52, R53): its launch, index, size, barriers, DONE members, and those in ERROR (`lost`);
`away` while its members are out of their slots (18 R472). -/
structure Gang where
  part : Nat
  handle : Nat
  index : Nat
  size : Nat
  nbar : Nat
  done : List Nat
  bars : SMap Barrier
  away : Bool := false
  lost : List Nat := []
  deriving DecidableEq, Repr

/-- A block (01 Table 1-1 Per block); `mbxSurplus` and `augSurplus` are what one word has sent beyond the 16 entries of the mailbox or the
August queue, which follows as entries come free (12 R362, R363). -/
structure Block where
  owner : Option Nat := none
  fenced : Bool := false
  august : Nat := 0
  ctr : SMap Word := []
  mailbox : List MbxEntry := []
  augQ : List RemoteWord := []
  mbxSurplus : List RemoteWord := []
  augSurplus : List RemoteWord := []
  fired : List RemoteWord := []
  qtab : SMap QEntry := []
  nextQ : Nat := 0
  eqx : SMap RSlot := []
  gangs : List Gang := []
  deriving DecidableEq, Repr

/-- What the device keeps with a context in memory beside the bytes of its frame (17 R451; 06 R181): how in-flight results
land, what retires each tag, port positions, hidden partials, the order of routines, whether the buffered group transferred
control and is a pre-emption point, and the scale entries of the WMs whose routines move with it that no routine sees yet (09 R283). -/
structure Side where
  flight : List Landing := []
  tags : SMap (List TagRes) := []
  ports : SMap Port := []
  tiles : SMap Tile := []
  order : SMap Nat := []
  added : SMap (List Nat) := []
  taken : Bool := false
  point : Bool := false
  rh : List Word := []
  refused : BitVec 32 := 0
  first : BitVec 8 := 0
  scaleDue : List ScaleDue := []
  deriving DecidableEq, Repr

/-- A task record that March holds (18 R457 to R472): where its context is, its queue arrival, what it needs of its record;
`member` for a task of a gang, which a spawned task is not; `dispAt` the cycle of its last dispatch; `hdr` the header of its own
KERNEL where that is not its launch's, itself none where no good header stands there. -/
structure TRec where
  addr : Word
  part : Nat
  st : TState
  prio : Nat
  handle : Nat
  since : Nat
  arrival : Nat
  coord : BitVec 32
  affinity : Word
  kernel : Word
  cont : Bool
  seq : Nat
  place : Option (Nat × Nat)
  held : Option (Nat × Nat)
  cell : Option Nat
  wait : Option Wait
  inSram : Bool
  member : Bool
  dispAt : Nat
  pre : Option PreReq
  side : Side
  copy : List Byte
  hdr : Option (Option Header) := none
  deriving DecidableEq, Repr

/-- One partition's copy of a die's March registers (18 Table 18-1), whether MONOVFBASE has been written (18 R473), and its
EVTCNT (17 R454). -/
structure MarchRegs where
  pwin : BitVec 32 := 0x10000
  pdelta : BitVec 7 := 16
  preempt : Word := 0
  resume : Word := 0
  launchkill : BitVec 16 := 0
  framebase : BitVec 48 := 0
  framecnt : BitVec 16 := 0
  monovfbase : BitVec 59 := 0
  monovfcnt : BitVec 32 := 0
  ovfSet : Bool := false
  monspill : Word := 0
  evtcnt : Word := 0
  cells : List Nat := []
  deriving DecidableEq, Repr

/-- The target of a reservation (18 R465): a block or a core. -/
inductive Target where
  | block (b : Nat) | core (c : Nat)
  deriving DecidableEq, Repr

/-- A table entry held in a walk cache (19 R488): the partition, its intermediate address and its 128 bits. -/
structure WalkLine where
  part : Nat
  addr : Nat
  bits : Nat
  deriving DecidableEq, Repr

/-- An access of an engine, or of a CTX word, that waits for its walk's turn (19 R488): its core, engine, context and granule, and the
cycle of its miss. -/
structure MissWait where
  core : Nat
  engine : Nat
  part : Nat
  ctx : Nat
  page : Nat
  since : Nat
  deriving DecidableEq, Repr

/-- A C-die: its March and its Solstice (18, 09 R275). `decided` and `scanned` are the cycles after its last dispatch decision and
its last monitor scan (18 R461, R474); `wcache` its walk cache, `misses` the accesses of engines that wait for a walk (19 R488). -/
structure Die where
  recs : List TRec := []
  regs : SMap MarchRegs := []
  reserve : Option (Nat × Target) := none
  gangBlock : List ((Nat × Nat) × Nat) := []
  sync : Mem := []
  l2tlb : List TlbEntry := []
  monOrder : Nat := 0
  fenced : Bool := false
  decided : Nat := 0
  scanned : Nat := 0
  wcache : List WalkLine := []
  misses : List MissWait := []
  deriving DecidableEq, Repr

/-- A launch (02 R40 to R43): its partition, the descriptor's fields that outlive intake, its error count, and whether it has
completed. -/
structure Launch where
  part : Nat
  handle : Nat
  job : Nat
  noaff : Bool
  cplMsi : Bool
  gangSz : Nat
  gangs : Nat
  chips : Nat
  stages : Nat
  kernel : Word
  hdr : Header
  affBase : Word
  affG : Word
  cplFlag : Word
  cplStat : Word
  errcnt : Nat
  live : Nat
  killed : List Nat
  port : Option (Nat × Nat)
  vec : BitVec 16
  completed : Bool
  deriving DecidableEq, Repr

/-- A descriptor that waits for launch intake (02 R40): the 128 bytes' address, and who submitted it. -/
structure Intake where
  part : Nat
  addr : Word
  ctx : Nat
  core : Option Nat
  host : Option (Nat × Nat)
  cpl : Word
  tag : BitVec 32
  flags : BitVec 8
  vec : BitVec 16
  deriving DecidableEq, Repr

/-- The TDISP state of a partition (22 R550). -/
inductive TdiState where
  | unlocked | locked | run | error
  deriving DecidableEq, Repr

/-- A fault record held back (19 R493). -/
structure FaultRec where
  bytes : List Byte
  deriving DecidableEq, Repr

/-- A partition (17 Table 17-1, 19 R479, R493, 22 R546 to R556); `returns` is what the performance counters count as returns (07
R218, 22 R555), `vf` the virtual function of its port that it is bound to (01 R15, 21 R524, 22 R550).  `key` is its key for memory
(22 R548), `ideKey` that of its IDE stream while it is locked or in RUN (22 R550), `tables` the runs of HBM that a lock freezes (22 R551),
and `policy` the digest of its debug policy, where one was taken (22 R554). -/
structure Partition where
  port : Nat := 0
  units : List Nat := []
  shareBase : List Nat := []
  shareSize : List Nat := []
  errBase : Word := 0
  errCnt : BitVec 32 := 0
  errIdx : Nat := 0
  keyDigest : BitVec 384 := 0
  incarn : BitVec 32 := 0
  dbgPol : Word := 0
  trapVec : Word := 0
  ptBase : Word := 0
  ptCtl : Word := 0
  fltqBase : Word := 0
  head : BitVec 32 := 0
  tail : BitVec 32 := 0
  held : List FaultRec := []
  tdi : TdiState := .unlocked
  stage2 : Option Nat := none
  s2Units : List Nat := []
  flagRam : Mem := []
  flagHost : List Nat := []
  flagMod : List Nat := []
  returns : Nat := 0
  vf : Nat := 0
  key : BitVec 512 := 0
  ideKey : BitVec 256 := 0
  tables : List (Nat × Nat) := []
  policy : Option (BitVec 384) := none
  deriving DecidableEq, Repr

/-- A Spring or Fall record and its progress (16 R417 to R421): its bytes, and once bound the core, the region base, and the
stream byte reached. -/
structure SfRec where
  bytes : List Byte
  part : Nat
  bound : Option (Nat × Nat × Nat)
  pos : Nat
  poison : Bool
  ended : Bool
  waits : Option PageWait := none
  deriving DecidableEq, Repr

/-- An MSI-X write (21 R528, R534): the port, the partition that it concerns and the vector, with the address and data of the
function's table entry. -/
structure Msix where
  port : Nat
  part : Nat
  vec : Nat
  addr : Word := 0
  data : BitVec 32 := 0
  deriving DecidableEq, Repr

/-- A key bank of a link direction (20 R505, R510). -/
structure KeyBank where
  key : BitVec 256
  salt : BitVec 32
  ctr : BitVec 64
  deriving DecidableEq, Repr

/-- A link (20 R503 to R510): working lanes, stream byte k, sequence numbers, the flits not yet acknowledged, all flits sent,
the packets whose flits are not all acknowledged by the SEQ of their last flit, received payload not yet cut into packets by
virtual channel, key banks, the SEQ last sent under a replaced bank, and the SEQ of a KEYDONE not yet accepted.  `lanes` are those of
the sending direction and `rxLanes` those of the other, each by its physical number; `txDone` counts the bytes already sent of the first
waiting packet of a channel, `ctrl` lists the control flits that wait, `owes` says that an acceptance has not been told, `owed` the flit
buffers freed and not yet told, `used` the flits of a channel whose buffers are not known to be free, and `since` is the cycle at which
a retraining began. -/
structure Link where
  ports : List Nat := []
  lanes : List Nat := []
  up : Bool := false
  retraining : Bool := false
  failures : Nat := 0
  fenced : Bool := false
  k : Nat := 0
  txSeq : BitVec 10 := 0
  rxNext : BitVec 10 := 0
  rxLast : BitVec 10 := 1023
  replay : List Flit := []
  sent : List Flit := []
  pkts : List (BitVec 10 × Packet) := []
  rxBytes : SMap (List Byte) := []
  txBank : Bool := false
  rxBank : Bool := false
  txKeys : SMap KeyBank := []
  rxKeys : SMap KeyBank := []
  oldLast : Option (BitVec 10) := none
  keyDone : Option (BitVec 10) := none
  tagFails : Nat := 0
  credits : SMap Nat := []
  rxLanes : List Nat := []
  txDone : SMap Nat := []
  ctrl : List (Nat × List Nat) := []
  owes : Bool := false
  owed : SMap Nat := []
  used : SMap Nat := []
  since : Nat := 0
  deriving DecidableEq, Repr

/-- A sending pair (20 R514): the next PSEQ, and the words not yet acknowledged, by the PSEQ of their LAST packet. -/
structure TxPair where
  next : BitVec 32 := 0
  unacked : List (BitVec 32 × RemoteWord) := []
  deriving DecidableEq, Repr

/-- What the port has decided of a granule of an HBM segment at a word's FIRST packet (20 R515, R516): its translation, or the reason
code of a word that writes there, with the walk's fault (stage 2, malformed) where a page is not present. -/
inductive PagePlan where
  | go (e : TlbEntry)
  | no (code : Nat) (absent : Option (Bool × Bool))
  deriving DecidableEq, Repr

/-- A receiving pair (20 R514, R515): the next PSEQ to apply, packets held, and the word in progress: its packets so far, its
reason code, 0 when accepted, the segment entry that decided it, and what was decided of the granules of its span. -/
structure RxPair where
  next : BitVec 32 := 0
  held : List Packet := []
  code : Nat := 0
  ent : Option SegEnt := none
  cur : List Packet := []
  pages : SMap PagePlan := []
  deriving DecidableEq, Repr

/-- A round of a reduction group at this chip's switch (20 R520): when its first contribution came, contributions by member
index, those of chips that are no members, the first reason to refuse it, whether it has been combined, and the members that
have acknowledged with their codes. -/
structure Round where
  id : Nat
  job : Nat
  group : Nat
  start : Nat
  contribs : SMap (List Packet)
  strangers : List Packet
  bad : Nat
  sent : Bool
  acks : SMap Nat
  deriving DecidableEq, Repr

/-- The fabric side of the package (20): registers of Table 20-8, links, the links toward each chip in the order in which the
switch takes them, pairs, rounds, and packets that wait for a link.  Pod time was `podTime` at cycle `podAt`; `slew` is what
is left to correct of it from then on (20 R521); `downAt` is the pod time at which the parent link went down, `syncAt` that of the last
exchange begun. -/
structure Fabric where
  chip : BitVec 11 := 0
  trained : Bool := false
  jobBase : Word := 0
  timeCtl : Word := 0
  timeEst : Word := 0
  podTime : Word := 0
  podAt : Nat := 0
  slew : Int := 0
  downAt : Option Nat := none
  syncAt : Nat := 0
  links : SMap Link := []
  routes : SMap (List Nat) := []
  tx : SMap TxPair := []
  rx : SMap RxPair := []
  rounds : List Round := []
  nextRound : Nat := 0
  out : List (Nat × Packet) := []
  deriving DecidableEq, Repr

/-- A queue interface (21 Table 21-3): QCFG, QERR, PASIDTAB and the packets it holds. -/
structure Qif where
  qcfg : Word := 0
  qerr : Word := 0
  pasid : SMap Word := []
  queue : List ReqPacket := []
  busy : Bool := false
  deriving DecidableEq, Repr

/-- The directory state of a 64-byte line (21 R539); I is the unlisted state. -/
inductive DirLine where
  | shared (hosts : List Nat)
  | modified (host : Nat)
  | lost
  deriving DecidableEq, Repr

/-- A recall in progress (21 R539, R544): the line, the holders that have not answered, and the request that waits. -/
structure Recall where
  line : Nat
  from_ : List Nat
  req : Option (Nat × HostAccess)
  since : Nat
  deriving DecidableEq, Repr

/-- A shared extent (21 Table 21-6, R537 to R544): its entry's fields, directory, pins by host, the pages copied for
pinned versions as (version, page, page of SPAREX), and the hosts whose pins wait for modified lines to come back. -/
structure Extent where
  state : Nat := 0
  mode : Nat := 0
  part : Nat := 0
  hosts : BitVec 32 := 0
  drainUs : BitVec 32 := 0
  recallUs : BitVec 32 := 0
  sparex : Nat := 0
  vcur : BitVec 32 := 0
  exterr : BitVec 5 := 0
  dir : SMap DirLine := []
  pins : SMap (BitVec 32) := []
  copies : List (Nat × Nat × Nat) := []
  recalls : List Recall := []
  pinWait : List Nat := []
  revokedAt : Nat := 0
  deriving DecidableEq, Repr

/-- What a host request is answered with (21 R536, R538, R541). -/
inductive HostReply where
  | data (host : Nat) (bytes : List Byte) (poison : Bool)
  | done (host : Nat)
  | unmapped (host : Nat)
  deriving DecidableEq, Repr

/-- A byte of host memory that an agent of the device has written and that has not been written back (05 R161): its bus address and
value, the partition and the task that it was written for, where it has them, and whether it is poisoned data (09 R284). -/
structure PostedByte where
  addr : Nat
  byte : Byte
  part : Option Nat
  task : Option Nat
  bad : Bool := false
  deriving DecidableEq, Repr

/-- The host side (21): CPSEM, CPDROP, HOSTMAP, queue interfaces, extents, cached ATS translations, host memory as hosts
see it and which bytes of it are poisoned data, the device's posted writes to it, oldest first, its tasks' read buffers (05 R161), and what the
device has sent to hosts.  `noXlate` and `xmap` are the host IOMMU's: by port, PASID and page of 4 KiB, the pages that do not translate, and
those that translate to a page other than themselves (21 R532); `via` are the translations of aperture 10 that no TLBI has dropped since they
were made (19 R489); `msixTab` the entries of the functions' MSI-X tables, by 4,096 × port + vector (21 R534); `snapWait` the device's
writes that wait for a free page of a snapshot (21 R542). -/
structure HostSide where
  owner : Nat := 0
  epoch : BitVec 4 := 0
  recent : Nat := 0
  cpdrop : Word := 0
  hostMap : SMap Word := []
  qifs : SMap Qif := []
  exts : SMap Extent := []
  ats : List (Nat × Nat × Nat) := []
  noXlate : List (Nat × Nat × Nat) := []
  xmap : List ((Nat × Nat × Nat) × Nat) := []
  mem : Mem := []
  memPoison : List Nat := []
  posted : List PostedByte := []
  via : List TlbEntry := []
  rdBufs : SMap (SMap Byte) := []
  msixTab : SMap (Word × BitVec 32) := []
  msix : List Msix := []
  snapWait : List (Nat × List Byte) := []
  heldSig : List Nat := []
  replies : List HostReply := []
  linkUp : SMap Bool := []
  deriving DecidableEq, Repr

/-- The SPDM session state of one responder (22 R553): how far the exchange has gone, the transcript's digest, the last answer with its
signature; of a session its key, the count of its messages, and the last answer as AES-GCM sends it. -/
structure Spdm where
  version : Bool := false
  caps : Bool := false
  algs : Bool := false
  digests : Bool := false
  cert : Bool := false
  challenged : Bool := false
  keyed : Bool := false
  session : Bool := false
  transcript : BitVec 384 := 0
  reply : List (BitVec 384) := []
  signature : BitVec 768 := 0
  key : BitVec 256 := 0
  ctr : BitVec 64 := 0
  coded : List Byte := []
  deriving DecidableEq, Repr

/-- A request that firmware is serving (22 R547): the partition of its signal, the resources that it returns or lifts, whether it ends
the partition, its code, and whether firmware has refused it. -/
structure Serving where
  part : Nat
  units : List FenceUnit := []
  ends : Bool := false
  code : Nat := 0
  refused : Bool := false
  deriving DecidableEq, Repr

/-- Firmware and the security controller (22): the images, the boot step reached (Table 22-6), the mailbox reply, the log,
SPDM sessions, the clock governor, errors counted, fenced memory units, what the TDISP messages were answered, the
incarnations counted over the device's life, the resources that R549 moves (`leaving`: whether each goes to the free pool or
only out of its fence), the partitions that end when theirs have moved (`ending`: whether one is removed or stopped), the request
that is being served, the code and the status of the last reply, the units that an error, the boot sequence or a FENCE request has fenced
(`kept`), those of them that a FENCE request lifts (`lifting`), and the alias key certificate of this boot (22 R552). -/
structure Firmware where
  flash : Option FwImage := none
  running : Option FwImage := none
  minVersion : Nat := 0
  boot : Nat := 0
  waitsImage : Bool := false
  reply : List Byte := []
  log : List (List Byte) := []
  spdm : SMap Spdm := []
  cclk : Nat := 850
  shutdown : Bool := false
  corrected : Word := 0
  unitFenced : List Nat := []
  tdiReply : List Byte := []
  tdiStates : List TdiState := []
  incarn : SMap (BitVec 32) := []
  leaving : List (FenceUnit × Bool) := []
  ending : List (Nat × Bool) := []
  serving : Option Serving := none
  status : Nat × Bool := (0, false)
  kept : List FenceUnit := []
  lifting : List FenceUnit := []
  cert : BitVec 768 := 0
  deriving DecidableEq, Repr

/-- Who acts next: a slot, a matrix routine, nobody for one cycle, or the party of a device event. -/
inductive Turn where
  | issue (core slot : Nat)
  | routine (core wm : Nat)
  | idle
  | event (i : Instr)
  deriving DecidableEq, Repr

/-- The whole package.  `agenda`, `cur`, `chored` and `freeCtr` are the model's own: the order of agents, the slot that issues, the cycle
after the last in which another agent had its turn beside the slots', and the count of free values taken. -/
structure State where
  cores : SMap Core
  blocks : SMap Block
  dies : SMap Die
  hbm : Mem
  hbmPoison : List Nat
  sf : SMap SfRec
  parts : SMap Partition
  launches : List Launch
  nextHandle : Nat
  intake : List Intake
  nextSeq : Nat
  fab : Fabric
  host : HostSide
  fw : Firmware
  cycle : Nat
  agenda : List Turn
  cur : Nat × Nat
  chored : Nat
  inRoutine : Option (Nat × Nat)
  freeCtr : Nat
  deriving DecidableEq, Repr

/-- Why the device stops. -/
inductive Fault where
  /-- The junction passed 115 °C and the device has stopped (22 R562).  Raised by every step from then until reset.  Safe. -/
  | deviceStopped
  deriving DecidableEq, Repr

/-- Why an instruction has no meaning. -/
inductive Refusal where
  /-- The instruction has no meaning in this model yet.  Raised by exec's arm of that name only.  Safe. -/
  | notModelled (mnemonic : String)
  deriving DecidableEq, Repr

/-- The machine right after reset (22 R560; 00 R7): no partition, no launch, no task; every memory at zero.  Registers hold
what a fresh record of their kind holds: the reset values of the register maps, and zero where the manual gives none. -/
def State.reset : State where
  cores := []
  blocks := []
  dies := []
  hbm := []
  hbmPoison := []
  sf := []
  parts := []
  launches := []
  nextHandle := 0
  intake := []
  nextSeq := 0
  fab := {}
  host := {}
  fw := {}
  cycle := 0
  agenda := []
  cur := (0, 0)
  chored := 0
  inRoutine := none
  freeCtr := 0

end Machine
end Sys2Proof
end

