-- ==== Sys2Proof/Machine/Bits.lean ====
section
/-! DEFINITION. Sparse maps, bytes and integers: the small operations that every later file uses. -/

namespace Sys2Proof
namespace Machine

/-- The value at a key; the default where the map lists none. -/
def Sparse.get {β : Type} (d : β) : SMap β → Nat → β
  | [], _ => d
  | (k, v) :: r, a => if a = k then v else Sparse.get d r a

/-- Removes a key. -/
def Sparse.del {β : Type} : SMap β → Nat → SMap β
  | [], _ => []
  | (k, v) :: r, a => if a = k then Sparse.del r a else (k, v) :: Sparse.del r a

/-- Inserts a value, keeping keys rising. -/
def Sparse.put {β : Type} : SMap β → Nat → β → SMap β
  | [], a, x => [(a, x)]
  | (k, v) :: r, a, x =>
    if a = k then (k, x) :: Sparse.del r a else if a < k then (a, x) :: (k, v) :: Sparse.del r a else (k, v) :: Sparse.put r a x

/-- Sets a key; the default is not listed. -/
def Sparse.set {β : Type} [DecidableEq β] (d : β) (m : SMap β) (a : Nat) (x : β) : SMap β :=
  if x = d then Sparse.del m a else Sparse.put m a x

/-- The value at a key, if listed. -/
def Sparse.find {β : Type} : SMap β → Nat → Option β
  | [], _ => none
  | (k, v) :: r, a => if a = k then some v else Sparse.find r a

/-- Removes the keys from `a` to `a + n - 1`. -/
def Sparse.clear {β : Type} (m : SMap β) (a n : Nat) : SMap β := m.filter fun c => c.1 < a || a + n ≤ c.1

/-- Keys strictly rise from `lo` on and no value is the default. -/
def Sparse.wfFrom {β : Type} [DecidableEq β] (d : β) : Nat → SMap β → Bool
  | _, [] => true
  | lo, (k, v) :: r => decide (lo ≤ k) && decide (v ≠ d) && Sparse.wfFrom d (k + 1) r

/-- The canonical form of a sparse map. -/
def Sparse.wf {β : Type} [DecidableEq β] (d : β) (m : SMap β) : Bool := Sparse.wfFrom d 0 m

/-- The canonical form of a memory: addresses rise and no listed byte is zero, which is what an unlisted one reads as. -/
def Memory.wf (m : Mem) : Bool := Sparse.wf (0 : Byte) m

/-- What an unlisted byte reads as: zero (03 R71, 22 R549). -/
def Memory.unlisted : Byte := 0

/-- One byte of memory. -/
def Memory.byte (m : Mem) (a : Nat) : Byte := Sparse.get Memory.unlisted m a

/-- Writes one byte. -/
def Memory.setByte (m : Mem) (a : Nat) (b : Byte) : Mem := Sparse.set Memory.unlisted m a b

/-- `n` bytes from an address. -/
def Memory.read (m : Mem) (a n : Nat) : List Byte := (List.range n).map fun i => Memory.byte m (a + i)

/-- Writes bytes at rising addresses. -/
def Memory.write (m : Mem) (a : Nat) : List Byte → Mem
  | [] => m
  | b :: r => Memory.write (Memory.setByte m a b) (a + 1) r

/-- The number that bytes hold, the lowest address first (00 R5). -/
def natOfBytes : List Byte → Nat
  | [] => 0
  | b :: r => b.toNat + 256 * natOfBytes r

/-- The low `n` bytes of a number, the lowest first. -/
def bytesOfNat : Nat → Nat → List Byte
  | 0, _ => []
  | n + 1, x => BitVec.ofNat 8 x :: bytesOfNat n (x / 256)

/-- A 64-bit value in memory. -/
def Memory.word (m : Mem) (a : Nat) : Word := BitVec.ofNat 64 (natOfBytes (Memory.read m a 8))

/-- SInt of the low `w` bits of a number (00 Table 0-3). -/
def sintNat (w x : Nat) : Int :=
  let m := x % 2 ^ w
  if w = 0 then 0 else if m < 2 ^ (w - 1) then (m : Int) else (m : Int) - (2 : Int) ^ w

/-- Trunc: the low `w` bits of an integer's two's complement (00 Table 0-3). -/
def truncInt (w : Nat) (x : Int) : Nat := (x % (2 : Int) ^ w).toNat

/-- An integer kept within bounds. -/
def clampInt (lo hi x : Int) : Int := if x < lo then lo else if hi < x then hi else x

/-- `n` bits of a bit string held in bytes, from bit `i` on (04 R91). -/
def bitsAt (bs : Nat) (i n : Nat) : Nat := (bs >>> i) % 2 ^ n

/-- Packs `w`-bit elements into a number, the first at the low end (04 R91). -/
def packElems (w : Nat) : List Nat → Nat
  | [] => 0
  | x :: r => x % 2 ^ w + 2 ^ w * packElems w r

/-- Replaces element `i` of a list. -/
def setAt {α : Type} : List α → Nat → α → List α
  | [], _, _ => []
  | _ :: r, 0, x => x :: r
  | y :: r, i + 1, x => y :: setAt r i x

/-- One 32-bit lane of a vector value. -/
def lane (v : Vec) (i : Nat) : Lane := BitVec.ofNat 32 (v.toNat >>> (32 * i))

/-- A vector value from its 16 lanes. -/
def vecOfLanes (f : Nat → Lane) : Vec :=
  BitVec.ofNat 512 (packElems 32 ((List.range 16).map fun i => (f i).toNat))

/-- The lanes of a mask from one value, the others from another. -/
def mergeLanes (mask : BitVec 16) (x y : Vec) : Vec :=
  vecOfLanes fun i => if mask.getLsbD i then lane x i else lane y i

/-- The clusters of a mask, ascending. -/
def clusters (cm : BitVec 8) : List Nat := (List.range 8).filter fun c => cm.getLsbD c

/-- The first of `n` numbers from `i` on that a test picks. -/
def firstFrom (p : Nat → Bool) : Nat → Nat → Option Nat
  | 0, _ => none
  | n + 1, i => if p i then some i else firstFrom p n (i + 1)

/-- The most negative and most positive value of a width. -/
def minInt (w : Nat) : Int := -(2 : Int) ^ (w - 1)
def maxInt (w : Nat) : Int := (2 : Int) ^ (w - 1) - 1

end Machine
end Sys2Proof
end

