-- ==== Sys2Proof/Machine/Operands.lean ====
section
/-! DEFINITION. Slots and their register files: every way an operand is read (06 R165, R166) and a destination written
(06 R167), the landing of fixed-latency results (06 R178) and the last-result files (03 R64 to R66). -/

namespace Sys2Proof
namespace Machine

/-! ### Records by number -/

def State.core (s : State) (c : Nat) : Core := Sparse.get {} s.cores c
def State.setCore (s : State) (c : Nat) (x : Core) : State := { s with cores := Sparse.set {} s.cores c x }
def State.block (s : State) (b : Nat) : Block := Sparse.get {} s.blocks b
def State.setBlock (s : State) (b : Nat) (x : Block) : State := { s with blocks := Sparse.set {} s.blocks b x }
def State.die (s : State) (d : Nat) : Die := Sparse.get {} s.dies d
def State.setDie (s : State) (d : Nat) (x : Die) : State := { s with dies := Sparse.set {} s.dies d x }
def State.part (s : State) (p : Nat) : Partition := Sparse.get {} s.parts p
def State.setPart (s : State) (p : Nat) (x : Partition) : State := { s with parts := Sparse.put s.parts p x }
def State.slot (s : State) (c k : Nat) : Slot := Sparse.get {} (s.core c).slots k
def State.setSlot (s : State) (c k : Nat) (x : Slot) : State :=
  let co := s.core c
  s.setCore c { co with slots := Sparse.set {} co.slots k x }

/-- The block and die of a core number, and its number in the block (01 R16). -/
def coreBlock (c : Nat) : Nat := c / 8
def coreDie (c : Nat) : Nat := c / 128
def coreInBlock (c : Nat) : Nat := c % 8

/-- The slot that issues. -/
def State.me (s : State) : Slot := s.slot s.cur.1 s.cur.2
def State.setMe (s : State) (x : Slot) : State := s.setSlot s.cur.1 s.cur.2 x
def State.myCore (s : State) : Core := s.core s.cur.1
def State.setMyCore (s : State) (x : Core) : State := s.setCore s.cur.1 x

/-- A value that the manual leaves unspecified, and the machine with that value taken (00 R13). -/
def State.free (s : State) : Word × State := (Config.freeWord s.freeCtr, { s with freeCtr := s.freeCtr + 1 })

/-! ### Banks and scalar registers -/

/-- The bank of the level that the slot runs at (17 R432). -/
def Slot.bank (l : Slot) : Bank := if l.level = .s then l.sb else l.tb
def Slot.setBank (l : Slot) (b : Bank) : Slot := if l.level = .s then { l with sb := b } else { l with tb := b }

/-- The bank of a named level: that of an operation begun at it (17 R432). -/
def Slot.bankOf (l : Slot) (v : Level) : Bank := if v = .s then l.sb else l.tb
def Slot.setBankOf (l : Slot) (v : Level) (b : Bank) : Slot := if v = .s then { l with sb := b } else { l with tb := b }

/-- s(i): s0 reads zero (03 R61); s120 to s127 are the bank's (17 R432). -/
def Slot.rdS (l : Slot) (v : Level) (i : Nat) : Word :=
  if i = 0 then 0 else if i < 120 then Sparse.get 0 l.files.s i else Sparse.get 0 (l.bankOf v).sHi i

/-- A write to s(i): discarded for s0 (03 R61). -/
def Slot.wrS (l : Slot) (v : Level) (i : Nat) (x : Word) : Slot :=
  if i = 0 then l
  else if i < 120 then { l with files := { l.files with s := Sparse.set 0 l.files.s i x } }
  else l.setBankOf v { l.bankOf v with sHi := Sparse.set 0 (l.bankOf v).sHi i x }

def Slot.rdQ (l : Slot) (i : Nat) : Word := Sparse.get 0 l.files.q i
def Slot.wrQ (l : Slot) (i : Nat) (x : Word) : Slot :=
  { l with files := { l.files with q := Sparse.set 0 l.files.q i x } }

/-- p(i): p0 reads true (03 R61). -/
def Slot.rdP (l : Slot) (v : Level) (i : Nat) : Bool := if i = 0 then true else (l.bankOf v).p.getLsbD i

/-- A write to p(i): discarded for p0 (03 R61). -/
def Slot.wrP (l : Slot) (v : Level) (i : Nat) (x : Bool) : Slot :=
  if i = 0 then l
  else
    let b := l.bankOf v
    let m : BitVec 8 := 1 <<< i
    l.setBankOf v { b with p := if x then b.p ||| m else b.p &&& ~~~m }

/-- v(i) and vq(i) of cluster c. -/
def Slot.rdV (l : Slot) (c i : Nat) : Vec := Sparse.get 0 l.files.v (64 * c + i)
def Slot.wrV (l : Slot) (c i : Nat) (x : Vec) : Slot :=
  { l with files := { l.files with v := Sparse.set 0 l.files.v (64 * c + i) x } }
def Slot.rdVq (l : Slot) (c i : Nat) : Vec := Sparse.get 0 l.files.vq (8 * c + i)
def Slot.wrVq (l : Slot) (c i : Nat) (x : Vec) : Slot :=
  { l with files := { l.files with vq := Sparse.set 0 l.files.vq (8 * c + i) x } }

/-- vp(k) of cluster c: vp0 reads 0xFFFF (03 R61). -/
def Slot.rdVp (l : Slot) (c k : Nat) : BitVec 16 := if k = 0 then 0xFFFF else Sparse.get 0 l.files.vp (8 * c + k)

/-- A write to vp(k) of cluster c: discarded for vp0 (03 R61). -/
def Slot.wrVp (l : Slot) (c k : Nat) (x : BitVec 16) : Slot :=
  if k = 0 then l else { l with files := { l.files with vp := Sparse.set 0 l.files.vp (8 * c + k) x } }

/-- Whether this slot issues words of a buffered group again (17 R446). -/
def Slot.reissues (l : Slot) : Bool := match l.grp with | some g => g.reissue | none => false

/-- The capture of the word whose turn it is, when it is issued again or repeated (17 R445, 06 R192). -/
def Slot.capture (l : Slot) : Option Capture :=
  match l.grp with
  | some g => Sparse.find g.caps g.idx
  | none => none

/-- d(k+1) of the scalar unit: as first read when a word is issued again (17 R445), else the file as it stands
(03 R66); an empty entry reads zero. -/
def Slot.rdD (l : Slot) (k : Nat) : Word :=
  match l.reissues, l.capture with
  | true, some cp => cp.ds.getD k 0
  | _, _ => l.bank.ds.getD k 0

/-- d(k+1) of cluster c (03 R64, R66). -/
def Slot.rdDv (l : Slot) (c k : Nat) : Vec :=
  match l.reissues, l.capture with
  | true, some cp => (Sparse.get [] cp.dv c).getD k 0
  | _, _ => (Sparse.get [] l.files.dv c).getD k 0

/-- FPC as a word captures it at its issue (04 R107): that of its first issue when it is issued again (17 R445) or repeated
(06 R192). -/
def Slot.fpcNow (l : Slot) : BitVec 32 := match l.capture with | some cp => cp.fpc | none => l.bank.fpc

/-! ### Source specifiers (06 Table 6-2) -/

/-- The signed immediate of a specifier. -/
def specImm (x : BitVec 9) : Int := (x.extractLsb' 0 7).toInt

def isImm (x : BitVec 9) : Bool := x.extractLsb' 7 2 == 3

/-- ReadSpec of a scalar operand (06 R165, R166). -/
def readSpec (l : Slot) (x : BitVec 9) : Word :=
  match (x.extractLsb' 7 2).toNat with
  | 0 => l.rdS l.level (x.extractLsb' 0 7).toNat
  | 1 => l.rdQ (x.extractLsb' 0 4).toNat
  | 2 => l.rdD (x.extractLsb' 0 3).toNat
  | _ => BitVec.ofInt 64 (specImm x)

/-- A vector operand in cluster c; an immediate stands in every lane (06 R165, R166). -/
def readVSpec (l : Slot) (c : Nat) (x : BitVec 9) : Vec :=
  match (x.extractLsb' 7 2).toNat with
  | 0 => l.rdV c (x.extractLsb' 0 6).toNat
  | 1 => l.rdVq c (x.extractLsb' 0 3).toNat
  | 2 => l.rdDv c (x.extractLsb' 0 3).toNat
  | _ => vecOfLanes fun _ => BitVec.ofInt 32 (specImm x)

/-! ### Destinations (06 R167) -/

/-- The register that an 8-bit scalar destination names. -/
def dstRef (d : BitVec 8) : RegRef :=
  if d.getLsbD 7 then .q (d.extractLsb' 0 4).toNat else .s (d.extractLsb' 0 7).toNat

/-- The register that an 8-bit vector destination names in the clusters of a mask. -/
def vdstRef (cm : BitVec 8) (d : BitVec 8) : RegRef :=
  if d.getLsbD 7 then .vq cm (d.extractLsb' 0 3).toNat else .v cm (d.extractLsb' 0 6).toNat

/-- The s register that an engine register code of file 110 names (06 Table 6-5). -/
def engRef (d : BitVec 8) : RegRef := .s (d.extractLsb' 0 5).toNat

/-- What a register holds now, as 64 bits or as the vector of one cluster. -/
def readRef (l : Slot) (v : Level) : RegRef → Vec
  | .s i => (l.rdS v i).setWidth 512
  | .q i => (l.rdQ i).setWidth 512
  | .p i => if l.rdP v i then 1 else 0
  | .v cm i => match clusters cm with | c :: _ => l.rdV c i | [] => 0
  | .vq cm i => match clusters cm with | c :: _ => l.rdVq c i | [] => 0
  | .vp c i => (l.rdVp c i).setWidth 512
  | _ => 0

/-- Writes a register; the clusters of a vector destination take their 512 bits of `x`, cluster c at bit 512c, in the lanes of
`mask`. -/
def writeRef (l : Slot) (v : Level) (mask : BitVec 16) (x : BitVec 4096) : RegRef → Slot
  | .s i => l.wrS v i (x.setWidth 64)
  | .q i => l.wrQ i (x.setWidth 64)
  | .p i => l.wrP v i (x.getLsbD 0)
  | .v cm i => (clusters cm).foldl (fun l c => l.wrV c i (mergeLanes mask (x.extractLsb' (512 * c) 512) (l.rdV c i))) l
  | .vq cm i => (clusters cm).foldl (fun l c => l.wrVq c i (mergeLanes mask (x.extractLsb' (512 * c) 512) (l.rdVq c i))) l
  | .vp c i =>
    let y := (x >>> (512 * c)).setWidth 16
    l.wrVp c i ((l.rdVp c i &&& ~~~mask) ||| (y &&& mask))
  | _ => l

/-! ### Fixed-latency results (06 R178 to R181) -/

/-- Puts a result in flight; it lands at the end of issue cycle c + L - 1. -/
def Slot.launch (l : Slot) (x : Landing) : Slot :=
  let b := l.bank
  l.setBank { b with inflight := b.inflight ++ [x] }

/-- The cluster of a unit's vector destination at bit 512c. -/
def placeVec (unit : Nat) (x : Vec) : BitVec 4096 := (x.setWidth 4096) <<< (512 * (unit - 1))

/-- A unit's last-result file takes an entry (03 R64): the eight most recent stand. -/
def Slot.pushEntry (l : Slot) (v : Level) (unit : Nat) (x : Vec) : Slot :=
  if unit = 0 then
    let b := l.bankOf v
    l.setBankOf v { b with ds := (x.setWidth 64 :: b.ds).take 8 }
  else
    { l with files := { l.files with
        dv := Sparse.set [] l.files.dv (unit - 1) ((x :: Sparse.get [] l.files.dv (unit - 1)).take 8) } }

/-- One result lands: its register is written, its last-result entry made, its flags joined into FPC (04 R108). -/
def Slot.land (l : Slot) (v : Level) (x : Landing) : Slot :=
  let l := writeRef l v x.mask (if x.unit = 0 then x.val.setWidth 4096 else placeVec x.unit x.val) x.dst
  let l := match x.entry with | some e => l.pushEntry v x.unit e | none => l
  let b := l.bankOf v
  l.setBankOf v { b with fpc := b.fpc ||| ((x.flags.setWidth 32) <<< 8) }

/-- The flags and enables of a word whose results land together: a V word lands in all its clusters at once, and a group's other
words have other PCs. -/
def joinWord (x : Landing) : List (BitVec 32 × BitVec 5 × BitVec 5) → List (BitVec 32 × BitVec 5 × BitVec 5)
  | [] => [(x.wpc, x.flags, x.en)]
  | (pc, fl, en) :: r => if pc = x.wpc then (pc, fl ||| x.flags, en ||| x.en) :: r else (pc, fl, en) :: joinWord x r

/-- FP_TRAP, one for each word: the flags that the word joined, where it captured the enable of one of them (04 R110, 17 Table
17-3). -/
def fpTraps (due : List Landing) : List Trap :=
  (due.foldl (fun ws x => joinWord x ws) []).filterMap fun (pc, fl, en) =>
    if fl &&& en = 0 then none else some ⟨.fpTrap, fl.setWidth 64, pc⟩

/-- The end of one issue cycle of the slot's level: results whose count is out land in issue order; the traps that fall due
(06 R178, R180; 04 R110). -/
def Slot.endCycle (l : Slot) : Slot × List Trap :=
  let v := l.level
  let b := l.bankOf v
  let due := b.inflight.filter fun x => x.left ≤ 1
  let rest := (b.inflight.filter fun x => 1 < x.left).map fun x => { x with left := x.left - 1 }
  let l := l.setBankOf v { b with inflight := rest }
  (due.foldl (fun l x => l.land v x) l, fpTraps due)

/-! ### Tags (06 R182 to R186) -/

def Slot.tagBusy (l : Slot) (v : Level) (t : Nat) : Bool := (Sparse.find (l.bankOf v).tags t).isSome

/-- Marks tag t busy with one more result awaited (06 R182, R192); tag 0 is none. -/
def Slot.allocTag (l : Slot) (v : Level) (t : Nat) (r : TagRes) : Slot :=
  if t = 0 then l
  else
    let b := l.bankOf v
    l.setBankOf v { b with tags := Sparse.put b.tags t ((Sparse.find b.tags t).getD [] ++ [r]) }

/-- Whether a result comes from a peer chip. -/
def TagOp.isPeer : TagOp → Bool
  | .remote _ _ | .parts _ _ _ => true
  | _ => false

/-- A remote word by its number. -/
def TagOp.isRemote (q : Nat) : TagOp → Bool
  | .remote seq _ => seq == q
  | .parts seqs _ _ => seqs.contains q
  | _ => false

/-- Retires one result of tag t that `p` picks; the tag is free when none is left. -/
def Slot.retire (l : Slot) (v : Level) (t : Nat) (p : TagRes → Bool) : Slot :=
  let b := l.bankOf v
  match Sparse.find b.tags t with
  | none => l
  | some rs =>
    let rs' := rs.eraseP p
    l.setBankOf v { b with tags := if rs'.isEmpty then Sparse.del b.tags t else Sparse.put b.tags t rs' }

/-- The register code of a frame (17 Table 17-7). -/
def RegRef.code : RegRef → BitVec 16
  | .s i => BitVec.ofNat 16 i
  | .q i => BitVec.ofNat 16 (0x1000 + i)
  | .v cm i => if cm = 0xFF then BitVec.ofNat 16 (0x4000 + i)
      else BitVec.ofNat 16 (0x2000 + 512 * (clusters cm).headD 0 + i)
  | .vq cm i => if cm = 0xFF then BitVec.ofNat 16 (0x5000 + i)
      else BitVec.ofNat 16 (0x3000 + 512 * (clusters cm).headD 0 + i)
  | .p i => BitVec.ofNat 16 (0x6000 + i)
  | .vp c i => BitVec.ofNat 16 (0x7000 + 512 * c + i)
  | .eng code => 0x8000 ||| code.setWidth 16
  | .mcall wm => BitVec.ofNat 16 (0xE000 + wm)
  | .none => 0xFFFF

/-- The register that a frame's code names; a code that names none gives none. -/
def RegRef.ofCode (x : BitVec 16) : RegRef :=
  let i := (x.extractLsb' 0 9).toNat
  let c := (x.extractLsb' 9 3).toNat
  let cm : BitVec 8 := 1 <<< c
  match (x.extractLsb' 12 4).toNat with
  | 0 => .s i | 1 => .q i | 2 => .v cm i | 3 => .vq cm i | 4 => .v 0xFF i | 5 => .vq 0xFF i | 6 => .p i
  | 7 => .vp c i | 8 => .eng (x.setWidth 8) | 14 => .mcall i | _ => .none

end Machine
end Sys2Proof
end

