-- ==== Sys2Proof/Machine/Flags.lean ====
section
/-! DEFINITION. Flags: FPC and its captures (04 Table 4-7, R107, R108), CTXSTAT (17 Table 17-2), WSTAT (10 Table 10-5) and the
condition codes (07 R211). -/

namespace Sys2Proof
namespace Machine

/-- The five IEEE flags in the order of FPC [12:8]: NV, DZ, OF, UF, NX (04 Table 4-7). -/
abbrev Fl := BitVec 5
def Fl.nv : Fl := 16
def Fl.dz : Fl := 8
def Fl.of : Fl := 4
def Fl.uf : Fl := 2
def Fl.nx : Fl := 1

/-- The rounding modes of FPC.RM (04 Table 4-7). -/
inductive RMode where
  | rne | rtz | rdn | rup
  deriving DecidableEq, Repr

def RMode.ofBits (n : Nat) : RMode := match n % 4 with | 0 => .rne | 1 => .rtz | 2 => .rdn | _ => .rup

/-- Fields of a captured FPC (04 Table 4-7, R107). -/
def fpcRm (x : BitVec 32) : RMode := RMode.ofBits (x.extractLsb' 0 2).toNat
def fpcFtz (x : BitVec 32) : Bool := x.getLsbD 2
def fpcDaz (x : BitVec 32) : Bool := x.getLsbD 3
def fpcSat (x : BitVec 32) : Bool := x.getLsbD 4
def fpcEn (x : BitVec 32) : BitVec 5 := x.extractLsb' 16 5

/-- The bits of FPC that can be written (04 Table 4-7). -/
def fpcMask : BitVec 32 := 0x001F1F1F

/-- CTXSTAT bits (17 Table 17-2). -/
def csStale : BitVec 6 := 1
def csOor : BitVec 6 := 2
def csRemErr : BitVec 6 := 4
def csGov : BitVec 6 := 8
def csLate : BitVec 6 := 16
def csMoved : BitVec 6 := 32

/-- An event sets CTXSTAT bits of a slot; the group in progress notes them (17 R437). -/
def Slot.setCtx (l : Slot) (m : BitVec 6) : Slot :=
  { l with csr := { l.csr with ctxstat := l.csr.ctxstat ||| m },
           grp := l.grp.map fun (g : Group) => { g with ctxSet := g.ctxSet ||| m } }

/-- CTXSTAT.OOR and OORADDR: the first out-of-range byte address is kept until the task clears OOR (03 R82). -/
def Slot.noteOor (l : Slot) (a : Word) : Slot :=
  if l.csr.ctxstat &&& csOor = 0 then
    let l := l.setCtx csOor
    { l with csr := { l.csr with oorAddr := a } }
  else l

/-- WSTAT flag bits [5:0] (10 Table 10-5). -/
def wsGov : BitVec 6 := 32
def wsIsat : BitVec 6 := 16
/-- The IEEE flags as WSTAT holds them: NV, OF, UF, NX in [3:0] (10 Table 10-5). -/
def wsOfFl (f : Fl) : BitVec 6 :=
  (if f &&& Fl.nv = 0 then 0 else 8) ||| (if f &&& Fl.of = 0 then 0 else 4) |||
  (if f &&& Fl.uf = 0 then 0 else 2) ||| (if f &&& Fl.nx = 0 then 0 else 1)

/-- The relation of a condition code on integers (07 R211). -/
def ccHolds (c : Cc) (a b : Int) : Bool :=
  match c with
  | .eq => a == b | .ne => a != b | .lt => decide (a < b) | .le => decide (a ≤ b)
  | .gt => decide (b < a) | .ge => decide (b ≤ a)

/-- The codes of the trap causes (17 Table 17-3). -/
def Cause.code : Cause → BitVec 8
  | .illegalOpcode => 0x01 | .illegalEncoding => 0x02 | .illegalGroup => 0x03 | .regUndeclared => 0x04
  | .barUndeclared => 0x05 | .priv => 0x06 | .misalign => 0x07 | .windowStraddle => 0x08 | .podRead => 0x09
  | .addrUnmapped => 0x0A | .loopDepth => 0x0B | .pageNotPresent => 0x10 | .perm => 0x11 | .enginePerm => 0x12
  | .ownership => 0x13 | .remoteAtomic => 0x14 | .dataPoison => 0x15 | .guardOverflow => 0x20 | .format => 0x21
  | .streamEosMisuse => 0x22 | .mseqOutside => 0x23 | .fpTrap => 0x28 | .remoteError => 0x30
  | .user n => 0x40 + n.setWidth 8

/-- The cause of a code that a register or a frame holds; a code that never occurs reads as user trap 0x3F. -/
def Cause.ofCode (c : BitVec 8) : Cause :=
  match c.toNat with
  | 0x01 => .illegalOpcode | 0x02 => .illegalEncoding | 0x03 => .illegalGroup | 0x04 => .regUndeclared
  | 0x05 => .barUndeclared | 0x06 => .priv | 0x07 => .misalign | 0x08 => .windowStraddle | 0x09 => .podRead
  | 0x0A => .addrUnmapped | 0x0B => .loopDepth | 0x10 => .pageNotPresent | 0x11 => .perm | 0x12 => .enginePerm
  | 0x13 => .ownership | 0x14 => .remoteAtomic | 0x15 => .dataPoison | 0x20 => .guardOverflow | 0x21 => .format
  | 0x22 => .streamEosMisuse | 0x23 => .mseqOutside | 0x28 => .fpTrap | 0x30 => .remoteError
  | n => if 0x40 ≤ n ∧ n < 0x80 then .user (BitVec.ofNat 6 n) else .user 0x3F

end Machine
end Sys2Proof
end

