-- ==== Sys2Proof/Machine/Float.lean ====
section
/-! DEFINITION. Numbers: the operand formats (04 R90 to R105), RoundF and conversion (04 R106 to R115), the arithmetic of
07 R213 to R217 and the functions of 08 R244. -/

namespace Sys2Proof
namespace Machine

/-! ### Formats (04 Tables 4-1, 4-2, 4-3) -/

/-- What the top codes of a format are: infinities and NaNs, one NaN, or nothing special. -/
inductive FKind where
  | ieee | oneNan | plain
  deriving DecidableEq, Repr

/-- A floating-point format: width, fraction bits, bias. -/
structure FFmt where
  w : Nat
  mb : Nat
  bias : Nat
  kind : FKind
  deriving DecidableEq, Repr

def fmtF64 : FFmt := ⟨64, 52, 1023, .ieee⟩
def fmtF32 : FFmt := ⟨32, 23, 127, .ieee⟩
def fmtF16 : FFmt := ⟨16, 10, 15, .ieee⟩
def fmtBf16 : FFmt := ⟨16, 7, 127, .ieee⟩
def fmtE5m2 : FFmt := ⟨8, 2, 15, .ieee⟩
def fmtE4m3 : FFmt := ⟨8, 3, 7, .oneNan⟩
def fmtE3m2 : FFmt := ⟨6, 2, 3, .plain⟩
def fmtE2m3 : FFmt := ⟨6, 3, 1, .plain⟩
def fmtE2m1 : FFmt := ⟨4, 1, 1, .plain⟩

/-- The format of a float TYPE code (06 Table 6-6). -/
def fmtTy (t : BitVec 4) : FFmt := match t.toNat with | 4 => fmtF32 | 5 => fmtF64 | 6 => fmtF16 | _ => fmtBf16

/-- The floating-point formats of Table 4-1 by code; hf4 has the codes of e2m1. -/
def fmtCode (c : Nat) : Option FFmt :=
  match c with
  | 0 => some fmtF64 | 1 => some fmtF32 | 2 => some fmtF16 | 3 => some fmtBf16 | 4 => some fmtE5m2 | 5 => some fmtE4m3
  | 6 => some fmtE3m2 | 7 => some fmtE2m3 | 8 | 9 => some fmtE2m1 | _ => none

/-- The exponent of the smallest normal. -/
def FFmt.emin (f : FFmt) : Int := 1 - (f.bias : Int)
def FFmt.signBit (f : FFmt) (neg : Bool) : Nat := if neg then 2 ^ (f.w - 1) else 0
/-- The code of +∞ in the formats that have it. -/
def FFmt.infCode (f : FFmt) : Nat := 2 ^ (f.w - 1) - 2 ^ f.mb
/-- The code of the largest finite value. -/
def FFmt.maxCode (f : FFmt) : Nat :=
  match f.kind with | .ieee => f.infCode - 1 | .oneNan => 2 ^ (f.w - 1) - 2 | .plain => 2 ^ (f.w - 1) - 1
/-- The canonical quiet NaN (04 Table 4-2); +0 for a format without one. -/
def FFmt.nan (f : FFmt) : Nat :=
  match f.kind with | .ieee => f.infCode + 2 ^ (f.mb - 1) | .oneNan => 2 ^ (f.w - 1) - 1 | .plain => 0
/-- The formats on which DAZ and FTZ act (04 R109). -/
def FFmt.wide (f : FFmt) : Bool := 16 ≤ f.w

/-- The value of a code (04 R92, R94). -/
def FFmt.value (f : FFmt) (x : Nat) : XVal :=
  let c := x % 2 ^ (f.w - 1)
  let neg := x.testBit (f.w - 1)
  let m := c % 2 ^ f.mb
  let e := c / 2 ^ f.mb
  if f.kind = .ieee && f.infCode ≤ c then (if m = 0 then .inf neg else .nan)
  else if f.kind = .oneNan && c = 2 ^ (f.w - 1) - 1 then .nan
  else if e = 0 then .fin neg m (f.emin - f.mb)
  else .fin neg (2 ^ f.mb + m) ((e : Int) - f.bias - f.mb)

/-- A signalling NaN (04 R564). -/
def FFmt.snan (f : FFmt) (x : Nat) : Bool := f.kind = .ieee && f.value x = .nan && !x.testBit (f.mb - 1)

/-- What a word takes from its captured FPC (04 R107). -/
structure FCtx where
  rm : RMode
  ftz : Bool
  daz : Bool
  sat : Bool
  deriving DecidableEq, Repr

def fctx (fpc : BitVec 32) : FCtx := ⟨fpcRm fpc, fpcFtz fpc, fpcDaz fpc, fpcSat fpc⟩

/-- An input of a float word, DAZ applied (04 R109). -/
def FCtx.read (k : FCtx) (f : FFmt) (x : Nat) : XVal :=
  match f.value x with
  | .fin neg m e => if k.daz && f.wide && x % 2 ^ (f.w - 1) < 2 ^ f.mb then .fin neg 0 e else .fin neg m e
  | v => v

/-! ### RoundF (04 R112, R111, R109) -/

/-- An overflowed result (04 R111). -/
def FFmt.overflow (f : FFmt) (rm : RMode) (neg sat : Bool) : Nat :=
  match f.kind with
  | .plain => f.signBit neg + f.maxCode
  | .oneNan => if sat then f.signBit neg + f.maxCode else f.nan
  | .ieee =>
    let sat := sat && f.w ≤ 16
    let toInf := match rm with | .rne => true | .rtz => false | .rdn => neg | .rup => !neg
    f.signBit neg + if sat || !toInf then f.maxCode else f.infCode

/-- Whether a magnitude is rounded away from zero: the kept integer, what is cut off in units of 2^-sh, and whether more
follows. -/
def roundsUp (rm : RMode) (neg : Bool) (n cut sh : Nat) (sticky : Bool) : Bool :=
  match rm with
  | .rne => 2 ^ sh < 2 * cut || (2 ^ sh = 2 * cut && (sticky || n % 2 = 1))
  | .rtz => false
  | .rdn => neg && (cut ≠ 0 || sticky)
  | .rup => !neg && (cut ≠ 0 || sticky)

/-- RoundF of m · 2^e, m not zero; with `sticky` the magnitude lies strictly between m and m + 1 units. -/
def FFmt.roundFin (f : FFmt) (rm : RMode) (sat neg : Bool) (m : Nat) (e : Int) (sticky : Bool) : Nat × Fl :=
  let ee := max ((Nat.log2 m : Int) + e) f.emin
  let sh := ee - f.mb - e
  let s := sh.toNat
  let n := if sh ≤ 0 then m * 2 ^ (-sh).toNat else m / 2 ^ s
  let cut := if sh ≤ 0 then 0 else m % 2 ^ s
  let inexact := cut ≠ 0 || sticky
  let ip := if roundsUp rm neg n cut s sticky then n + 1 else n
  let code := (ee - f.emin).toNat * 2 ^ f.mb + ip
  if f.maxCode < code then (f.overflow rm neg sat, Fl.of ||| Fl.nx)
  else (f.signBit neg + code,
    (if inexact then Fl.nx else 0) ||| (if inexact && code < 2 ^ f.mb then Fl.uf else 0))

/-- RoundF of a value; a NaN's NV is the caller's, but for a format without NaN. -/
def FFmt.round (f : FFmt) (rm : RMode) (sat : Bool) (x : XVal) : Nat × Fl :=
  match x with
  | .nan => (f.nan, if f.kind = .plain then Fl.nv else 0)
  | .inf neg =>
    (match f.kind with
    | .ieee => (f.signBit neg + f.infCode, 0)
    | .oneNan => (if sat then f.signBit neg + f.maxCode else f.nan, Fl.of ||| Fl.nx)
    | .plain => (f.signBit neg + f.maxCode, Fl.of ||| Fl.nx))
  | .fin neg m e => if m = 0 then (f.signBit neg, 0) else f.roundFin rm sat neg m e false

/-- FTZ on a result (04 R109). -/
def FCtx.flush (k : FCtx) (f : FFmt) (r : Nat × Fl) : Nat × Fl :=
  let c := r.1 % 2 ^ (f.w - 1)
  if k.ftz && f.wide && c ≠ 0 && c < 2 ^ f.mb then (r.1 - c, r.2 ||| Fl.uf ||| Fl.nx) else r

/-- The result of a word: RoundF under its captured FPC, then FTZ. -/
def FCtx.done (k : FCtx) (f : FFmt) (x : XVal) : Nat × Fl := k.flush f (f.round k.rm k.sat x)
def FCtx.doneFin (k : FCtx) (f : FFmt) (neg : Bool) (m : Nat) (e : Int) (sticky : Bool) : Nat × Fl :=
  k.flush f (f.roundFin k.rm k.sat neg m e sticky)

/-- The canonical NaN with NV. -/
def FFmt.invalid (f : FFmt) : Nat × Fl := (f.nan, Fl.nv)

/-! ### Exact arithmetic -/

def XVal.neg : XVal → XVal
  | .nan => .nan
  | .inf s => .inf (!s)
  | .fin s m e => .fin (!s) m e

def XVal.isZero : XVal → Bool
  | .fin _ m _ => m = 0
  | _ => false

def XVal.sign : XVal → Bool
  | .nan => false
  | .inf s => s
  | .fin s _ _ => s

/-- A signed integer times 2^e. -/
def XVal.ofInt (x e : Int) : XVal := .fin (decide (x < 0)) x.natAbs e

/-- The signed significand of a finite value at exponent e, e not above its own. -/
def signedAt (neg : Bool) (m : Nat) (e0 e : Int) : Int :=
  let x : Int := ((m * 2 ^ (e0 - e).toNat : Nat) : Int)
  if neg then -x else x

/-- The exact product; none for zero times infinity. -/
def XVal.mul? (a b : XVal) : Option XVal :=
  match a, b with
  | .nan, _ | _, .nan => some .nan
  | .inf s, y => if y.isZero then none else some (.inf (s != y.sign))
  | x, .inf t => if x.isZero then none else some (.inf (x.sign != t))
  | .fin s m e, .fin t n f => some (.fin (s != t) (m * n) (e + f))

/-- The exact sum; none for infinities of both signs.  An exact zero is +0, or −0 under RDN, unless both are zeros of one
sign (07 R214). -/
def XVal.add? (rdn : Bool) (a b : XVal) : Option XVal :=
  match a, b with
  | .nan, _ | _, .nan => some .nan
  | .inf s, .inf t => if s = t then some (.inf s) else none
  | .inf s, _ => some (.inf s)
  | _, .inf t => some (.inf t)
  | .fin s m e, .fin t n f =>
    let g := min e f
    let x := signedAt s m e g + signedAt t n f g
    if x = 0 then some (.fin (if m = 0 && n = 0 && s = t then s else rdn) 0 g) else some (XVal.ofInt x g)

/-- The order of two values that are not NaN, as integers at a common exponent. -/
def XVal.order (a b : XVal) : Int × Int :=
  match a, b with
  | .inf s, .inf t => (if s then -1 else 1, if t then -1 else 1)
  | .inf s, _ => (if s then -1 else 1, 0)
  | _, .inf t => (0, if t then -1 else 1)
  | .fin s m e, .fin t n f => let g := min e f; (signedAt s m e g, signedAt t n f g)
  | _, _ => (0, 0)

/-! ### Words (07 R213 to R216) -/

/-- The arithmetic float words (07 Table 7-5, R215). -/
inductive FpOp where
  | add | sub | mul | fma | fms | fnma | div | sqrt | min | max
  deriving DecidableEq, Repr

/-- The integer square root: the largest r of i bits more than `r` whose square is at most n. -/
def isqrtFrom (n : Nat) : Nat → Nat → Nat
  | 0, r => r
  | i + 1, r => isqrtFrom n i (if (r + 2 ^ i) * (r + 2 ^ i) ≤ n then r + 2 ^ i else r)
def isqrt (n : Nat) : Nat := isqrtFrom n (Nat.log2 n / 2 + 1) 0

/-- A quotient of magnitudes: 2^p · m / n, and whether more follows. -/
def quotient (p m n : Nat) : Nat × Bool := (2 ^ p * m / n, 2 ^ p * m % n ≠ 0)

/-- x ÷ y (07 R214). -/
def FCtx.div (k : FCtx) (f : FFmt) (a b : XVal) : Nat × Fl :=
  let neg := a.sign != b.sign
  match a, b with
  | .nan, _ | _, .nan => (f.nan, 0)
  | .inf _, .inf _ => f.invalid
  | .inf _, _ => k.done f (.inf neg)
  | _, .inf _ => k.done f (.fin neg 0 0)
  | .fin _ m e, .fin _ n g =>
    if n = 0 then (if m = 0 then f.invalid else (f.signBit neg + f.infCode, Fl.dz))
    else if m = 0 then (f.signBit neg, 0)
    else
      let (q, st) := quotient 128 m n
      k.doneFin f neg q (e - g - 128) st

/-- √x (07 R214). -/
def FCtx.sqrt (k : FCtx) (f : FFmt) (a : XVal) : Nat × Fl :=
  match a with
  | .nan => (f.nan, 0)
  | .inf s => if s then f.invalid else k.done f a
  | .fin s m e =>
    if m = 0 then (f.signBit s, 0)
    else if s then f.invalid
    else
      let odd := e % 2 ≠ 0
      let n := (if odd then 2 * m else m) * 2 ^ 128
      let r := isqrt n
      k.doneFin f false r ((if odd then e - 1 else e) / 2 - 64) (r * r ≠ n)

/-- x × y + z, with 0 × ∞ invalid whatever z is (07 R214). -/
def FCtx.fma (k : FCtx) (f : FFmt) (p : Option XVal) (z : XVal) (snan : Bool) : Nat × Fl :=
  match p with
  | none => f.invalid
  | some p =>
    match p.add? (k.rm = .rdn) z with
    | none => f.invalid
    | some .nan => (f.nan, if snan then Fl.nv else 0)
    | some x => k.done f x

/-- FMIN and FMAX (07 R215). -/
def FCtx.minmax (k : FCtx) (f : FFmt) (max : Bool) (a b : XVal) : Nat × Fl :=
  match a, b with
  | .nan, .nan => (f.nan, 0)
  | .nan, y => k.done f y
  | x, .nan => k.done f x
  | x, y =>
    let (i, j) := x.order y
    let low := decide (i < j) || (i = j && x.sign)
    k.done f (if low = max then y else x)

/-- A float word's result on bit patterns (07 R213 to R215). -/
def FCtx.op (k : FCtx) (f : FFmt) (o : FpOp) (a b c : Nat) : Nat × Fl :=
  let x := k.read f a
  let y := k.read f b
  let z := k.read f c
  let two := f.snan a || f.snan b
  let join (s : Bool) (r : Nat × Fl) : Nat × Fl := (r.1, r.2 ||| if s then Fl.nv else 0)
  let sum (u v : XVal) : Nat × Fl :=
    match u.add? (k.rm = .rdn) v with | none => f.invalid | some w => k.done f w
  match o with
  | .add => join two (sum x y)
  | .sub => join two (sum x y.neg)
  | .mul => join two (match x.mul? y with | none => f.invalid | some w => k.done f w)
  | .fma => k.fma f (x.mul? y) z (two || f.snan c)
  | .fms => k.fma f (x.mul? y) z.neg (two || f.snan c)
  | .fnma => k.fma f ((x.mul? y).map XVal.neg) z (two || f.snan c)
  | .div => join two (k.div f x y)
  | .sqrt => join (f.snan a) (k.sqrt f x)
  | .min => join two (k.minmax f false x y)
  | .max => join two (k.minmax f true x y)

/-- FCMP (07 R216). -/
def FCtx.cmp (k : FCtx) (f : FFmt) (cc : Cc) (a b : Nat) : Bool × Fl :=
  let x := k.read f a
  let y := k.read f b
  let quiet := match cc with | .eq | .ne => true | _ => false
  match x, y with
  | .nan, _ | _, .nan => (cc = .ne, if !quiet || f.snan a || f.snan b then Fl.nv else 0)
  | _, _ => let (i, j) := x.order y; (ccHolds cc i j, 0)

/-! ### Conversion (04 R113; 07 R217) -/

/-- A float to an integer within bounds, scaled by 2^p (04 R113). -/
def XVal.toInt (x : XVal) (rm : RMode) (p : Nat) (lo hi : Int) : Int × Fl :=
  match x with
  | .nan => (0, Fl.nv)
  | .inf s => (if s then lo else hi, Fl.nv)
  | .fin s m e =>
    let e := e + p
    let sh := (-e).toNat
    let n := if 0 ≤ e then m * 2 ^ e.toNat else m / 2 ^ sh
    let cut := if 0 ≤ e then 0 else m % 2 ^ sh
    let n := if roundsUp rm s n cut sh false then n + 1 else n
    let v : Int := if s then -(n : Int) else (n : Int)
    if v < lo then (lo, Fl.nv) else if hi < v then (hi, Fl.nv) else (v, if cut = 0 then 0 else Fl.nx)

def tyIsFloat (t : BitVec 4) : Bool := WellFormed.tyFloat t

/-- The least and the greatest value of an integer TYPE. -/
def tyMin (t : BitVec 4) : Int := if WellFormed.tySigned t then minInt (WellFormed.tyWidth t) else 0
def tyMax (t : BitVec 4) : Int :=
  if WellFormed.tySigned t then maxInt (WellFormed.tyWidth t) else (2 : Int) ^ WellFormed.tyWidth t - 1

/-- An element's pattern as a TYPE reads it. -/
def elemVal (t : BitVec 4) (x : Nat) : Int :=
  let w := WellFormed.tyWidth t
  if WellFormed.tySigned t then sintNat w x else ((x % 2 ^ w : Nat) : Int)

/-- The rounding mode of FCVT and VCVT: AUX[6:4], 000 for the captured RM (07 R217). -/
def cvtMode (rm : RMode) (r : BitVec 3) : RMode := if r = 0 then rm else RMode.ofBits r.toNat

/-- FCVT and VCVT of one element: its pattern at the destination's width (07 R217).  DESIGN CHOICE: for an integer that the destination
does not represent though it is no narrower (a negative one to an unsigned type, a large unsigned one to a signed type), the manual
gives no rule: it clamps to the destination's range. -/
def FCtx.convert (k : FCtx) (d s : BitVec 4) (r : BitVec 3) (x : Nat) : Nat × Fl :=
  let k := { k with rm := cvtMode k.rm r }
  let wd := WellFormed.tyWidth d
  if tyIsFloat s then
    let f := fmtTy s
    let v := k.read f x
    let nv : Fl := if f.snan x then Fl.nv else 0
    if tyIsFloat d then let (y, fl) := k.done (fmtTy d) v; (y, fl ||| nv)
    else let (y, fl) := v.toInt k.rm 0 (tyMin d) (tyMax d); (truncInt wd y, fl ||| nv)
  else
    let v := elemVal s x
    if tyIsFloat d then k.done (fmtTy d) (XVal.ofInt v 0)
    else (truncInt wd (clampInt (tyMin d) (tyMax d) v), 0)

/-- The pattern of a small integer in a float format: an immediate operand (06 R166). -/
def floatImm (f : FFmt) (x : Int) : Nat := (f.round .rne false (XVal.ofInt x 0)).1

/-- A float add in a scratchpad bank: RNE, subnormals kept (04 R127).  DESIGN CHOICE: the manual does not say whether FPC.SAT applies to
a bf16 or f32 bank add: it does not, and an overflow gives infinity. -/
def bankAdd (f : FFmt) (a b : Nat) : Nat :=
  match (f.value a).add? false (f.value b) with
  | none => f.nan
  | some x => (f.round .rne false x).1

/-! ### Block scales and 4-bit elements (04 R99 to R105, R114, R115) -/

/-- The half-units of an e2m1 code (04 Table 4-4). -/
def halfUnits (c : Nat) : Int :=
  let m : Int := match c % 8 with | 0 => 0 | 1 => 1 | 2 => 2 | 3 => 3 | 4 => 4 | 5 => 6 | 6 => 8 | _ => 12
  if c.testBit 3 then -m else m

/-- XV[5:0] of an extra-value byte. -/
def xvUnits (xv : Nat) : Int := sintNat 6 xv

/-- An invalid XV byte (04 R104). -/
def xvBad (xv : Nat) : Bool := xv / 64 % 4 ≠ 0 || xv % 64 = 32

/-- The codes that a 4-bit element of this sign may take, with their half-units; with XV for hf4 (04 R115, R105). -/
def cands4 (xv : Option Nat) (neg : Bool) : List (Nat × Int) :=
  (List.range 16).filterMap fun c =>
    if c = 8 then
      match xv with
      | some v => some (8, xvUnits v)
      | none => if neg then some (8, 0) else none
    else if c = 0 && neg && xv.isNone then none
    else some (c, halfUnits c)

/-- Whether a candidate at the same distance takes the other's place: XV loses, then bit 0 clear wins (04 R115). -/
def beats4 (hf : Bool) (new old : Nat) : Bool :=
  if hf && new = 8 then false else if hf && old = 8 then true else new % 2 = 0 && old % 2 = 1

/-- The candidate of least distance to n half-units in d-ths. -/
def nearest4 (hf : Bool) (n : Int) (d : Int) : List (Nat × Int) → Nat × Int
  | [] => (0, 0)
  | [x] => x
  | x :: r =>
    let y := nearest4 hf n d r
    let dx := (n - x.2 * d).natAbs
    let dy := (n - y.2 * d).natAbs
    if dx < dy || (dx = dy && beats4 hf x.1 y.1) then x else y

/-- Conversion to a 4-bit element; `xv` is XV for hf4 (04 R115, R112). -/
def round4 (xv : Option Nat) (u : XVal) : Nat × Fl :=
  let cs := cands4 xv u.sign
  let hi := cs.foldl (fun b c => max b c.2) 0
  let lo := cs.foldl (fun b c => min b c.2) 0
  match u with
  | .nan => (0, Fl.nv)
  | .inf s => ((nearest4 xv.isSome (if s then lo else hi) 1 cs).1, Fl.of ||| Fl.nx)
  | .fin s m e =>
    let h := e + 1
    let d : Int := if 0 ≤ h then 1 else (2 : Int) ^ (-h).toNat
    let x : Int := ((if 0 ≤ h then m * 2 ^ h.toNat else m : Nat) : Int)
    let n := if s then -x else x
    if n < lo * d then ((nearest4 xv.isSome lo 1 cs).1, Fl.of ||| Fl.nx)
    else if hi * d < n then ((nearest4 xv.isSome hi 1 cs).1, Fl.of ||| Fl.nx)
    else
      let c := nearest4 xv.isSome n d cs
      (c.1, if c.2 * d = n then 0 else Fl.nx)

/-- The error of a value under plain e2m1 rounding, in units of 2^-k half-units at a common k (04 R114). -/
def plainError (k : Nat) (u : XVal) : Nat :=
  match u with
  | .fin s m e =>
    let x : Int := ((m * 2 ^ (e + 1 + k).toNat : Nat) : Int)
    let n := if s then -x else x
    (n - halfUnits (round4 none u).1 * (2 : Int) ^ k).natAbs
  | _ => 0

/-- EMAX of a narrow format (04 R114). -/
def emaxOf (code : Nat) : Int := match code with | 4 => 15 | 5 => 8 | 6 => 4 | _ => 2

/-- The value times a power of two. -/
def XVal.scale (x : XVal) (p : Int) : XVal :=
  match x with | .fin s m e => .fin s m (e + p) | v => v

/-- floor(log2) of the largest magnitude of a block; none where all are zero. -/
def amaxLog (vs : List XVal) : Option Int :=
  vs.foldl (fun b v => match v with
    | .fin _ m e => if m = 0 then b else
        let l := (Nat.log2 m : Int) + e
        some (match b with | none => l | some x => max x l)
    | _ => b) none

/-- A computed scale and XV byte, and whether the block is NaN (04 R114).  DESIGN CHOICE: XV of a block that holds a NaN or an infinity is 0;
the rule gives its scale, its codes and NV, and no XV (08 R247). -/
def blockScale (code : Nat) (vs : List XVal) : Nat × Nat × Bool :=
  if vs.any fun v => match v with | .fin _ _ _ => false | _ => true then (0xFF, 0, true)
  else match amaxLog vs with
    | none => (0x7F, 0, false)
    | some l =>
      let e := min 254 (max 0 (l - emaxOf code + 127)).toNat
      if code ≠ 9 then (e, 0, false)
      else
        let us := vs.map fun v => v.scale (127 - (e : Int))
        let k := us.foldl (fun b u => match u with | .fin _ _ x => max b (-(x + 1)).toNat | _ => b) 0
        let best := us.foldl (fun (b : Nat × XVal) u =>
          let d := plainError k u
          if b.1 < d then (d, u) else b) (0, .fin false 0 0)
        if best.1 = 0 then (e, 0, false)
        else (e, truncInt 6 (((best.2.scale 1).toInt .rne 0 (-31) 31).1), false)

/-- One element of a block under a scale code that is not NaN (08 R247; 04 R112, R115). -/
def packElem (code : Nat) (rm : RMode) (sat : Bool) (e xv : Nat) (v : XVal) : Nat × Fl :=
  let u := v.scale (127 - (e : Int))
  if code = 8 then round4 none u
  else if code = 9 then round4 (some xv) u
  else ((fmtCode code).getD fmtE5m2).round rm sat u

/-- The value of an element of a block before its scale (04 R94, R95, R103). -/
def elemValue (code xv x : Nat) : XVal :=
  if code = 9 && x % 16 = 8 then XVal.ofInt (xvUnits xv) (-1)
  else if code = 9 && x % 16 = 0 then .fin false 0 0
  else ((fmtCode code).getD fmtE5m2).value x

/-! ### Functions (08 R244, Table 8-2) -/

/-- The VSF functions. -/
inductive SfOp where
  | rcp | rsqrt | exp2 | log2 | sin | cos | tanh | sigm
  deriving DecidableEq, Repr

/-- Fraction bits of the fixed-point values below. -/
def fxBits : Nat := 704

/-- Σ over n of sgn^n · z^(2n+1) / (2n+1), at fixed point p; `t` is z^(2n+1). -/
def atanSum (p : Nat) (alt : Bool) (zz : Nat) : Nat → Nat → Nat → Int
  | 0, _, _ => 0
  | fuel + 1, n, t =>
    let x : Int := ((t / (2 * n + 1) : Nat) : Int)
    (if alt && n % 2 = 1 then -x else x) + atanSum p alt zz fuel (n + 1) (t * zz / 2 ^ p)

/-- atan(1/k), or atanh(1/k), at fixed point p. -/
def atanInv (p k fuel : Nat) (alt : Bool) : Int := atanSum p alt (2 ^ p / (k * k)) fuel 0 (2 ^ p / k)

/-- π at fixed point p. -/
def fxPi (p : Nat) : Nat := (16 * atanInv p 5 220 true - 4 * atanInv p 239 80 true).toNat
/-- ln 2 at fixed point p. -/
def fxLn2 (p : Nat) : Nat := (2 * atanInv p 3 260 false).toNat

/-- Σ over n from `n` of r^n / n! at fixed point p; `t` is the term. -/
def expSum (p r : Nat) : Nat → Nat → Nat → Nat
  | 0, _, _ => 0
  | fuel + 1, n, t => t + expSum p r fuel (n + 1) (t * r / 2 ^ p / (n + 1))

/-- The alternating sums of sin and cos from term n; `rr` is the square of the argument. -/
def trigSum (p rr : Nat) : Nat → Nat → Nat → Int
  | 0, _, _ => 0
  | fuel + 1, n, t => (t : Int) - trigSum p rr fuel (n + 2) (t * rr / 2 ^ p / ((n + 1) * (n + 2)))

/-- Sine or cosine of an angle of magnitude m · 2^e, e at least -fxBits: its sign and magnitude at fixed point. -/
def fxTrig (cos : Bool) (neg : Bool) (m : Nat) (e : Int) : Bool × Nat :=
  let p := fxBits + 192
  let x := m * 2 ^ ((p : Int) + e).toNat
  let half := fxPi p / 2
  let k := x / half % 4
  let r := x % half / 2 ^ 192
  let rr := r * r / 2 ^ fxBits
  let q := if cos then (k + 1) % 4 else k
  let v := if q % 2 = 0 then trigSum fxBits rr 80 1 r else trigSum fxBits rr 80 0 (2 ^ fxBits)
  ((2 ≤ q) != (!cos && neg), v.natAbs)

/-- e^x for x = ±m · 2^e of magnitude below 2^11: y · 2^k with y from 1 to 2 at fixed point. -/
def fxExp (neg : Bool) (m : Nat) (e : Int) : Nat × Int :=
  let x : Int := ((m * 2 ^ ((fxBits : Int) + e).toNat : Nat) : Int)
  let l : Int := fxLn2 fxBits
  let x := if neg then -x else x
  let k := x / l
  (expSum fxBits (x - k * l).toNat 150 0 (2 ^ fxBits), k)

/-- log2 of m · 2^e at fixed point. -/
def fxLog2 (m : Nat) (e : Int) : Int :=
  let l := Nat.log2 m
  let y := m * 2 ^ fxBits / 2 ^ l
  let one := 2 ^ fxBits
  let z := (y - one) * one / (y + one)
  let ln := 2 * atanSum fxBits false (z * z / one) 260 0 z
  ((l : Int) + e) * one + ln * one / (fxLn2 fxBits : Int)

/-- f(x) of a finite x that is not zero, and whether the magnitude given is exact; the specials of Table 8-2 apart. -/
def FCtx.sfFin (k : FCtx) (o : SfOp) (s : Bool) (m : Nat) (e : Int) : Nat × Fl :=
  let f := fmtF32
  let p : Int := fxBits
  let top := (Nat.log2 m : Int) + e
  match o with
  | .rcp => let (q, st) := quotient 128 1 m; k.doneFin f s q (-e - 128) st
  | .rsqrt =>
    if s then f.invalid
    else
      let odd := e % 2 ≠ 0
      let m' := if odd then 2 * m else m
      let (q, st) := quotient 256 1 m'
      let r := isqrt q
      k.doneFin f false r (-((if odd then e - 1 else e) / 2) - 128) (st || r * r ≠ q)
  | .exp2 =>
    if 11 ≤ top then (if s then k.doneFin f false 1 (-2000) true else k.doneFin f false 1 2000 false)
    else
      let x : Int := ((m * 2 ^ (p + e).toNat : Nat) : Int)
      let x := if s then -x else x
      let one : Int := (2 : Int) ^ fxBits
      let fr := (x % one).toNat
      if fr = 0 then k.doneFin f false 1 (x / one) false
      else k.doneFin f false (expSum fxBits (fr * fxLn2 fxBits / 2 ^ fxBits) 150 0 (2 ^ fxBits)) (x / one - p) true
  | .log2 =>
    if s then f.invalid
    else if m = 2 ^ Nat.log2 m then k.done f (XVal.ofInt ((Nat.log2 m : Int) + e) 0)
    else let y := fxLog2 m e; k.doneFin f (decide (y < 0)) y.natAbs (-p) true
  | .sin => let (n, y) := fxTrig false s m e; k.doneFin f n y (-p) true
  | .cos => let (n, y) := fxTrig true s m e; k.doneFin f n y (-p) true
  | .tanh =>
    if 7 ≤ top then k.doneFin f s (2 ^ 128 - 1) (-128) true
    else
      let (y, j) := fxExp true m (e + 1)
      let u := y / 2 ^ (-j).toNat
      let one := 2 ^ fxBits
      k.doneFin f s ((one - u) * one / (one + u)) (-p) true
  | .sigm =>
    if 7 ≤ top then (if s then k.doneFin f false 1 (-2000) true else k.doneFin f false (2 ^ 128 - 1) (-128) true)
    else
      let (y, j) := fxExp (!s) m e
      let t := if 0 ≤ j then y * 2 ^ j.toNat else y / 2 ^ (-j).toNat
      let one := 2 ^ fxBits
      k.doneFin f false (one * one * one / (one + t)) (-(2 * p)) true

/-- VSF.fn of one f32 element (08 R244, Table 8-2). -/
def FCtx.sf (k : FCtx) (o : SfOp) (a : Nat) : Nat × Fl :=
  let f := fmtF32
  let one := XVal.fin false 1 0
  match k.read f a with
  | .nan => (f.nan, if f.snan a then Fl.nv else 0)
  | .inf s =>
    (match o, s with
    | .rcp, s => (f.signBit s, 0)
    | .rsqrt, true | .log2, true => f.invalid
    | .rsqrt, false | .exp2, true | .sigm, true => (0, 0)
    | .exp2, false | .log2, false => (f.infCode, 0)
    | .sin, _ | .cos, _ => f.invalid
    | .tanh, s => k.done f (.fin s 1 0)
    | .sigm, false => k.done f one)
  | .fin s m e =>
    if m = 0 then
      match o with
      | .rcp | .rsqrt => (f.signBit s + f.infCode, Fl.dz)
      | .exp2 | .cos => k.done f one
      | .log2 => (f.signBit true + f.infCode, Fl.dz)
      | .sin | .tanh => (f.signBit s, 0)
      | .sigm => k.done f (.fin false 1 (-1))
    else k.sfFin o s m e

end Machine
end Sys2Proof
end

