-- ==== Sys2Proof/Machine/Memory.lean ====
section
/-! DEFINITION. Memory: the windows and their checks (03 R68 to R82), translation (19), and reading and writing bytes where
they lie. -/

namespace Sys2Proof
namespace Machine

/-! ### Windows -/

/-- The windows of 03 Table 3-2; each core's, die's and (chip, segment)'s part is one of its own (03 R76). -/
inductive Win where
  | global | pod (chip seg : Nat) | flag | sync (d : Nat) | block (j : Nat) | ctrs | loc
  deriving DecidableEq, Repr

/-- The window of an address and the offset in it (03 Table 3-2). -/
def winOf (a : Nat) : Option (Win × Nat) :=
  if a ≤ 0x00FFFFFFFFFFFFFF then some (.global, a)
  else if 0xF000000000000000 ≤ a ∧ a ≤ 0xF7FFFFFFFFFFFFFF then
    some (.pod (a / 2 ^ 48 % 2 ^ 11) (a / 2 ^ 40 % 256), a % 2 ^ 40)
  else if 0xFC00000000000000 ≤ a ∧ a ≤ 0xFC0000000000FFFF then some (.flag, a - 0xFC00000000000000)
  else if 0xFD00000000000000 ≤ a ∧ a < 0xFD00000008000000 then
    let o := a - 0xFD00000000000000
    if o % 0x1000000 ≤ 0x3FFFFF then some (.sync (o / 0x1000000), o % 0x1000000) else none
  else if 0xFE00000000000000 ≤ a ∧ a < 0xFE00000004000000 then
    let o := a - 0xFE00000000000000
    some (.block (o / 0x800000), o % 0x800000)
  else if 0xFE00000004000000 ≤ a ∧ a ≤ 0xFE000000040001FF then some (.ctrs, a - 0xFE00000004000000)
  else if 0xFF00000000000000 ≤ a ∧ a ≤ 0xFF000000007FFFFF then some (.loc, a - 0xFF00000000000000)
  else none

/-- ADDR_UNMAPPED on the first byte, then WINDOW_STRADDLE (03 R69, R75, R76). -/
def checkWin (a n : Nat) : Except Cause (Win × Nat) :=
  match winOf a with
  | none => .error .addrUnmapped
  | some (w, o) =>
    if n = 0 then .ok (w, o)
    else match winOf (a + n - 1) with
      | some (w', _) => if w = w' then .ok (w, o) else .error .windowStraddle
      | none => .error .windowStraddle

/-- On whose behalf an access is made: the partition, context and launch of a task, its core, and the engine (19 Table 19-2
engines). -/
structure Agent where
  part : Nat
  ctx : Nat
  handle : Nat
  core : Nat
  scratch : Nat
  engine : Nat
  deriving DecidableEq, Repr

/-- What an access does. -/
structure Acc where
  rd : Bool
  wr : Bool
  atom : Bool := false
  fetch : Bool := false
  deriving DecidableEq, Repr

def Acc.load : Acc := { rd := true, wr := false }
def Acc.store : Acc := { rd := false, wr := true }
def Acc.atomic : Acc := { rd := true, wr := true, atom := true }
def Acc.exec : Acc := { rd := true, wr := false, fetch := true }

/-- The launch of a handle in a partition (02 R40). -/
def State.launch? (s : State) (part handle : Nat) : Option Launch :=
  s.launches.find? fun x => x.part = part && x.handle = handle

/-- The launch's region on a core (03 R71). -/
def Core.region (c : Core) (handle : Nat) : Option Region := c.regions.find? fun r => r.handle = handle

/-- Bytes `o` to `o + n - 1` of a launch's region on a core: those at or beyond SCRATCH, or all where the launch holds no
region there, are out of range (03 R71, R72, R82). -/
def regionSegs (s : State) (g : Agent) (core o n : Nat) : List Seg :=
  match (s.core core).region g.handle with
  | none => [⟨.oor, n⟩]
  | some r =>
    let k := min n (g.scratch - o)
    (if k = 0 then [] else [⟨.scr core (r.base + o), k⟩]) ++ (if k = n then [] else [⟨.oor, n - k⟩])

/-- Bytes of the sync window of a die, within the partition's share (03 R73, R82). -/
def syncSegs (s : State) (g : Agent) (d o n : Nat) : List Seg :=
  let p := s.part g.part
  let k := min n (p.shareSize.getD d 0 - o)
  (if k = 0 then [] else [⟨.sync d (p.shareBase.getD d 0 + o), k⟩]) ++ (if k = n then [] else [⟨.oor, n - k⟩])

/-! ### HBM -/

/-- The partition that owns a memory unit (22 R546). -/
def State.unitOwner (s : State) (u : Nat) : Option Nat := (s.parts.find? fun p => p.2.units.contains u).map (·.1)

def State.rdHbm (s : State) (a n : Nat) : Nat := natOfBytes (Memory.read s.hbm a n)

/-- The 64-byte lines that `n` bytes at `a` touch. -/
def lines64 (a n : Nat) : List Nat := if n = 0 then [] else (List.range ((a + n - 1) / 64 - a / 64 + 1)).map (· + a / 64)

def hbmPoisoned (s : State) (a n : Nat) : Bool := (lines64 a n).any fun l => s.hbmPoison.contains l

/-- Inserts into a rising list of numbers without repeats. -/
def insertNat (x : Nat) : List Nat → List Nat
  | [] => [x]
  | y :: r => if x = y then y :: r else if x < y then x :: y :: r else y :: insertNat x r

/-- A region slot invalidated (13 Table 13-3, last row): weights, buffer, window and counters zero; CTL and THRESH from the
region table. -/
def RSlot.invalidate (r : RSlot) : RSlot :=
  let f (o n : Nat) := natOfBytes ((r.table.drop o).take n)
  { r with state := 0, weights := [], buffer := [], window := [], exec := 0, subst := 0, gen := r.gen + 1,
           batch := BitVec.ofNat 2 (f 0xB 1), lr := BitVec.ofNat 5 (f 0xC 1), samp := BitVec.ofNat 4 (f 0xD 1),
           thresh := BitVec.ofNat 32 (f 0x10 4) }

/-! ### Translation (19) -/

/-- A 128-bit entry of a table (19 R481). -/
def State.rdEntry (s : State) (a : Nat) : Nat := s.rdHbm a 16

/-- An entry that a walk of a partition reads: zero in another partition's unit (22 R548). -/
def State.ownEntry (s : State) (part a : Nat) : Nat := if s.unitOwner (a / 2 ^ 30) = some part then s.rdEntry a else 0

/-- Bits [hi:lo] of a number. -/
def fld (x hi lo : Nat) : Nat := x / 2 ^ lo % 2 ^ (hi - lo + 1)

/-- A well-formed table entry has only VALID, the next table and the software bits (19 R481). -/
def tableEntryOk (e : Nat) : Bool := fld e 15 1 = 0 && fld e 111 56 = 0

/-- A leaf's fields are well formed at a level for an address (19 R481, R482). -/
def leafOk (e level v : Nat) : Bool :=
  let ap := fld e 3 2
  let q := if level = 2 then fld e 55 28 * 2 ^ 28 + v % 2 ^ 28 else fld e 55 16 * 2 ^ 16 + v % 2 ^ 16
  (level = 2 || level = 3) && fld e 15 11 = 0 && fld e 71 67 = 0 && fld e 111 105 = 0 && fld e 103 98 = 0 &&
  (level = 3 || fld e 27 16 = 0) && (ap = 1 || fld e 66 56 = 0) && (ap ≠ 1 || fld e 55 48 = 0) &&
  ((ap ≠ 0 && ap ≠ 3) || q < 2 ^ 40)

/-- A second-stage leaf uses only VALID, LEAF, R, W, X and FRAME (19 R485); its APERTURE is 00, so the address that it gives lies
below 2^40 (19 R481). -/
def leaf2Ok (e level v : Nat) : Bool :=
  let q := if level = 2 then fld e 55 28 * 2 ^ 28 + v % 2 ^ 28 else fld e 55 16 * 2 ^ 16 + v % 2 ^ 16
  (level = 2 || level = 3) && fld e 4 2 = 0 && fld e 15 8 = 0 && fld e 127 56 = 0 && (level = 3 || fld e 27 16 = 0) && q < 2 ^ 40

/-- Why a walk ends in step 1 of Table 19-3: whether at the second stage, and whether by a malformed entry (19 Table 19-4). -/
structure WalkFault where
  stage2 : Bool
  malformed : Bool
  deriving DecidableEq, Repr

/-- The index of a level (19 R481). -/
def walkIdx (level v : Nat) : Nat :=
  match level with
  | 0 => fld v 55 52 | 1 => fld v 51 40 | 2 => fld v 39 28 | _ => fld v 27 16

/-- A walk of one stage from level 4 - fuel: the leaf, its level and its address.  `via` translates the address of each entry
(19 R485); the partition owns what its own tables lie in, and firmware the second stage's, for which `own` is none.  An entry that
carries poison is malformed: DESIGN CHOICE, the manual says only that its read returns poison (22 R567). -/
def walkTable (s : State) (own : Option Nat) (via : Nat → Except WalkFault Nat) (v : Nat) :
    Nat → Nat → Except WalkFault (Nat × Nat × Nat)
  | 0, _ => .error ⟨own.isNone, true⟩
  | fuel + 1, table =>
    let level := 3 - fuel
    let second := own.isNone
    match via (table + 16 * walkIdx level v) with
    | .error f => .error f
    | .ok pa =>
      let e := match own with | some p => s.ownEntry p pa | none => s.rdEntry pa
      if hbmPoisoned s pa 16 then .error ⟨second, true⟩
      else if e % 2 = 0 then .error ⟨second, false⟩
      else if fld e 1 1 = 0 then
        if level = 3 || !tableEntryOk e then .error ⟨second, true⟩
        else walkTable s own via v fuel (fld e 55 16 * 2 ^ 16)
      else if second then (if leaf2Ok e level v then .ok (e, level, pa) else .error ⟨second, true⟩)
      else if leafOk e level v then .ok (e, level, pa)
      else .error ⟨second, true⟩

/-- The second stage of a partition: the physical address and the rights R, W, X (19 R485). -/
def stage2 (s : State) (part v : Nat) : Except WalkFault (Nat × Bool × Bool × Bool) :=
  match (s.part part).stage2 with
  | none => .ok (v, true, true, true)
  | some root =>
    match walkTable s none (fun a => .ok a) v 4 root with
    | .error f => .error f
    | .ok (e, level, _) =>
      let q := if level = 2 then fld e 55 28 * 2 ^ 28 + v % 2 ^ 28 else fld e 55 16 * 2 ^ 16 + v % 2 ^ 16
      .ok (q, fld e 5 5 = 1, fld e 6 6 = 1, fld e 7 7 = 1)

/-- An intermediate address of a partition (19 R485). -/
def interAddr (s : State) (part a : Nat) : Except WalkFault Nat := (stage2 s part a).map (·.1)

/-- The bits of the page of a leaf. -/
def leafBits (level : Nat) : Nat := if level = 2 then 28 else 16

/-- A leaf without its FRAME. -/
def leafRest (e : Nat) : Nat := e % 2 ^ 16 + e / 2 ^ 56 * 2 ^ 56

/-- Whether the eight leaves at the indices 8m to 8m + 7 from address `la` on form a contiguous group for the addresses of `v` (19
R484). -/
def groupOk (s : State) (level la v : Nat) : Bool :=
  let n := 2 ^ (leafBits level - 16)
  let e0 := s.rdEntry la
  fld e0 55 16 % (8 * n) = 0 && (List.range 8).all fun i =>
    let e := s.rdEntry (la + 16 * i)
    e % 4 = 3 && fld e 104 104 = 1 && leafOk e level v && fld e 55 16 = fld e0 55 16 + i * n && leafRest e = leafRest e0

/-- The leaf that an access through a CONTIG leaf translates through, its address, and the bits that its entry covers: the group's
first, for a group; any one of the eight, where they break its conditions (19 R484). -/
def contigLeaf (s : State) (part e level la v : Nat) : Except WalkFault (Nat × Nat × Nat) :=
  if fld e 104 104 = 0 then .ok (e, la, leafBits level)
  else
    let first := la - 16 * (walkIdx level v % 8)
    if groupOk s level first v then .ok (s.rdEntry first, first, leafBits level + 3)
    else
      let la := first + 16 * (Config.contigLeaf first s.cycle % 8)
      let e := s.ownEntry part la
      if e % 2 = 0 then .error ⟨false, false⟩
      else if fld e 1 1 = 0 || hbmPoisoned s la 16 || !leafOk e level v then .error ⟨false, true⟩
      else .ok (e, la, leafBits level)

/-- A walk (19 R478 to R485): the TLB entry for the granule of `v` in context `ctx`, read anew from the context table.  Under a
second stage an entry covers one granule. -/
def walk (s : State) (part ctx v : Nat) : Except WalkFault TlbEntry :=
  let p := s.part part
  if fld p.ptCtl.toNat 31 16 ≤ ctx then .error ⟨false, false⟩
  else match interAddr s part (fld p.ptBase.toNat 55 12 * 2 ^ 12 + 16 * ctx) with
    | .error f => .error f
    | .ok ca =>
      let ce := s.ownEntry part ca
      if hbmPoisoned s ca 16 then .error ⟨false, true⟩
      else if ce % 2 = 0 then .error ⟨false, false⟩
      else if fld ce 15 1 ≠ 0 || fld ce 127 56 ≠ 0 then .error ⟨false, true⟩
      else match walkTable s (some part) (interAddr s part) v 4 (fld ce 55 16 * 2 ^ 16) with
        | .error f => .error f
        | .ok (e, level, la) =>
          match contigLeaf s part e level la v with
          | .error f => .error f
          | .ok (e, la, wide) =>
          let ap := fld e 3 2
          let bits := if p.stage2.isNone then wide else 16
          let base := v / 2 ^ bits * 2 ^ bits
          let t1 := fld e 55 16 * 2 ^ 16 + base % 2 ^ wide
          let second := if ap = 0 || ap = 3 then stage2 s part t1 else .ok (t1, true, true, true)
          match second with
          | .error f => .error f
          | .ok (t, r2, w2, x2) =>
            .ok { part, ctx, base, bits, target := t, aperture := BitVec.ofNat 2 ap, rap := fld e 4 4 = 1,
                  r := fld e 5 5 = 1 && r2, w := fld e 6 6 = 1 && w2, x := fld e 7 7 = 1 && x2,
                  hostOwn := fld e 8 8 = 1, dirty := fld e 10 10 = 1, peer := BitVec.ofNat 11 (fld e 66 56),
                  eperm := BitVec.ofNat 32 (fld e 103 72), leafAddr := la, group := wide ≠ leafBits level }

/-- The checks of Table 19-3 after step 1, in their order (19 R486). -/
def checkEntry (e : TlbEntry) (k : Acc) (engine : Nat) : Option Cause :=
  if e.hostOwn then some .ownership
  else if (k.fetch && !e.x) || (!k.fetch && k.rd && !e.r) || (k.wr && !e.w) then some .perm
  else if (k.rd && !e.eperm.getLsbD (2 * engine)) || (k.wr && !e.eperm.getLsbD (2 * engine + 1)) then some .enginePerm
  else if k.atom && e.aperture = 1 && !e.rap then some .remoteAtomic
  else if k.atom && e.aperture = 2 then some .perm
  else none

/-- The entry that covers an address (19 R488). -/
def tlbFind (tlb : List TlbEntry) (part ctx v : Nat) : Option TlbEntry :=
  tlb.find? fun e => e.part = part && e.ctx = ctx && e.base = v / 2 ^ e.bits * 2 ^ e.bits

/-- Installs an entry first, dropping one that it replaces and the oldest beyond the size (19 R488). -/
def tlbPut (size : Nat) (tlb : List TlbEntry) (e : TlbEntry) : List TlbEntry :=
  (e :: tlb.filter fun x => !(x.part = e.part && x.ctx = e.ctx && x.base = e.base && x.bits = e.bits)).take size

/-! ### Writes, and the code of regions (13 Table 13-3) -/

/-- The places of `n` bytes of code at `v` in a context: whether in host memory, and the first and the end address. -/
def codeRuns (s : State) (part ctx : Nat) : Nat → Nat → Nat → List (Bool × Nat × Nat)
  | 0, _, _ => []
  | fuel + 1, v, n =>
    if n = 0 then []
    else
      let here := min n (2 ^ 16 - v % 2 ^ 16)
      let r := codeRuns s part ctx fuel (v + here) (n - here)
      match walk s part ctx v with
      | .ok e => if e.aperture = 1 then r else (e.aperture == 2, e.target + (v - e.base), e.target + (v - e.base) + here) :: r
      | .error _ => r

/-- The places of a region's code, from BPC to EPC, in every context that uses its slot. -/
def RSlot.code (r : RSlot) (s : State) : List (Bool × Nat × Nat) :=
  let n := 10 * (r.epc + 1 - r.bpc)
  r.ctxs.flatMap fun c => codeRuns s r.part c (n / 2 ^ 16 + 2) (r.kernel.toNat + 128 + 10 * r.bpc) n

/-- A write by any agent to a code byte of a region makes it INVALID (13 Table 13-3). -/
def touchCode (s : State) (host : Bool) (a n : Nat) : State :=
  { s with blocks := s.blocks.map fun (b, x) =>
      (b, { x with eqx := x.eqx.map fun (k, r) =>
        (k, if (r.code s).any (fun c => c.1 = host && c.2.1 < a + n && a < c.2.2) then r.invalidate else r) }) }

/-- A write to HBM: a write of a whole 64-byte line ends its poison, a part does not (22 R567). -/
def State.wrHbm (s : State) (a : Nat) (bs : List Byte) : State :=
  let n := bs.length
  let s := if s.blocks.isEmpty then s else touchCode s false a n
  { s with hbm := Memory.write s.hbm a bs,
           hbmPoison := if s.hbmPoison.isEmpty then []
             else s.hbmPoison.filter fun l => !(a ≤ 64 * l && 64 * l + 64 ≤ a + n) }

/-! ### Host memory (05 R161) -/

/-- A byte of host memory as the device reads it: what its agents wrote last, posted or not (05 R133). -/
def State.hostByte (s : State) (a : Nat) (b : Byte) : Byte :=
  match s.host.posted.reverse.find? fun x => x.addr = a with | some x => x.byte | none => b

def State.hostBytes (s : State) (a n : Nat) : List Byte :=
  (Memory.read s.host.mem a n).zipIdx.map fun (b, i) => s.hostByte (a + i) b

/-- A write to host memory is posted, for a partition and a task where it has them; no read buffer of the device keeps an older
byte (05 R133, R161); `bad` for poisoned data (09 R284). -/
def State.postHost (s : State) (part task : Option Nat) (a : Nat) (bs : List Byte) (bad : Bool) : State :=
  let n := bs.length
  let s := if s.blocks.isEmpty then s else touchCode s true a n
  let old (x : PostedByte) : Bool := x.part = part && x.task = task && a ≤ x.addr && x.addr < a + n
  let new : List PostedByte := bs.zipIdx.map fun (b, i) => ⟨a + i, b, part, task, bad⟩
  { s with host := { s.host with posted := s.host.posted.filter (fun x => !old x) ++ new,
                                 rdBufs := s.host.rdBufs.map fun (q, m) => (q, Sparse.clear m a n) } }

/-- The posted bytes that remain when those that `p` picks reach the host: older ones at the same addresses are gone with them. -/
def keepPosted (p : PostedByte → Bool) : List PostedByte → List PostedByte
  | [] => []
  | x :: r => if p x || r.any (fun y => p y && y.addr = x.addr) then keepPosted p r else x :: keepPosted p r

/-- The posted bytes that `p` picks reach the host, oldest first. -/
def State.flushHost (s : State) (p : PostedByte → Bool) : State :=
  let due := s.host.posted.filter p
  { s with host := { s.host with
      mem := due.foldl (fun m x => Memory.setByte m x.addr x.byte) s.host.mem,
      memPoison := due.foldl (fun l x => if x.bad then insertNat x.addr l else l.filter (· ≠ x.addr)) s.host.memPoison,
      posted := keepPosted p s.host.posted } }

/-- Whether a read of host memory touches poisoned data. -/
def State.hostPoisoned (s : State) (a n : Nat) : Bool :=
  (List.range n).any fun i => match s.host.posted.reverse.find? fun x => x.addr = a + i with
    | some x => x.bad
    | none => s.host.memPoison.contains (a + i)

/-- A write of the host-port DMA engine, which the host sees at once (21 R534); it is an agent whose write to a region's code counts (13
Table 13-3). -/
def State.dmaWrite (s : State) (a : Nat) (bs : List Byte) : State :=
  let n := bs.length
  let s := if s.blocks.isEmpty then s else touchCode s true a n
  { s with host := { s.host with
      mem := Memory.write s.host.mem a bs, memPoison := s.host.memPoison.filter (fun x => !(a ≤ x && x < a + n)),
      posted := s.host.posted.filter (fun x => !(a ≤ x.addr && x.addr < a + n)),
      rdBufs := s.host.rdBufs.map fun (q, m) => (q, Sparse.clear m a n) } }

/-! ### Signals, pod time and error records -/

/-- The MSI-X write of a function's vector, with the address and data of its table entry (21 R534). -/
def State.msixOf (s : State) (port part vec : Nat) : Msix :=
  let e := Sparse.get (0, 0) s.host.msixTab (4096 * port + vec)
  ⟨port, part, vec, e.1, e.2⟩

/-- A signal to the control plane on vector 0; held while no port holds CPSEM (21 R528). -/
def State.signal (s : State) (part : Nat) : State :=
  if s.host.owner = 0 then { s with host := { s.host with heldSig := s.host.heldSig ++ [part] } }
  else { s with host := { s.host with msix := s.host.msix ++ [s.msixOf (s.host.owner - 1) part 0] } }

/-- Nanoseconds since pod time was last set down. -/
def State.podNs (s : State) : Nat := (s.cycle - s.fab.podAt) * 1000 / s.fw.cclk

/-- The part of a pending correction that slewing at 100 ppm has made in `ns` nanoseconds (20 R521). -/
def slewed (slew : Int) (ns : Nat) : Int := clampInt (-((ns / 10000 : Nat) : Int)) ((ns / 10000 : Nat) : Int) slew

/-- This chip's pod time (20 R521). -/
def State.podNow (s : State) : Word :=
  s.fab.podTime + BitVec.ofNat 64 s.podNs + BitVec.ofInt 64 (slewed s.fab.slew s.podNs)

/-- Whether a unit holds second-stage tables of a locked partition: only firmware writes it (22 R551). -/
def State.unitFrozen (s : State) (u : Nat) : Bool :=
  s.parts.any fun p => p.2.s2Units.contains u && p.2.tdi ≠ .unlocked

/-- The partitions whose frozen tables a write to HBM would change (22 R551). -/
def State.frozenBy (s : State) (a : Nat) (bs : List Byte) : List Nat :=
  (s.parts.filter fun p =>
    (p.2.tables.any fun t => a < t.1 + t.2 && t.1 < a + bs.length) && Memory.read s.hbm a bs.length != bs).map (·.1)

/-- A write to HBM that is dropped where it would change a frozen table, whose interface it moves to ERROR (22 R551, R563). -/
def State.wrOpen (s : State) (a : Nat) (bs : List Byte) : State :=
  match s.frozenBy a bs with
  | [] => s.wrHbm a bs
  | ps => ps.foldl (fun s p => s.setPart p { s.part p with tdi := .error }) s

/-- Writes bytes at an intermediate address of a partition, where it owns them (19 R485, 22 R548). -/
def State.wrInter (s : State) (part a : Nat) (bs : List Byte) : State :=
  match interAddr s part a with
  | .error _ => s
  | .ok q => if s.unitOwner (q / 2 ^ 30) = some part && !s.unitFrozen (q / 2 ^ 30) then s.wrOpen q bs else s

/-- An error record (22 Table 22-5). -/
def errBytes (s : State) (unit sev code loc : Nat) (addr : Word) : List Byte :=
  bytesOfNat 8 s.podNow.toNat ++ bytesOfNat 1 unit ++ bytesOfNat 1 sev ++ bytesOfNat 2 code ++ bytesOfNat 4 loc ++
    bytesOfNat 8 addr.toNat ++ bytesOfNat 4 1 ++ bytesOfNat 4 0

/-- An error record in the partition's log, a ring of ERRCNT records, with its signal; of no partition, in the firmware log
(22 R559).  Its address shows only with DBGPOL.ERRDATA (22 R555). -/
def State.errRecord (s : State) (part : Option Nat) (unit sev code loc : Nat) (addr : Word) : State :=
  let open_ : Bool := match part with | some p => (s.part p).dbgPol &&& 3 = 3 | none => true
  let bs := errBytes s unit sev code loc (if open_ then addr else 0)
  match part with
  | none => { s with fw := { s.fw with log := s.fw.log ++ [bs] } }
  | some p =>
    let pa := s.part p
    let s := if pa.errCnt = 0 then s
      else
        let s := s.wrInter p (pa.errBase.toNat + 32 * (pa.errIdx % pa.errCnt.toNat)) bs
        s.setPart p { s.part p with errIdx := pa.errIdx + 1 }
    s.signal p

/-! ### TLBs (19 R487, R488) -/

/-- The leaves that an entry holds: one, or the eight of a contiguous group (19 R484), also where a second stage lets it cover one
granule of the group only. -/
def TlbEntry.leaves (e : TlbEntry) : List Nat :=
  if e.group then (List.range 8).map fun i => e.leafAddr + 16 * i else [e.leafAddr]

/-- ACCESSED (0x200) or DIRTY (0x400) set by an atomic OR of the low 8 bytes of an entry's leaf (19 R487); in a group, of each of its
leaves, which stay equal; a leaf in a unit that is frozen or no longer the partition's is not written (22 R548, R551). -/
def setLeafBit (s : State) (e : TlbEntry) (bit : Nat) : State :=
  e.leaves.foldl (fun s a => if s.unitFrozen (a / 2 ^ 30) || s.unitOwner (a / 2 ^ 30) != some e.part then s else s.wrHbm a (bytesOfNat 8 (s.rdHbm a 8 ||| bit))) s

/-- What a translation gives. -/
inductive XRes where
  | ok (e : TlbEntry) (s : State)
  | miss (s : State)
  | absent (f : WalkFault) (s : State)
  | fault (c : Cause)

/-- The addresses of the entries that a walk of tables reads, down to the one at which it ends. -/
def tableTrail (s : State) (part : Nat) (v : Nat) : Nat → Nat → List Nat
  | 0, _ => []
  | fuel + 1, table =>
    match interAddr s part (table + 16 * walkIdx (3 - fuel) v) with
    | .error _ => []
    | .ok pa =>
      let e := s.ownEntry part pa
      pa :: if e % 4 = 1 && fuel ≠ 0 then tableTrail s part v fuel (fld e 55 16 * 2 ^ 16) else []

/-- The same for a whole walk, from its context entry on. -/
def walkTrail (s : State) (part ctx v : Nat) : List Nat :=
  match interAddr s part (fld (s.part part).ptBase.toNat 55 12 * 2 ^ 12 + 16 * ctx) with
  | .error _ => []
  | .ok ca =>
    let ce := s.ownEntry part ca
    ca :: if ce % 2 = 1 then tableTrail s part v 4 (fld ce 55 16 * 2 ^ 16) else []

/-- A walk that reads an entry in another partition's unit is recorded (22 R548). -/
def State.walkDenied (s : State) (part : Nat) (trail : List Nat) : State :=
  (trail.filter fun a => s.unitOwner (a / 2 ^ 30) ≠ some part).foldl
    (fun s a => s.errRecord (some part) 6 1 3 (a / 2 ^ 30) (BitVec.ofNat 64 a)) s

/-- What the walk cache of a die holds of a partition's tables. -/
def State.cachedLines (s : State) (d part : Nat) : List WalkLine := (s.die d).wcache.filter fun x => x.part = part

/-- The tables as a walk on a die sees them: as memory holds them, or with what the walk cache holds of them; which is a free choice. -/
def State.walkView (s : State) (d part : Nat) : State :=
  let w := s.cachedLines d part
  if w.isEmpty then s
  else if Config.walkCached s.freeCtr then { s with hbm := w.foldl (fun m x => Memory.write m x.addr (bytesOfNat 16 x.bits)) s.hbm }
  else s

/-- The walk cache takes the entries that a walk has read above its leaf.  DESIGN CHOICE: it holds 64, the newest; no rule gives its
size. -/
def State.walkKeep (s : State) (d part : Nat) (view : State) (trail : List Nat) : State :=
  let di := s.die d
  let new : List WalkLine := trail.dropLast.map fun a => ⟨part, a, view.rdEntry a⟩
  s.setDie d { di with wcache := (new ++ di.wcache.filter fun x => !(x.part = part && trail.contains x.addr)).take 64 }

/-- A walk's end (19 R439, R487, R488): the entry is installed in the last-level TLB of the die and, for a core word, the
core's, and ACCESSED is set; a fault of step 1 or 2 installs nothing. -/
def walkInstall (s : State) (g : Agent) (v : Nat) (k : Acc) : XRes :=
  let d := coreDie g.core
  let view := s.walkView d g.part
  let trail := walkTrail view g.part g.ctx v
  match walk view g.part g.ctx v with
  | .error f => .absent f (s.walkDenied g.part trail)
  | .ok e =>
    if e.hostOwn then .fault .ownership
    else
      let s := if s.cachedLines d g.part = [] then s else { s with freeCtr := s.freeCtr + 1 }
      let s := s.walkKeep d g.part view trail
      let s := setLeafBit s e 0x200
      let s := if e.aperture = 2 && !s.host.via.contains e then { s with host := { s.host with via := s.host.via ++ [e] } } else s
      let d := coreDie g.core
      let di := s.die d
      let s := s.setDie d { di with l2tlb := tlbPut 4096 di.l2tlb e }
      let co := s.core g.core
      let s := if g.engine = 0 then s.setCore g.core { co with tlb := tlbPut 64 co.tlb e } else s
      match checkEntry e k g.engine with
      | some c => .fault c
      | none => .ok e s

/-- An entry dropped from a core's TLB and its die's. -/
def tlbDrop (s : State) (g : Agent) (e : TlbEntry) : State :=
  let d := coreDie g.core
  let di := s.die d
  let s := s.setDie d { di with l2tlb := di.l2tlb.filter fun x => x ≠ e }
  let co := s.core g.core
  s.setCore g.core { co with tlb := co.tlb.filter fun x => x ≠ e }

/-- DIRTY at the first write through an entry whose DIRTY is clear: the OR is made in every case; where it finds VALID clear, the
access walks again (19 R487). -/
def markDirty (s : State) (g : Agent) (e : TlbEntry) : Option TlbEntry × State :=
  if e.dirty then (some e, s)
  else
    let valid := e.leaves.all fun a => s.rdHbm a 8 % 2 = 1
    let s := setLeafBit s e 0x400
    if !valid then (none, tlbDrop s g e)
    else
      let e' := { e with dirty := true }
      let d := coreDie g.core
      let di := s.die d
      let s := s.setDie d { di with l2tlb := tlbPut 4096 di.l2tlb e' }
      let co := s.core g.core
      (some e', if g.engine = 0 then s.setCore g.core { co with tlb := tlbPut 64 co.tlb e' } else s)

/-- Whether a die has one of its 128 walks free (19 R488). -/
def State.walkFree (s : State) (d : Nat) : Bool :=
  let words := s.cores.flatMap fun x => if coreDie x.1 = d then x.2.slots.filter fun y => y.2.walk.isSome else []
  decide (words.length + (s.die d).misses.length < 128)

/-- A miss of an engine, or of a CTX word: its walk is done at once, where the die has one of its 128 walks free for it; misses beyond
those wait in the order of their arrival (19 R488). -/
def engineWalk (s : State) (g : Agent) (k : Acc) (v : Nat) : XRes :=
  let d := coreDie g.core
  let di := s.die d
  let mine (m : MissWait) : Bool := m.core = g.core && m.engine = g.engine && m.part = g.part && m.ctx = g.ctx && m.page = v / 2 ^ 16
  let since := match di.misses.find? mine with | some m => m.since | none => s.cycle
  let words := s.cores.flatMap fun x => if coreDie x.1 = d then
      x.2.slots.filter fun y => match y.2.walk with | some w => w.since ≤ since | none => false
    else []
  let ahead := words.length + (di.misses.filter fun m => m.since < since).length
  if ahead < 128 then
    walkInstall (if di.misses.any mine then s.setDie d { di with misses := di.misses.filter fun m => !mine m } else s) g v k
  else if di.misses.any mine then .miss s
  else .miss (s.setDie d { di with misses := di.misses ++ [⟨g.core, g.engine, g.part, g.ctx, v / 2 ^ 16, since⟩] })

/-- Translation of one granule: the core's TLB, then the die's; a core word that misses both waits for a walk (17 R439), an
engine walks (19 R492). -/
def xlate (s : State) (g : Agent) (k : Acc) (v : Nat) : XRes :=
  let l1 := if g.engine = 0 then tlbFind (s.core g.core).tlb g.part g.ctx v else none
  let hit := match l1 with | some e => some e | none => tlbFind (s.die (coreDie g.core)).l2tlb g.part g.ctx v
  let first := match hit with
    | some e => (match checkEntry e k g.engine with | some c => XRes.fault c | none => .ok e s)
    | none => if g.engine = 0 then .miss s else engineWalk s g k v
  match first with
  | .ok e s =>
    if k.wr then
      match markDirty s g e with
      | (some e, s) => .ok e s
      | (none, s) =>
        if g.engine = 0 then .miss s
        else match engineWalk s g k v with
          | .ok e s => (match markDirty s g e with | (some e, s) => .ok e s | (none, s) => .ok e s)
          | r => r
    else .ok e s
  | r => r

/-- A translation that never faults, parks or marks (18 R462, 02 R27): the target of a granule for reading. -/
def peek (s : State) (part ctx v : Nat) : Option TlbEntry :=
  match walk s part ctx v with
  | .ok e => if e.r && e.eperm.getLsbD 0 then some e else none
  | .error _ => none

/-! ### From addresses to places -/

/-- What resolving an access gives: the runs of bytes; a fault with the address of its byte; or a walk to wait for. -/
inductive RRes where
  | ok (segs : List Seg) (s : State)
  | fault (c : Cause) (a : Nat)
  | absent (f : WalkFault) (a : Nat) (s : State)
  | walk (a : Nat) (s : State)

/-- Where a translated byte lies (19 R483; 22 R546, R548; 21 R538): another partition's unit, or an extent that is not ACTIVE or
not the partition's, reads zero and drops writes. -/
def entryLoc (s : State) (part : Nat) (e : TlbEntry) (v : Nat) : Loc × State :=
  let q := e.target + (v - e.base)
  match e.aperture.toNat with
  | 0 => if s.unitOwner (q / 2 ^ 30) = some part then (.hbm q, s)
      else (.denied (some q), s.errRecord (some part) 6 1 3 (q / 2 ^ 30) (BitVec.ofNat 64 q))
  | 1 => (.peer e.peer.toNat (q % 2 ^ 48), s)
  | 2 => (if (s.part part).tdi = .error then .denied none else .host q, s)
  | _ =>
    let x := q / 2 ^ 30
    let ex := Sparse.get {} s.host.exts x
    if ex.state = 1 && ex.part = part then
      if s.unitOwner x = some part then (.ext q, s)
      else (.denied (some q), s.errRecord (some part) 6 1 3 x (BitVec.ofNat 64 q))
    else (.denied (some q), { s with host := { s.host with
            exts := Sparse.set {} s.host.exts x { ex with exterr := ex.exterr ||| 1 } } })

/-- The hosts that hold a copy of a line that an access conflicts with: every holder for a write, a modifier for a read
(21 R539). -/
def conflictHosts (d : Option DirLine) (wr : Bool) : List Nat :=
  match d with
  | some (.shared hs) => if wr then hs else []
  | some (.modified h) => [h]
  | _ => []

/-! ### Snapshots (21 R541, R542) -/

/-- The pinned versions that have no copy of a page yet. -/
def Extent.snapNeed (e : Extent) (page : Nat) : List Nat :=
  if e.mode = 1 then
    ((e.pins.map fun p => p.2.toNat).eraseDups).filter fun v => !e.copies.any fun c => c.1 = v && c.2.1 = page
  else []

/-- The pages of an extent that hold copies of others' pages. -/
def State.snapUsed (s : State) (sparex : Nat) : List Nat :=
  (s.host.exts.flatMap fun e => if e.2.sparex = sparex then e.2.copies.map fun c => c.2.2 else []).eraseDups

/-- The lowest free page of the extent that supplies copies, where it is a SPARE. -/
def State.snapFree (s : State) (sparex : Nat) : Option Nat :=
  if (Sparse.get {} s.host.exts sparex).state = 4 then firstFrom (fun p => !(s.snapUsed sparex).contains p) (2 ^ 18) 0
  else none

/-- How many pages are free there. -/
def State.snapRoom (s : State) (sparex : Nat) : Nat :=
  if (Sparse.get {} s.host.exts sparex).state = 4 then 2 ^ 18 - (s.snapUsed sparex).length else 0

/-- Copies a page, with its poison and its lost lines, for the pinned versions that share it with the head; nothing where no
page is free. -/
def State.snapCopy (s : State) (x page : Nat) : State :=
  let ex := Sparse.get {} s.host.exts x
  let vs := ex.snapNeed page
  match vs, s.snapFree ex.sparex with
  | _ :: _, some p =>
    let src := x * 2 ^ 30 + page * 4096
    let dst := ex.sparex * 2 ^ 30 + p * 4096
    if s.unitFrozen ex.sparex then s else
    let bad := (lines64 src 4096).filter fun l =>
      s.hbmPoison.contains l || Sparse.find ex.dir (l % 2 ^ 24) == some DirLine.lost
    let s := s.wrHbm dst (Memory.read s.hbm src 4096)
    let exts := Sparse.set {} s.host.exts x { ex with copies := ex.copies ++ vs.map fun v => (v, page, p) }
    { s with hbmPoison := bad.foldl (fun l i => insertNat (i - src / 64 + dst / 64) l) s.hbmPoison,
             host := { s.host with exts := exts } }
  | _, _ => s

/-- The pages of 4 KiB that `n` bytes at `a` of an extent touch. -/
def snapPages (a n : Nat) : List Nat :=
  if n = 0 then [] else (List.range ((a % 2 ^ 30 + n - 1) / 4096 - a % 2 ^ 30 / 4096 + 1)).map (· + a % 2 ^ 30 / 4096)

/-- Whether a write of runs needs more page copies than there are pages free. -/
def State.snapShort (s : State) (segs : List Seg) : Bool :=
  let ext (x : Nat) : Extent := Sparse.get {} s.host.exts x
  let pages := (segs.flatMap fun g => match g.loc with
    | .ext a => (snapPages a g.len).map fun p => (a / 2 ^ 30, p)
    | _ => []).eraseDups
  let need := pages.filter fun x => !((ext x.1).snapNeed x.2).isEmpty
  need.any fun x => s.snapRoom (ext x.1).sparex < (need.filter fun y => (ext y.1).sparex = (ext x.1).sparex).length

/-- Whether a write needs a page copy for which no page is free. -/
def State.snapFull (s : State) (a n : Nat) : Bool := s.snapShort [⟨.ext a, n⟩]

/-- A device access to an extent first recalls the conflicting host copies (21 R539): the recalls begun, if any copy stands in
the way; a write that needs a page copy waits until a page is free (21 R542). -/
def extRecall (s : State) (l : Loc) (n : Nat) (wr : Bool) : Option State :=
  match l with
  | .ext a =>
    let x := a / 2 ^ 30
    let ex := Sparse.get {} s.host.exts x
    let bad := (lines64 a n).filter fun i => !(conflictHosts (Sparse.find ex.dir (i % 2 ^ 24)) wr).isEmpty
    if bad.isEmpty then (if wr && s.snapFull a n then some s else none)
    else
      let new := bad.filter fun i => !ex.recalls.any fun r => r.line = i % 2 ^ 24
      let rs := new.map fun i => (⟨i % 2 ^ 24, conflictHosts (Sparse.find ex.dir (i % 2 ^ 24)) wr, none, s.cycle⟩ : Recall)
      let exts := Sparse.set {} s.host.exts x { ex with recalls := ex.recalls ++ rs }
      some { s with host := { s.host with exts := exts } }
  | _ => none

/-! ### The host's copies of the flag window (21 R536) -/

/-- The lines of a partition's flag window that a device access touches are recalled from its owning host before it: a modified copy
by any access, which returns the line as the host leaves it (free bytes: the device does not know them), any copy by a write. -/
def State.flagRecall (s : State) (p o n : Nat) (wr : Bool) : State :=
  if (s.part p).flagHost.isEmpty then s
  else (lines64 o n).foldl (fun s l =>
    let pa := s.part p
    let away : Partition := { pa with flagHost := pa.flagHost.filter (· ≠ l), flagMod := pa.flagMod.filter (· ≠ l) }
    if pa.flagMod.contains l then
      let bs := (List.range 8).flatMap fun i => bytesOfNat 8 (Config.freeWord (s.freeCtr + i)).toNat
      ({ s with freeCtr := s.freeCtr + 8 } : State).setPart p { away with flagRam := Memory.write pa.flagRam (64 * l) bs }
    else if wr && pa.flagHost.contains l then s.setPart p away
    else s) s

/-- The runs of a global-window access, granule by granule of 64 KiB; a fault is at its first byte in the granule. -/
def globalSegs (s : State) (g : Agent) (k : Acc) : Nat → Nat → Nat → RRes
  | 0, _, _ => .ok [] s
  | fuel + 1, v, n =>
    if n = 0 then .ok [] s
    else match xlate s g k v with
      | .miss s => .walk v s
      | .absent f s => .absent f v s
      | .fault c => .fault c v
      | .ok e s =>
        let here := min n (2 ^ 16 - v % 2 ^ 16)
        let (l, s) := entryLoc s g.part e v
        match extRecall s l here k.wr with
        | some s => .walk v s
        | none =>
        match globalSegs s g k fuel (v + here) (n - here) with
        | .ok r s => .ok (⟨l, here⟩ :: r) s
        | r => r

/-- The runs of an access of `n` bytes at `a`, after the alignment check (03 R75): ADDR_UNMAPPED, WINDOW_STRADDLE, then the
faults of its window.  A pod-window address is POD_READ here; its writers and own-chip reads are handled before. -/
def resolve (s : State) (g : Agent) (k : Acc) (a n : Nat) : RRes :=
  match checkWin a n with
  | .error c => .fault c a
  | .ok (.global, v) =>
    (match globalSegs s g k (n / 2 ^ 16 + 2) v n with
    | .ok segs s => if k.wr && s.snapShort segs then .walk v s else .ok segs s
    | r => r)
  | .ok (.pod _ _, _) => .fault .podRead a
  | .ok (.flag, o) => .ok [⟨.flag g.part o, n⟩] (s.flagRecall g.part o n k.wr)
  | .ok (.sync d, o) => .ok (syncSegs s g d o n) s
  | .ok (.block j, o) => .ok (regionSegs s g (coreBlock g.core * 8 + j) o n) s
  | .ok (.ctrs, o) => .ok [⟨.ctr (coreBlock g.core) o, n⟩] s
  | .ok (.loc, o) => .ok (regionSegs s g g.core o n) s

/-! ### Reading and writing runs -/

/-- Whether a run lies on another chip. -/
def isPeer (g : Seg) : Bool := match g.loc with | .peer _ _ => true | _ => false

/-- The 128-byte lines that a run touches (03 R77). -/
def lines128 (a n : Nat) : List Nat :=
  if n = 0 then [] else (List.range ((a + n - 1) / 128 - a / 128 + 1)).map (· + a / 128)

/-- Line states (03 Table 3-3). -/
def lnEmpty : BitVec 2 := 0
def lnFull : BitVec 2 := 1
def lnEos : BitVec 2 := 2
def lnPoison : BitVec 2 := 3

def Core.line (c : Core) (i : Nat) : BitVec 2 := Sparse.get 0 c.lines i
def State.setLine (s : State) (core i : Nat) (x : BitVec 2) : State :=
  let c := s.core core
  s.setCore core { c with lines := Sparse.set 0 c.lines i x }

/-- The bytes of a block counter (03 R84). -/
def ctrBytes (b : Block) (o n : Nat) : List Byte :=
  (List.range n).map fun i => BitVec.ofNat 8 ((Sparse.get 0 b.ctr ((o + i) / 8)).toNat >>> (8 * ((o + i) % 8)))

def setCtrByte (b : Block) (o : Nat) (x : Byte) : Block :=
  let w := Sparse.get 0 b.ctr (o / 8)
  let sh := 8 * (o % 8)
  let w' : Word := (w &&& ~~~((0xFF : Word) <<< sh)) ||| ((x.setWidth 64) <<< sh)
  { b with ctr := Sparse.set 0 b.ctr (o / 8) w' }

/-- The bytes of a run as memory holds them. -/
def readSeg (s : State) (g : Seg) : List Byte :=
  match g.loc with
  | .oor | .denied _ | .peer _ _ => List.replicate g.len 0
  | .scr c o => Memory.read (s.core c).scr o g.len
  | .sync d o => Memory.read (s.die d).sync o g.len
  | .flag p o => Memory.read (s.part p).flagRam o g.len
  | .ctr b o => ctrBytes (s.block b) o g.len
  | .hbm a | .ext a => Memory.read s.hbm a g.len
  | .host a => s.hostBytes a g.len

def readSegs (s : State) (l : List Seg) : List Byte := l.flatMap (readSeg s)

/-- Whether a read of a run touches poison (03 R79, 21 R544, 22 R567). -/
def segPoison (s : State) (g : Seg) : Bool :=
  match g.loc with
  | .scr c o => (lines128 o g.len).any fun i => (s.core c).line i == lnPoison
  | .hbm a => hbmPoisoned s a g.len
  | .ext a => hbmPoisoned s a g.len || (lines64 a g.len).any fun l =>
      Sparse.find (Sparse.get {} s.host.exts (a / 2 ^ 30)).dir (l % 2 ^ 24) == some DirLine.lost
  | .host a => s.hostPoisoned a g.len
  | _ => false

/-- The address of the first poisoned run of an access that begins at `a`. -/
def poisonAt (s : State) : Nat → List Seg → Option Nat
  | _, [] => none
  | a, g :: r => if segPoison s g then some a else poisonAt s (a + g.len) r

/-- Writes the bytes of a run where they lie; out-of-range and denied bytes are dropped (03 R82, 21 R538, 22 R548), and so is a
write to a frozen unit.  A write to an extent that needs a page where none is free waits for one (21 R542). -/
def writeSeg (s : State) (g : Seg) (bs : List Byte) : State :=
  match g.loc with
  | .oor | .denied _ | .peer _ _ => s
  | .scr c o =>
    let co := s.core c
    s.setCore c { co with scr := Memory.write co.scr o bs }
  | .sync d o =>
    let di := s.die d
    s.setDie d { di with sync := Memory.write di.sync o bs }
  | .flag p o =>
    let pa := s.part p
    let kept (l : Nat) : Bool := !(lines64 o bs.length).contains l
    s.setPart p { pa with flagRam := Memory.write pa.flagRam o bs, flagHost := pa.flagHost.filter kept,
                          flagMod := pa.flagMod.filter kept }
  | .ctr b o => s.setBlock b ((bs.zipIdx).foldl (fun x (y, i) => setCtrByte x (o + i) y) (s.block b))
  | .hbm a => if s.unitFrozen (a / 2 ^ 30) then s else s.wrOpen a bs
  | .ext a =>
    if s.unitFrozen (a / 2 ^ 30) then s
    else if s.snapFull a bs.length then { s with host := { s.host with snapWait := s.host.snapWait ++ [(a, bs)] } }
    else
    let s := (snapPages a bs.length).foldl (fun s p => s.snapCopy (a / 2 ^ 30) p) s
    let s := s.wrOpen a bs
    let x := a / 2 ^ 30
    let ex := Sparse.get {} s.host.exts x
    let whole := (lines64 a bs.length).filter fun l => a ≤ 64 * l && 64 * l + 64 ≤ a + bs.length
    let dir := whole.foldl (fun d l =>
      if Sparse.find d (l % 2 ^ 24) == some DirLine.lost then Sparse.del d (l % 2 ^ 24) else d) ex.dir
    let exts := Sparse.set {} s.host.exts x { ex with dir := dir }
    { s with host := { s.host with exts := exts } }
  | .host a => s.postHost none none a bs false

/-- The host copies that a device access at a place conflicts with come back at once, of lines that are modified with bytes that the
device does not know, which are free (21 R536, R539): what March, a monitor or a completion reads or writes beside the words of
tasks and the commands of engines, which wait for the recall. -/
def State.hostCopies (s : State) (l : Loc) (n : Nat) (wr : Bool) : State :=
  match l with
  | .flag p o => s.flagRecall p o n wr
  | .ext a =>
    (lines64 a n).foldl (fun s i =>
      let x := a / 2 ^ 30
      let ex : Extent := Sparse.get {} s.host.exts x
      let d := Sparse.find ex.dir (i % 2 ^ 24)
      if (conflictHosts d wr).isEmpty then s
      else
        let exts := Sparse.set {} s.host.exts x { ex with dir := Sparse.del ex.dir (i % 2 ^ 24) }
        let s := { s with host := { s.host with exts := exts } }
        match d with
        | some (.modified _) =>
          let bs := (List.range 8).flatMap fun j => bytesOfNat 8 (Config.freeWord (s.freeCtr + j)).toNat
          let s := { s with freeCtr := s.freeCtr + 8 }
          writeSeg s ⟨.ext (64 * i), 64⟩ bs
        | _ => s) s
  | _ => s

def writeSegs (s : State) : List Seg → List Byte → State
  | [], _ => s
  | g :: r, bs => writeSegs (writeSeg s g (bs.take g.len)) r (bs.drop g.len)

/-- The first out-of-range byte of an access at `a`, if any (03 R82). -/
def oorAt : Nat → List Seg → Option Nat
  | _, [] => none
  | a, g :: r => if g.loc = .oor then some a else oorAt (a + g.len) r

/-- Physical poison of the place of a run: a scratchpad line POISON or an HBM line poisoned; other windows hold none
(09 R284, 22 R567). -/
def poisonSeg (s : State) (g : Seg) : State :=
  match g.loc with
  | .scr c o => (lines128 o g.len).foldl (fun s i => s.setLine c i lnPoison) s
  | .hbm a | .ext a => { s with hbmPoison := (lines64 a g.len).foldl (fun l i => insertNat i l) s.hbmPoison }
  | _ => s

end Machine
end Sys2Proof
end

