-- ==== Sys2Proof/Machine/Uses.lean ====
section
/-! DEFINITION. What each word names: the registers it reads and writes, the last-result entries it reads, the barrier or
region it names (06 R165 to R175, R185, R186). -/

namespace Sys2Proof
namespace Machine

/-- One thing that a word names: a register read or written, a last-result entry read (scalar, or of the clusters of a mask), a
last-result file written, a barrier, a region. -/
inductive Use where
  | rd (r : RegRef)
  | wr (r : RegRef)
  | rdD (k : Nat)
  | rdDv (cm : BitVec 8) (k : Nat)
  | wrD
  | wrDv (cm : BitVec 8)
  | bar (b : Nat)
  | region (r : Nat)
  deriving DecidableEq, Repr

/-- A scalar source specifier (06 Table 6-2). -/
def useSrc (x : BitVec 9) : List Use :=
  match (x.extractLsb' 7 2).toNat with
  | 0 => [.rd (.s (x.extractLsb' 0 7).toNat)]
  | 1 => [.rd (.q (x.extractLsb' 0 4).toNat)]
  | 2 => [.rdD (x.extractLsb' 0 3).toNat]
  | _ => []

/-- A vector source specifier in the clusters of a mask. -/
def useVsrc (cm : BitVec 8) (x : BitVec 9) : List Use :=
  match (x.extractLsb' 7 2).toNat with
  | 0 => [.rd (.v cm (x.extractLsb' 0 6).toNat)]
  | 1 => [.rd (.vq cm (x.extractLsb' 0 3).toNat)]
  | 2 => [.rdDv cm (x.extractLsb' 0 3).toNat]
  | _ => []

/-- The destination of a scalar fixed-latency word, which enters the last-result file (03 R64). -/
def useFixed (d : BitVec 8) : List Use := [.wr (dstRef d), .wrD]
/-- The destination of a V word in its clusters. -/
def useVfixed (cm d : BitVec 8) : List Use := [.wr (vdstRef cm d), .wrDv cm]
def useVpRd (cm : BitVec 8) (k : Nat) : List Use := (clusters cm).map fun c => .rd (.vp c k)
def useVpWr (cm : BitVec 8) (k : Nat) : List Use := (clusters cm).map fun c => .wr (.vp c k)
/-- The lane masks that PR names (06 R189). -/
def useVmask (h : Hdr) (cm : BitVec 8) : List Use :=
  let k := (h.pr.extractLsb' 0 3).toNat
  if k = 0 then [] else useVpRd cm k
/-- The predicate that PR names (06 R188). -/
def usePred (h : Hdr) : List Use :=
  let k := (h.pr.extractLsb' 0 3).toNat
  if k = 0 then [] else [.rd (.p k)]
def useRriSrc : RRI → List Use
  | .rr f => useSrc f.a ++ useSrc f.b
  | .ri f => useSrc f.a
def rriDst : RRI → BitVec 8
  | .rr f => f.dst
  | .ri f => f.dst
def useRri (f : RRI) : List Use := useRriSrc f ++ useFixed (rriDst f)
/-- The source clusters of VXCP (08 R252). -/
def xcpSources (f : FmtRR) : BitVec 8 :=
  let k := (f.aux.extractLsb' 0 3).toNat
  if f.aux.getLsbD 3 then 1 <<< k else f.cmask.rotateLeft k
/-- The clusters of an LDV or STV (06 R169). -/
def memMask (f : FmtM) : BitVec 8 := if f.size = 5 then 0xFF else 1 <<< f.cl.toNat
/-- The ring handle that IMM12 names (06 R175, 09 R285). -/
def ringRef (i : BitVec 12) : RegRef := .eng (0x80 ||| (i.setWidth 5).setWidth 8)

/-- What a word names; an event names nothing. -/
def uses : Instr → List Use
  | .nop h => usePred h
  | .add h f => usePred h ++ (useRri f)
  | .sub h f => usePred h ++ (useRri f)
  | .mul h f => usePred h ++ (useRri f)
  | .mulHi h f => usePred h ++ (useRri f)
  | .divI h f => usePred h ++ (useRri f)
  | .divRem h f => usePred h ++ (useRri f)
  | .andI h f => usePred h ++ (useRri f)
  | .orI h f => usePred h ++ (useRri f)
  | .xorI h f => usePred h ++ (useRri f)
  | .andn h f => usePred h ++ (useRri f)
  | .shl h f => usePred h ++ (useRri f)
  | .shr h f => usePred h ++ (useRri f)
  | .sra h f => usePred h ++ (useRri f)
  | .rot h f => usePred h ++ (useRri f)
  | .minI h f => usePred h ++ (useRri f)
  | .maxI h f => usePred h ++ (useRri f)
  | .cmp h _ f => usePred h ++ (useRriSrc f ++ [.wr (.p (rriDst f).toNat)])
  | .sel h f => usePred h ++ (useSrc f.a ++ useSrc f.b ++ [.rd (.p (f.aux.extractLsb' 0 3).toNat)] ++ useFixed f.dst)
  | .movi h f => usePred h ++ (useFixed f.dst)
  | .movhi h f => usePred h ++ (useSrc f.a ++ useFixed f.dst)
  | .lea h f => usePred h ++ (useRri f)
  | .bitsClz h f => usePred h ++ (useSrc f.a ++ useFixed f.dst)
  | .bitsCtz h f => usePred h ++ (useSrc f.a ++ useFixed f.dst)
  | .bitsPopc h f => usePred h ++ (useSrc f.a ++ useFixed f.dst)
  | .bitsBrev h f => usePred h ++ (useSrc f.a ++ useFixed f.dst)
  | .bitsBfx h f => usePred h ++ (useSrc f.a ++ useSrc f.c ++ useFixed f.dst)
  | .bitsBfi h f => usePred h ++ (useSrc f.a ++ useSrc f.b ++ useSrc f.c ++ useFixed f.dst)
  | .bitsAbs h f => usePred h ++ (useSrc f.a ++ useFixed f.dst)
  | .bitsNeg h f => usePred h ++ (useSrc f.a ++ useFixed f.dst)
  | .plogAnd h f => usePred h ++ ([.rd (.p (f.a.extractLsb' 0 3).toNat), .rd (.p (f.b.extractLsb' 0 3).toNat), .wr (.p f.dst.toNat)])
  | .plogOr h f => usePred h ++ ([.rd (.p (f.a.extractLsb' 0 3).toNat), .rd (.p (f.b.extractLsb' 0 3).toNat), .wr (.p f.dst.toNat)])
  | .plogXor h f => usePred h ++ ([.rd (.p (f.a.extractLsb' 0 3).toNat), .rd (.p (f.b.extractLsb' 0 3).toNat), .wr (.p f.dst.toNat)])
  | .plogAndn h f => usePred h ++ ([.rd (.p (f.a.extractLsb' 0 3).toNat), .rd (.p (f.b.extractLsb' 0 3).toNat), .wr (.p f.dst.toNat)])
  | .fadd h f => usePred h ++ (useSrc f.a ++ useSrc f.b ++ useFixed f.dst)
  | .faddSub h f => usePred h ++ (useSrc f.a ++ useSrc f.b ++ useFixed f.dst)
  | .fmul h f => usePred h ++ (useSrc f.a ++ useSrc f.b ++ useFixed f.dst)
  | .fma h f => usePred h ++ (useSrc f.a ++ useSrc f.b ++ useSrc f.c ++ useFixed f.dst)
  | .fmaFms h f => usePred h ++ (useSrc f.a ++ useSrc f.b ++ useSrc f.c ++ useFixed f.dst)
  | .fmaFnma h f => usePred h ++ (useSrc f.a ++ useSrc f.b ++ useSrc f.c ++ useFixed f.dst)
  | .fdiv h f => usePred h ++ (useSrc f.a ++ useSrc f.b ++ useFixed f.dst)
  | .fdivSqrt h f => usePred h ++ (useSrc f.a ++ useFixed f.dst)
  | .fmin h f => usePred h ++ (useSrc f.a ++ useSrc f.b ++ useFixed f.dst)
  | .fmax h f => usePred h ++ (useSrc f.a ++ useSrc f.b ++ useFixed f.dst)
  | .fcmp h _ f => usePred h ++ (useSrc f.a ++ useSrc f.b ++ [.wr (.p f.dst.toNat)])
  | .fcvt h f => usePred h ++ (useSrc f.a ++ useFixed f.dst)
  | .br h _ => usePred h
  | .jmp h f => usePred h ++ (useSrc f.a)
  | .call h f => usePred h ++ (useSrc f.a ++ useFixed f.dst)
  | .ret h f => usePred h ++ (useSrc f.a)
  | .loopI h f => usePred h ++ (useSrc f.count)
  | .brkl h => usePred h
  | .rpt h _ => usePred h
  | .trap h f => usePred h ++ (useSrc f.a)
  | .resultLanding _ _ => []
  | .vadd h f => useVmask h f.cmask ++ useVsrc f.cmask f.a ++ useVsrc f.cmask f.b ++ useVfixed f.cmask f.dst
  | .vsub h f => useVmask h f.cmask ++ useVsrc f.cmask f.a ++ useVsrc f.cmask f.b ++ useVfixed f.cmask f.dst
  | .vmul h f => useVmask h f.cmask ++ useVsrc f.cmask f.a ++ useVsrc f.cmask f.b ++ useVfixed f.cmask f.dst
  | .vmulHi h f => useVmask h f.cmask ++ useVsrc f.cmask f.a ++ useVsrc f.cmask f.b ++ useVfixed f.cmask f.dst
  | .vmad h f => useVmask h f.cmask ++ useVsrc f.cmask f.a ++ useVsrc f.cmask f.b ++ useVsrc f.cmask f.c ++ useVfixed f.cmask f.dst
  | .vlogAnd h f => useVmask h f.cmask ++ useVsrc f.cmask f.a ++ useVsrc f.cmask f.b ++ useVfixed f.cmask f.dst
  | .vlogOr h f => useVmask h f.cmask ++ useVsrc f.cmask f.a ++ useVsrc f.cmask f.b ++ useVfixed f.cmask f.dst
  | .vlogXor h f => useVmask h f.cmask ++ useVsrc f.cmask f.a ++ useVsrc f.cmask f.b ++ useVfixed f.cmask f.dst
  | .vlogAndn h f => useVmask h f.cmask ++ useVsrc f.cmask f.a ++ useVsrc f.cmask f.b ++ useVfixed f.cmask f.dst
  | .vshShl h f => useVmask h f.cmask ++ useVsrc f.cmask f.a ++ useVsrc f.cmask f.b ++ useVfixed f.cmask f.dst
  | .vshShr h f => useVmask h f.cmask ++ useVsrc f.cmask f.a ++ useVsrc f.cmask f.b ++ useVfixed f.cmask f.dst
  | .vshSra h f => useVmask h f.cmask ++ useVsrc f.cmask f.a ++ useVsrc f.cmask f.b ++ useVfixed f.cmask f.dst
  | .vshRot h f => useVmask h f.cmask ++ useVsrc f.cmask f.a ++ useVsrc f.cmask f.b ++ useVfixed f.cmask f.dst
  | .vmin h f => useVmask h f.cmask ++ useVsrc f.cmask f.a ++ useVsrc f.cmask f.b ++ useVfixed f.cmask f.dst
  | .vmax h f => useVmask h f.cmask ++ useVsrc f.cmask f.a ++ useVsrc f.cmask f.b ++ useVfixed f.cmask f.dst
  | .vcmp h _ f => useVmask h f.cmask ++ useVsrc f.cmask f.a ++ useVsrc f.cmask f.b ++ useVpWr f.cmask f.dst.toNat
  | .vsel h f => useVmask h f.cmask ++ useVsrc f.cmask f.a ++ useVsrc f.cmask f.b ++ useVpRd f.cmask (f.aux.extractLsb' 0 3).toNat ++ useVfixed f.cmask f.dst
  | .vfadd h f => useVmask h f.cmask ++ useVsrc f.cmask f.a ++ useVsrc f.cmask f.b ++ useVfixed f.cmask f.dst
  | .vfaddSub h f => useVmask h f.cmask ++ useVsrc f.cmask f.a ++ useVsrc f.cmask f.b ++ useVfixed f.cmask f.dst
  | .vfmul h f => useVmask h f.cmask ++ useVsrc f.cmask f.a ++ useVsrc f.cmask f.b ++ useVfixed f.cmask f.dst
  | .vfma h f => useVmask h f.cmask ++ useVsrc f.cmask f.a ++ useVsrc f.cmask f.b ++ useVsrc f.cmask f.c ++ useVfixed f.cmask f.dst
  | .vfmaFms h f => useVmask h f.cmask ++ useVsrc f.cmask f.a ++ useVsrc f.cmask f.b ++ useVsrc f.cmask f.c ++ useVfixed f.cmask f.dst
  | .vfmaFnma h f => useVmask h f.cmask ++ useVsrc f.cmask f.a ++ useVsrc f.cmask f.b ++ useVsrc f.cmask f.c ++ useVfixed f.cmask f.dst
  | .vfmin h f => useVmask h f.cmask ++ useVsrc f.cmask f.a ++ useVsrc f.cmask f.b ++ useVfixed f.cmask f.dst
  | .vfmax h f => useVmask h f.cmask ++ useVsrc f.cmask f.a ++ useVsrc f.cmask f.b ++ useVfixed f.cmask f.dst
  | .vfcmp h _ f => useVmask h f.cmask ++ useVsrc f.cmask f.a ++ useVsrc f.cmask f.b ++ useVpWr f.cmask f.dst.toNat
  | .vsfRcp h f => useVmask h f.cmask ++ useVsrc f.cmask f.a ++ useVfixed f.cmask f.dst
  | .vsfRsqrt h f => useVmask h f.cmask ++ useVsrc f.cmask f.a ++ useVfixed f.cmask f.dst
  | .vsfExp2 h f => useVmask h f.cmask ++ useVsrc f.cmask f.a ++ useVfixed f.cmask f.dst
  | .vsfLog2 h f => useVmask h f.cmask ++ useVsrc f.cmask f.a ++ useVfixed f.cmask f.dst
  | .vsfSin h f => useVmask h f.cmask ++ useVsrc f.cmask f.a ++ useVfixed f.cmask f.dst
  | .vsfCos h f => useVmask h f.cmask ++ useVsrc f.cmask f.a ++ useVfixed f.cmask f.dst
  | .vsfTanh h f => useVmask h f.cmask ++ useVsrc f.cmask f.a ++ useVfixed f.cmask f.dst
  | .vsfSigm h f => useVmask h f.cmask ++ useVsrc f.cmask f.a ++ useVfixed f.cmask f.dst
  | .vcvt h f => useVmask h f.cmask ++ useVsrc f.cmask f.a ++ useVfixed f.cmask f.dst
  | .vcvtBsPack h f => useVmask h f.cmask ++ useVsrc f.cmask f.a ++ (if f.aux.getLsbD 6 then [] else useVsrc f.cmask f.b) ++ useVfixed f.cmask f.dst
  | .vcvtBsUnpack h f => useVmask h f.cmask ++ useVsrc f.cmask f.a ++ useVfixed f.cmask f.dst
  | .vshuf h f => useVmask h f.cmask ++ useVsrc f.cmask f.a ++ useVsrc f.cmask f.b ++ useVfixed f.cmask f.dst
  | .vredAdd h f => useVmask h f.cmask ++ useVsrc f.cmask f.a ++ useVfixed f.cmask f.dst
  | .vredMin h f => useVmask h f.cmask ++ useVsrc f.cmask f.a ++ useVfixed f.cmask f.dst
  | .vredMax h f => useVmask h f.cmask ++ useVsrc f.cmask f.a ++ useVfixed f.cmask f.dst
  | .vxcp h f => useVmask h f.cmask ++ useVsrc (xcpSources f) f.a ++ useVfixed f.cmask f.dst
  | .vsplat h f => useVmask h f.cmask ++ useSrc f.a ++ useVfixed f.cmask f.dst
  | .vext h f => useVmask h f.cmask ++ useVsrc f.cmask f.a ++ useSrc f.b ++ useFixed f.dst
  | .viota h f => useVmask h f.cmask ++ useSrc f.a ++ useVfixed f.cmask f.dst
  | .vrng h f => useVmask h f.cmask ++ useVsrc f.cmask f.a ++ useSrc f.b ++ useVfixed f.cmask f.dst
  | .vplogAnd h f => useVmask h f.cmask ++ useVpRd f.cmask (f.a.extractLsb' 0 3).toNat ++ useVpRd f.cmask (f.b.extractLsb' 0 3).toNat ++ useVpWr f.cmask f.dst.toNat
  | .vplogOr h f => useVmask h f.cmask ++ useVpRd f.cmask (f.a.extractLsb' 0 3).toNat ++ useVpRd f.cmask (f.b.extractLsb' 0 3).toNat ++ useVpWr f.cmask f.dst.toNat
  | .vplogXor h f => useVmask h f.cmask ++ useVpRd f.cmask (f.a.extractLsb' 0 3).toNat ++ useVpRd f.cmask (f.b.extractLsb' 0 3).toNat ++ useVpWr f.cmask f.dst.toNat
  | .vplogAndn h f => useVmask h f.cmask ++ useVpRd f.cmask (f.a.extractLsb' 0 3).toNat ++ useVpRd f.cmask (f.b.extractLsb' 0 3).toNat ++ useVpWr f.cmask f.dst.toNat
  | .vpcnt h f => useVmask h f.cmask ++ useVpRd f.cmask (f.a.extractLsb' 0 3).toNat ++ useVfixed f.cmask f.dst
  | .ld h f => usePred h ++ (useSrc f.base ++ [.wr (dstRef (f.x.extractLsb' 0 8))])
  | .loadReturn _ _ _ => []
  | .st h f => usePred h ++ (useSrc f.x ++ useSrc f.base)
  | .ldv h f => usePred h ++ (useSrc f.base ++ [.wr (vdstRef (memMask f) (f.x.extractLsb' 0 8))])
  | .stv h f => usePred h ++ (useVsrc (memMask f) f.x ++ useSrc f.base)
  | .vgath h f => usePred h ++ (useSrc f.base ++ useVsrc f.cmask f.idx ++ [.wr (vdstRef f.cmask (f.x.extractLsb' 0 8))])
  | .vscat h f => usePred h ++ (useVsrc f.cmask f.x ++ useSrc f.base ++ useVsrc f.cmask f.idx)
  | .atomAdd h f => usePred h ++ (useSrc f.a ++ useSrc f.b ++ [.wr (dstRef f.dst)])
  | .atomAnd h f => usePred h ++ (useSrc f.a ++ useSrc f.b ++ [.wr (dstRef f.dst)])
  | .atomOr h f => usePred h ++ (useSrc f.a ++ useSrc f.b ++ [.wr (dstRef f.dst)])
  | .atomXor h f => usePred h ++ (useSrc f.a ++ useSrc f.b ++ [.wr (dstRef f.dst)])
  | .atomMin h f => usePred h ++ (useSrc f.a ++ useSrc f.b ++ [.wr (dstRef f.dst)])
  | .atomMax h f => usePred h ++ (useSrc f.a ++ useSrc f.b ++ [.wr (dstRef f.dst)])
  | .atomSwap h f => usePred h ++ (useSrc f.a ++ useSrc f.b ++ [.wr (dstRef f.dst)])
  | .atomCas h f => usePred h ++ (useSrc f.a ++ useSrc f.b ++ useSrc f.c ++ [.wr (dstRef f.dst)])
  | .atomFadd h f => usePred h ++ (useSrc f.a ++ useSrc f.b ++ [.wr (dstRef f.dst)])
  | .atomBfadd h f => usePred h ++ (useSrc f.a ++ useSrc f.b ++ [.wr (dstRef f.dst)])
  | .fence h f => usePred h ++ ([.wr (dstRef (f.x.extractLsb' 0 8))])
  | .flagI h f => usePred h ++ (useSrc f.a ++ useSrc f.b)
  | .waitf h f => usePred h ++ (useSrc f.a ++ useSrc f.b ++ [.wr (dstRef f.dst)])
  | .waitfT h f => usePred h ++ (useSrc f.a ++ useSrc f.b ++ useSrc f.c ++ [.wr (dstRef f.dst)])
  | .waitTimeout _ _ => []
  | .monitorScan _ => []
  | .cflushWb h f => usePred h ++ (useSrc f.x ++ useSrc f.base)
  | .cflushInv h f => usePred h ++ (useSrc f.x ++ useSrc f.base)
  | .cflushWbinv h f => usePred h ++ (useSrc f.x ++ useSrc f.base)
  | .pref h f => usePred h ++ (useSrc f.base)
  | .cpy h f => usePred h ++ (useSrc f.a ++ useSrc f.b ++ useSrc f.c ++ [.wr (dstRef f.dst)])
  | .cpyScale h f => usePred h ++ (useSrc f.a ++ useSrc f.b ++ [.wr (dstRef f.dst)])
  | .copyIntakeDispatch _ => []
  | .copyLineFill _ _ => []
  | .cpyCompletion _ _ => []
  | .ringBind h f => usePred h ++ (useSrc f.a ++ useSrc f.b ++ useSrc f.c ++ [.wr (ringRef f.imm)])
  | .ringGet h f => usePred h ++ ([.wr (ringRef f.imm), .wr (dstRef f.dst)])
  | .ringCommit h f => usePred h ++ ([.wr (ringRef f.imm)])
  | .ringEos h f => usePred h ++ ([.wr (ringRef f.imm)])
  | .ringFree h f => usePred h ++ ([.wr (ringRef f.imm)])
  | .ringStat h f => usePred h ++ ([.rd (ringRef f.imm), .wr (dstRef f.dst)])
  | .spawn h f => usePred h ++ (useSrc f.a)
  | .spawnL h f => usePred h ++ (useSrc f.a)
  | .depAdd h f => usePred h ++ (useSrc f.a ++ useSrc f.b)
  | .depSignal h f => usePred h ++ (useSrc f.a)
  | .suspSuspend h f => usePred h ++ (useSrc f.a ++ (if f.imm.getLsbD 0 then useSrc f.c else []))
  | .suspYield h _ => usePred h
  | .suspFinish h _ => usePred h
  | .barArrive h f => usePred h ++ ([.bar (f.imm.extractLsb' 0 4).toNat])
  | .barWait h f => usePred h ++ ([.bar (f.imm.extractLsb' 0 4).toNat])
  | .barBoth h f => usePred h ++ ([.bar (f.imm.extractLsb' 0 4).toNat])
  | .getcCoord h f => usePred h ++ ([.wr (dstRef f.dst)])
  | .getcShape h f => usePred h ++ ([.wr (dstRef f.dst)])
  | .getcLaunch h f => usePred h ++ ([.wr (dstRef f.dst)])
  | .getcCore h f => usePred h ++ ([.wr (dstRef f.dst)])
  | .rput h f => usePred h ++ (useSrc f.a ++ useSrc f.b ++ useSrc f.c)
  | .rputSig h f => usePred h ++ (useSrc f.a ++ useSrc f.b ++ useSrc f.c ++ useSrc f.d)
  | .rcopy h f => usePred h ++ (useSrc f.a ++ useSrc f.b ++ useSrc f.c)
  | .rcopySig h f => usePred h ++ (useSrc f.a ++ useSrc f.b ++ useSrc f.c ++ useSrc f.d)
  | .rsem h f => usePred h ++ (useSrc f.a ++ useSrc f.b)
  | .rred h f => usePred h ++ (useSrc f.a ++ useSrc f.b ++ useSrc f.c ++ (if f.opt.getLsbD 2 then useSrc f.d else []))
  | .mcred h f => usePred h ++ (useSrc f.a ++ useSrc f.b ++ useSrc f.c ++ (if f.opt.getLsbD 2 then useSrc f.d else []))
  | .qpost h f => usePred h ++ (useSrc f.a)
  | .qpostEntryFire _ _ => []
  | .qpostTimedFire _ _ => []
  | .mbxPost h f => usePred h ++ (useSrc f.a)
  | .mbxTake h f => usePred h ++ ([.wr (dstRef f.dst)])
  | .mbxStatus h f => usePred h ++ ([.wr (dstRef f.dst)])
  | .mbxPostnb h f => usePred h ++ (useSrc f.a ++ [.wr (dstRef f.dst)])
  | .rack h f => usePred h ++ ([.wr (dstRef f.dst)])
  | .egressAccept _ _ => []
  | .wcfg h f => usePred h ++ (useSrc f.sa)
  | .wcfgEg h _ => usePred h
  | .pack h f => usePred h ++ (useSrc f.sa ++ [.wr (.eng f.ed)])
  | .packRev h f => usePred h ++ (useSrc f.sa ++ [.wr (.eng f.ed)])
  | .packLimb h f => usePred h ++ (useSrc f.sa ++ [.wr (.eng f.ed)])
  | .wmulConv h f => usePred h ++ ([.rd (.eng f.ea), .rd (.eng f.eb), .wr (.eng f.ed)])
  | .wmulCorr h f => usePred h ++ ([.rd (.eng f.ea), .rd (.eng f.eb), .wr (.eng f.ed)])
  | .wmulLimb h f => usePred h ++ ([.rd (.eng f.ea), .rd (.eng f.eb), .wr (.eng f.ed)])
  | .wmulOuter h f => usePred h ++ (useSrc f.sa ++ [.wr (.eng f.ed)])
  | .wmulOuterSp h f => usePred h ++ (useSrc f.sa ++ [.wr (.eng f.eb), .wr (.eng f.ed)])
  | .wmacConv h f => usePred h ++ ([.rd (.eng f.ea), .rd (.eng f.eb), .wr (.eng f.ed)])
  | .wmacCorr h f => usePred h ++ ([.rd (.eng f.ea), .rd (.eng f.eb), .wr (.eng f.ed)])
  | .wmacLimb h f => usePred h ++ ([.rd (.eng f.ea), .rd (.eng f.eb), .wr (.eng f.ed)])
  | .wmacOuter h f => usePred h ++ (useSrc f.sa ++ [.wr (.eng f.ed)])
  | .wmacOuterSp h f => usePred h ++ (useSrc f.sa ++ [.wr (.eng f.eb), .wr (.eng f.ed)])
  | .streamFetch _ _ _ => []
  | .extrDigm h f => usePred h ++ ([.rd (.eng f.ea), .rd (engRef f.eb)] ++ useSrc f.sa)
  | .extrDigs h f => usePred h ++ ([.rd (.eng f.ea), .wr (engRef f.ed)])
  | .extrLimb h f => usePred h ++ ([.rd (.eng f.ea), .rd (engRef f.eb)] ++ useSrc f.sa)
  | .extrTile h f => usePred h ++ ([.rd (.eng f.ea), .rd (engRef f.eb)] ++ useSrc f.sa)
  | .extrTileClr h f => usePred h ++ ([.rd (engRef f.eb), .wr (.eng f.ea)] ++ useSrc f.sa)
  | .wclr h f => usePred h ++ ([.wr (.eng f.ed)])
  | .wmov h f => usePred h ++ ([.wr (.eng f.ed)] ++ (if f.ea = f.ed then [] else [.rd (.eng f.ea)]))
  | .sbindA h f => usePred h ++ ([.rd (.eng f.ea)])
  | .sbindB h f => usePred h ++ ([.rd (.eng f.ea)])
  | .sbindUnbind h _ => usePred h
  | .mcall h f => usePred h ++ ([.wr (engRef f.ed)])
  | .routineStart _ _ => []
  | .routineCompletion _ _ => []
  | .mpld h f => usePred h ++ (useSrc f.sa ++ [.wr (.eng f.ed)])
  | .mldr h f => usePred h ++ ([.rd (engRef f.ea)] ++ useSrc f.sa)
  | .mldrEntries h f => usePred h ++ (useSrc f.sa)
  | .ftld h f => usePred h ++ (useSrc f.sa)
  | .scld h f => usePred h ++ ([.rd (engRef f.ea)] ++ useSrc f.sa)
  | .scldRd h f => usePred h ++ ([.rd (engRef f.ea), .wr (engRef f.ed)])
  | .metaqPush h f => usePred h ++ (useSrc f.sa ++ [.wr (.eng f.ea), .wr (engRef f.ed)])
  | .metaqClear h f => usePred h ++ ([.wr (.eng f.ea)])
  | .wstat h f => usePred h ++ ([.wr (engRef f.ed)])
  | .wstatClr h f => usePred h ++ (useSrc f.sa)
  | .mloop h f => usePred h ++ (useSrc f.sa)
  | .mjmp h _ => usePred h
  | .mret h _ => usePred h
  | .apxb h f => usePred h ++ ([.region (f.aux.extractLsb' 0 4).toNat])
  | .apxe h f => usePred h ++ ([.region (f.aux.extractLsb' 0 4).toNat])
  | .apxc h _ => usePred h
  | .apxsRd h f => usePred h ++ ([.wr (engRef f.ed), .region (f.aux.extractLsb' 0 4).toNat])
  | .apxsWr h f => usePred h ++ (useSrc f.sa ++ [.region (f.aux.extractLsb' 0 4).toNat])
  | .apxsInv h f => usePred h ++ ([.region (f.aux.extractLsb' 0 4).toNat])
  | .equinoxBatchUpdate _ _ => []
  | .csrRd h f => usePred h ++ ([.wr (dstRef f.dst)])
  | .csrWr h f => usePred h ++ (useSrc f.a)
  | .csrSet h f => usePred h ++ (useSrc f.a)
  | .csrClr h f => usePred h ++ (useSrc f.a)
  | .rft h => usePred h
  | .tlbiAll h f => usePred h ++ ([.wr (dstRef f.dst)])
  | .tlbiAddr h f => usePred h ++ (useSrc f.a ++ useSrc f.b ++ [.wr (dstRef f.dst)])
  | .tlbiCtx h f => usePred h ++ (useSrc f.b ++ [.wr (dstRef f.dst)])
  | .ctxSave h f => usePred h ++ (useSrc f.a ++ [.wr (dstRef f.dst)])
  | .ctxRestore h f => usePred h ++ (useSrc f.a ++ [.wr (dstRef f.dst)])
  | .wfe h => usePred h
  | .wfeTimeout _ _ => []
  | .halt h => usePred h
  | .pageWalkComplete _ _ => []
  | .launchIntake => []
  | .launchCompletion _ => []
  | .dispatchDecision _ => []
  | .readyRecordRefill _ => []
  | .priorityAging _ _ => []
  | .preempt _ _ _ _ => []
  | .preemptWindowExpiry _ _ => []
  | .gangFrameWrite _ _ _ => []
  | .resume _ _ _ _ => []
  | .launchkill _ _ _ _ => []
  | .registerWrite _ _ _ => []
  | .springFill _ _ => []
  | .fallDrain _ _ => []
  | .flitReceive _ _ => []
  | .nakFlit _ _ => []
  | .keydone _ => []
  | .laneFailure _ _ _ => []
  | .retrainTimeout _ => []
  | .putPkt _ => []
  | .redPkt _ => []
  | .semPkt _ => []
  | .mcredContribution _ => []
  | .mcredRoundTimeout _ _ => []
  | .mcdata _ => []
  | .readPkt _ => []
  | .atomic _ => []
  | .respPkt _ => []
  | .ackPkt _ => []
  | .timeSyncExchange _ _ _ _ => []
  | .cpsem _ _ _ => []
  | .hostLinkDown _ => []
  | .evtdoor _ _ => []
  | .qerrClear _ _ => []
  | .fltqptrHeadWrite _ _ => []
  | .fltqbaseWrite _ _ => []
  | .launchReq _ _ _ => []
  | .depsig _ _ _ => []
  | .flagadd _ _ _ => []
  | .packetNop _ _ _ => []
  | .atsInvalidation _ _ _ => []
  | .hostFlagAccess _ _ _ _ => []
  | .hostExtentAccess _ _ _ _ => []
  | .snapviewPin _ _ => []
  | .snapviewUnpin _ _ => []
  | .extentRevoke _ _ => []
  | .drainTimeout _ => []
  | .recallTimeout _ _ => []
  | .extentZeroing _ => []
  | .assign _ _ => []
  | .grow _ _ _ _ _ => []
  | .shrink _ _ _ _ _ => []
  | .remove _ _ _ => []
  | .debugpol _ _ _ _ => []
  | .imageReq _ _ _ => []
  | .fwFence _ _ _ _ => []
  | .fwStatus _ _ => []
  | .lockInterface _ => []
  | .stopInterface _ => []
  | .startInterface _ => []
  | .getDeviceInterfaceState _ => []
  | .getDeviceInterfaceReport _ => []
  | .getVersion _ _ => []
  | .getCapabilities _ _ => []
  | .negotiateAlgorithms _ _ => []
  | .getDigests _ _ => []
  | .getCertificate _ _ => []
  | .challenge _ _ => []
  | .getMeasurements _ _ _ => []
  | .keyExchange _ _ => []
  | .finish _ _ => []
  | .keyUpdate _ _ _ _ _ => []
  | .heartbeat _ _ => []
  | .endSession _ _ => []
  | .resetDev => []
  | .recoveryImageLoad _ _ => []
  | .governorLower _ _ => []
  | .governorRaise _ _ => []
  | .thermalShutdown _ => []
  | .patrolScrub _ => []
  | .correctedError _ => []
  | .uncorrectedError _ => []
  | .retrainingComplete _ _ _ _ => []
  | .recallResponse _ _ _ _ => []

/-- The slot classes of 06 R164. -/
inductive Cls where
  | s | v | m | e | sys | nop | event
  deriving DecidableEq, Repr

/-- The slot class of an instruction (06 R164); NOP takes no class (06 R174). -/
def cls : Instr → Cls
  | .nop _ => .nop
  | .add _ _ => .s
  | .sub _ _ => .s
  | .mul _ _ => .s
  | .mulHi _ _ => .s
  | .divI _ _ => .s
  | .divRem _ _ => .s
  | .andI _ _ => .s
  | .orI _ _ => .s
  | .xorI _ _ => .s
  | .andn _ _ => .s
  | .shl _ _ => .s
  | .shr _ _ => .s
  | .sra _ _ => .s
  | .rot _ _ => .s
  | .minI _ _ => .s
  | .maxI _ _ => .s
  | .cmp _ _ _ => .s
  | .sel _ _ => .s
  | .movi _ _ => .s
  | .movhi _ _ => .s
  | .lea _ _ => .s
  | .bitsClz _ _ => .s
  | .bitsCtz _ _ => .s
  | .bitsPopc _ _ => .s
  | .bitsBrev _ _ => .s
  | .bitsBfx _ _ => .s
  | .bitsBfi _ _ => .s
  | .bitsAbs _ _ => .s
  | .bitsNeg _ _ => .s
  | .plogAnd _ _ => .s
  | .plogOr _ _ => .s
  | .plogXor _ _ => .s
  | .plogAndn _ _ => .s
  | .fadd _ _ => .s
  | .faddSub _ _ => .s
  | .fmul _ _ => .s
  | .fma _ _ => .s
  | .fmaFms _ _ => .s
  | .fmaFnma _ _ => .s
  | .fdiv _ _ => .s
  | .fdivSqrt _ _ => .s
  | .fmin _ _ => .s
  | .fmax _ _ => .s
  | .fcmp _ _ _ => .s
  | .fcvt _ _ => .s
  | .br _ _ => .s
  | .jmp _ _ => .s
  | .call _ _ => .s
  | .ret _ _ => .s
  | .loopI _ _ => .s
  | .brkl _ => .s
  | .rpt _ _ => .s
  | .trap _ _ => .s
  | .resultLanding _ _ => .event
  | .vadd _ _ => .v
  | .vsub _ _ => .v
  | .vmul _ _ => .v
  | .vmulHi _ _ => .v
  | .vmad _ _ => .v
  | .vlogAnd _ _ => .v
  | .vlogOr _ _ => .v
  | .vlogXor _ _ => .v
  | .vlogAndn _ _ => .v
  | .vshShl _ _ => .v
  | .vshShr _ _ => .v
  | .vshSra _ _ => .v
  | .vshRot _ _ => .v
  | .vmin _ _ => .v
  | .vmax _ _ => .v
  | .vcmp _ _ _ => .v
  | .vsel _ _ => .v
  | .vfadd _ _ => .v
  | .vfaddSub _ _ => .v
  | .vfmul _ _ => .v
  | .vfma _ _ => .v
  | .vfmaFms _ _ => .v
  | .vfmaFnma _ _ => .v
  | .vfmin _ _ => .v
  | .vfmax _ _ => .v
  | .vfcmp _ _ _ => .v
  | .vsfRcp _ _ => .v
  | .vsfRsqrt _ _ => .v
  | .vsfExp2 _ _ => .v
  | .vsfLog2 _ _ => .v
  | .vsfSin _ _ => .v
  | .vsfCos _ _ => .v
  | .vsfTanh _ _ => .v
  | .vsfSigm _ _ => .v
  | .vcvt _ _ => .v
  | .vcvtBsPack _ _ => .v
  | .vcvtBsUnpack _ _ => .v
  | .vshuf _ _ => .v
  | .vredAdd _ _ => .v
  | .vredMin _ _ => .v
  | .vredMax _ _ => .v
  | .vxcp _ _ => .v
  | .vsplat _ _ => .v
  | .vext _ _ => .v
  | .viota _ _ => .v
  | .vrng _ _ => .v
  | .vplogAnd _ _ => .v
  | .vplogOr _ _ => .v
  | .vplogXor _ _ => .v
  | .vplogAndn _ _ => .v
  | .vpcnt _ _ => .v
  | .ld _ _ => .m
  | .loadReturn _ _ _ => .event
  | .st _ _ => .m
  | .ldv _ _ => .m
  | .stv _ _ => .m
  | .vgath _ _ => .m
  | .vscat _ _ => .m
  | .atomAdd _ _ => .m
  | .atomAnd _ _ => .m
  | .atomOr _ _ => .m
  | .atomXor _ _ => .m
  | .atomMin _ _ => .m
  | .atomMax _ _ => .m
  | .atomSwap _ _ => .m
  | .atomCas _ _ => .m
  | .atomFadd _ _ => .m
  | .atomBfadd _ _ => .m
  | .fence _ _ => .m
  | .flagI _ _ => .m
  | .waitf _ _ => .m
  | .waitfT _ _ => .m
  | .waitTimeout _ _ => .event
  | .monitorScan _ => .event
  | .cflushWb _ _ => .m
  | .cflushInv _ _ => .m
  | .cflushWbinv _ _ => .m
  | .pref _ _ => .m
  | .cpy _ _ => .m
  | .cpyScale _ _ => .m
  | .copyIntakeDispatch _ => .event
  | .copyLineFill _ _ => .event
  | .cpyCompletion _ _ => .event
  | .ringBind _ _ => .m
  | .ringGet _ _ => .m
  | .ringCommit _ _ => .m
  | .ringEos _ _ => .m
  | .ringFree _ _ => .m
  | .ringStat _ _ => .m
  | .spawn _ _ => .m
  | .spawnL _ _ => .m
  | .depAdd _ _ => .m
  | .depSignal _ _ => .m
  | .suspSuspend _ _ => .m
  | .suspYield _ _ => .m
  | .suspFinish _ _ => .m
  | .barArrive _ _ => .m
  | .barWait _ _ => .m
  | .barBoth _ _ => .m
  | .getcCoord _ _ => .m
  | .getcShape _ _ => .m
  | .getcLaunch _ _ => .m
  | .getcCore _ _ => .m
  | .rput _ _ => .m
  | .rputSig _ _ => .m
  | .rcopy _ _ => .m
  | .rcopySig _ _ => .m
  | .rsem _ _ => .m
  | .rred _ _ => .m
  | .mcred _ _ => .m
  | .qpost _ _ => .m
  | .qpostEntryFire _ _ => .event
  | .qpostTimedFire _ _ => .event
  | .mbxPost _ _ => .m
  | .mbxTake _ _ => .m
  | .mbxStatus _ _ => .m
  | .mbxPostnb _ _ => .m
  | .rack _ _ => .m
  | .egressAccept _ _ => .event
  | .wcfg _ _ => .e
  | .wcfgEg _ _ => .e
  | .pack _ _ => .e
  | .packRev _ _ => .e
  | .packLimb _ _ => .e
  | .wmulConv _ _ => .e
  | .wmulCorr _ _ => .e
  | .wmulLimb _ _ => .e
  | .wmulOuter _ _ => .e
  | .wmulOuterSp _ _ => .e
  | .wmacConv _ _ => .e
  | .wmacCorr _ _ => .e
  | .wmacLimb _ _ => .e
  | .wmacOuter _ _ => .e
  | .wmacOuterSp _ _ => .e
  | .streamFetch _ _ _ => .event
  | .extrDigm _ _ => .e
  | .extrDigs _ _ => .e
  | .extrLimb _ _ => .e
  | .extrTile _ _ => .e
  | .extrTileClr _ _ => .e
  | .wclr _ _ => .e
  | .wmov _ _ => .e
  | .sbindA _ _ => .e
  | .sbindB _ _ => .e
  | .sbindUnbind _ _ => .e
  | .mcall _ _ => .e
  | .routineStart _ _ => .event
  | .routineCompletion _ _ => .event
  | .mpld _ _ => .e
  | .mldr _ _ => .e
  | .mldrEntries _ _ => .e
  | .ftld _ _ => .e
  | .scld _ _ => .e
  | .scldRd _ _ => .e
  | .metaqPush _ _ => .e
  | .metaqClear _ _ => .e
  | .wstat _ _ => .e
  | .wstatClr _ _ => .e
  | .mloop _ _ => .e
  | .mjmp _ _ => .e
  | .mret _ _ => .e
  | .apxb _ _ => .e
  | .apxe _ _ => .e
  | .apxc _ _ => .e
  | .apxsRd _ _ => .e
  | .apxsWr _ _ => .e
  | .apxsInv _ _ => .e
  | .equinoxBatchUpdate _ _ => .event
  | .csrRd _ _ => .sys
  | .csrWr _ _ => .sys
  | .csrSet _ _ => .sys
  | .csrClr _ _ => .sys
  | .rft _ => .sys
  | .tlbiAll _ _ => .sys
  | .tlbiAddr _ _ => .sys
  | .tlbiCtx _ _ => .sys
  | .ctxSave _ _ => .sys
  | .ctxRestore _ _ => .sys
  | .wfe _ => .sys
  | .wfeTimeout _ _ => .event
  | .halt _ => .sys
  | .pageWalkComplete _ _ => .event
  | .launchIntake => .event
  | .launchCompletion _ => .event
  | .dispatchDecision _ => .event
  | .readyRecordRefill _ => .event
  | .priorityAging _ _ => .event
  | .preempt _ _ _ _ => .event
  | .preemptWindowExpiry _ _ => .event
  | .gangFrameWrite _ _ _ => .event
  | .resume _ _ _ _ => .event
  | .launchkill _ _ _ _ => .event
  | .registerWrite _ _ _ => .event
  | .springFill _ _ => .event
  | .fallDrain _ _ => .event
  | .flitReceive _ _ => .event
  | .nakFlit _ _ => .event
  | .keydone _ => .event
  | .laneFailure _ _ _ => .event
  | .retrainTimeout _ => .event
  | .putPkt _ => .event
  | .redPkt _ => .event
  | .semPkt _ => .event
  | .mcredContribution _ => .event
  | .mcredRoundTimeout _ _ => .event
  | .mcdata _ => .event
  | .readPkt _ => .event
  | .atomic _ => .event
  | .respPkt _ => .event
  | .ackPkt _ => .event
  | .timeSyncExchange _ _ _ _ => .event
  | .cpsem _ _ _ => .event
  | .hostLinkDown _ => .event
  | .evtdoor _ _ => .event
  | .qerrClear _ _ => .event
  | .fltqptrHeadWrite _ _ => .event
  | .fltqbaseWrite _ _ => .event
  | .launchReq _ _ _ => .event
  | .depsig _ _ _ => .event
  | .flagadd _ _ _ => .event
  | .packetNop _ _ _ => .event
  | .atsInvalidation _ _ _ => .event
  | .hostFlagAccess _ _ _ _ => .event
  | .hostExtentAccess _ _ _ _ => .event
  | .snapviewPin _ _ => .event
  | .snapviewUnpin _ _ => .event
  | .extentRevoke _ _ => .event
  | .drainTimeout _ => .event
  | .recallTimeout _ _ => .event
  | .extentZeroing _ => .event
  | .assign _ _ => .event
  | .grow _ _ _ _ _ => .event
  | .shrink _ _ _ _ _ => .event
  | .remove _ _ _ => .event
  | .debugpol _ _ _ _ => .event
  | .imageReq _ _ _ => .event
  | .fwFence _ _ _ _ => .event
  | .fwStatus _ _ => .event
  | .lockInterface _ => .event
  | .stopInterface _ => .event
  | .startInterface _ => .event
  | .getDeviceInterfaceState _ => .event
  | .getDeviceInterfaceReport _ => .event
  | .getVersion _ _ => .event
  | .getCapabilities _ _ => .event
  | .negotiateAlgorithms _ _ => .event
  | .getDigests _ _ => .event
  | .getCertificate _ _ => .event
  | .challenge _ _ => .event
  | .getMeasurements _ _ _ => .event
  | .keyExchange _ _ => .event
  | .finish _ _ => .event
  | .keyUpdate _ _ _ _ _ => .event
  | .heartbeat _ _ => .event
  | .endSession _ _ => .event
  | .resetDev => .event
  | .recoveryImageLoad _ _ => .event
  | .governorLower _ _ => .event
  | .governorRaise _ _ => .event
  | .thermalShutdown _ => .event
  | .patrolScrub _ => .event
  | .correctedError _ => .event
  | .uncorrectedError _ => .event
  | .retrainingComplete _ _ _ _ => .event
  | .recallResponse _ _ _ _ => .event

/-- The header of a word (06 Table 6-1). -/
def hdrOf : Instr → Option Hdr
  | .nop h => some h
  | .add h _ => some h
  | .sub h _ => some h
  | .mul h _ => some h
  | .mulHi h _ => some h
  | .divI h _ => some h
  | .divRem h _ => some h
  | .andI h _ => some h
  | .orI h _ => some h
  | .xorI h _ => some h
  | .andn h _ => some h
  | .shl h _ => some h
  | .shr h _ => some h
  | .sra h _ => some h
  | .rot h _ => some h
  | .minI h _ => some h
  | .maxI h _ => some h
  | .cmp h _ _ => some h
  | .sel h _ => some h
  | .movi h _ => some h
  | .movhi h _ => some h
  | .lea h _ => some h
  | .bitsClz h _ => some h
  | .bitsCtz h _ => some h
  | .bitsPopc h _ => some h
  | .bitsBrev h _ => some h
  | .bitsBfx h _ => some h
  | .bitsBfi h _ => some h
  | .bitsAbs h _ => some h
  | .bitsNeg h _ => some h
  | .plogAnd h _ => some h
  | .plogOr h _ => some h
  | .plogXor h _ => some h
  | .plogAndn h _ => some h
  | .fadd h _ => some h
  | .faddSub h _ => some h
  | .fmul h _ => some h
  | .fma h _ => some h
  | .fmaFms h _ => some h
  | .fmaFnma h _ => some h
  | .fdiv h _ => some h
  | .fdivSqrt h _ => some h
  | .fmin h _ => some h
  | .fmax h _ => some h
  | .fcmp h _ _ => some h
  | .fcvt h _ => some h
  | .br h _ => some h
  | .jmp h _ => some h
  | .call h _ => some h
  | .ret h _ => some h
  | .loopI h _ => some h
  | .brkl h => some h
  | .rpt h _ => some h
  | .trap h _ => some h
  | .resultLanding _ _ => none
  | .vadd h _ => some h
  | .vsub h _ => some h
  | .vmul h _ => some h
  | .vmulHi h _ => some h
  | .vmad h _ => some h
  | .vlogAnd h _ => some h
  | .vlogOr h _ => some h
  | .vlogXor h _ => some h
  | .vlogAndn h _ => some h
  | .vshShl h _ => some h
  | .vshShr h _ => some h
  | .vshSra h _ => some h
  | .vshRot h _ => some h
  | .vmin h _ => some h
  | .vmax h _ => some h
  | .vcmp h _ _ => some h
  | .vsel h _ => some h
  | .vfadd h _ => some h
  | .vfaddSub h _ => some h
  | .vfmul h _ => some h
  | .vfma h _ => some h
  | .vfmaFms h _ => some h
  | .vfmaFnma h _ => some h
  | .vfmin h _ => some h
  | .vfmax h _ => some h
  | .vfcmp h _ _ => some h
  | .vsfRcp h _ => some h
  | .vsfRsqrt h _ => some h
  | .vsfExp2 h _ => some h
  | .vsfLog2 h _ => some h
  | .vsfSin h _ => some h
  | .vsfCos h _ => some h
  | .vsfTanh h _ => some h
  | .vsfSigm h _ => some h
  | .vcvt h _ => some h
  | .vcvtBsPack h _ => some h
  | .vcvtBsUnpack h _ => some h
  | .vshuf h _ => some h
  | .vredAdd h _ => some h
  | .vredMin h _ => some h
  | .vredMax h _ => some h
  | .vxcp h _ => some h
  | .vsplat h _ => some h
  | .vext h _ => some h
  | .viota h _ => some h
  | .vrng h _ => some h
  | .vplogAnd h _ => some h
  | .vplogOr h _ => some h
  | .vplogXor h _ => some h
  | .vplogAndn h _ => some h
  | .vpcnt h _ => some h
  | .ld h _ => some h
  | .loadReturn _ _ _ => none
  | .st h _ => some h
  | .ldv h _ => some h
  | .stv h _ => some h
  | .vgath h _ => some h
  | .vscat h _ => some h
  | .atomAdd h _ => some h
  | .atomAnd h _ => some h
  | .atomOr h _ => some h
  | .atomXor h _ => some h
  | .atomMin h _ => some h
  | .atomMax h _ => some h
  | .atomSwap h _ => some h
  | .atomCas h _ => some h
  | .atomFadd h _ => some h
  | .atomBfadd h _ => some h
  | .fence h _ => some h
  | .flagI h _ => some h
  | .waitf h _ => some h
  | .waitfT h _ => some h
  | .waitTimeout _ _ => none
  | .monitorScan _ => none
  | .cflushWb h _ => some h
  | .cflushInv h _ => some h
  | .cflushWbinv h _ => some h
  | .pref h _ => some h
  | .cpy h _ => some h
  | .cpyScale h _ => some h
  | .copyIntakeDispatch _ => none
  | .copyLineFill _ _ => none
  | .cpyCompletion _ _ => none
  | .ringBind h _ => some h
  | .ringGet h _ => some h
  | .ringCommit h _ => some h
  | .ringEos h _ => some h
  | .ringFree h _ => some h
  | .ringStat h _ => some h
  | .spawn h _ => some h
  | .spawnL h _ => some h
  | .depAdd h _ => some h
  | .depSignal h _ => some h
  | .suspSuspend h _ => some h
  | .suspYield h _ => some h
  | .suspFinish h _ => some h
  | .barArrive h _ => some h
  | .barWait h _ => some h
  | .barBoth h _ => some h
  | .getcCoord h _ => some h
  | .getcShape h _ => some h
  | .getcLaunch h _ => some h
  | .getcCore h _ => some h
  | .rput h _ => some h
  | .rputSig h _ => some h
  | .rcopy h _ => some h
  | .rcopySig h _ => some h
  | .rsem h _ => some h
  | .rred h _ => some h
  | .mcred h _ => some h
  | .qpost h _ => some h
  | .qpostEntryFire _ _ => none
  | .qpostTimedFire _ _ => none
  | .mbxPost h _ => some h
  | .mbxTake h _ => some h
  | .mbxStatus h _ => some h
  | .mbxPostnb h _ => some h
  | .rack h _ => some h
  | .egressAccept _ _ => none
  | .wcfg h _ => some h
  | .wcfgEg h _ => some h
  | .pack h _ => some h
  | .packRev h _ => some h
  | .packLimb h _ => some h
  | .wmulConv h _ => some h
  | .wmulCorr h _ => some h
  | .wmulLimb h _ => some h
  | .wmulOuter h _ => some h
  | .wmulOuterSp h _ => some h
  | .wmacConv h _ => some h
  | .wmacCorr h _ => some h
  | .wmacLimb h _ => some h
  | .wmacOuter h _ => some h
  | .wmacOuterSp h _ => some h
  | .streamFetch _ _ _ => none
  | .extrDigm h _ => some h
  | .extrDigs h _ => some h
  | .extrLimb h _ => some h
  | .extrTile h _ => some h
  | .extrTileClr h _ => some h
  | .wclr h _ => some h
  | .wmov h _ => some h
  | .sbindA h _ => some h
  | .sbindB h _ => some h
  | .sbindUnbind h _ => some h
  | .mcall h _ => some h
  | .routineStart _ _ => none
  | .routineCompletion _ _ => none
  | .mpld h _ => some h
  | .mldr h _ => some h
  | .mldrEntries h _ => some h
  | .ftld h _ => some h
  | .scld h _ => some h
  | .scldRd h _ => some h
  | .metaqPush h _ => some h
  | .metaqClear h _ => some h
  | .wstat h _ => some h
  | .wstatClr h _ => some h
  | .mloop h _ => some h
  | .mjmp h _ => some h
  | .mret h _ => some h
  | .apxb h _ => some h
  | .apxe h _ => some h
  | .apxc h _ => some h
  | .apxsRd h _ => some h
  | .apxsWr h _ => some h
  | .apxsInv h _ => some h
  | .equinoxBatchUpdate _ _ => none
  | .csrRd h _ => some h
  | .csrWr h _ => some h
  | .csrSet h _ => some h
  | .csrClr h _ => some h
  | .rft h => some h
  | .tlbiAll h _ => some h
  | .tlbiAddr h _ => some h
  | .tlbiCtx h _ => some h
  | .ctxSave h _ => some h
  | .ctxRestore h _ => some h
  | .wfe h => some h
  | .wfeTimeout _ _ => none
  | .halt h => some h
  | .pageWalkComplete _ _ => none
  | .launchIntake => none
  | .launchCompletion _ => none
  | .dispatchDecision _ => none
  | .readyRecordRefill _ => none
  | .priorityAging _ _ => none
  | .preempt _ _ _ _ => none
  | .preemptWindowExpiry _ _ => none
  | .gangFrameWrite _ _ _ => none
  | .resume _ _ _ _ => none
  | .launchkill _ _ _ _ => none
  | .registerWrite _ _ _ => none
  | .springFill _ _ => none
  | .fallDrain _ _ => none
  | .flitReceive _ _ => none
  | .nakFlit _ _ => none
  | .keydone _ => none
  | .laneFailure _ _ _ => none
  | .retrainTimeout _ => none
  | .putPkt _ => none
  | .redPkt _ => none
  | .semPkt _ => none
  | .mcredContribution _ => none
  | .mcredRoundTimeout _ _ => none
  | .mcdata _ => none
  | .readPkt _ => none
  | .atomic _ => none
  | .respPkt _ => none
  | .ackPkt _ => none
  | .timeSyncExchange _ _ _ _ => none
  | .cpsem _ _ _ => none
  | .hostLinkDown _ => none
  | .evtdoor _ _ => none
  | .qerrClear _ _ => none
  | .fltqptrHeadWrite _ _ => none
  | .fltqbaseWrite _ _ => none
  | .launchReq _ _ _ => none
  | .depsig _ _ _ => none
  | .flagadd _ _ _ => none
  | .packetNop _ _ _ => none
  | .atsInvalidation _ _ _ => none
  | .hostFlagAccess _ _ _ _ => none
  | .hostExtentAccess _ _ _ _ => none
  | .snapviewPin _ _ => none
  | .snapviewUnpin _ _ => none
  | .extentRevoke _ _ => none
  | .drainTimeout _ => none
  | .recallTimeout _ _ => none
  | .extentZeroing _ => none
  | .assign _ _ => none
  | .grow _ _ _ _ _ => none
  | .shrink _ _ _ _ _ => none
  | .remove _ _ _ => none
  | .debugpol _ _ _ _ => none
  | .imageReq _ _ _ => none
  | .fwFence _ _ _ _ => none
  | .fwStatus _ _ => none
  | .lockInterface _ => none
  | .stopInterface _ => none
  | .startInterface _ => none
  | .getDeviceInterfaceState _ => none
  | .getDeviceInterfaceReport _ => none
  | .getVersion _ _ => none
  | .getCapabilities _ _ => none
  | .negotiateAlgorithms _ _ => none
  | .getDigests _ _ => none
  | .getCertificate _ _ => none
  | .challenge _ _ => none
  | .getMeasurements _ _ _ => none
  | .keyExchange _ _ => none
  | .finish _ _ => none
  | .keyUpdate _ _ _ _ _ => none
  | .heartbeat _ _ => none
  | .endSession _ _ => none
  | .resetDev => none
  | .recoveryImageLoad _ _ => none
  | .governorLower _ _ => none
  | .governorRaise _ _ => none
  | .thermalShutdown _ => none
  | .patrolScrub _ => none
  | .correctedError _ => none
  | .uncorrectedError _ => none
  | .retrainingComplete _ _ _ _ => none
  | .recallResponse _ _ _ _ => none

end Machine
end Sys2Proof
end

