-- ==== Sys2Proof/Machine/Frames.lean ====
section
/-! DEFINITION. Context frames: their sections, written and read (17 R448 to R452). -/

namespace Sys2Proof
namespace Machine

/-! ### What a frame holds of a tile -/

/-- The count n of an element's open group (04 R120). -/
def Tile.count (t : Tile) (i : Nat) : Nat := (Sparse.get {} t.p i).n

/-- The count of the open groups of a row, as a frame holds it (17 Table 17-10): the highest where elements differ. -/
def Tile.rowCount (t : Tile) (row : Nat) : Nat := t.p.foldl (fun m x => if x.1 / 96 = row then max m x.2.n else m) 0

/-- Writes the low `n` bytes of a number at an offset of a frame. -/
def putF (m : Mem) (o n x : Nat) : Mem := Memory.write m o (bytesOfNat n x)
/-- Reads `n` bytes at an offset of a frame. -/
def getF (m : Mem) (o n : Nat) : Nat := natOfBytes (Memory.read m o n)

/-- Writes `n` items of a stride each. -/
def putMany (m : Mem) (o stride size n : Nat) (f : Nat → Nat) : Mem :=
  (List.range n).foldl (fun m i => putF m (o + stride * i) size (f i)) m

/-- The sizes of the sections by bit of PRESENT (17 Table 17-5). -/
def sectionSize (bit : Nat) : Nat :=
  match bit with
  | 0 => 4096 | 1 => 1280 | 2 => 41216 | 3 => 6144 | 4 => 8192
  | 5 => 73728 | 6 => 73728 | 7 => 73728 | 8 => 73728 | 9 => 65536 | _ => 10240

/-- Where a section begins under a PRESENT mask, and the frame's size as that of bit 11 (17 R448). -/
def sectionAt (present bit : Nat) : Nat :=
  ((List.range bit).filter fun i => present.testBit i).foldl (fun n i => n + sectionSize i) 0

def frameSize (present : Nat) : Nat := sectionAt present 11

/-- The routines of a slot's task: its WM, whether pending, and the routine (17 Table 17-9). -/
def routinesOf (c : Core) (id : TaskId) : List (Nat × Bool × Routine) :=
  (List.range 4).flatMap fun u =>
    let w := Sparse.get {} c.wms u
    let mine (r : Routine) := r.own.recAddr = id.recAddr && r.own.seq = id.seq && !r.done
    ((w.run.toList.filter mine).map fun r => (u, false, r)) ++ ((w.pend.toList.filter mine).map fun r => (u, true, r))

/-- Which sections a task's frame has (17 Table 17-5, R448). -/
def framePresent (c : Core) (l : Slot) : Nat :=
  let id := l.id
  let h := id.hdr
  let rs := !(routinesOf c id).isEmpty
  let wide := h.nw ≠ 0 || h.nacc ≠ 0 || h.nta ≠ 0 || (l.ports.any fun p => p.2.h.getLsbD 0) || rs
  let bit (k : Nat) (p : Bool) := if p then 2 ^ k else 0
  3 + bit 2 l.vIssued + bit 3 (!l.tb.inflight.isEmpty) + bit 4 wide
    + ((List.range 4).foldl (fun n j => n + bit (5 + j) (j < h.nta && (Sparse.get {} c.ta (id.ta0 + j)).live)) 0)
    + bit 9 rs + bit 10 rs

/-- The last-result operands of a word in field order (17 R445, R449). -/
def lastUses (w : IWord) : List Use :=
  match decodeWord w with
  | .ok i => (uses i).filter fun u => match u with | .rdD _ => true | .rdDv _ _ => true | _ => false
  | .error _ => []

/-- A held trap in the HELD area (17 Table 17-8). -/
def putHeld (m : Mem) (o : Nat) : Option Trap → Mem
  | none => m
  | some t => putF (putF (putF m o 1 t.cause.code.toNat) (o + 4) 4 t.wpc.toNat) (o + 8) 8 t.info.toNat

def getHeld (m : Mem) (o : Nat) : Option Trap :=
  if getF m o 1 = 0 then none
  else some ⟨Cause.ofCode (BitVec.ofNat 8 (getF m o 1)), BitVec.ofNat 64 (getF m (o + 8) 8), BitVec.ofNat 32 (getF m (o + 4) 4)⟩

/-- RPLSTAT (17 Table 17-2). -/
def Replay.stat (r : Replay) : Word :=
  (r.leadPc.setWidth 64 <<< 32) ||| (r.perf.setWidth 64 <<< 8) ||| (r.count.setWidth 64 <<< 4) ||| (if r.valid then 1 else 0)

/-- TRAPPEND (17 Table 17-2). -/
def Csrs.pend (c : Csrs) : BitVec 4 :=
  (if c.heldFp.isSome then 1 else 0) ||| (if c.heldRoutine.isSome then 2 else 0) |||
  (if c.heldPoison.isSome then 4 else 0) ||| (if c.heldRemote.isSome then 8 else 0)

/-- TRAPCAUSE (17 Table 17-2). -/
def Csrs.cause (c : Csrs) : Word := (if c.trapDefer then 256 else 0) ||| c.trapCause.setWidth 64

/-- A buffered word that has not performed. -/
def Replay.left (r : Replay) : List (Nat × IWord) :=
  (r.words.zipIdx.filter fun (_, i) => !r.perf.getLsbD i).map fun (w, i) => (i, w)

/-- The CAPTURE area: each unperformed word's last-result operands (17 Table 17-6). -/
def putCaptures (m : Mem) (o : Nat) (r : Replay) : Mem :=
  let step (acc : Mem × Nat) (iw : Nat × IWord) : Mem × Nat :=
    let cp := (Sparse.find r.caps iw.1).getD ⟨false, 0, [], [], []⟩
    (lastUses iw.2).foldl (fun (m, o) u =>
      match u with
      | .rdD k => (putF m o 8 (cp.ds.getD k 0).toNat, o + 8)
      | .rdDv cm k => (clusters cm).foldl (fun (m, o) c => (putF m o 64 ((Sparse.get [] cp.dv c).getD k 0).toNat, o + 64)) (m, o)
      | _ => (m, o)) acc
  (r.left.foldl step (m, o)).1

/-- Entry k of a list of eight, the others kept. -/
def setEight {α : Type} (d : α) (l : List α) (k : Nat) (x : α) : List α :=
  (List.range 8).map fun i => if i = k then x else l.getD i d

/-- The captures read back. -/
def getCaptures (m : Mem) (o held : Nat) (r : Replay) : SMap Capture :=
  let base (i : Nat) (w : IWord) : Capture :=
    let cm := match decodeWord w with | .ok _ => (List.range 8) | .error _ => []
    { en := getF m (held + 0x40 + 8 * i) 1 % 2 = 1, fpc := BitVec.ofNat 32 (getF m (held + 0x44 + 8 * i) 4),
      masks := cm.foldl (fun s c => Sparse.set 0 s c (BitVec.ofNat 16 (getF m (held + 0x80 + 16 * i + 2 * c) 2))) [],
      ds := [], dv := [] }
  let step (acc : SMap Capture × Nat) (iw : Nat × IWord) : SMap Capture × Nat :=
    let (cp, o) := (lastUses iw.2).foldl (fun (cp, o) u =>
      match u with
      | .rdD k => (({ cp with ds := setEight 0 cp.ds k (BitVec.ofNat 64 (getF m o 8)) } : Capture), o + 8)
      | .rdDv cm k => (clusters cm).foldl (fun (cp, o) c =>
          (({ cp with dv := Sparse.put cp.dv c (setEight 0 (Sparse.get [] cp.dv c) k (BitVec.ofNat 512 (getF m o 64))) } : Capture),
            o + 64)) (cp, o)
      | _ => (cp, o)) (base iw.1 iw.2, acc.2)
    (Sparse.put acc.1 iw.1 cp, o)
  (r.left.foldl step ([], o)).1

/-- The code of a wait's kind (17 Table 17-6). -/
def WaitKind.code : WaitKind → Nat
  | .waitf => 1 | .waitfT => 2 | .bar => 3 | .ringGet => 4 | .mbxTake => 5

/-- The CONTROL section (17 Table 17-6 to Table 17-8). -/
def putControl (c : Core) (l : Slot) (present : Nat) : Mem :=
  let b := l.tb
  let m : Mem := []
  let m := putF (putF (putF m 0 2 1) 2 2 present) 4 4 (frameSize present)
  let m := putF (putF m 8 8 l.id.recAddr.toNat) 0x10 8 l.id.kernel.toNat
  let m := putF m 0x18 4 (if l.level = .s then l.csr.trapPc else l.pc).toNat
  let m := putF (putF m 0x1C 1 b.loops.length) 0x1D 1 l.csr.rptrem.toNat
  let m := putF m 0x1E 1 (b.tags.foldl (fun n (t, _) => n ||| 2 ^ t) 0)
  let m := match l.wait with
    | none => m
    | some w =>
      let m := putF (putF m 0x1F 1 w.kind.code) 0x58 8 w.addr.toNat
      let m := putF m 0x60 8 (match w.kind with
        | .waitf | .waitfT => ((w.val.toNat % 2 ^ 62) + 2 ^ 62 * w.rel.toNat)
        | .ringGet => 0
        | _ => w.val.toNat)
      match w.deadline with | some d => putF m 0x50 8 (d - c.resetCycle) | none => m
  let m := putF (putF m 0x20 4 b.fpc.toNat) 0x24 4 l.csr.ctxstat.toNat
  let m := putF (putF m 0x28 8 l.csr.oorAddr.toNat) 0x30 8 l.csr.apxregion.toNat
  let m := putF (putF m 0x38 8 l.csr.cause.toNat) 0x40 8 l.csr.trapInfo.toNat
  let m := putF (putF m 0x48 4 l.csr.trapPc.toNat) 0x4C 4 l.csr.trapWpc.toNat
  let m := putMany m 0x70 2 2 7 fun i =>
    match Sparse.find b.tags (i + 1) with | some (r :: _) => r.dst.code.toNat | _ => 0xFFFF
  let m := (b.loops.zipIdx).foldl (fun m (f, i) =>
    putF (putF (putF (putF m (0x80 + 16 * i) 4 f.s0.toNat) (0x84 + 16 * i) 4 f.e.toNat) (0x88 + 16 * i) 4 f.n.toNat)
      (0x8C + 16 * i) 4 f.k.toNat) m
  let m := putF (putF (putF m 0xE0 8 l.rpl.stat.toNat) 0xE8 4 l.csr.rplNext.toNat) 0xEC 4 l.csr.pend.toNat
  let m := (l.rpl.words.zipIdx).foldl (fun m (w, i) => putF m (0xF0 + 10 * i) 10 w.toNat) m
  let m := putHeld (putHeld (putHeld (putHeld m 0x140 l.csr.heldFp) 0x150 l.csr.heldRoutine) 0x160 l.csr.heldPoison)
    0x170 l.csr.heldRemote
  let m := l.rpl.caps.foldl (fun m (i, cp) =>
    let m := putF (putF m (0x180 + 8 * i) 1 (if cp.en then 1 else 0)) (0x184 + 8 * i) 4 cp.fpc.toNat
    cp.masks.foldl (fun m (c, x) => putF m (0x1C0 + 16 * i + 2 * c) 2 x.toNat) m) m
  if l.rpl.valid then putCaptures m 0x400 l.rpl else m

/-- The SCALAR section. -/
def putScalar (m : Mem) (o : Nat) (l : Slot) : Mem :=
  let m := putMany m o 8 8 128 fun i => (l.rdS .t i).toNat
  let m := putMany m (o + 1024) 8 8 16 fun i => (l.rdQ i).toNat
  let m := putF m (o + 1152) 1 (l.tb.p ||| 1).toNat
  putMany m (o + 1160) 8 8 8 fun k => (l.tb.ds.getD k 0).toNat

/-- The VECTOR section. -/
def putVector (m : Mem) (o : Nat) (l : Slot) : Mem :=
  let m := putMany m o 64 64 512 fun i => (l.rdV (i % 8) (i / 8)).toNat
  let m := putMany m (o + 32768) 64 64 64 fun i => (l.rdVq (i % 8) (i / 8)).toNat
  let m := putMany m (o + 36864) 2 2 64 fun i => (l.rdVp (i % 8) (i / 8)).toNat
  putMany m (o + 36992) 64 64 64 fun i => ((Sparse.get [] l.files.dv (i % 8)).getD (i / 8) 0).toNat

/-- The INFLIGHT section: the register, the count and the unit; the value is that of the last-result entry, or of the
register where there is none. -/
def putInflight (m : Mem) (o : Nat) (b : Bank) : Mem :=
  let m := putF m o 4 b.inflight.length
  (b.inflight.zipIdx).foldl (fun m (x, i) =>
    let o := o + 256 + 80 * i
    putF (putF (putF (putF m o 2 x.dst.code.toNat) (o + 2) 1 x.left) (o + 3) 1 x.unit) (o + 8) 64 (x.entry.getD x.val).toNat) m

/-- The bits of a w register and an acc register. -/
def wBits (c : Core) (r : Nat) : Nat := packElems 12 ((List.range 96).map fun i => (Sparse.get 0 c.w (96 * r + i)).toNat)
def accBits (c : Core) (r : Nat) : Nat := packElems 48 ((List.range 192).map fun i => (Sparse.get 0 c.acc (192 * r + i)).toNat)
def setWBits (c : Core) (r x : Nat) : Core :=
  { c with w := (List.range 96).foldl (fun m i => Sparse.set 0 m (96 * r + i) (BitVec.ofNat 12 (bitsAt x (12 * i) 12))) c.w }
def setAccBits (c : Core) (r x : Nat) : Core :=
  { c with acc := (List.range 192).foldl (fun m i => Sparse.set 0 m (192 * r + i) (BitVec.ofNat 48 (bitsAt x (48 * i) 48))) c.acc }

/-- A port's handle as the frame holds it (17 Table 17-10): ROLE is 10, and BOUND is 0 when the port is unbound. -/
def frameHandle (h : Word) : Word := (h &&& ~~~0x30) ||| 0x20
def portOf (l : Slot) (u p : Nat) : Word := frameHandle (Sparse.get {} l.ports (2 * u + p)).h

/-- The WIDE section (17 Tables 17-5, 17-9, 17-10). -/
def putWide (m : Mem) (o : Nat) (c : Core) (l : Slot) : Mem :=
  let id := l.id
  let m := putMany m o 144 144 id.hdr.nw fun i => wBits c (id.w0 + i)
  let m := putMany m (o + 1152) 1152 1152 id.hdr.nacc fun i => accBits c (id.acc0 + i)
  let m := putMany m (o + 5760) 4 4 4 fun i => (Sparse.get 0x2FDF000C l.wmcfg i).toNat
  let m := putMany m (o + 5776) 8 8 8 fun i => (Sparse.get 0 l.mp i).toNat
  let m := (routinesOf c id).foldl (fun m (u, pend, r) =>
    let o := o + 5840 + 256 * u
    let m := putF m o 1 (if pend then 2 else 1)
    let m := putF m (o + 1) 1 ((if r.acq then 1 else 0) + (if r.rel then 2 else 0) + 4 * r.scope.toNat)
    let m := putF (putF (putF m (o + 2) 2 r.rpc) (o + 4) 1 r.entry.toNat) (o + 5) 1 r.tag
    let m := putF (putF (putF m (o + 6) 2 r.token.code.toNat) (o + 8) 4 r.wmcfg.toNat) (o + 12) 4 r.fpc.toNat
    let m := putF (putF m (o + 16) 4 r.steps) (o + 20) 4 r.callPc.toNat
    let m := putMany m (o + 32) 4 4 6 fun i => (r.kcap.getD i 0).toNat
    let m := putF m (o + 56) 1 r.mloops.length
    let m := (r.mloops.zipIdx).foldl (fun m (f, i) =>
      putF (putF (putF (putF m (o + 64 + 16 * i) 2 f.first) (o + 66 + 16 * i) 2 f.last) (o + 68 + 16 * i) 4 f.n.toNat)
        (o + 72 + 16 * i) 4 f.k.toNat) m
    putMany m (o + 128) 8 8 8 fun i => (r.mp.getD i 0).toNat) m
  let m := putMany m (o + 6864) 16 8 8 fun i => (portOf l (i / 2) (i % 2)).toNat
  (List.range id.hdr.nta).foldl (fun m j =>
    let t := Sparse.get {} c.ta (id.ta0 + j)
    let o := o + 6992 + 128 * j
    putMany (putF m o 4 t.kcount.toNat) (o + 32) 1 1 96 t.rowCount) m

/-- A tile section; the hidden partials' 32 bits are free values, one for each open element. -/
def putTile (m : Mem) (o : Nat) (t : Tile) (f : Nat → Word) : Mem :=
  let m := t.s.foldl (fun m (i, x) => putF m (o + 8 * i) 8 x.toNat) m
  t.p.foldl (fun m (i, _) => putF m (o + 8 * i + 4) 4 (f i).toNat) m

/-- Scale entries that `p` picks become visible to the routines of their WM (09 R283). -/
def Core.takeScales (c : Core) (p : ScaleDue → Bool) : Core :=
  (c.scaleDue.filter p).foldl (fun (c : Core) d =>
    let w : Wm := Sparse.get {} c.wms d.wm
    { c with wms := Sparse.set {} c.wms d.wm { w with scale := d.parts.foldl (fun m (a, b) => Memory.write m a b) w.scale } })
    { c with scaleDue := c.scaleDue.filter fun d => !p d }

/-- The SCALE and SPARSE sections (17 Table 17-5; 10 R325). -/
def putScale (m : Mem) (o : Nat) (c : Core) (rs : List (Nat × Bool × Routine)) : Mem :=
  rs.foldl (fun m (u, _) => (Sparse.get {} c.wms u).scale.foldl (fun m (a, b) => Memory.setByte m (o + 16384 * u + a) b) m) m

/-- Packs a sparsity-queue entry: 96 fields of 12 bits (10 R319). -/
def sqBits (e : List (BitVec 12)) : Nat := packElems 12 (e.map fun x => x.toNat)
def sqOfBits (x : Nat) : List (BitVec 12) := (List.range 96).map fun i => BitVec.ofNat 12 (bitsAt x (12 * i) 12)

def putSparse (m : Mem) (o : Nat) (c : Core) : Mem :=
  (List.range 4).foldl (fun m j =>
    let q := Sparse.get [] c.sq j
    (q.zipIdx).foldl (fun m (e, i) => putF m (o + 2560 * j + 256 + 144 * i) 144 (sqBits e)) (putF m (o + 2560 * j) 1 q.length)) m

/-- The frame of a slot's task: its bytes and its size.  One free value stands for what the manual does not give of hidden
partials (17 Table 17-5; 04 R120). -/
def buildFrame (s : State) (core k : Nat) : Mem × Nat :=
  let c := s.core core
  let l := s.slot core k
  let p := framePresent c l
  let on (b : Nat) (m : Mem) (f : Mem → Nat → Mem) : Mem := if p.testBit b then f m (sectionAt p b) else m
  let m := putControl c l p
  let m := putScalar m 4096 l
  let m := on 2 m fun m o => putVector m o l
  let m := on 3 m fun m o => putInflight m o l.tb
  let m := on 4 m fun m o => putWide m o c l
  let m := (List.range 4).foldl (fun m j => on (5 + j) m fun m o =>
    putTile m o (Sparse.get {} c.ta (l.id.ta0 + j)) fun i => Config.freeWord (s.freeCtr + 9216 * j + i)) m
  let m := on 9 m fun m o => putScale m o c (routinesOf c l.id)
  let m := on 10 m fun m o => putSparse m o c
  (m, frameSize p)

/-- What the device keeps beside the frame. -/
def sideOf (c : Core) (l : Slot) : Side :=
  { flight := l.tb.inflight, tags := l.tb.tags, ports := l.ports,
    tiles := (List.range l.id.hdr.nta).foldl (fun m j => Sparse.set {} m j (Sparse.get {} c.ta (l.id.ta0 + j))) [],
    order := (routinesOf c l.id).foldl (fun m (u, p, r) => Sparse.put m (2 * u + if p then 1 else 0) r.order) [],
    added := (routinesOf c l.id).foldl (fun m (u, p, r) => Sparse.put m (2 * u + if p then 1 else 0) r.added) [],
    rh := (List.range l.id.hdr.nrh).map fun i => Sparse.get 0 c.rh (l.id.rh0 + i), taken := l.rpl.taken, point := l.rpl.point,
    refused := l.refused, first := l.first,
    scaleDue := c.scaleDue.filter fun d => d.seq = l.id.seq && (routinesOf c l.id).any fun r => r.1 = d.wm }

/-- Why a frame is not restored (17 R451, R452). -/
inductive FrameErr where
  | bad | mismatch
  deriving DecidableEq, Repr

/-- The checks on a frame for a task (17 R451, R452): its version, mask and size; then its kernel and sections against the
task's header. -/
def checkFrame (m : Mem) (id : TaskId) : Option FrameErr :=
  let p := getF m 2 2
  if getF m 0 2 ≠ 1 || p ≥ 2 ^ 11 || p % 4 ≠ 3 || getF m 4 4 ≠ frameSize p then some .bad
  else if getF m 0x10 8 ≠ id.kernel.toNat then some .mismatch
  else if (List.range 4).any (fun j => p.testBit (5 + j) && id.hdr.nta ≤ j) then some .mismatch
  else none

/-- The task's bank and CSRs from CONTROL and SCALAR. -/
def getControl (m : Mem) (l : Slot) (side : Option Side) (own : SMap (List TagRes)) : Slot :=
  let depth := min 6 (getF m 0x1C 1)
  let loops := (List.range depth).map fun i =>
    (⟨BitVec.ofNat 32 (getF m (0x80 + 16 * i) 4), BitVec.ofNat 32 (getF m (0x84 + 16 * i) 4),
      BitVec.ofNat 32 (getF m (0x88 + 16 * i) 4), BitVec.ofNat 32 (getF m (0x8C + 16 * i) 4)⟩ : LoopFrame)
  let busy := getF m 0x1E 1
  let tags := own.filter fun t => 8 ≤ t.1 || busy.testBit t.1
  let st := getF m 0xE0 8
  let count := fld st 7 4
  let r : Replay :=
    { valid := st % 2 = 1, leadPc := BitVec.ofNat 32 (fld st 63 32), perf := BitVec.ofNat 8 (fld st 15 8),
      count := BitVec.ofNat 4 count, words := (List.range count).map fun i => BitVec.ofNat 80 (getF m (0xF0 + 10 * i) 10) }
  let next := BitVec.ofNat 32 (getF m 0xE8 4)
  let taken := match side with | some x => x.taken | none => next ≠ r.leadPc + BitVec.ofNat 32 count
  let r := { r with taken := taken, point := side.any fun x => x.point, caps := if r.valid then getCaptures m 0x400 0x140 r else [] }
  let csr : Csrs :=
    { ctxstat := BitVec.ofNat 6 (getF m 0x24 4) ||| csMoved, oorAddr := BitVec.ofNat 64 (getF m 0x28 8),
      rptrem := BitVec.ofNat 7 (getF m 0x1D 1), apxregion := BitVec.ofNat 7 (getF m 0x30 8),
      trapDefer := fld (getF m 0x38 8) 8 8 = 1, trapCause := BitVec.ofNat 8 (getF m 0x38 8),
      trapPc := BitVec.ofNat 32 (getF m 0x48 4), trapInfo := BitVec.ofNat 64 (getF m 0x40 8),
      trapWpc := BitVec.ofNat 32 (getF m 0x4C 4), rplNext := next, heldFp := getHeld m 0x140,
      heldRoutine := getHeld m 0x150, heldPoison := getHeld m 0x160, heldRemote := getHeld m 0x170 }
  let sHi := (List.range 8).foldl (fun x i => Sparse.set 0 x (120 + i) (BitVec.ofNat 64 (getF m (4096 + 8 * (120 + i)) 8))) []
  let ss := (List.range 119).foldl (fun x i => Sparse.set 0 x (i + 1) (BitVec.ofNat 64 (getF m (4096 + 8 * (i + 1)) 8))) []
  let qs := (List.range 16).foldl (fun x i => Sparse.set 0 x i (BitVec.ofNat 64 (getF m (4096 + 1024 + 8 * i) 8))) []
  let ds := (List.range 8).map fun k => (BitVec.ofNat 64 (getF m (4096 + 1160 + 8 * k) 8) : Word)
  let tb : Bank :=
    { sHi := sHi, p := BitVec.ofNat 8 (getF m (4096 + 1152) 1) ||| 1,
      fpc := BitVec.ofNat 32 (getF m 0x20 4) &&& fpcMask, ds := ds, loops := loops, tags := tags, inflight := [] }
  let sd := side.getD { refused := l.refused, first := l.first }
  { l with tb := tb, csr := csr, rpl := r, files := { s := ss, q := qs }, vIssued := false,
           refused := sd.refused, first := sd.first, apx := none,
           pc := if l.level = .s then l.pc else BitVec.ofNat 32 (getF m 0x18 4) }

/-- The vector files from VECTOR. -/
def getVector (m : Mem) (o : Nat) (l : Slot) : Slot :=
  let v := (List.range 512).foldl (fun x i => Sparse.set 0 x (64 * (i % 8) + i / 8) (BitVec.ofNat 512 (getF m (o + 64 * i) 64))) []
  let vq := (List.range 64).foldl
    (fun x i => Sparse.set 0 x (8 * (i % 8) + i / 8) (BitVec.ofNat 512 (getF m (o + 32768 + 64 * i) 64))) []
  let vp := (List.range 64).foldl (fun x i =>
    if i / 8 = 0 then x else Sparse.set 0 x (8 * (i % 8) + i / 8) (BitVec.ofNat 16 (getF m (o + 36864 + 2 * i) 2))) []
  let dv := (List.range 8).foldl (fun x c => Sparse.set [] x c
    ((List.range 8).map fun k => (BitVec.ofNat 512 (getF m (o + 36992 + 64 * (8 * k + c)) 64) : Vec))) []
  { l with files := { l.files with v := v, vq := vq, vp := vp, dv := dv }, vIssued := true }

/-- The results in flight from INFLIGHT; how each lands beyond what the frame says comes from the device's side, and without
it the value goes to every lane and joins no flag. -/
def getInflight (m : Mem) (o : Nat) (side : List Landing) : List Landing :=
  (List.range (min 72 (getF m o 4))).map fun i =>
    let o := o + 256 + 80 * i
    let dst := RegRef.ofCode (BitVec.ofNat 16 (getF m o 2))
    let v : Vec := BitVec.ofNat 512 (getF m (o + 8) 64)
    let left := getF m (o + 2) 1
    let unit := getF m (o + 3) 1
    match side[i]? with
    | some x => { x with left := left, entry := x.entry.map fun _ => v, val := if x.entry.isSome then v else x.val }
    | none => ⟨unit, dst, left, v, 0xFFFF, (match dst with | .p _ | .vp _ _ => none | _ => some v), 0, 0, 0⟩

/-- The wide registers, configuration, shadow mp and ports from WIDE, into the task's ranges. -/
def getWide (m : Mem) (o : Nat) (c : Core) (l : Slot) (side : SMap Port) : Core × Slot :=
  let id := l.id
  let c := (List.range id.hdr.nw).foldl (fun c i => setWBits c (id.w0 + i) (getF m (o + 144 * i) 144)) c
  let c := (List.range id.hdr.nacc).foldl (fun c i => setAccBits c (id.acc0 + i) (getF m (o + 1152 + 1152 * i) 1152)) c
  let cfg := (List.range 4).foldl (fun x i => Sparse.set 0x2FDF000C x i (BitVec.ofNat 32 (getF m (o + 5760 + 4 * i) 4))) []
  let mp := (List.range 8).foldl (fun x i => Sparse.set 0 x i (BitVec.ofNat 64 (getF m (o + 5776 + 8 * i) 8))) []
  let ports := (List.range 8).foldl (fun x i =>
    let h : Word := BitVec.ofNat 64 (getF m (o + 6864 + 16 * i) 8)
    let old := Sparse.get {} side i
    let unbound : Port := { h := h &&& ~~~0x30 }
    Sparse.set {} x i (if frameHandle old.h = h then old else if h.getLsbD 0 then { h := h } else unbound)) []
  (c, { l with wmcfg := cfg, mp := mp, ports := ports })

/-- A tile from its section and its state.  Without the device's side, an element of a row with open groups has its S in the low half
and a hidden partial that the manual does not give: a free value (04 R120). -/
def getTile (m : Mem) (wide o : Option Nat) (j : Nat) (side : Option Tile) : Tile :=
  let kc := match wide with | some w => BitVec.ofNat 32 (getF m (w + 6992 + 128 * j) 4) | none => 0
  match o with
  | none => { kcount := kc }
  | some o =>
    let n (i : Nat) : Nat := match wide with | some w => getF m (w + 6992 + 128 * j + 32 + i / 96) 1 | none => 0
    let isOpen (i : Nat) : Bool := match side with
      | some t => (Sparse.find t.p i).isSome
      | none => n i ≠ 0
    let s := (List.range 9216).foldl (fun x i =>
      Sparse.set 0 x i (BitVec.ofNat 64 (getF m (o + 8 * i) (if isOpen i then 4 else 8)))) []
    let p := match side with
      | some t => t.p
      | none => (List.range 9216).foldl (fun x i => if isOpen i then Sparse.put x i { mixed := true, n := n i } else x) []
    { s := s, p := p, kcount := kc, live := true }

/-- A routine of WM u from its sequencer state (17 Table 17-9). -/
def getRoutine (m : Mem) (o : Nat) (own : Owner) (order : Nat) (added : List Nat) : Routine :=
  let fl := getF m (o + 1) 1
  { own := own, rpc := getF m (o + 2) 2, entry := BitVec.ofNat 8 (getF m (o + 4) 1), tag := getF m (o + 5) 1,
    token := RegRef.ofCode (BitVec.ofNat 16 (getF m (o + 6) 2)), wmcfg := BitVec.ofNat 32 (getF m (o + 8) 4),
    fpc := BitVec.ofNat 32 (getF m (o + 12) 4), steps := getF m (o + 16) 4, callPc := BitVec.ofNat 32 (getF m (o + 20) 4),
    kcap := (List.range 6).map fun i => BitVec.ofNat 32 (getF m (o + 32 + 4 * i) 4),
    mloops := (List.range (min 4 (getF m (o + 56) 1))).map fun i =>
      ⟨getF m (o + 64 + 16 * i) 2, getF m (o + 66 + 16 * i) 2, BitVec.ofNat 32 (getF m (o + 68 + 16 * i) 4),
        BitVec.ofNat 32 (getF m (o + 72 + 16 * i) 4)⟩,
    mp := (List.range 8).map fun i => BitVec.ofNat 64 (getF m (o + 128 + 8 * i) 8),
    acq := fl % 2 = 1, rel := fl / 2 % 2 = 1, scope := BitVec.ofNat 3 (fl / 4), done := false, order := order,
    added := added }

/-- The state of WM u's sequencer in a frame: 0 none, 1 running, 2 pending (17 Table 17-9). -/
def frameRoutine (m : Mem) (u : Nat) : Nat :=
  let p := getF m 2 2
  if p.testBit 4 then getF m (sectionAt p 4 + 5840 + 256 * u) 1 else 0

/-- A frame restored into a slot and its core (17 R449, R451, R452; 10 R325).  DESIGN CHOICE: without its WIDE section WMCFG is 0, and a
WMCFG that the section gives is taken as it is, though no WMCFG instruction could leave either (10 R301).  Absent sections are zero, MOVED is set, routines
take their WMs with scale memory and sparsity entries, which join those of a member of its gang that came back to the core in the same
step (10 R325; 18 R472).  For CTX.RESTORE, which has no device's side, a routine's tag is busy
again. -/
def restoreFrame (s : State) (core k : Nat) (m : Mem) (side : Option Side) : State :=
  let c := s.core core
  let l := s.slot core k
  let p := getF m 2 2
  let sd := side.getD {}
  let calls : SMap (List TagRes) := (List.range 4).foldl (fun x u =>
    if frameRoutine m u = 0 then x
    else
      let r := getRoutine m (sectionAt p 4 + 5840 + 256 * u) ⟨core, k, l.id.recAddr, l.id.seq, .t⟩ 0 []
      Sparse.put x r.tag [⟨r.token, .routine u, r.callPc⟩]) []
  let own := match side with
    | some x => x.tags
    | none => calls.foldl (fun x (t, rs) => Sparse.put x t rs) (l.tb.tags.filter fun x => !x.2.any fun r => match r.op with
        | .routine _ => true | _ => false)
  let l := getControl m l side own
  let l := if p.testBit 2 then getVector m (sectionAt p 2) l else l
  let l := if p.testBit 3 then
      { l with tb := { l.tb with inflight := getInflight m (sectionAt p 3) sd.flight } } else l
  let clear := (List.range l.id.hdr.nw).foldl (fun c i => setWBits c (l.id.w0 + i) 0) c
  let clear := (List.range l.id.hdr.nacc).foldl (fun c i => setAccBits c (l.id.acc0 + i) 0) clear
  let (c, l) := if p.testBit 4 then getWide m (sectionAt p 4) clear l sd.ports
    else (clear, { l with wmcfg := (List.range 4).foldl (fun x i => Sparse.set 0x2FDF000C x i 0) [], mp := [], ports := [] })
  let c := (sd.rh.zipIdx).foldl (fun c (x, i) => { c with rh := Sparse.set 0 c.rh (l.id.rh0 + i) x }) c
  let wide := if p.testBit 4 then some (sectionAt p 4) else none
  let c := (List.range l.id.hdr.nta).foldl (fun c j =>
    let o := if p.testBit (5 + j) then some (sectionAt p (5 + j)) else none
    { c with ta := Sparse.set {} c.ta (l.id.ta0 + j) (getTile m wide o j (side.map fun x => Sparse.get {} x.tiles j)) }) c
  let st (u : Nat) := frameRoutine m u
  let c := (List.range 4).foldl (fun c u =>
    if st u = 0 then c
    else
      let own : Owner := ⟨core, k, l.id.recAddr, l.id.seq, .t⟩
      let pend := st u = 2
      let k := 2 * u + if pend then 1 else 0
      let r := getRoutine m (sectionAt p 4 + 5840 + 256 * u) own (Sparse.get 0 sd.order k) (Sparse.get [] sd.added k)
      let w := Sparse.get {} c.wms u
      let scale := if p.testBit 9 then
          (List.range 16384).foldl (fun x i => Memory.setByte x i (Memory.byte m (sectionAt p 9 + 16384 * u + i))) []
        else w.scale
      let w := if pend then { w with pend := some r, scale := scale } else { w with run := some r, scale := scale }
      { c with wms := Sparse.set {} c.wms u w }) c
  let c := if p.testBit 10 then
      let o := sectionAt p 10
      let old (j : Nat) : List (List (BitVec 12)) := if side.isSome then Sparse.get [] c.sq j else []
      { c with sq := (List.range 4).foldl (fun x j => Sparse.set [] x j
          (old j ++ (List.range (min 16 (getF m (o + 2560 * j) 1))).map fun e => sqOfBits (getF m (o + 2560 * j + 256 + 144 * e) 144))) [] }
    else c
  let c := { c with scaleDue := c.scaleDue ++ sd.scaleDue }
  (s.setCore core c).setSlot core k l

end Machine
end Sys2Proof
end

