-- ==== Sys2Proof/Machine/Task.lean ====
section
/-! DEFINITION. Tasks as March and the launch see them: error counts and records, kernel headers, ready records, frames in
cells, and the end of a task (02, 17 R434, R448, 18 R457 to R475, 19 R493, 22 R559). -/

namespace Sys2Proof
namespace Machine

/-! ### Launches, error counts, signals -/

/-- A launch's entry replaced. -/
def State.updLaunch (s : State) (part handle : Nat) (f : Launch → Launch) : State :=
  { s with launches := s.launches.map fun x => if x.part = part && x.handle = handle then f x else x }

/-- The launch's error count rises by n, saturating (02 R31, R39, Table 2-7). -/
def State.launchErr (s : State) (part handle n : Nat) : State :=
  s.updLaunch part handle fun x => { x with errcnt := min 0xFFFFFFFF (x.errcnt + n) }

/-- The context of a launch is its JOB (19 R478). -/
def State.jobOf (s : State) (part handle : Nat) : Nat := match s.launch? part handle with | some x => x.job | none => 0

/-- On whose behalf the words of a slot act. -/
def State.agent (s : State) (core k engine : Nat) : Agent :=
  let l := s.slot core k
  { part := l.id.part, ctx := s.jobOf l.id.part l.id.handle, handle := l.id.handle, core := core,
    scratch := l.id.hdr.scratch, engine := engine }

/-- The agent of the slot that issues. -/
def State.myAgent (s : State) (engine : Nat) : Agent := s.agent s.cur.1 s.cur.2 engine

/-- Pod time set down anew at this cycle, as before a change of CCLK or of the correction. -/
def State.podMark (s : State) : State :=
  { s with fab := { s.fab with podTime := s.podNow, podAt := s.cycle, slew := s.fab.slew - slewed s.fab.slew s.podNs } }

/-- EST now: while the parent link is down it rises by 100 ns per ms (20 R521). -/
def State.estNow (s : State) : Word :=
  match s.fab.downAt with
  | some t => s.fab.timeEst + BitVec.ofNat 64 ((s.podNow.toNat - t) / 1000000 * 100)
  | none => s.fab.timeEst

/-- The entries of a fault queue; none where LOG2N lies outside 4 to 16 (19 R493). -/
def faultSlots (p : Partition) : Option Nat :=
  let n := fld p.fltqBase.toNat 4 0
  if 4 ≤ n && n ≤ 16 then some (2 ^ n) else none

/-- Writes the fault records that fit, in the order in which their faults arose (19 R493). -/
def State.drainFaults (s : State) (part : Nat) : Nat → State
  | 0 => s
  | fuel + 1 =>
    let p := s.part part
    match p.held, faultSlots p with
    | r :: rest, some n =>
      if (p.tail - p.head).toNat = n then s
      else
        let base := fld p.fltqBase.toNat 55 12 * 2 ^ 12
        let s := s.wrInter part (base + 32 * (p.tail.toNat % n)) r.bytes
        let s := s.setPart part { s.part part with held := rest, tail := p.tail + 1 }
        let s := if p.ptCtl.getLsbD 0 then s.signal part else s
        s.drainFaults part fuel
    | _, _ => s

/-- ACCESS of a fault record (19 Table 19-4). -/
def accessCode (k : Acc) (f : WalkFault) : Nat :=
  (if k.fetch then 8 else if k.atom then 4 else if k.wr then 2 else 1) + (if f.stage2 then 16 else 0) + (if f.malformed then 32 else 0)

/-- A fault record (19 Table 19-4), held back while the queue is full or absent. -/
def State.faultRecord (s : State) (part : Nat) (addr req : Word) (ctx cause access engine die core : Nat) : State :=
  let bs := bytesOfNat 8 addr.toNat ++ bytesOfNat 8 req.toNat ++ bytesOfNat 2 ctx ++ bytesOfNat 1 cause ++
    bytesOfNat 1 access ++ bytesOfNat 1 engine ++ bytesOfNat 1 die ++ bytesOfNat 2 core ++ bytesOfNat 8 0
  let p := s.part part
  let s := s.setPart part { p with held := p.held ++ [⟨bs⟩] }
  s.drainFaults part (p.held.length + 1)

/-! ### Kernel headers (02 Table 2-8) -/

/-- The fields of a header's 128 bytes. -/
def headerOf (bs : List Byte) : Header :=
  let f (o n : Nat) := natOfBytes ((bs.drop o).take n)
  { entry := BitVec.ofNat 32 (f 8 4), codeLen := f 0xC 4, ns := f 0x10 1, nq := f 0x11 1, nv := f 0x12 1, nvq := f 0x13 1,
    nw := f 0x14 1, nacc := f 0x15 1, nta := f 0x16 1, nrh := f 0x17 1, nbar := f 0x18 1, stages := f 0x19 1,
    scratch := f 0x1C 4, routines := f 0x20 8, routLen := f 0x28 4, napx := f 0x2C 1, apxTab := f 0x30 8, data := f 0x38 8,
    dataLen := f 0x40 4 }

/-- Whether a header keeps the ranges of Table 2-8 and its reserved bytes are zero (02 R42, R44). -/
def headerOk (bs : List Byte) : Bool :=
  let f (o n : Nat) := natOfBytes ((bs.drop o).take n)
  let h := headerOf bs
  f 0 4 = 0x314E4B41 && f 4 2 = 1 && f 6 2 = 0 && h.entry.toNat < h.codeLen && 1 ≤ h.ns && h.ns ≤ 128 && h.nq ≤ 16 &&
  h.nv ≤ 64 && h.nvq ≤ 8 && h.nw ≤ 8 && h.nacc ≤ 4 && h.nta ≤ 4 && h.nrh ≤ 32 && h.nbar ≤ 16 && 1 ≤ h.stages &&
  h.stages ≤ 16 && f 0x1A 2 = 0 && h.scratch % 128 = 0 && h.scratch ≤ 8388608 && h.routLen ≤ 4096 && h.napx ≤ 16 &&
  f 0x2D 3 = 0 && (h.napx ≠ 0 || h.apxTab = 0) && f 0x44 60 = 0

/-- Bytes of the global window as March and intake read them: through the tables, with no fault, no TLB and no ACCESSED bit;
none where a translation fails, the host owns the page (19 R491) or a line is poisoned.  DESIGN CHOICE: none on a page of a peer chip
either; the manual gives March no path there. -/
def State.marchSegs (s : State) (part ctx : Nat) : Nat → Nat → Nat → Option (List Seg)
  | 0, _, _ => some []
  | fuel + 1, a, n =>
    if n = 0 then some []
    else match winOf a with
      | some (.global, v) =>
        match walk s part ctx v with
        | .error _ => none
        | .ok e =>
          let here := min n (2 ^ 16 - v % 2 ^ 16)
          if e.hostOwn || e.aperture = 1 then none
          else (s.marchSegs part ctx fuel (a + here) (n - here)).map fun r => ⟨(entryLoc s part e v).1, here⟩ :: r
      | _ => none

/-- What an access by March or intake brings about beside its bytes: the record of an access that another partition's unit or extent
denies, and the host copies that come back (21 R538, R539; 22 R548). -/
def State.marchSee (s : State) (part ctx : Nat) (wr : Bool) : Nat → Nat → Nat → State
  | 0, _, _ => s
  | fuel + 1, a, n =>
    if n = 0 then s
    else match winOf a with
      | some (.global, v) =>
        match walk s part ctx v with
        | .error _ => s.walkDenied part (walkTrail s part ctx v)
        | .ok e =>
          let here := min n (2 ^ 16 - v % 2 ^ 16)
          if e.hostOwn || e.aperture = 1 then s
          else
            let (l, s) := entryLoc s part e v
            (s.hostCopies l here wr).marchSee part ctx wr fuel (a + here) (n - here)
      | _ => s

/-- March is to read bytes: what that brings about. -/
def State.marchLook (s : State) (part ctx a n : Nat) : State := s.marchSee part ctx false (n / 2 ^ 16 + 2) a n

def State.marchRead (s : State) (part ctx a n : Nat) : Option (List Byte) :=
  match s.marchSegs part ctx (n / 2 ^ 16 + 2) a n with
  | some g => if (poisonAt s a g).isSome then none else some (readSegs s g)
  | none => none

/-- March's write; bytes whose translation fails are dropped. -/
def State.marchWrite (s : State) (part ctx a : Nat) (bs : List Byte) : State :=
  let s := s.marchSee part ctx true (bs.length / 2 ^ 16 + 2) a bs.length
  match s.marchSegs part ctx (bs.length / 2 ^ 16 + 2) a bs.length with
  | some g => writeSegs s g bs
  | none => s

/-! ### Records that March holds -/

/-- A record as a rule picks it, with its die. -/
def State.findRec (s : State) (p : TRec → Bool) : Option (Nat × TRec) :=
  s.dies.findSome? fun (d, x) => (x.recs.find? p).map fun r => (d, r)

/-- The record with a number. -/
def State.recBySeq (s : State) (q : Nat) : Option (Nat × TRec) := s.findRec fun r => r.seq = q

/-- The record at an address of a partition and context: held under that address, or under another that leads to the same
place. -/
def State.recAt (s : State) (part ctx : Nat) (a : Word) : Option (Nat × TRec) :=
  match s.findRec fun r => r.addr = a && r.part = part && s.jobOf r.part r.handle = ctx with
  | some x => some x
  | none =>
    match s.marchSegs part ctx 2 a.toNat 1 with
    | some g => s.findRec fun r =>
        r.part = part && decide (s.marchSegs part (s.jobOf r.part r.handle) 2 r.addr.toNat 1 = some g)
    | none => none

def State.updRec (s : State) (d q : Nat) (f : TRec → TRec) : State :=
  let x := s.die d
  s.setDie d { x with recs := x.recs.map fun r => if r.seq = q then f r else r }

/-- HDR of a record (02 Table 2-3). -/
def recHdr (handle prio st : Nat) (cont : Bool) : Nat :=
  2 ^ 32 + handle % 2 ^ 16 * 2 ^ 16 + (if cont then 2 ^ 11 else 0) + prio % 128 * 16 + st

/-- Codes of the states (02 Table 2-1). -/
def TState.code : TState → Nat
  | .empty => 0 | .pending => 1 | .ready => 2 | .running => 3 | .waiting => 4 | .parked => 5 | .done => 6 | .error => 7

/-- While March holds a record its HDR and DEPCNT in memory are unspecified: free values (02 R32). -/
def State.blurRec (s : State) (r : TRec) : State :=
  let (x, s) := s.free
  let (y, s) := s.free
  s.marchWrite r.part (s.jobOf r.part r.handle) r.addr.toNat (bytesOfNat 8 x.toNat ++ bytesOfNat 4 y.toNat)

/-- A record leaves March: HDR exact, DEPCNT zero since it was readied (02 R32). -/
def State.exactRec (s : State) (r : TRec) (st : TState) : State :=
  s.marchWrite r.part (s.jobOf r.part r.handle) r.addr.toNat
    (bytesOfNat 8 (recHdr r.handle r.prio st.code r.cont) ++ bytesOfNat 4 0)

/-- The die, block and pair nearest an HBM address (01 R17): die, block in die, pair. -/
def nearest (p : Nat) : Nat × Nat × Nat :=
  let stack := fld p 39 36
  let ch := fld p 35 31
  (stack / 2, (stack % 2) * 8 + ch / 4, ch % 4)

/-- The preferred pair of an affinity: the translation never faults (18 R462). -/
def State.pairOf (s : State) (part ctx : Nat) (aff : Word) : Option (Nat × Nat × Nat) :=
  match winOf aff.toNat with
  | some (.global, v) =>
    match peek s part ctx v with
    | some e => if e.hostOwn then none
        else if e.aperture = 0 || e.aperture = 3 then some (nearest (e.target + (v - e.base))) else none
    | none => none
  | _ => none

/-- The dies of the chip that are not fenced, with the fewest records; ties toward the lower number (18 R457). -/
def State.lightDie (s : State) : Nat :=
  ((List.range 8).filter fun d => !(s.die d).fenced).foldl (fun (best : Option Nat) d =>
    match best with
    | none => some d
    | some b => if (s.die d).recs.length < (s.die b).recs.length then some d else some b) none |>.getD 0

/-- The die that holds a record (18 R457, R458). -/
def State.dieFor (s : State) (part handle : Nat) (aff : Word) : Nat :=
  match s.launch? part handle with
  | some x => if x.noaff then s.lightDie
      else (match s.pairOf part x.job aff with
        | some (d, _, _) => if (s.die d).fenced then s.lightDie else d
        | none => s.lightDie)
  | none => s.lightDie

/-- Whether a task of a launch is a member of a co-resident gang (02 R52). -/
def State.coresident (s : State) (part handle : Nat) (member : Bool) : Bool :=
  member && match s.launch? part handle with | some x => x.hdr.nbar ≠ 0 | none => false

/-- The linear gang index and the member of packed coordinates (02 Table 2-4, R41). -/
def State.gangOf (s : State) (part handle : Nat) (coord : BitVec 32) : Nat × Nat :=
  let c := coord.toNat
  let gangs := match s.launch? part handle with | some x => x.gangs | none => 1
  (fld c 31 28 * gangs + fld c 16 5, fld c 4 0)

/-- W of a READY record and its effective priority (02 R57). -/
def State.effPrio (s : State) (r : TRec) : Nat := min 127 (r.prio + (s.cycle - r.since) / 2 ^ 20)

/-- The cycle in which a READY record arrived at its level (18 R460). -/
def State.arrivedAt (s : State) (r : TRec) : Nat := r.since + (s.effPrio r - r.prio) * 2 ^ 20

/-- A record stands in the ready-queue SRAM of 65,536 entries; a full one writes back the entry of lowest effective priority,
latest arrival, chained through its LINK, whose value the manual does not give (18 R459). -/
def State.enterSram (s : State) (d q : Nat) : State :=
  let x := s.die d
  let inn := x.recs.filter fun r => r.st = .ready && r.inSram && r.seq ≠ q
  let s := s.updRec d q fun r => { r with inSram := true }
  if inn.length < 65536 then s
  else
    let all := (s.die d).recs.filter fun r => r.st = .ready && r.inSram
    let worst := all.foldl (fun (b : Option TRec) r =>
      match b with
      | none => some r
      | some w => if s.effPrio r < s.effPrio w || (s.effPrio r = s.effPrio w && s.arrivedAt w ≤ s.arrivedAt r) then some r else some w) none
    match worst with
    | some w =>
      let (x, s) := (s.updRec d w.seq fun r => { r with inSram := false }).free
      s.marchWrite w.part (s.jobOf w.part w.handle) (w.addr.toNat + 0x30) (bytesOfNat 8 x.toNat)
    | none => s

/-- The header that a record's KERNEL names, where it is not its launch's: none where no good header can be read there. -/
def State.ownHeader (s : State) (part handle : Nat) (kernel : Word) : Option (Option Header) :=
  match s.launch? part handle with
  | none => none
  | some x =>
    if x.kernel = kernel then none
    else match s.marchRead part x.job kernel.toNat 128 with
      | some bs => some (if headerOk bs then some (headerOf bs) else none)
      | none => some none

/-- March takes hold of a record as it is readied: until then software may change what memory holds of it, its LAUNCH, KERNEL, CONT
and PRIO among them (02 R28, R32).  A LAUNCH that names no launch in progress of the partition leaves the record with its own. -/
def State.takeCopy (s : State) (r : TRec) : TRec :=
  if r.st = .pending then
    let bs := (s.marchRead r.part (s.jobOf r.part r.handle) r.addr.toNat 256).getD (List.replicate 256 0)
    let f (o n : Nat) := natOfBytes ((bs.drop o).take n)
    let n := fld (f 0 8) 31 16
    let h := if s.launches.any fun x => x.part = r.part && x.handle = n && !x.completed then n else r.handle
    let kernel : Word := BitVec.ofNat 64 (f 0x18 8)
    { r with copy := bs, prio := fld (f 0 8) 10 4, cont := (f 0 8).testBit 11, affinity := BitVec.ofNat 64 (f 0x10 8),
             coord := BitVec.ofNat 32 (f 0x24 4), kernel := kernel, handle := h, hdr := s.ownHeader r.part h kernel }
  else r

/-- A record becomes READY: a continuation that is no member of a co-resident gang first migrates to its affinity's die
(18 R458); it arrives at its level with W = 0 (02 R38, 18 R460). -/
def State.readyRec (s : State) (d q : Nat) : State :=
  match (s.die d).recs.find? fun r => r.seq = q with
  | none => s
  | some r =>
    let s := if r.st = .pending then s.marchLook r.part (s.jobOf r.part r.handle) r.addr.toNat 256 else s
    let t := s.takeCopy r
    let tgt := if t.cont && r.st = .pending && !s.coresident t.part t.handle t.member then s.dieFor t.part t.handle t.affinity else d
    let r' := { t with st := .ready, since := s.cycle, arrival := s.cycle }
    let s := if t.handle = r.handle then s
      else (s.updLaunch r.part r.handle fun x => { x with live := x.live - 1 }).updLaunch r.part t.handle fun x =>
        { x with live := x.live + 1 }
    let x := s.die d
    let s := s.setDie d { x with recs := x.recs.filter fun r => r.seq ≠ q }
    let y := s.die tgt
    let s := s.setDie tgt { y with recs := y.recs ++ [r'] }
    let s := if r.st = .pending then s.blurRec r' else s
    s.enterSram tgt q

/-- A new record for March: PENDING, or READY when its counter is zero (02 R38). -/
def State.addRec (s : State) (d part handle : Nat) (a : Word) (prio : Nat) (coord : BitVec 32) (aff kernel : Word)
    (cont member : Bool) (held : Option (Nat × Nat)) (dep : Nat) : State :=
  let q := s.nextSeq
  let r : TRec :=
    { addr := a, part := part, st := .pending, prio := prio, handle := handle, since := 0, arrival := 0, coord := coord,
      affinity := aff, kernel := kernel, cont := cont, seq := q, place := none, held := held, cell := none, wait := none,
      inSram := false, member := member, dispAt := 0, pre := none, side := {}, copy := [] }
  let x := s.die d
  let s := { s.setDie d { x with recs := x.recs ++ [r] } with nextSeq := q + 1 }
  let s := s.updLaunch part handle fun x => { x with live := x.live + 1 }
  if dep = 0 then s.readyRec d q else s

/-! ### Gangs and barriers (02 R52, R53; 09 R297) -/

/-- A gang of a block, replaced. -/
def Block.updGang (b : Block) (part handle g : Nat) (f : Gang → Gang) : Block :=
  { b with gangs := b.gangs.map fun x => if x.part = part && x.handle = handle && x.index = g then f x else x }

/-- The block on which a gang's barriers stand. -/
def State.gangHome (s : State) (part handle g : Nat) : Option (Nat × Gang) :=
  s.blocks.findSome? fun (b, x) =>
    (x.gangs.find? fun y => y.part = part && y.handle = handle && y.index = g).map fun y => (b, y)

/-- Phases complete while every member that is not DONE has arrived (09 R297). -/
def Barrier.advance (size : Nat) (done : List Nat) : Nat → Barrier → Barrier
  | 0, x => x
  | fuel + 1, x =>
    let live := (List.range size).filter fun m => !done.contains m
    if !live.isEmpty && live.all (fun m => x.phase < Sparse.get 0 x.arrived m)
      then Barrier.advance size done fuel { x with phase := x.phase + 1 } else x

def Gang.advance (g : Gang) : Gang :=
  { g with bars := g.bars.map fun (b, x) => (b, x.advance g.size g.done (x.arrived.foldl (fun n a => max n a.2) 0 + 1)) }

/-- A member that has ended: one that is DONE is expected no more, one in ERROR still is (02 R53; 09 R297).  The gang is gone when
every member has ended. -/
def State.memberGone (s : State) (part handle : Nat) (coord : BitVec 32) (member isDone : Bool) : State :=
  let (g, m) := s.gangOf part handle coord
  match s.gangHome part handle g, member with
  | none, _ | _, false => s
  | some (b, x), true =>
    let x' := if isDone then ({ x with done := insertNat m x.done } : Gang).advance else { x with lost := insertNat m x.lost }
    let bl := s.block b
    let bl := if x'.done.length + x'.lost.length = x'.size then
        { bl with gangs := bl.gangs.filter fun y => !(y.part = part && y.handle = handle && y.index = g) }
      else bl.updGang part handle g fun _ => x'
    s.setBlock b bl

/-! ### Frame cells (18 R466) -/

def frameCell : Nat := 458752

/-- The cells of a die's partition that hold no frame. -/
def freeCell (r : MarchRegs) : Option Nat := (List.range r.framecnt.toNat).find? fun i => !r.cells.contains i

def Die.march (d : Die) (part : Nat) : MarchRegs := Sparse.get {} d.regs part
def Die.setMarch (d : Die) (part : Nat) (r : MarchRegs) : Die := { d with regs := Sparse.set {} d.regs part r }

/-- FRAMEBASE holds bits [63:16] of the base (18 Table 18-1). -/
def cellAddr (r : MarchRegs) (i : Nat) : Nat := r.framebase.toNat * 2 ^ 16 + frameCell * i

/-- EVTCNT of a partition on a die rises (17 R454). -/
def State.raiseEvt (s : State) (d part : Nat) : State :=
  let x := s.die d
  let r := x.march part
  s.setDie d (x.setMarch part { r with evtcnt := r.evtcnt + 1 })

/-- Writes the frame of a slot's task into a cell that is free; none where no cell takes it. -/
def State.writeFrame (s : State) (core k : Nat) : Option (Nat × State) :=
  let d := coreDie core
  let l := s.slot core k
  let r := (s.die d).march l.id.part
  match freeCell r with
  | none => none
  | some i =>
    let (m, n) := buildFrame s core k
    let a := cellAddr r i
    let ctx := s.jobOf l.id.part l.id.handle
    let s := s.marchSee l.id.part ctx true (n / 2 ^ 16 + 2) a n
    match s.marchSegs l.id.part ctx (n / 2 ^ 16 + 2) a n with
    | none => none
    | some g =>
      let s := writeSegs { s with freeCtr := s.freeCtr + 36864 } g (Memory.read m 0 n)
      let x := s.die d
      let r := x.march l.id.part
      some (i, s.setDie d (x.setMarch l.id.part { r with cells := insertNat i r.cells }))

def State.freeCellOf (s : State) (d part i : Nat) : State :=
  let x := s.die d
  let r := x.march part
  s.setDie d (x.setMarch part { r with cells := r.cells.filter (· ≠ i) })

/-! ### Slots -/

/-- The die and record of a slot's task. -/
def State.slotRec (s : State) (core k : Nat) : Option (Nat × TRec) := s.recBySeq (s.slot core k).id.seq

/-- The slot's results that land before a frame is written: loads, atomics and CSR reads (17 R451). -/
def TagRes.lands (r : TagRes) : Bool := match r.op with | .value _ _ => true | _ => false

/-- One value of a tag lands; a poisoned one leaves its destination and raises DATA_POISON (17 R440). -/
def Slot.landValue (l : Slot) (v : Level) (t : Nat) (r : TagRes) : Slot × Option Trap :=
  match r.op with
  | .value x none => ((writeRef l v 0xFFFF x r.dst).retire v t (· == r), none)
  | .value _ (some a) => (l.retire v t (· == r), some ⟨.dataPoison, a, r.wpc⟩)
  | _ => (l, none)

/-- Every value of the task's tags lands. -/
def Slot.landAll (l : Slot) : Slot × List Trap :=
  l.tb.tags.foldl (fun (l, ts) (t, rs) =>
    (rs.filter TagRes.lands).foldl (fun (l, ts) r =>
      let (l, x) := l.landValue .t t r
      (l, ts ++ x.toList)) (l, ts)) (l, [])

/-- A routine of a task leaves its WM, and its sparsity entries the core's queues (10 R325). -/
def Core.dropRoutines (c : Core) (id : TaskId) : Core :=
  if (routinesOf c id).isEmpty then c
  else
    let mine (r : Routine) := r.own.recAddr = id.recAddr && r.own.seq = id.seq && !r.done
    { c with sq := [], wms := c.wms.map fun (u, w) =>
        (u, { w with run := w.run.filter (fun r => !mine r), pend := w.pend.filter (fun r => !mine r) }) }

/-- A task ends: of the scale entries whose token it has not consumed no routine sees any more (09 R283). -/
def State.dropScales (s : State) (q : Nat) : State :=
  if s.cores.any (fun x => x.2.scaleDue.any fun d => d.seq = q) then
    { s with cores := s.cores.map fun (i, c) => (i, { c with scaleDue := c.scaleDue.filter fun d => d.seq ≠ q }) }
  else s

/-- The slot is emptied. -/
def State.clearSlot (s : State) (core k : Nat) : State := s.setSlot core k {}

/-- A held trap's place (17 Table 17-8). -/
def Csrs.hold (c : Csrs) (t : Trap) : Csrs :=
  match t.cause with
  | .fpTrap => { c with heldFp := c.heldFp.orElse fun _ => some t }
  | .dataPoison => { c with heldPoison := c.heldPoison.orElse fun _ => some t }
  | .remoteError => { c with heldRemote := c.heldRemote.orElse fun _ => some t }
  | _ => { c with heldRoutine := c.heldRoutine.orElse fun _ => some t }

/-- Whether a copy command of a slot's task waits in the core's intake: March moves no such task out (09 R279). -/
def State.inIntake (s : State) (core k : Nat) : Bool :=
  let id := (s.slot core k).id
  (s.core core).copies.any fun x => x.2.engine.isNone && x.2.own.seq = id.seq && x.2.own.recAddr = id.recAddr

/-- Whether a frame of a slot's task can be written now: no load or atomic of its own bank waits for a peer chip, and no copy command
waits in the intake (17 R451). -/
def State.settled (s : State) (core k : Nat) : Bool :=
  !s.inIntake core k && !(s.slot core k).tb.tags.any fun x => x.2.any fun r => r.op.isPeer && r.dst ≠ .none

/-- The task of a slot goes to memory in a frame cell and to a state: READY, WAITING or PARKED; its loads land first
(17 R451).  Without a cell nothing changes. -/
def State.moveOut (s : State) (core k : Nat) (st : TState) : Option State :=
  if !s.settled core k then none
  else
  let (l, ts) := (s.slot core k).landAll
  let l := { l with csr := ts.foldl Csrs.hold l.csr }
  let s := s.setSlot core k l
  match s.slotRec core k, s.writeFrame core k with
  | some (d, r), some (i, s) =>
    let c := s.core core
    let side := sideOf c l
    let s := s.setCore core { c.dropRoutines l.id with scaleDue := c.scaleDue.filter fun d => !side.scaleDue.contains d }
    let s := (s.clearSlot core k).updRec d r.seq fun r =>
      { r with cell := some i, place := none, side := side, wait := l.wait, pre := none,
               st := if st = .ready then r.st else st }
    some (if st = .ready then s.readyRec d r.seq else s)
  | _, _ => none

/-- The routines of a task that ends run on (17 R455): a stand-in slot beyond the four keeps what they name. -/
def State.leaveRoutines (s : State) (core k : Nat) : State :=
  let l := s.slot core k
  let c := s.core core
  if (routinesOf c l.id).isEmpty then s
  else
    let n := 4 + l.id.seq
    let mine (r : Routine) : Bool := r.own.recAddr = l.id.recAddr && r.own.seq = l.id.seq
    let move (r : Routine) : Routine := if mine r then { r with own := { r.own with slot := n } } else r
    let s := s.setCore core { c with wms := c.wms.map fun (u, w) => (u, { w with run := w.run.map move, pend := w.pend.map move }) }
    s.setSlot core n { l with st := .done, level := .t, grp := none, wait := none, walk := none, pre := none }

/-- A task ends in DONE or ERROR: its record is exact in memory again, its slot and ranges are free, and its gang knows
(02 R43, R53; 17 R455).  Its stream ports stand as it leaves them until the next dispatch (16 R425). -/
def State.endTask (s : State) (core k : Nat) (st : TState) : State :=
  let s := s.leaveRoutines core k
  let l := s.slot core k
  let s := match s.slotRec core k with
    | some (d, r) =>
      let s := s.exactRec r st
      let s := match r.cell with | some i => s.freeCellOf d r.part i | none => s
      let x := s.die d
      s.setDie d { x with recs := x.recs.filter fun y => y.seq ≠ r.seq }
    | none => s
  let s := s.updLaunch l.id.part l.id.handle fun x => { x with live := x.live - 1 }
  let s := (s.clearSlot core k).dropScales l.id.seq
  let s := if l.ports.isEmpty then s else s.setSlot core k { ports := l.ports }
  s.memberGone l.id.part l.id.handle l.id.coord l.id.member (st = .done)

/-- A task ends in ERROR and the launch's error count rises by one. -/
def State.failTask (s : State) (core k : Nat) : State :=
  let id := (s.slot core k).id
  (s.launchErr id.part id.handle 1).endTask core k .error

end Machine
end Sys2Proof
end

