-- ==== Sys2Proof/Machine/Ops.lean ====
section
/-! DEFINITION. Words and groups: enabling and nullifying (06 R188 to R190), precise traps and walks, the end of a group's
cycle (07 R219, R224; 17 R441 to R446), taking a trap, returning from one, waits and their ends. -/

namespace Sys2Proof
namespace Machine

/-! ### The group in progress -/

/-- The group in progress; a slot with none is at a group of one word. -/
def Slot.group (l : Slot) : Group := l.grp.getD { pc := l.pc, words := [0] }

def Slot.setGroup (l : Slot) (f : Group → Group) : Slot := { l with grp := some (f l.group) }

/-- The PC of the word whose turn it is. -/
def Slot.wpc (l : Slot) : BitVec 32 := l.group.pc + BitVec.ofNat 32 l.group.idx

/-- The PC after the group's last word. -/
def Group.seqPc (g : Group) : BitVec 32 := g.pc + BitVec.ofNat 32 g.words.length

/-- The next word that has not performed. -/
def Group.after (g : Group) : Option Nat :=
  (List.range g.words.length).find? fun i => g.idx < i && !g.perf.getLsbD i

/-- Whether a word outside the V class is enabled (06 R188). -/
def Slot.enabled (l : Slot) (h : Hdr) : Bool :=
  match l.capture with
  | some cp => cp.en
  | none => l.rdP l.level (h.pr.extractLsb' 0 3).toNat != h.pr.getLsbD 3

/-- The lane mask of a V word in a cluster (06 R189). -/
def Slot.laneMask (l : Slot) (h : Hdr) (c : Nat) : BitVec 16 :=
  match l.capture with
  | some cp => Sparse.get 0 cp.masks c
  | none =>
    let m := l.rdVp c (h.pr.extractLsb' 0 3).toNat
    if h.pr.getLsbD 3 then ~~~m else m

/-- What a word does: it performs; it raises a precise trap; or it misses in translation and waits for a walk (17 R439). -/
inductive WRes where
  | ok (s : State)
  | trap (c : Cause) (info : Word) (s : State)
  | walk (a : Nat) (k : Acc) (s : State)

/-- The word has performed. -/
def State.markPerf (s : State) : State :=
  s.setMe (s.me.setGroup fun g => { g with perf := g.perf ||| (1 <<< g.idx) })

/-- The word raised a precise trap; the one at the lowest PC is kept (17 R442). -/
def State.noteTrap (s : State) (c : Cause) (info : Word) : State :=
  let l := s.me
  s.setMe (l.setGroup fun g => { g with trap := g.trap.orElse fun _ => some ⟨c, info, l.wpc⟩ })

/-- The word waits for a walk (17 R439). -/
def State.noteWalk (s : State) (a : Nat) (k : Acc) : State :=
  let l := s.me
  let w : Walk := ⟨BitVec.ofNat 64 a, k.fetch, k.wr, k.atom, l.wpc, s.cycle⟩
  s.setMe { (l.setGroup fun g => { g with walks := true }) with walk := l.walk.orElse fun _ => some w }

/-! ### Pre-emption requests (18 R469 to R471) -/

/-- The level-T cycles of a request so far. -/
def PreReq.now (p : PreReq) (cycle : Nat) : Nat := if p.counting then p.count + (cycle - p.since) else p.count

/-- The request stops counting, as at the entry of a handler. -/
def PreReq.stop (p : PreReq) (cycle : Nat) : PreReq := { p with count := p.now cycle, counting := false }
def PreReq.go (p : PreReq) (cycle : Nat) : PreReq := { p with since := cycle, counting := true }

/-! ### Taking a trap (17 R441) -/

/-- The header of the handler image; none where TRAPVEC is 0, it cannot be read, or the image breaks R44 or R162. -/
def State.handler (s : State) (part ctx : Nat) : Option Header :=
  let v := (s.part part).trapVec
  let can (a : Nat) : Bool := match winOf a with
    | some (.global, o) => (match peek s part ctx o with | some e => !e.hostOwn | none => false)
    | _ => false
  if v = 0 || !can v.toNat || !can (v.toNat + 127) then none
  else match s.marchRead part ctx v.toNat 128 with
    | some bs => if headerOk bs then some (headerOf bs) else none
    | none => none

/-- The record of the slot's task changes state. -/
def State.slotState (s : State) (core k : Nat) (st : TState) : State :=
  let l := s.slot core k
  let s := s.setSlot core k { l with st := st }
  match s.slotRec core k with
  | some (d, r) => s.updRec d r.seq fun r => { r with st := st }
  | none => s

/-- A PARKED task's frame: it is written and the slot freed; without a cell the context stays in the slot; a member of a
co-resident gang keeps its slot and its frame is a copy (18 R468). -/
def State.writeParked (s : State) (core k : Nat) : State :=
  let l := s.slot core k
  if s.coresident l.id.part l.id.handle l.id.member then
    let (l, ts) := l.landAll
    let s := s.setSlot core k { l with csr := ts.foldl Csrs.hold l.csr }
    match s.slotRec core k, s.writeFrame core k with
    | some (d, r), some (i, s) => s.updRec d r.seq fun r => { r with cell := some i }
    | _, _ => s
  else (s.moveOut core k .parked).getD s

/-- PAGE_NOT_PRESENT and OWNERSHIP (17 R441, 18 R468): the task is PARKED; its frame waits until its loads have landed and its copy
commands have left the intake (17 R451). -/
def State.parkTask (s : State) (core k : Nat) : State :=
  let s := s.slotState core k .parked
  if s.settled core k then s.writeParked core k else s.setSlot core k { s.slot core k with parks := true }

/-- A trap raised at level S (17 R434). -/
def State.doubleTrap (s : State) (t : Trap) : State :=
  let id := s.me.id
  let s := s.errRecord (some id.part) 1 1 6 s.cur.1 ((t.wpc.setWidth 64 <<< 32) ||| t.cause.code.setWidth 64)
  s.failTask s.cur.1 s.cur.2

/-- TakeTrap (17 R441): the trap registers, then the park, the ERROR of a task with no usable handler, or the handler at level S
with a fresh S bank (17 R432).  `tpc` is TRAPPC; the caller has set the replay buffer. -/
def State.takeTrap (s : State) (t : Trap) (kind : TKind) (tpc : BitVec 32) : State :=
  let l := s.me
  if l.level = .s then s.doubleTrap t
  else
    let handler := s.handler l.id.part (s.jobOf l.id.part l.id.handle)
    let csr := { l.csr with trapDefer := kind = .f, trapCause := t.cause.code, trapInfo := t.info, trapWpc := t.wpc, trapPc := tpc }
    let l := { l with csr := csr, grp := none, walk := none, rptResume := false, pc := tpc }
    let s := s.setMe l
    if t.cause = .pageNotPresent || t.cause = .ownership then s.parkTask s.cur.1 s.cur.2
    else match handler with
      | none => s.failTask s.cur.1 s.cur.2
      | some h =>
        s.setMe { l with level := .s, sb := {}, hBase := (s.part l.id.part).trapVec + 128, hLen := h.codeLen, pc := h.entry,
                         pre := l.pre.map fun (p : PreReq) => p.stop s.cycle }

/-- The trap of the lowest code, the earliest among equals, and the others (17 R443). -/
def pickTrap : List Trap → Option (Trap × List Trap)
  | [] => none
  | t :: r =>
    match pickTrap r with
    | none => some (t, [])
    | some (u, r') => if u.cause.code.toNat < t.cause.code.toNat then some (u, t :: r') else some (t, r)

/-- The others are held (17 R443). -/
def State.holdTraps (s : State) (ts : List Trap) : State :=
  let l := s.me
  if ts.isEmpty then s else s.setMe { l with csr := ts.foldl Csrs.hold l.csr }

/-! ### Returning (17 R446) -/

/-- Whether a group holds a word that brings the bubble of R219. -/
def groupBubble (ws : List IWord) : Bool :=
  ws.any fun w => match decodeWord w with
    | .ok (.br _ _) | .ok (.jmp _ _) | .ok (.call _ _) | .ok (.ret _ _) | .ok (.brkl _) => true
    | _ => false

/-- The slot at level T after a handler or a restore: the buffered group is issued again; or an RPT group goes on; or issue
continues at the PC. -/
def Slot.resumeAt (l : Slot) (pc : BitVec 32) : Slot :=
  let r := l.rpl
  if r.valid then
    let g : Group :=
      { pc := r.leadPc, words := r.words, perf := r.perf, reissue := true, caps := r.caps,
        target := if r.taken then some l.csr.rplNext else none, point := r.point, bubble := groupBubble r.words }
    match r.left with
    | (i, _) :: _ => { l with grp := some { g with idx := i }, pc := r.leadPc }
    | [] => { l with grp := none, pc := l.csr.rplNext, rpl := { r with valid := false } }
  else { l with grp := none, pc := pc, rptResume := l.csr.rptrem ≠ 0 }

/-- The held trap of the lowest code, and the CSRs without it. -/
def Csrs.unhold (c : Csrs) : Option (Trap × Csrs) :=
  let all := c.heldFp.toList ++ c.heldRoutine.toList ++ c.heldPoison.toList ++ c.heldRemote.toList
  match pickTrap all with
  | none => none
  | some (t, _) =>
    some (t, if c.heldFp = some t then { c with heldFp := none } else if c.heldRoutine = some t then { c with heldRoutine := none }
      else if c.heldPoison = some t then { c with heldPoison := none } else { c with heldRemote := none })

/-- Whether a die's partition has a frame cell free. -/
def State.hasCell (s : State) (core part : Nat) : Bool := (freeCell ((s.die (coreDie core)).march part)).isSome

/-! ### SUSP.SUSPEND (09 R295) -/

/-- The register that a name of a record stands for, with its width in value slots; none where it is malformed (02 Table 2-5). -/
def nameReg (x : Nat) : Option (RegRef × Nat) :=
  match fld x 15 14 with
  | 0 => if fld x 13 7 = 0 then some (.s (fld x 6 0), 1) else none
  | 1 => if fld x 13 4 = 0 then some (.q (fld x 3 0), 1) else none
  | 2 => if fld x 13 11 = 0 && fld x 7 6 = 0 then some (.v (1 <<< (fld x 10 8)) (fld x 5 0), 8) else none
  | _ => if fld x 13 11 = 0 && fld x 7 3 = 0 then some (.vq (1 <<< (fld x 10 8)) (fld x 2 0), 8) else none

/-- LIVE and the name of a value slot in a record. -/
def recLive (bs : List Byte) (i : Nat) : Bool := (natOfBytes ((bs.drop 0xC).take 2)).testBit i
def recName (bs : List Byte) (i : Nat) : Nat := natOfBytes ((bs.drop (0x40 + 2 * i)).take 2)

/-- Whether a value slot belongs to a vector entry that begins before it (02 R30). -/
def recCovered (bs : List Byte) (i : Nat) : Bool :=
  i % 8 ≠ 0 && recLive bs (i / 8 * 8) && recName bs (i / 8 * 8) / 2 ^ 15 = 1

/-- The named registers of a record's LIVE and NAMES: value slot and register. -/
def liveRegs (bs : List Byte) : List (Nat × RegRef) :=
  (List.range 16).filterMap fun i =>
    if recLive bs i && !recCovered bs i then (nameReg (recName bs i)).map fun r => (i, r.1) else none

/-- Puts a field into a record's bytes. -/
def putField (bs : List Byte) (o n x : Nat) : List Byte :=
  (bytesOfNat n x).zipIdx.foldl (fun l (b, i) => setAt l (o + i) b) bs

/-- The reserved bytes of a record as it is created (02 R27, Table 2-2). -/
def zeroReserved (bs : List Byte) : List Byte := putField (putField (putField bs 0xE 2 0) 0x3C 4 0) 0x60 32 0

/-- The bytes of a continuation (09 R295). -/
def contBytes (s : State) (core k : Nat) (pc : BitVec 32) (bs : List Byte) : List Byte :=
  let l := s.slot core k
  let dep := natOfBytes ((bs.drop 8).take 4)
  let bs := (liveRegs bs).foldl (fun b (i, r) =>
    match r with
    | .v _ _ | .vq _ _ => putField b (0x80 + 8 * i) 64 (readRef l .t r).toNat
    | _ => putField b (0x80 + 8 * i) 8 (readRef l .t r).toNat) bs
  let bs := putField (putField bs 0x20 4 pc.toNat) 0x24 4 l.id.coord.toNat
  let bs := putField (putField bs 0x10 8 l.id.affinity.toNat) 0x18 8 l.id.kernel.toNat
  let bs := zeroReserved (putField bs 0x38 4 l.tb.fpc.toNat)
  putField bs 0 8 (recHdr l.id.handle l.id.prio (if dep = 0 then 2 else 1) true)

/-- The Solstice step of SUSP.SUSPEND, and the task's end: DONE; a co-resident member's slot is held for its continuation. -/
def State.suspendTask (s : State) (core k : Nat) (a : Word) (pc : BitVec 32) : State :=
  let l := s.slot core k
  let id := l.id
  let ctx := s.jobOf id.part id.handle
  let co := s.coresident id.part id.handle id.member
  let s := s.marchLook id.part ctx a.toNat 256
  let bs := (s.marchRead id.part ctx a.toNat 256).getD (List.replicate 256 0)
  if (s.recAt id.part ctx a).isSome || fld (natOfBytes (bs.take 8)) 3 0 ≠ 0 then (s.launchErr id.part id.handle 1).endTask core k .done
  else
    let s := s.marchWrite id.part ctx a.toNat (contBytes s core k pc bs)
    let dep := natOfBytes ((bs.drop 8).take 4)
    let s := match s.slotRec core k with
      | some (d, r) =>
        let s := s.exactRec r .done
        let x := s.die d
        s.setDie d { x with recs := x.recs.filter fun y => y.seq ≠ r.seq }
      | none => s
    let s := s.clearSlot core k
    let s := s.addRec (coreDie core) id.part id.handle a id.prio id.coord id.affinity id.kernel true id.member
      (if co then some (core, k) else none) dep
    s.updLaunch id.part id.handle fun x => { x with live := x.live - 1 }

/-! ### Control registers (17 R435 to R437; 19 R493) -/

/-- HEAD of a fault queue: records that were held back are written (19 R493). -/
def State.setHead (s : State) (part : Nat) (x : BitVec 32) : State :=
  let p := s.part part
  let s := s.setPart part { p with head := x }
  s.drainFaults part (p.held.length + 1)

/-- FLTQBASE (19 Table 19-1, R493). -/
def State.setFltq (s : State) (part : Nat) (x : Word) : State :=
  let p := s.part part
  let s := s.setPart part { p with fltqBase := x &&& 0x00FFFFFFFFFFF01F }
  s.drainFaults part (p.held.length + 1)

/-- The RW fields of a control register take a value (17 Tables 17-1, 17-2).  RPTREM and APXREGION are read-only at level T;
level F writes PARTID and DBGPOL (17 R435, 22 Table 22-2); PARTID.PART stays the number of the partition whose copy it is. -/
def State.csrPut (s : State) (n : Nat) (x : Word) : State :=
  let l := s.me
  let c := l.csr
  let part := l.id.part
  let csr (c : Csrs) : State := s.setMe { l with csr := c }
  match n with
  | 0x000 => s.setMe (l.setBank { l.bank with fpc := x.setWidth 32 &&& fpcMask })
  | 0x001 => csr { c with ctxstat := x.setWidth 6 }
  | 0x002 => csr { c with oorAddr := x }
  | 0x003 => if l.level = .t then s else csr { c with rptrem := x.setWidth 7 }
  | 0x004 => if l.level = .t then s else csr { c with apxregion := if x.getLsbD 6 then (c.apxregion &&& 0x60) ||| (x.setWidth 7 &&& 0x1F) else x.setWidth 7 }
  | 0x040 => csr { c with trapDefer := x.getLsbD 8, trapCause := x.setWidth 8 }
  | 0x041 => csr { c with trapPc := x.setWidth 32 }
  | 0x042 => csr { c with trapInfo := x }
  | 0x044 => s.setPart part { s.part part with trapVec := x }
  | 0x045 => s.setMe (if x.getLsbD 0 then l else { l with rpl := { l.rpl with valid := false } })
  | 0x050 => s.setMe { l with tb := { l.tb with fpc := x.setWidth 32 &&& fpcMask } }
  | 0x101 => s.setPart part { s.part part with ptBase := x &&& 0x00FFFFFFFFFFF000 }
  | 0x102 => s.setPart part { s.part part with ptCtl := x &&& 0x00000000FFFF0001 }
  | 0x103 => s.setFltq part x
  | 0x104 => s.setHead part ((x >>> 32).setWidth 32)
  | 0x100 => if l.level = .f then s.setPart part { s.part part with incarn := (x >>> 32).setWidth 32 } else s
  | 0x110 => if l.level = .f then s.setPart part { s.part part with dbgPol := x &&& 0xFFFFFFFF0000003F } else s
  | _ => s

/-! ### The end of a group's cycle -/

/-- A cycle passes. -/
def State.tick (s : State) : State := { s with cycle := s.cycle + 1 }

/-- Closures at word `last` over the loop stack, innermost first: the stack, where issue continues, whether one applied
(07 R224). -/
def closeLoops (last : BitVec 32) (nxt : BitVec 32) (any : Bool) : List LoopFrame → List LoopFrame × BitVec 32 × Bool
  | [] => ([], nxt, any)
  | f :: r =>
    if f.e = last then
      if f.k.toNat + 1 < f.n.toNat then ({ f with k := f.k + 1 } :: r, f.s0, true)
      else closeLoops last (f.e + 1) true r
    else (f :: r, nxt, any)

/-- A loop index (03 R67): 0 where there is no frame. -/
def Slot.loopIndex (l : Slot) (j : Nat) : BitVec 32 := match l.bank.loops[j]? with | some f => f.k | none => 0

/-- What the replay buffer keeps of each word that has not performed (17 R445): as captured, or as it reads at this issue. -/
def Slot.captures (l : Slot) (g : Group) : SMap Capture :=
  (List.range g.words.length).foldl (fun m i =>
    if g.perf.getLsbD i then m
    else match Sparse.find g.caps i with
      | some cp => Sparse.put m i (if g.reissue then cp else { cp with ds := l.bank.ds, dv := l.files.dv })
      | none =>
        let l' := { l with grp := none }
        match decodeWord (g.words.getD i 0) with
        | .ok w =>
          let h := (hdrOf w).getD ⟨false, 0, 0, 0⟩
          let masks := if cls w = .v then
              (List.range 8).foldl (fun x c => Sparse.set 0 x c (l'.laneMask h c)) [] else []
          Sparse.put m i ⟨l'.enabled h, l.bank.fpc, masks, l.bank.ds, l.files.dv⟩
        | .error _ => m) []

/-- A pre-emption point (02 R56; 18 R470): a request that counts lands; the context goes to a frame cell, once its loads have
landed (17 R451); a member of a co-resident gang keeps its slot until the last has landed. -/
def State.landPre (s : State) (core k : Nat) (st : TState) : State :=
  let l := s.slot core k
  match l.pre with
  | some p =>
    if l.level = .t && p.counting && !p.landed then
      if s.coresident l.id.part l.id.handle l.id.member then
        let s := s.setSlot core k { l with pre := some { p with landed := true } }
        if st = .ready then s.slotState core k .ready else s
      else if s.settled core k then (s.moveOut core k st).getD s
      else if !s.hasCell core l.id.part then s
      else
        let s := s.setSlot core k { l with pre := some { p with landed := true } }
        if st = .ready then s.slotState core k .ready else s
    else s
  | none => s

/-- A task that was PARKED, or whose request has landed, while its loads or copy commands were in flight: its frame is written once
they have landed (17 R451). -/
def State.settleSlot (s : State) (core k : Nat) : State :=
  let l := s.slot core k
  if !s.settled core k then s
  else if l.parks then (s.setSlot core k { l with parks := false }).writeParked core k
  else if (l.pre.any fun p => p.landed) && !s.coresident l.id.part l.id.handle l.id.member then
    (s.moveOut core k (if l.st = .waiting then .waiting else .ready)).getD s
  else s

def State.settleSlots (s : State) : State :=
  (s.cores.flatMap fun (c, x) => x.slots.filterMap fun (k, l) =>
    if l.parks || l.pre.any fun p => p.landed then some (c, k) else none).foldl (fun s (c, k) => s.settleSlot c k) s

/-- A READY task stays in its slot, or leaves it where a request lands (09 R296). -/
def State.yieldTask (s : State) (core k : Nat) : State :=
  let s := s.setSlot core k { s.slot core k with st := .ready }
  let s := match s.slotRec core k with | some (d, r) => s.readyRec d r.seq | none => s
  s.landPre core k .ready

/-- How a group leaves its slot, if it does: the task ends, suspends or yields (09 R295, R296; 17 R455).  `pc` is that of the next group. -/
def State.leaveSlot (s : State) (c k : Nat) (pc : BitVec 32) : GroupEnd → State
  | .finish => s.endTask c k .done
  | .halt => s.failTask c k
  | .suspend a rpc => s.suspendTask c k a (rpc.getD pc)
  | .yield => s.yieldTask c k
  | .rft | .next => s

/-- Whether a register is the task's own where a handler has a copy (17 R432). -/
def RegRef.banked : RegRef → Bool
  | .s i => 120 ≤ i
  | .p _ => true
  | _ => false

/-- The number under which a task's bank keeps a handler's tag once the handler has returned: no word names it. -/
def handTag (t : Nat) : Nat := 8 + t

/-- What a handler's words have not yet written of the task's own registers lands after its RFT: fixed-latency results by the count of
R181, others as they return (17 R432, R446).  Its own bank's flags, last results and registers are gone. -/
def Slot.handOver (l : Slot) : Slot :=
  let own (r : RegRef) : Bool := !r.banked && r ≠ .none
  let fl := (l.sb.inflight.filter fun x => own x.dst).map fun x => { x with entry := none, flags := 0, en := 0 }
  let tags := l.sb.tags.foldl (fun (m : SMap (List TagRes)) (t, rs) =>
    let rs := rs.filter fun r => own r.dst
    if rs.isEmpty then m else Sparse.put m (handTag t) ((Sparse.find m (handTag t)).getD [] ++ rs)) l.tb.tags
  { l with tb := { l.tb with inflight := l.tb.inflight ++ fl, tags := tags }, sb := { l.sb with inflight := [], tags := [] } }

/-- RFT (17 R446).  A pre-emption request counts on, where a frame cell is free (18 R470).  A SUSP whose group took a trap has its effect
now (07 R231). -/
def State.rftReturn (s : State) : State :=
  let l := s.me
  let cell := s.hasCell s.cur.1 l.id.part
  let l := { l.handOver with level := .t, pre := l.pre.map fun (p : PreReq) => if cell then p.go s.cycle else p }
  match l.csr.unhold with
  | some (t, csr) => (s.setMe { l with csr := csr }).takeTrap t .f l.csr.trapPc
  | none =>
    let s := s.setMe (l.resumeAt l.csr.trapPc)
    if l.ends ≠ .next then (s.setMe { s.me with ends := .next }).leaveSlot s.cur.1 s.cur.2 l.csr.trapPc l.ends
    else if l.wait.isSome then s.slotState s.cur.1 s.cur.2 .waiting else s

/-- What is left of a group's end when its trap is taken first: a SUSP has its effect after the handler, with its own resume PC. -/
def GroupEnd.after (pc : BitVec 32) : GroupEnd → GroupEnd
  | .suspend a rpc => .suspend a (some (rpc.getD pc))
  | .finish => .finish
  | .yield => .yield
  | _ => .next

/-- What follows a whole group: a user trap, then the deferred traps (17 R443), then how the group leaves the slot.  DESIGN CHOICE: a SUSP
in a group that takes a trap as it ends has its effect when the handler returns; the manual gives both and no order (07 R231; 09
R295, R296). -/
def State.afterGroup (s : State) (g : Group) (due later : List Trap) (point : Bool) : State :=
  let c := s.cur.1
  let k := s.cur.2
  let pc := s.me.pc
  let left := s.setMe { s.me with ends := g.fin.after pc }
  match g.user with
  | some t => (left.holdTraps (due ++ later)).takeTrap t .u pc
  | none =>
    match pickTrap (if due.isEmpty then later else due) with
    | some (t, rest) => (left.holdTraps (rest ++ if due.isEmpty then [] else later)).takeTrap t .f pc
    | none =>
      match g.fin with
      | .finish | .halt | .suspend _ _ | .yield => s.leaveSlot c k pc g.fin
      | .rft => s.rftReturn
      | .next =>
        match s.me.wait with
        | some _ => if s.me.level = .t then (s.slotState c k .waiting).landPre c k .waiting
            else if s.me.wfe.isSome then s.slotState c k .waiting else s
        | none => if s.me.wfe.isSome then s.slotState c k .waiting else if point then s.landPre c k .ready else s

/-- A group every word of which has performed: loop actions and closures, the PC, the bubble.  DESIGN CHOICE: in a group that itself
ends at an active frame's E, a LOOP word pushes its frame, or goes on after its own body, and no closure applies then; the manual
does not say whether that frame's closure applies (07 R222, R224). -/
def State.closeWhole (s : State) (g : Group) (due : List Trap) : State :=
  let l := s.me
  let b := l.bank
  let last := g.seqPc - 1
  let (loops, nxt, point) :=
    if g.brkl then (b.loops.dropLast, g.target.getD g.seqPc, true)
    else match g.push, g.target with
      | some f, t => (b.loops ++ [f], t.getD g.seqPc, false)
      | none, some t => (b.loops, t, false)
      | none, none =>
        let (r, n, p) := closeLoops last g.seqPc false b.loops.reverse
        (r.reverse, n, p)
  let l := l.setBank { b with loops := loops }
  let l := if l.level = .t && g.reissue && l.rpl.valid then { l with rpl := { l.rpl with perf := g.perf, valid := false } } else l
  let point := point || g.point
  let l := { l with pc := nxt, grp := none, walk := none }
  let (l, later) := if g.bubble then l.endCycle else (l, [])
  let s := s.setMe l
  (if g.bubble then s.tick else s).afterGroup g due later point

/-- A group with a word that did not perform: a walk goes on; a precise trap, or a deferred trap that falls due, buffers the
group (17 R441 to R444); an RPT group keeps its repeats instead. -/
def State.closeBroken (s : State) (g : Group) (due : List Trap) : State :=
  let l := s.me
  let b := l.bank
  let loops := if g.brkl then b.loops.dropLast else match g.push with | some f => b.loops ++ [f] | none => b.loops
  let l := l.setBank { b with loops := loops }
  let g := { g with point := g.point || g.brkl, brkl := false, push := none }
  match g.trap, due with
  | none, [] => s.setMe { l with grp := some g }
  | _, _ =>
    let rpt := g.rptCount ≠ 0
    let rpl : Replay :=
      { valid := !rpt, leadPc := g.pc, perf := g.perf, count := BitVec.ofNat 4 g.words.length, words := g.words, caps := g.caps,
        taken := g.target.isSome, point := g.point }
    let csr := { l.csr with rplNext := g.target.getD g.seqPc,
                            rptrem := if rpt then BitVec.ofNat 7 (g.rptCount - g.rptM) else l.csr.rptrem }
    let s := if l.level = .t then s.setMe { l with rpl := rpl, csr := csr } else s.setMe l
    match pickTrap due, g.trap with
    | some (t, rest), _ => (s.holdTraps rest).takeTrap t .f g.pc
    | none, some t => s.takeTrap t .p g.pc
    | none, none => s

/-- The end of a group's issue cycle (06 R178; 17 Traps).  In a group with a word that did not perform, TRAP and a word that ends
or yields the task have not performed either: they are issued again with it. -/
def closeGroup (s : State) : State :=
  let l := s.me
  let g := l.group
  let broken := g.trap.isSome || g.walks
  let g := if broken && g.user.isSome then { g with user := none, perf := g.perf &&& ~~~(g.userBit) } else g
  let g := if broken then { g with fin := .next, perf := g.perf &&& ~~~(g.finBit) } else g
  let g := if broken then { g with caps := l.captures g } else g
  let s := g.csrs.foldl (fun s (n, x) => s.csrPut n (if n = 1 then x ||| g.ctxSet.setWidth 64 else x)) (s.setMe { l with grp := some g })
  let (l, due) := s.me.endCycle
  let due := g.defer ++ due
  let g := { g with defer := [], csrs := [], ctxSet := 0, ctx0 := none }
  let s := (s.setMe { l with grp := some g }).tick
  if broken then s.closeBroken g due
  else if g.rptCount ≠ 0 && g.rptM + 1 < g.rptCount then
    match pickTrap due with
    | none => s.setMe { s.me with grp := some { g with rptM := g.rptM + 1, idx := 1, perf := g.perf &&& 0xFD, reissue := false } }
    | some (t, rest) =>
      let l := s.me
      let s := if l.level = .t then
          s.setMe { l with csr := { l.csr with rptrem := BitVec.ofNat 7 (g.rptCount - (g.rptM + 1)) } } else s
      (s.holdTraps rest).takeTrap t .f g.pc
  else s.closeWhole g due

/-- After a word: the group's next word, or the end of the group's cycle. -/
def finishWord (s : State) : State :=
  let l := s.me
  match l.group.after with
  | some i => s.setMe (l.setGroup fun g => { g with idx := i })
  | none => closeGroup s

/-! ### Running a word -/

/-- Runs a word: its effect when it is enabled, else `nul`; then what follows. -/
def runWord (h : Hdr) (s : State) (eff : State → WRes) (nul : State → State) : Host.Outcome State Fault Refusal :=
  .next <| finishWord <|
    if s.me.enabled h then
      match eff s with
      | .ok s => s.markPerf
      | .trap c i s => s.noteTrap c i
      | .walk a k s => s.noteWalk a k
    else (nul s).markPerf

/-- A word whose nullified form does nothing more. -/
def runPlain (h : Hdr) (s : State) (eff : State → WRes) : Host.Outcome State Fault Refusal := runWord h s eff id

/-- The last-result entry and the write of a scalar fixed-latency result (06 R178, 03 R64). -/
def Slot.scalarResult (l : Slot) (lat : Nat) (dst : RegRef) (val : Word) (flags : Fl) : Slot :=
  let e := match dst with | .s _ | .q _ => some (val.setWidth 512) | _ => none
  l.launch ⟨0, dst, lat, val.setWidth 512, 0xFFFF, e, flags, fpcEn l.fpcNow, l.wpc⟩

/-- The entry that a nullified word makes: its destination as it stood (03 R65). -/
def Slot.nullResult (l : Slot) (lat : Nat) (dst : RegRef) : Slot :=
  match dst with
  | .s _ | .q _ => l.launch ⟨0, .none, lat, 0, 0xFFFF, some (readRef l l.level dst), 0, 0, l.wpc⟩
  | _ => l

/-- A scalar word of fixed latency: the value and flags are those of `f` on the slot. -/
def runScalar (h : Hdr) (s : State) (lat : Nat) (dst : RegRef) (f : Slot → Word × Fl) : Host.Outcome State Fault Refusal :=
  runWord h s
    (fun s => let (v, fl) := f s.me; .ok (s.setMe (s.me.scalarResult lat dst v fl)))
    (fun s => s.setMe (s.me.nullResult lat dst))

/-- The result of a V word in one cluster (06 R189, 03 R65): masked lanes are written at landing, the entry merges the lanes as
they stand. -/
def Slot.vectorResult (l : Slot) (lat c : Nat) (dst : RegRef) (mask : BitVec 16) (val : Vec) (flags : Fl) : Slot :=
  let old := readRef l l.level dst
  l.launch ⟨c + 1, dst, lat, val, mask, some (mergeLanes mask val old), flags, fpcEn l.fpcNow, l.wpc⟩

/-- A V word of fixed latency: cluster by cluster, `f` gives the value and the flags of the enabled lanes. -/
def runVector (h : Hdr) (s : State) (lat : Nat) (cm dst : BitVec 8) (f : Slot → Nat → BitVec 16 → Vec × Fl) :
    Host.Outcome State Fault Refusal :=
  .next <| finishWord <| State.markPerf <|
    let l := s.me
    let l' := (clusters cm).foldl (fun l' c =>
      let m := l.laneMask h c
      let (v, fl) := f l c m
      l'.vectorResult lat c (vdstRef (1 <<< c) dst) m v fl) l
    s.setMe { l' with vIssued := true }

/-! ### Results of variable latency (06 R179, R182) -/

/-- A value that lands at the end of its word's own cycle, after the results of words that issued before it (06 R180): its tag is
allocated and retired in that cycle. -/
def State.landNow (s : State) (dst : RegRef) (x : Word) : State :=
  s.setMe (s.me.launch ⟨0, dst, 1, x.setWidth 512, 0xFFFF, none, 0, 0, s.me.wpc⟩)

/-- A tag awaits a result. -/
def State.await (s : State) (t : Nat) (dst : RegRef) (op : TagOp) : State :=
  let l := s.me
  s.setMe (l.allocTag l.level t ⟨dst, op, l.wpc⟩)

/-- The tag that a word allocates. -/
def hdrTag (h : Hdr) : Nat := h.ta.toNat

/-! ### Engines' results -/

/-- Who commands an engine now. -/
def State.owner (s : State) : Owner :=
  let l := s.me
  ⟨s.cur.1, s.cur.2, l.id.recAddr, l.id.seq, l.level⟩

/-- Where the task of an engine's owner is: in a slot, in a frame, or gone. -/
def State.whereIs (s : State) (o : Owner) : Option (Nat × Nat) ⊕ Option (Nat × TRec) :=
  let l := s.slot o.core o.slot
  if l.st ≠ .empty && l.id.recAddr = o.recAddr && l.id.seq = o.seq then .inl (some (o.core, o.slot))
  else match s.recBySeq o.seq with
    | some (d, r) => (match r.place, r.cell with
        | some p, _ => .inl (some p)
        | none, some _ => .inr (some (d, r))
        | none, none => .inl none)
    | none => .inl none

/-- Where a register lies in a frame with a PRESENT mask (17 Table 17-5): the offset, the bytes, and the first byte of its value
there; cluster by cluster for a vector register. -/
def frameOfs (present : Nat) : RegRef → List (Nat × Nat × Nat)
  | .s i => [(4096 + 8 * i, 8, 0)]
  | .q i => [(4096 + 1024 + 8 * i, 8, 0)]
  | .v cm i => if present.testBit 2 then (clusters cm).map fun c => (sectionAt present 2 + 64 * (8 * i + c), 64, 64 * c) else []
  | .vq cm i => if present.testBit 2 then (clusters cm).map fun c => (sectionAt present 2 + 32768 + 64 * (8 * i + c), 64, 64 * c)
      else []
  | _ => []

/-- Writes bytes into the frame of a record. -/
def State.patchFrame (s : State) (d : Nat) (r : TRec) (o : Nat) (bs : List Byte) : State :=
  match r.cell with
  | some i => s.marchWrite r.part (s.jobOf r.part r.handle) (cellAddr ((s.die d).march r.part) i + o) bs
  | none => s

def State.readFrame (s : State) (d : Nat) (r : TRec) (o n : Nat) : Nat :=
  match r.cell with
  | some i => natOfBytes ((s.marchRead r.part (s.jobOf r.part r.handle) (cellAddr ((s.die d).march r.part) i + o) n).getD [])
  | none => 0

/-- Where the result of an owner's tag is awaited: in the bank of its level; of a handler that has returned, in the task's. -/
def Slot.awaits (l : Slot) (v : Level) (t : Nat) (p : TagRes → Bool) : Option (Level × Nat × TagRes) :=
  let find (v : Level) (t : Nat) : Option (Level × Nat × TagRes) :=
    ((Sparse.find (l.bankOf v).tags t).bind fun rs => rs.find? p).map fun r => (v, t, r)
  match find v t with
  | some x => some x
  | none => if v = .s then find .t (handTag t) else none

/-- The number of an owner's tag in a frame, which holds the task's bank alone. -/
def frameTag (v : Level) (t : Nat) : Nat := if v = .s then handTag t else t

/-- A tag's result completes: its register takes the value where one is given and the tag retires, in the slot, or in the frame's
register image (17 R451); a task that is gone discards it (17 R455). -/
def State.complete (s : State) (o : Owner) (t : Nat) (p : TagRes → Bool) (x : Option (BitVec 4096)) : State :=
  match s.whereIs o with
  | .inl (some (c, k)) =>
    let l := s.slot c k
    match l.awaits o.level t p with
    | none => s
    | some (v, t, r) =>
      let l := match x with | some x => writeRef l v 0xFFFF x r.dst | none => l
      s.setSlot c k (l.retire v t p)
  | .inr (some (d, r)) =>
    let t := frameTag o.level t
    match (Sparse.find r.side.tags t).bind fun rs => rs.find? p with
    | none => s
    | some q =>
      let s := match x with
        | some v => (frameOfs (s.readFrame d r 2 2) q.dst).foldl
            (fun (s : State) (ofs, n, b) => s.patchFrame d r ofs (bytesOfNat n (v.toNat / 2 ^ (8 * b)))) s
        | none => s
      let rest := ((Sparse.find r.side.tags t).getD []).eraseP p
      let tags := if rest.isEmpty then Sparse.del r.side.tags t else Sparse.put r.side.tags t rest
      let s := s.patchFrame d r 0x1E (bytesOfNat 1 (tags.foldl (fun n (t, _) => n ||| 2 ^ t) 0))
      s.updRec d r.seq fun r => { r with side := { r.side with tags := tags } }
  | _ => s

/-- CTXSTAT bits of an owner's task. -/
def State.ownerCtx (s : State) (o : Owner) (m : BitVec 6) : State :=
  match s.whereIs o with
  | .inl (some (c, k)) => s.setSlot c k ((s.slot c k).setCtx m)
  | .inr (some (d, r)) => s.patchFrame d r 0x24 (bytesOfNat 4 ((BitVec.ofNat 32 (s.readFrame d r 0x24 4) ||| m.setWidth 32).toNat))
  | _ => s

/-- The first out-of-range byte that an engine meets on a task's behalf (03 R82). -/
def State.ownerOor (s : State) (o : Owner) (a : Word) : State :=
  match s.whereIs o with
  | .inl (some (c, k)) => s.setSlot c k ((s.slot c k).noteOor a)
  | .inr (some (d, r)) =>
    if (s.readFrame d r 0x24 4).testBit 1 then s
    else (s.patchFrame d r 0x24 (bytesOfNat 4 (s.readFrame d r 0x24 4 + 2))).patchFrame d r 0x28 (bytesOfNat 8 a.toNat)
  | _ => s

/-- A deferred trap of an owner's task falls due (17 R440, R443): with the group in progress; at once between groups; held
while a handler runs, the task is out of its slot or waits.  That of an operation that the handler itself began is a double trap
(17 R434). -/
def State.deferTrap (s : State) (o : Owner) (t : Trap) : State :=
  match s.whereIs o with
  | .inl (some (c, k)) =>
    let l := s.slot c k
    if (l.level = .t && l.st = .running) || (l.level = .s && o.level = .s) then
      match l.grp with
      | some g => s.setSlot c k { l with grp := some { g with defer := g.defer ++ [t] } }
      | none =>
        let cur := s.cur
        { ({ s with cur := (c, k) }).takeTrap t .f l.pc with cur := cur }
    else s.setSlot c k { l with csr := l.csr.hold t }
  | .inr (some (d, r)) =>
    let o := match t.cause with | .fpTrap => 0x140 | .dataPoison => 0x160 | .remoteError => 0x170 | _ => 0x150
    let bit := match t.cause with | .fpTrap => 0 | .dataPoison => 2 | .remoteError => 3 | _ => 1
    let pend := s.readFrame d r 0xEC 4
    if pend.testBit bit then s
    else
      let s := s.patchFrame d r 0xEC (bytesOfNat 4 (pend + 2 ^ bit))
      s.patchFrame d r o (bytesOfNat 1 t.cause.code.toNat ++ bytesOfNat 3 0 ++ bytesOfNat 4 t.wpc.toNat ++ bytesOfNat 8 t.info.toNat)
  | _ => s

/-! ### Waits (09 R274 to R278, R287, R297; 17 R454) -/

/-- The relation of WAITF: 00 is ≥, 01 is ==, 10 is ≠ (09 R274). -/
def waitHolds (rel : BitVec 2) (x v : Word) : Bool :=
  match rel.toNat with | 0 => decide (v.toNat ≤ x.toNat) | 1 => x == v | _ => x != v

/-! ### Rings (03 R85 to R88) -/

def rhIndex (h : Word) : Nat := fld h.toNat 63 32
def rhBaseLine (h : Word) : Nat := fld h.toNat 31 16
def rhLog (h : Word) : Nat := fld h.toNat 15 12
def rhLines (h : Word) : Nat := fld h.toNat 11 6 + 1
def rhRole (h : Word) : Nat := fld h.toNat 5 4
def rhEos (h : Word) : Bool := h.getLsbD 3
def rhBound (h : Word) : Bool := h.getLsbD 0
/-- The slot that the index addresses (03 R87). -/
def rhSlot (h : Word) : Nat := rhIndex h % 2 ^ rhLog h

/-- The first line of the addressed slot in its region. -/
def rhFirst (h : Word) : Nat := rhBaseLine h + rhLines h * rhSlot h

/-- The states of a slot's lines from a physical line on. -/
def Core.slotStates (c : Core) (first n : Nat) : List (BitVec 2) := (List.range n).map fun i => c.line (first + i)

/-- Whether RING.GET finds what it waits for (09 R287). -/
def ringHolds (h : Word) (st : List (BitVec 2)) : Bool :=
  if rhRole h = 0 then st.all (· == lnEmpty) else st.all (· != lnEmpty)

/-- The slot word of RING.GET (09 R287). -/
def slotWord (h : Word) (st : List (BitVec 2)) : Word :=
  0xFF00000000000000 + BitVec.ofNat 64 (128 * rhFirst h) + (if st.getLast? = some lnEos then 1 else 0) +
    (if st.any (· == lnPoison) then 2 else 0)

/-! ### The mailbox (12 R363, R376) -/

/-- The oldest software entry, and the mailbox without it. -/
def takeSw : List MbxEntry → Option (Word × List MbxEntry)
  | [] => none
  | .sw c p :: r => some (BitVec.ofNat 64 (c % 8 * 2 ^ 56 + p.toNat), r)
  | x :: r => (takeSw r).map fun (w, r) => (w, x :: r)

/-! ### Testing waits -/

/-- A waiter: a slot, or a record whose context is in a frame. -/
inductive Waiter where
  | slot (core k : Nat)
  | frame (die seq : Nat)
  deriving DecidableEq, Repr

/-- All waits, with the core or die they stand on. -/
def State.waiters (s : State) : List (Waiter × Wait) :=
  (s.cores.flatMap fun (c, x) => x.slots.filterMap fun (k, l) => l.wait.map fun w => (Waiter.slot c k, w)) ++
  (s.dies.flatMap fun (d, x) => x.recs.filterMap fun r =>
    match r.cell, r.place with | some _, none => r.wait.map fun w => (Waiter.frame d r.seq, w) | _, _ => none)

/-- A wait in the arrival order of monitors. -/
def insertWait (x : Waiter × Wait) : List (Waiter × Wait) → List (Waiter × Wait)
  | [] => [x]
  | y :: r => if x.2.order < y.2.order then x :: y :: r else y :: insertWait x r

/-- The owner of a waiting task's tag. -/
def State.waiterOwner (s : State) : Waiter → Owner
  | .slot c k => let l := s.slot c k; ⟨c, k, l.id.recAddr, l.id.seq, .t⟩
  | .frame d q => match (s.die d).recs.find? fun r => r.seq = q with
      | some r => ⟨0, 4, r.addr, q, .t⟩ | none => ⟨0, 4, 0, q, .t⟩

def TagRes.isWait (r : TagRes) : Bool := r.op == .wait

/-- A wait ends: its result lands and its tag retires; the task becomes READY (09 R275), unless a handler runs in its slot. -/
def State.endWait (s : State) (x : Waiter) (w : Wait) (v : Option Word) : State :=
  let s := match v with
    | some v => s.complete (s.waiterOwner x) w.tag TagRes.isWait (some (v.setWidth 4096))
    | none => s
  match x with
  | .slot c k =>
    let l := s.slot c k
    let s := s.setSlot c k { l with wait := none }
    if l.st = .waiting && l.level = .t then
      let s := s.setSlot c k { s.slot c k with st := .ready }
      (match s.slotRec c k with | some (d, r) => s.readyRec d r.seq | none => s)
    else s
  | .frame d q =>
    match (s.die d).recs.find? fun r => r.seq = q with
    | some r =>
      let s := s.patchFrame d r 0x1F [0]
      let s := s.updRec d q fun r => { r with wait := none }
      if r.st = .waiting then s.readyRec d q else s
    | none => s

/-- The status bits of a wait that suspended: SUSPENDED, and SPILLED for a monitor outside the table (09 Table 9-4). -/
def Wait.status (w : Wait) (timeout : Bool) : Word :=
  4 + (if w.place = .overflow || w.place = .deferred then 2 else 0) + (if timeout then 1 else 0)

/-- The partition of a waiter. -/
def State.waiterPart (s : State) : Waiter → Nat
  | .slot c k => (s.slot c k).id.part
  | .frame d q => match (s.die d).recs.find? fun r => r.seq = q with | some r => r.part | none => 0

/-- Whether the unit in which a watched word lies has gone to another partition (22 R548). -/
def State.taken (s : State) (x : Waiter) (l : Loc) : Bool :=
  match l with
  | .hbm a | .ext a => s.unitOwner (a / 2 ^ 30) ≠ some (s.waiterPart x)
  | _ => false

/-- The value that ends a wait if its condition holds now; MBX.TAKE removes its entry.  DESIGN CHOICE: a re-test that reads poison, or a
unit that has gone to another partition, does not succeed, whatever relation the wait asks for: it never faults (09 R275), and the
manual gives no value for it (21 R544; 22 R548, R567). -/
def State.testWait (s : State) (x : Waiter) (w : Wait) : Option (Option Word × State) :=
  match w.kind with
  | .waitf | .waitfT =>
    let v : Word := BitVec.ofNat 64 (natOfBytes (readSeg s ⟨w.loc, 8⟩))
    if !segPoison s ⟨w.loc, 8⟩ && !s.taken x w.loc && waitHolds w.rel v w.val then some (some (w.status false), s) else none
  | .ringGet =>
    match w.loc with
    | .scr c o =>
      let st := (s.core c).slotStates (o / 128) (rhLines w.val)
      if ringHolds w.val st then some (some (slotWord w.val st), s) else none
    | _ => none
  | .bar =>
    let id : Option (Nat × Nat × BitVec 32) := match x with
      | .slot c k => let l := s.slot c k; some (l.id.part, l.id.handle, l.id.coord)
      | .frame d q => ((s.die d).recs.find? fun r => r.seq = q).map fun r => (r.part, r.handle, r.coord)
    match id with
    | some (p, h, co) =>
      (match s.gangHome p h (s.gangOf p h co).1 with
      | some (_, g) => if w.val.toNat ≤ (Sparse.get {} g.bars w.addr.toNat).phase then some (none, s) else none
      | none => some (none, s))
    | none => none
  | .mbxTake =>
    match w.loc with
    | .ctr b _ =>
      let bl := s.block b
      (match takeSw bl.mailbox with
      | some (v, m) => some (some v, s.setBlock b { bl with mailbox := m })
      | none => none)
    | _ => none

/-- The cycle of a die's last scan point; none before its first (18 R474). -/
def State.scanPoint (s : State) (die : Nat) : Option Nat :=
  let p := Config.scanPhase die % 4096
  if s.cycle < p then none else some (s.cycle - (s.cycle - p) % 4096)

/-- The copy of a watched word that a host has modified comes back for its test (21 R536, R539). -/
def State.watchRecall (s : State) (w : Wait) : State :=
  match w.kind with | .waitf | .waitfT => s.hostCopies w.loc 8 false | _ => s

/-- A wait is tested: first its condition, for what the last step wrote, which was within its limit where the wait still stands; then,
past its limit, it ends with TIMEOUT (02 R59; 09 R277; 17 R454).  A spilled or deferred monitor is tested at scans only, and at one
that comes after its limit no more (09 R278). -/
def State.tryWait (s : State) (scan : Nat → Bool) (x : Waiter) (w : Wait) : State :=
  let s := s.watchRecall w
  let late := match w.deadline with | some d => decide (d < s.cycle) | none => false
  let die := match x with | .slot c _ => coreDie c | .frame d _ => d
  let inTime := match w.deadline, s.scanPoint die with | some d, some p => decide (p ≤ d) | _, _ => true
  let spilled : Bool := w.place = .overflow || w.place = .deferred
  match (if !spilled || (scan die && inTime) then s.testWait x w else none) with
  | some (v, s) => s.endWait x w v
  | none =>
    if late then s.endWait x w (match w.kind with | .waitf | .waitfT => some (w.status true) | _ => none) else s

/-- Every wait is tested in the arrival order of monitors: after every write by any agent (09 R275), or at a scan. -/
def State.testWaits (s : State) (scan : Nat → Bool) : State :=
  ((s.waiters.foldr insertWait []).foldl (fun s (x, w) => s.tryWait scan x w)) s

/-- A WFE ends: the task is READY in its slot, at level S. -/
def State.endWfe (s : State) (c k : Nat) : State :=
  let l := s.slot c k
  let s := s.setSlot c k { l with wfe := none, st := if l.st = .waiting then .ready else l.st }
  match s.slotRec c k with | some (d, r) => if l.st = .waiting then s.readyRec d r.seq else s | none => s

/-- WFE waits end when EVTCNT has changed or their limit has passed (17 R454). -/
def State.testWfe (s : State) : State :=
  (s.cores.flatMap fun (c, x) => x.slots.filterMap fun (k, l) => l.wfe.map fun w => (c, k, l.id.part, w)).foldl
    (fun s (c, k, p, v, d) =>
      if ((s.die (coreDie c)).march p).evtcnt ≠ v || d < s.cycle then s.endWfe c k else s) s

def State.retest (s : State) : State := (s.testWaits fun _ => false).testWfe

/-- The die and partition of a waiter. -/
def Waiter.die : Waiter → Nat
  | .slot c _ => coreDie c
  | .frame d _ => d
/-- The entries of a partition's overflow area on a die that monitors hold (18 R473). -/
def State.ovfUsed (s : State) (d part : Nat) : List Nat :=
  (s.waiters.filter fun (x, w) => x.die = d && w.place = .overflow && s.waiterPart x = part).map fun x => x.2.entry

/-- The lowest free entry of an overflow area. -/
def State.ovfFree (s : State) (d part : Nat) : Option Nat :=
  let used := s.ovfUsed d part
  ((List.range (used.length + 1)).find? fun i => !used.contains i).filter fun i => i < ((s.die d).march part).monovfcnt.toNat

/-- A monitor takes an entry of the overflow area: 32 bytes at MONOVFBASE, whose layout the manual does not give (18 R473). -/
def State.ovfWrite (s : State) (d part ctx i : Nat) : State :=
  let a := 32 * ((s.die d).march part).monovfbase.toNat + 32 * i
  let bs := (List.range 4).flatMap fun k => bytesOfNat 8 (Config.freeWord (s.freeCtr + k)).toNat
  ({ s with freeCtr := s.freeCtr + 4 }).marchWrite part ctx a bs

/-- Registers a wait of the slot that issues: its monitor takes a table entry, spills into its partition's overflow area, or is
deferred (09 R278; 18 R473, R568). -/
def State.startWait (s : State) (kind : WaitKind) (addr val : Word) (rel : BitVec 2) (loc : Loc) (deadline : Option Nat)
    (tag : Nat) : State :=
  let d := coreDie s.cur.1
  let x := s.die d
  let mon := match kind with | .waitf | .waitfT | .ringGet => true | _ => false
  let part := s.me.id.part
  let r := x.march part
  let table := (s.waiters.filter fun (y, w) => y.die = d && w.place = .table).length
  let entry := s.ovfFree d part
  let place := if !mon then MonPlace.none else if table < 1024 then .table else if entry.isSome then .overflow else .deferred
  let x := { x with monOrder := x.monOrder + 1 }
  let x := if place = .overflow || place = .deferred then x.setMarch part { r with monspill := r.monspill + 1 } else x
  let s := s.setDie d x
  let s := if place = .overflow then s.ovfWrite d part (s.jobOf part s.me.id.handle) (entry.getD 0) else s
  let w : Wait := ⟨kind, addr, val, rel, loc, deadline, tag, place, x.monOrder, s.cycle, entry.getD 0⟩
  s.setMe { s.me with wait := some w }

/-- Where a monitored word may lie: no peer chip and no host page (09 R274). -/
def waitable (segs : List Seg) : Bool :=
  segs.all fun g => match g.loc with | .peer _ _ | .host _ => false | _ => true

/-- The place that a monitored word's eight bytes lie at; one out of range reads zero (03 R82). -/
def waitLoc (segs : List Seg) : Loc := match segs with | [g] => g.loc | _ => .oor

/-- Where the task's region begins on its core (03 R71). -/
def State.regionBase (s : State) (core handle : Nat) : Nat :=
  match (s.core core).region handle with | some r => r.base | none => 0

/-- The physical line of a line of the task's region. -/
def State.regionLine (s : State) (i : Nat) : Nat := s.regionBase s.cur.1 s.me.id.handle / 128 + i

end Machine
end Sys2Proof
end

