-- ==== Sys2Proof/Machine/Segment.lean ====
section
/-! DEFINITION. What arriving writes are checked against (20 R515 to R518, Table 20-7), the accesses of a task's words (03 R70,
R75, R79, R82; 05 R161), and the entry of remote words into the egress path (12 R361, R362). -/

namespace Sys2Proof
namespace Machine

/-! ### Jobs and segments -/

/-- A job directory entry (20 Table 20-4). -/
structure JobEnt where
  part : Nat
  slotW : Nat
  segTab : Nat
  grpTab : Nat
  deriving DecidableEq, Repr

/-- The lower-indexed VALID entry of a job (20 R517).  DESIGN CHOICE: an entry of this directory, of a segment table or of a group table
that carries poison is no valid one; the rules name no outcome of such a read (22 R567). -/
def State.jobEntry (s : State) (job : Nat) : Option JobEnt :=
  let base := fld s.fab.jobBase.toNat 55 15 * 2 ^ 15
  (List.range 1024).findSome? fun i =>
    let a := base + 32 * i
    if s.rdHbm a 2 = job && (s.rdHbm (a + 3) 1) % 2 = 1 && !hbmPoisoned s a 32 then
      some ⟨s.rdHbm (a + 2) 1, s.rdHbm (a + 4) 4, s.rdHbm (a + 8) 8, s.rdHbm (a + 0x10) 8⟩
    else none

/-- The entry of a segment; none where it is invalid or malformed (20 R518). -/
def State.segEntry (s : State) (j : JobEnt) (seg : Nat) : Option SegEnt :=
  match interAddr s j.part (j.segTab + 32 * seg) with
  | .error _ => none
  | .ok a =>
    if s.unitOwner (a / 2 ^ 30) != some j.part || hbmPoisoned s a 32 then none else
    let e := s.rdHbm a 32
    let kind := fld e 143 136
    let r : SegEnt := ⟨fld e 63 0, fld e 127 64, fld e 135 128, kind / 2 % 2 = 1, fld e 159 144, j.part⟩
    if kind % 2 = 0 || kind ≥ 4 || 16 ≤ r.rights || fld e 255 160 ≠ 0 || (r.hbm && r.tcore ≠ 0) || 1024 ≤ r.tcore then none
    else if !r.hbm && 8 * 2 ^ 20 < r.base + r.limit then none
    else some r

/-- The read of a segment entry in a unit of another partition is recorded (22 R548). -/
def State.segDenied (s : State) (job seg : Nat) : State :=
  match s.jobEntry job with
  | none => s
  | some j => match interAddr s j.part (j.segTab + 32 * seg) with
    | .error _ => s
    | .ok a => if s.unitOwner (a / 2 ^ 30) = some j.part then s
        else s.errRecord (some j.part) 6 1 3 (a / 2 ^ 30) (BitVec.ofNat 64 a)

/-- What a word asks of a segment: the bytes from WOFS to its highest, its flag, the rights; whether it fills lines, whether
its target may not be HBM, the alignment of its target, and whether a scratchpad's unit cannot execute it. -/
structure SegAsk where
  job : Nat
  seg : Nat
  wofs : Nat
  wlen : Nat
  flag : Option Nat
  need : Nat
  fill : Bool
  noHbm : Bool
  align : Nat
  noScr : Bool
  acc : Acc
  deriving DecidableEq, Repr

def rPut : Nat := 1
def rSignal : Nat := 2
def rReduce : Nat := 4
def rFill : Nat := 8

/-- The runs of bytes of a segment (20 R516). -/
def segRuns (s : State) (job : Nat) (e : SegEnt) (k : Acc) (ofs n : Nat) : RRes :=
  if n = 0 then .ok [] s
  else if e.hbm then
    let g : Agent := ⟨e.part, job, 0, 0, 0, 8⟩
    match checkWin (e.base + ofs) n with
    | .ok (.global, v) => globalSegs s g k (n / 2 ^ 16 + 2) v n
    | _ => .fault .perm (e.base + ofs)
  else .ok [⟨.scr e.tcore (e.base + ofs), n⟩] s

/-- Whether the target of an entry is fenced (20 Table 20-7; 22 R547). -/
def State.fencedAt (s : State) (e : SegEnt) : Bool :=
  !e.hbm && ((s.core e.tcore).fenced || (s.block (coreBlock e.tcore)).fenced || (s.die (coreDie e.tcore)).fenced)

/-- The job, segment and entry checks of a word (20 R517, R518): the reason code, or the entry. -/
def State.segLookup (s : State) (job seg : Nat) : Except Nat SegEnt :=
  match s.jobEntry job with
  | none => .error 1
  | some j => (match s.segEntry j seg with | none => .error 2 | some e => .ok e)

/-- What the port answers: a reason code; the runs of bytes; or that a host copy must first come back (21 R539). -/
inductive SegAns where
  | no (code : Nat) (s : State)
  | yes (runs : List Seg) (s : State)
  | hold (s : State)

/-- The translation of a part of a word's target, with its reason code; a page not present leaves a fault record (20 R516), and
a fenced memory unit is refused (22 R549). -/
def State.segXlate (s : State) (q : SegAsk) (e : SegEnt) (ofs n : Nat) : SegAns :=
  match segRuns s q.job e q.acc ofs n with
  | .ok runs s =>
    if runs.any fun g => (match g.loc with | .peer _ _ => true | _ => false) then .no 10 s
    else if runs.any fun g => (match g.loc with | .hbm a | .ext a => s.fw.unitFenced.contains (a / 2 ^ 30) | _ => false) then .no 14 s
    else .yes runs s
  | .absent f a s => .no 9 (s.faultRecord e.part (BitVec.ofNat 64 a) 0 q.job 0x10 (accessCode q.acc f) 8 0 0)
  | .walk _ s => .hold s
  | .fault _ _ => .no 10 s

/-- The checks of a word against its entry, in their order, up to its translations (20 R515): the code of the first that fails, or 0. -/
def State.segTest (s : State) (q : SegAsk) (e : SegEnt) : Nat :=
  let flagOut := match q.flag with | some f => decide (e.limit < f + 8) | none => false
  let flagOdd := match q.flag with | some f => decide ((e.base + f) % 8 ≠ 0) | none => false
  if e.limit < q.wofs + q.wlen || flagOut then 3
  else if e.rights &&& q.need ≠ q.need then 4
  else if (e.hbm && (q.fill || q.noHbm)) || (!e.hbm && q.noScr) then 6
  else if flagOdd || (e.base + q.wofs) % q.align ≠ 0 || (q.fill && q.wlen % 128 ≠ 0) then 7
  else if q.fill && (lines128 (e.base + q.wofs) q.wlen).any fun i => (s.core e.tcore).line i != lnEmpty then 5
  else if s.fencedAt e then 14
  else 0

/-- The checks of a word against its entry, with its translations (20 R515, R516). -/
def State.segCheck (s : State) (q : SegAsk) (e : SegEnt) : SegAns :=
  match s.segTest q e with
  | 0 => s.segXlate q e q.wofs q.wlen
  | c => .no c s

/-- The decision on a word (20 R515, R516). -/
def State.segDecide (s : State) (q : SegAsk) : SegAns :=
  match s.segLookup q.job q.seg with
  | .error c => .no c s
  | .ok e => s.segCheck q e

/-- The port's agent in a job (20 R516). -/
def SegEnt.agent (e : SegEnt) (job : Nat) : Agent := ⟨e.part, job, 0, 0, 0, 8⟩

/-- What the port decides of the granule of a global-window address (20 R515, R516). -/
def State.pagePlan (s : State) (q : SegAsk) (e : SegEnt) (v : Nat) : PagePlan :=
  let check (t : TlbEntry) : PagePlan :=
    if t.hostOwn || (checkEntry t q.acc 8).isSome || t.aperture = 1 then .no 10 none
    else if t.aperture ≠ 2 && s.fw.unitFenced.contains ((t.target + (v - t.base)) / 2 ^ 30) then .no 14 none
    else .go t
  match tlbFind (s.die 0).l2tlb e.part q.job v with
  | some t => check t
  | none => match walk s e.part q.job v with
    | .error f => .no 9 (some (f.stage2, f.malformed))
    | .ok t => check t

/-- The granules of a span of a segment in the global window; none where it leaves the window. -/
def SegEnt.granules (e : SegEnt) (ofs n : Nat) : Option (List Nat) :=
  if n = 0 || !e.hbm then some []
  else match checkWin (e.base + ofs) n with
    | .ok (.global, v) => some ((List.range ((v + n - 1) / 2 ^ 16 - v / 2 ^ 16 + 1)).map (· + v / 2 ^ 16))
    | _ => none

/-- The port uses a translation (19 R487, R488). -/
def State.useEntry (s : State) (g : Agent) (k : Acc) (t : TlbEntry) : State :=
  let d := coreDie g.core
  let s := if (s.die d).l2tlb.contains t then s
    else
      let s := setLeafBit s t 0x200
      let s := if t.aperture = 2 && !s.host.via.contains t then { s with host := { s.host with via := s.host.via ++ [t] } } else s
      s.setDie d { s.die d with l2tlb := tlbPut 4096 (s.die d).l2tlb t }
  if k.wr then (markDirty s g t).2 else s

/-- The runs of bytes at offsets of a segment, by what was decided of their granules (20 R516). -/
def State.planRuns (s : State) (q : SegAsk) (e : SegEnt) (pages : SMap PagePlan) : Nat → Nat → Nat → SegAns
  | 0, _, _ => .yes [] s
  | fuel + 1, ofs, n =>
    if n = 0 then .yes [] s
    else if !e.hbm then .yes [⟨.scr e.tcore (e.base + ofs), n⟩] s
    else
      let v := e.base + ofs
      let here := min n (2 ^ 16 - v % 2 ^ 16)
      match (Sparse.find pages (v / 2 ^ 16)).getD (.no 10 none) with
      | .no c none => .no c s
      | .no c (some (a, b)) => .no c (s.faultRecord e.part (BitVec.ofNat 64 v) 0 q.job 0x10 (accessCode q.acc ⟨a, b⟩) 8 0 0)
      | .go t =>
        let s := s.useEntry (e.agent q.job) q.acc t
        let (l, s) := entryLoc s e.part t v
        match extRecall s l here q.acc.wr with
        | some s => .hold s
        | none => match s.planRuns q e pages fuel (ofs + here) (n - here) with
          | .yes r s => .yes (⟨l, here⟩ :: r) s
          | x => x

/-! ### Accesses of a task's words -/

/-- What an access comes to: its runs of bytes, a precise trap with the address, or a walk to wait for. -/
inductive ARes where
  | ok (segs : List Seg) (s : State)
  | trap (c : Cause) (a : Nat) (s : State)
  | walk (a : Nat) (k : Acc) (s : State)

/-- A load or atomic through the pod window of this chip: the check of an arriving write; a failed one is PERM (03 R70). -/
def State.podAccess (s : State) (g : Agent) (k : Acc) (seg ofs n a : Nat) : ARes :=
  let q : SegAsk := ⟨g.ctx, seg, ofs, n, none, if k.atom then rReduce else rPut, false, false, 1, false, k⟩
  match s.segDecide q with
  | .yes runs s => .ok runs s
  | .no _ s => .trap .perm a s
  | .hold s => .walk a k s

/-- The runs of an access by a word of the slot that issues (03 R75).  A store to the pod window has none: `pod` says that it
is one. -/
def State.access (s : State) (k : Acc) (a n align : Nat) (vector : Bool) : ARes :=
  let g := s.myAgent 0
  if a % align ≠ 0 then .trap .misalign a s
  else match checkWin a n with
    | .error c => .trap c a s
    | .ok (.pod chip seg, ofs) =>
      if k.wr && !k.atom then .ok [⟨.peer chip (seg * 2 ^ 40 + ofs), n⟩] s
      else if chip ≠ s.fab.chip.toNat then .trap .podRead a s
      else s.podAccess g k seg ofs n a
    | .ok (.ctrs, _) =>
      if vector || n ≠ 8 then .trap .perm a s
      else match resolve s g k a n with
        | .ok segs s => .ok segs s
        | _ => .trap .perm a s
    | .ok _ =>
      match resolve s g k a n with
      | .ok segs s => .ok segs s
      | .fault c x => .trap c x s
      | .absent _ x _ => .walk x k s
      | .walk x s => .walk x k s

/-- The out-of-range note of an access (03 R82). -/
def State.noteRange (s : State) (a : Nat) (segs : List Seg) : State :=
  match oorAt a segs with
  | some x => s.setMe (s.me.noteOor (BitVec.ofNat 64 x))
  | none => s

/-- A run as the issuing task reads it: of host memory, the device's posted writes, then the task's read buffer, stand before what
the host holds (05 R133, R161). -/
def readOwn (s : State) (g : Seg) : List Byte × State :=
  match g.loc with
  | .host a =>
    let q := s.me.id.seq
    let buf := Sparse.get [] s.host.rdBufs q
    let bs := (Memory.read s.host.mem a g.len).zipIdx.map fun (b, i) =>
      s.hostByte (a + i) ((Sparse.find buf (a + i)).getD b)
    let buf := bs.zipIdx.foldl (fun m (b, i) => Sparse.put m (a + i) b) buf
    (bs, { s with host := { s.host with rdBufs := Sparse.set [] s.host.rdBufs q buf } })
  | _ => (readSeg s g, s)

def readOwns (s : State) : List Seg → List Byte × State
  | [] => ([], s)
  | g :: r =>
    let (x, s) := readOwn s g
    let (y, s) := readOwns s r
    (x ++ y, s)

/-! ### The egress path (12 R361, R362) -/

/-- A remote word with nothing set. -/
def RemoteWord.blank (s : State) (op : Nat) : RemoteWord :=
  let l := s.me
  { op := op, a := 0, b := 0, c := 0, d := 0, fill := false, eos := false, sig := false, ty := 0, acq := false, scope := 0,
    data := [], core := s.cur.1, own := s.owner, tag := 0, wpc := l.wpc, part := l.id.part,
    job := s.jobOf l.id.part l.id.handle, fired := none, seq := 0, handle := l.id.handle,
    scratch := l.id.hdr.scratch }

/-- Operations of remote words: those of work entries (12 Table 12-6), then RCOPY, stores, and the slow path. -/
def opPut : Nat := 1
def opPutSig : Nat := 2
def opRed : Nat := 3
def opRedSig : Nat := 4
def opSem : Nat := 5
def opMcred : Nat := 6
def opMcredSig : Nat := 7
def opDep : Nat := 8
def opRcopy : Nat := 9
def opRcopySig : Nat := 10
def opStore : Nat := 11
def opRead : Nat := 12
def opAtomic : Nat := 13
def opMcdata : Nat := 14

/-- Whether a core is its block's August core. -/
def State.augustCore (s : State) (core : Nat) : Bool := (s.block (coreBlock core)).august = coreInBlock core
/-- Whether the core that issues is its block's August core. -/
def State.isAugust (s : State) : Bool := s.augustCore s.cur.1

/-- The entries of the mailbox (12 R363), and the bound of what waits on an August core (12 R362). -/
def mailboxSize : Nat := 16

/-- The words that a block's queue holds, with what waits behind it. -/
def Block.queued (bl : Block) (august : Bool) : Nat :=
  if august then bl.augQ.length + bl.augSurplus.length else bl.mailbox.length + bl.mbxSurplus.length

/-- Whether the queue of a core's remote words is full (12 R362, R363). -/
def State.queueFull (s : State) (core : Nat) : Bool := mailboxSize ≤ (s.block (coreBlock core)).queued (s.augustCore core)

/-- A block's queue takes a remote word; what one word sends beyond the 16 entries waits behind the queue for free ones (12 R362, R363). -/
def Block.takeWord (bl : Block) (august : Bool) (w : RemoteWord) : Block :=
  if bl.queued august < mailboxSize then
    (if august then { bl with augQ := bl.augQ ++ [w] } else { bl with mailbox := bl.mailbox ++ [.hw w] })
  else if august then { bl with augSurplus := bl.augSurplus ++ [w] }
  else { bl with mbxSurplus := bl.mbxSurplus ++ [w] }

/-- What waits behind a block's queues enters them as entries come free. -/
def Block.refill (bl : Block) : Block :=
  let n := mailboxSize - bl.mailbox.length
  let m := mailboxSize - bl.augQ.length
  { bl with mailbox := bl.mailbox ++ (bl.mbxSurplus.take n).map .hw, mbxSurplus := bl.mbxSurplus.drop n,
            augQ := bl.augQ ++ bl.augSurplus.take m, augSurplus := bl.augSurplus.drop m }

/-- The same in every block. -/
def State.refillQueues (s : State) : State :=
  if s.blocks.all fun b => b.2.mbxSurplus.isEmpty && b.2.augSurplus.isEmpty then s
  else { s with blocks := s.blocks.map fun (i, b) => (i, b.refill) }

/-- The remote words of this chip that are not acknowledged: those in a block's queues and those that are sent. -/
def State.remoteWords (s : State) : List RemoteWord :=
  (s.blocks.flatMap fun (_, b) => (b.mailbox.filterMap fun e => match e with | .hw w => some w | .sw _ _ => none) ++ b.augQ ++
    b.mbxSurplus ++ b.augSurplus ++ b.fired) ++
  s.fab.tx.flatMap fun x => x.2.unacked.map (·.2)

/-- A remote word of a core enters the mailbox, or the August queue on the August core; the core's acknowledgement counter rises
(05 R155). -/
def State.enqueue (s : State) (core : Nat) (w : RemoteWord) : State :=
  let c := s.core core
  let w := { w with seq := c.nextRemote }
  let s := s.setCore core { c with acks := c.acks + 1, nextRemote := c.nextRemote + 1 }
  let b := coreBlock core
  s.setBlock b ((s.block b).takeWord (s.augustCore core) w)

/-- A remote word of the core that issues. -/
def State.sendRemote (s : State) (w : RemoteWord) : State := s.enqueue s.cur.1 w

/-- The pod address of a byte of a chip. -/
def podAddr (chip q : Nat) : Nat := 0xF000000000000000 + chip % 2 ^ 11 * 2 ^ 48 + q % 2 ^ 48

/-- A store that leaves the chip's own memory: a put of its size (03 R70, 19 R490). -/
def State.storeRemote (s : State) (chip q : Nat) (bs : List Byte) : State :=
  s.sendRemote { RemoteWord.blank s opStore with
    a := BitVec.ofNat 64 (podAddr chip q), c := BitVec.ofNat 64 bs.length, data := bs }

/-- Writes of the issuing task: posted toward host memory (05 R161), carried as puts toward a peer, else performed. -/
def State.writeOwn (s : State) (g : Seg) (bs : List Byte) : State :=
  match g.loc with
  | .host a => s.postHost (some s.me.id.part) (some s.me.id.seq) a bs false
  | .peer chip q => s.storeRemote chip q bs
  | _ => writeSeg s g bs

def State.writeOwns (s : State) : List Seg → List Byte → State
  | [], _ => s
  | g :: r, bs => (s.writeOwn g (bs.take g.len)).writeOwns r (bs.drop g.len)

end Machine
end Sys2Proof
end

