-- ==== Sys2Proof/Machine/Loads.lean ====
section
/-! DEFINITION. Loads, stores, gathers, scatters, atomics, fences, flushes, prefetch, counting flags and waits
(09 R261 to R278). -/

namespace Sys2Proof
namespace Machine

/-! ### Addresses and destinations -/

/-- a = ReadSpec(BASE) + SInt(OFS) (09 R261). -/
def addrM (l : Slot) (f : FmtM) : Nat := (readSpec l f.base + f.ofs.signExtend 64).toNat

/-- The bytes of SIZE (06 R169). -/
def sizeBytes (z : BitVec 3) : Nat := if z.toNat ≤ 3 then 2 ^ z.toNat else if z.toNat = 4 then 64 else 512

/-- The register of X on the load side (06 R169). -/
def xDst (x : BitVec 9) : BitVec 8 := x.extractLsb' 0 8

/-- What a register holds in every cluster, cluster c at bit 512c; a scalar register in the low bits. -/
def regImage (l : Slot) (v : Level) : RegRef → BitVec 4096
  | .v cm i => (clusters cm).foldl (fun x c => x ||| (((l.rdV c i).setWidth 4096) <<< (512 * c))) 0
  | .vq cm i => (clusters cm).foldl (fun x c => x ||| (((l.rdVq c i).setWidth 4096) <<< (512 * c))) 0
  | r => (readRef l v r).setWidth 4096

/-- Bytes put into an image from byte `pos` on. -/
def patchImage (x : BitVec 4096) (pos : Nat) (bs : List Byte) : BitVec 4096 :=
  let n := 8 * bs.length
  let m : BitVec 4096 := (BitVec.ofNat 4096 (2 ^ n - 1)) <<< (8 * pos)
  (x &&& ~~~m) ||| ((BitVec.ofNat 4096 (natOfBytes bs)) <<< (8 * pos))

/-- Bytes padded with zeros to a multiple of `k`. -/
def padTo (k : Nat) (bs : List Byte) : List Byte := bs ++ List.replicate ((k - bs.length % k) % k) 0

/-- One piece of a load: its place in the destination's image, the width it is extended to, and its runs. -/
structure Piece where
  pos : Nat
  ext : Nat
  addr : Nat
  runs : List Seg
  deriving DecidableEq, Repr

/-- The runs of a load's pieces that lie on peer chips, each with its place in the destination's image and its piece. -/
def peerParts (ps : List Piece) : List (Piece × Nat × Nat × Nat × Nat) :=
  ps.flatMap fun p => (p.runs.foldl (fun (acc : List (Piece × Nat × Nat × Nat × Nat) × Nat) g =>
    match g.loc with
    | .peer chip q => (acc.1 ++ [(p, acc.2, chip, q, g.len)], acc.2 + g.len)
    | _ => (acc.1, acc.2 + g.len)) ([], 0)).1

/-- The context and address of a word's access through a page, for a TLBI (17 R453). -/
def State.viaPage (s : State) (a : Nat) : Option (Nat × Nat) := some (s.jobOf s.me.id.part s.me.id.handle, a)

/-- The result of a load: pieces of this chip land together at LOAD_RETURN, or a poison trap does; where a piece lies on a peer
chip, a read goes there for each run (19 R490), acquiring where `acq` says so, and the result lands whole as the last of them returns
(06 R185). -/
def State.loadPieces (s : State) (tag : Nat) (dst : RegRef) (acq : Bool) (ps : List Piece) : State :=
  let s := ps.foldl (fun s p => s.noteRange p.addr p.runs) s
  let bad := ps.findSome? fun p => poisonAt s p.addr p.runs
  let remote := ps.any fun p => p.runs.any isPeer
  match bad with
  | some a => s.await tag dst (.value 0 (some (BitVec.ofNat 64 a)))
  | none =>
    let l := s.me
    let (x, s) := ps.foldl (fun (acc : BitVec 4096 × State) p =>
      let (bs, s) := readOwns acc.2 p.runs
      (patchImage acc.1 p.pos (padTo p.ext bs), s)) (regImage l l.level dst, s)
    if !remote then s.await tag dst (.value x none)
    else
      let (seqs, s) := (peerParts ps).foldl (fun (acc : List Nat × State) (p, ofs, chip, q, n) =>
        let s := acc.2
        let w := { RemoteWord.blank s opRead with
          a := BitVec.ofNat 64 (podAddr chip q), b := BitVec.ofNat 64 n, c := BitVec.ofNat 64 (p.pos + ofs),
          d := BitVec.ofNat 64 p.ext, tag := tag, via := s.viaPage (p.addr + ofs) }
        (acc.1 ++ [s.myCore.nextRemote], s.sendRemote w)) ([], s)
      s.await tag dst (.parts seqs acq x)

/-- LD (09 R261). -/
def execLd (h : Hdr) (f : FmtM) (s : State) : Host.Outcome State Fault Refusal :=
  runPlain h s fun s =>
    let n := sizeBytes f.size
    let a := addrM s.me f
    match s.access .load a n n false with
    | .trap c x s => .trap c (BitVec.ofNat 64 x) s
    | .walk x k s => .walk x k s
    | .ok segs s => .ok (s.loadPieces (hdrTag h) (dstRef (xDst f.x)) (f.ord.getLsbD 0) [⟨0, 8, a, segs⟩])

/-- LOAD_RETURN: a value of the tag lands and retires it; poison leaves the destination and raises DATA_POISON (09 R261;
06 R182; 17 R440). -/
def execLoadReturn (core slot tag : Nat) (s : State) : Host.Outcome State Fault Refusal :=
  .next <|
    let l := s.slot core slot
    let try_ (v : Level) : Option TagRes := ((Sparse.find (l.bankOf v).tags tag).getD []).find? TagRes.lands
    let go (v : Level) (r : TagRes) : State :=
      let (l', t) := l.landValue v tag r
      let s := s.setSlot core slot l'
      match t with
      | some t => s.deferTrap ⟨core, slot, l.id.recAddr, l.id.seq, v⟩ t
      | none => s
    match try_ l.level with
    | some r => go l.level r
    | none => match try_ .t with
      | some r => go .t r
      | none => s

/-- A store of bytes at an address by the slot that issues. -/
def State.storeBytes (s : State) (a align : Nat) (vector : Bool) (bs : List Byte) : WRes :=
  match s.access .store a bs.length align vector with
  | .trap c x s => .trap c (BitVec.ofNat 64 x) s
  | .walk x k s => .walk x k s
  | .ok segs s => .ok ((s.noteRange a segs).writeOwns segs bs)

/-- ST (09 R262). -/
def execSt (h : Hdr) (f : FmtM) (s : State) : Host.Outcome State Fault Refusal :=
  runPlain h s fun s =>
    let n := sizeBytes f.size
    s.storeBytes (addrM s.me f) n false (bytesOfNat n (readSpec s.me f.x).toNat)

/-- The clusters of an LDV or STV: one, or all (09 R263). -/
def vecClusters (f : FmtM) : BitVec 8 := if f.size = 4 then 1 <<< f.cl.toNat else 0xFF

/-- LDV (09 R263). -/
def execLdv (h : Hdr) (f : FmtM) (s : State) : Host.Outcome State Fault Refusal :=
  runPlain h s fun s =>
    let n := sizeBytes f.size
    let a := addrM s.me f
    match s.access .load a n 4 true with
    | .trap c x s => .trap c (BitVec.ofNat 64 x) s
    | .walk x k s => .walk x k s
    | .ok segs s =>
      .ok (s.loadPieces (hdrTag h) (vdstRef (vecClusters f) (xDst f.x)) (f.ord.getLsbD 0) [⟨if f.size = 4 then 64 * f.cl.toNat else 0, 4, a, segs⟩])

/-- STV (09 R263): for all clusters a last-result source reads each cluster's own file. -/
def execStv (h : Hdr) (f : FmtM) (s : State) : Host.Outcome State Fault Refusal :=
  runPlain h s fun s =>
    let l := s.me
    let bs := (clusters (vecClusters f)).flatMap fun c => bytesOfNat 64 (readVSpec l c f.x).toNat
    s.storeBytes (addrM l f) 4 true bs

/-! ### Gathers and scatters (09 R265, R266) -/

/-- The element addresses, by cluster and then lane. -/
def gatherAddrs (l : Slot) (f : FmtG) : List (Nat × Nat × Nat) :=
  (clusters f.cmask).flatMap fun c => (List.range 16).map fun i =>
    let x := (lane (readVSpec l c f.idx) i).toNat
    (c, i, (readSpec l f.base + BitVec.ofNat 64 (x * 2 ^ f.scl.toNat)).toNat)

/-- Every element is checked before any performs; the first fault in order stands (09 R266). -/
def gatherCheck (k : Acc) (n : Nat) : List (Nat × Nat × Nat) → State → List Piece → Except (WRes) (List Piece × State)
  | [], s, ps => .ok (ps, s)
  | (c, i, a) :: r, s, ps =>
    match s.access k a n n true with
    | .trap x y s => .error (.trap x (BitVec.ofNat 64 y) s)
    | .walk x k s => .error (.walk x k s)
    | .ok segs s => gatherCheck k n r s (ps ++ [⟨64 * c + 4 * i, 4, a, segs⟩])

/-- VGATH (09 R265). -/
def execVgath (h : Hdr) (f : FmtG) (s : State) : Host.Outcome State Fault Refusal :=
  runPlain h s fun s =>
    match gatherCheck .load (2 ^ f.size.toNat) (gatherAddrs s.me f) s [] with
    | .error r => r
    | .ok (ps, s) =>
      .ok (s.loadPieces (hdrTag h) (vdstRef f.cmask (xDst f.x)) (f.ord.getLsbD 0) ps)

/-- VSCAT (09 R265): elements are stored by cluster, then lane. -/
def execVscat (h : Hdr) (f : FmtG) (s : State) : Host.Outcome State Fault Refusal :=
  runPlain h s fun s =>
    let l := s.me
    let n := 2 ^ f.size.toNat
    match gatherCheck .store n (gatherAddrs l f) s [] with
    | .error r => r
    | .ok (ps, s) =>
      .ok (ps.foldl (fun s p =>
        let x := (lane (readVSpec l (p.pos / 64) f.x) (p.pos % 64 / 4)).toNat
        (s.noteRange p.addr p.runs).writeOwns p.runs (bytesOfNat n x)) s)

/-! ### Atomics (09 R267 to R269) -/

/-- The operations of Table 9-3. -/
inductive AtomOp where
  | add | and | or | xor | min | max | swap | cas | fadd | bfadd
  deriving DecidableEq, Repr

def AtomOp.code : AtomOp → Nat
  | .add => 0 | .and => 1 | .or => 2 | .xor => 3 | .min => 4 | .max => 5 | .swap => 6 | .cas => 7 | .fadd => 8 | .bfadd => 9

def AtomOp.ofCode : Nat → AtomOp
  | 0 => .add | 1 => .and | 2 => .or | 3 => .xor | 4 => .min | 5 => .max | 6 => .swap | 7 => .cas | 8 => .fadd | _ => .bfadd

/-- Whether a bank ALU executes it (09 Table 9-3). -/
def AtomOp.bank : AtomOp → Bool
  | .add | .fadd | .bfadd => true
  | _ => false

/-- The new value of `n` bytes. -/
def AtomOp.apply (o : AtomOp) (n old d c : Nat) : Nat :=
  let w := 8 * n
  let old := old % 2 ^ w
  let d := d % 2 ^ w
  match o with
  | .add => (old + d) % 2 ^ w
  | .and => old &&& d
  | .or => old ||| d
  | .xor => old ^^^ d
  | .min => if sintNat w old ≤ sintNat w d then old else d
  | .max => if sintNat w old ≤ sintNat w d then d else old
  | .swap => d
  | .cas => if old = c % 2 ^ w then d else old
  | .fadd => bankAdd fmtF32 old d
  | .bfadd => bankAdd fmtBf16 (old % 65536) (d % 65536) + 65536 * bankAdd fmtBf16 (old / 65536) (d / 65536)

def inScratch (segs : List Seg) : Bool := segs.any fun g => match g.loc with | .scr _ _ => true | _ => false
def inCounter (segs : List Seg) : Bool := segs.any fun g => match g.loc with | .ctr _ _ => true | _ => false

/-- An address in the local or block window. -/
def inLocal (a : Nat) : Bool := match winOf a with | some (.loc, _) | some (.block _, _) => true | _ => false

/-- One read-modify-write at resolved runs: the old value and the machine after it. -/
def State.rmw (s : State) (o : AtomOp) (segs : List Seg) (n d c : Nat) : Nat × State :=
  let old := natOfBytes (readSegs s segs)
  (old, writeSegs s segs (bytesOfNat n (o.apply n old d c)))

/-- ATOM (09 R267, R268): in a bank, in the counter unit, in a Solstice, or at the peer of a page with RAP. -/
def runAtom (o : AtomOp) (h : Hdr) (f : FmtAT) (s : State) : Host.Outcome State Fault Refusal :=
  runPlain h s fun s =>
    let l := s.me
    let n := sizeBytes f.size
    let a := (readSpec l f.a).toNat
    let d := (readSpec l f.b).toNat
    let c := (readSpec l f.c).toNat
    let dst := dstRef f.dst
    match s.access .atomic a n n false with
    | .trap x y s => .trap x (BitVec.ofNat 64 y) s
    | .walk x k s => .walk x k s
    | .ok segs s =>
      if (inScratch segs || inLocal a) && !o.bank then .trap .perm (BitVec.ofNat 64 a) s
      else if inCounter segs && 8 ≤ o.code then .trap .perm (BitVec.ofNat 64 a) s
      else match poisonAt s a segs with
        | some x => .trap .dataPoison (BitVec.ofNat 64 x) s
        | none =>
          match segs with
          | [⟨.peer chip q, _⟩] =>
            let w := { RemoteWord.blank s opAtomic with
              a := BitVec.ofNat 64 (podAddr chip q), b := BitVec.ofNat 64 n, c := BitVec.ofNat 64 c, d := BitVec.ofNat 64 d,
              ty := BitVec.ofNat 4 o.code, tag := (hdrTag h), via := s.viaPage a }
            let seq := s.myCore.nextRemote
            .ok ((s.sendRemote w).await (hdrTag h) dst (.remote seq (f.ord.getLsbD 0)))
          | _ =>
            let s := s.noteRange a segs
            let (old, s) := s.rmw o segs n d c
            .ok (s.await (hdrTag h) dst (.value (BitVec.ofNat 4096 old) none))

/-- old + d (09 Table 9-3). -/
def execAtomAdd (h : Hdr) (f : FmtAT) (s : State) : Host.Outcome State Fault Refusal := runAtom .add h f s
/-- old AND d (09 Table 9-3). -/
def execAtomAnd (h : Hdr) (f : FmtAT) (s : State) : Host.Outcome State Fault Refusal := runAtom .and h f s
/-- old OR d (09 Table 9-3). -/
def execAtomOr (h : Hdr) (f : FmtAT) (s : State) : Host.Outcome State Fault Refusal := runAtom .or h f s
/-- old XOR d (09 Table 9-3). -/
def execAtomXor (h : Hdr) (f : FmtAT) (s : State) : Host.Outcome State Fault Refusal := runAtom .xor h f s
/-- min(old, d) (09 Table 9-3). -/
def execAtomMin (h : Hdr) (f : FmtAT) (s : State) : Host.Outcome State Fault Refusal := runAtom .min h f s
/-- max(old, d) (09 Table 9-3). -/
def execAtomMax (h : Hdr) (f : FmtAT) (s : State) : Host.Outcome State Fault Refusal := runAtom .max h f s
/-- d (09 Table 9-3). -/
def execAtomSwap (h : Hdr) (f : FmtAT) (s : State) : Host.Outcome State Fault Refusal := runAtom .swap h f s
/-- d where old equals c (09 Table 9-3). -/
def execAtomCas (h : Hdr) (f : FmtAT) (s : State) : Host.Outcome State Fault Refusal := runAtom .cas h f s
/-- f32 old + d (09 Table 9-3, 04 R127). -/
def execAtomFadd (h : Hdr) (f : FmtAT) (s : State) : Host.Outcome State Fault Refusal := runAtom .fadd h f s
/-- each bf16 half (09 Table 9-3, 04 R127). -/
def execAtomBfadd (h : Hdr) (f : FmtAT) (s : State) : Host.Outcome State Fault Refusal := runAtom .bfadd h f s

/-! ### Fences, flushes, prefetch (09 R270 to R272) -/

/-- The status word of Table 5-3 of a slot. -/
def Slot.refusals (l : Slot) : Word := (l.refused.setWidth 64 <<< 32) ||| l.first.setWidth 64

/-- The status word lands and the count starts anew; into s0 with a count that is not zero, REMOTE_ERROR falls due at the end
of this cycle (05 R157, 12 R377, 17 R440). -/
def State.landRefusals (s : State) (dst : RegRef) : State :=
  let l := s.me
  let x := l.refusals
  let s := s.landNow dst x
  let s := s.setMe { s.me with refused := 0, first := 0 }
  if dst = .s 0 && l.refused ≠ 0 then
    s.setMe (s.me.setGroup fun g => { g with defer := g.defer ++ [⟨.remoteError, x, l.wpc⟩] })
  else s

/-- FENCE (09 R270): every access of this machine is performed when its word is, so the fence has only its status; the wait for
acknowledgements holds the word from issue. -/
def execFence (h : Hdr) (f : FmtM) (s : State) : Host.Outcome State Fault Refusal :=
  runPlain h s fun s =>
    if 3 ≤ f.scope.toNat then .ok (s.landRefusals (dstRef (xDst f.x))) else .ok (s.landNow (dstRef (xDst f.x)) 0)

/-- The runs of bus addresses that a byte range meets on host-aperture pages; others are skipped (09 R271). -/
def hostRuns (s : State) (part ctx : Nat) : Nat → Nat → Nat → List (Nat × Nat)
  | 0, _, _ => []
  | fuel + 1, v, n =>
    if n = 0 then []
    else
      let here := min n (2 ^ 16 - v % 2 ^ 16)
      let r := hostRuns s part ctx fuel (v + here) (n - here)
      match walk s part ctx v with
      | .ok e => if e.aperture = 2 then (e.target + (v - e.base), here) :: r else r
      | .error _ => r

/-- Posted writes of a slot's task in a run reach the host. -/
def State.writeBack (s : State) (core k a n : Nat) : State :=
  let q := (s.slot core k).id.seq
  s.flushHost fun x => x.task = some q && a ≤ x.addr && x.addr < a + n

/-- The read buffer of a slot's task holds no byte of a run. -/
def State.dropReads (s : State) (core k a n : Nat) : State :=
  let q := (s.slot core k).id.seq
  { s with host := { s.host with rdBufs := Sparse.set [] s.host.rdBufs q (Sparse.clear (Sparse.get [] s.host.rdBufs q) a n) } }

/-- CFLUSH (09 R271; 05 R161): write back, invalidate, or both; bytes past the end of the global window are skipped.  DESIGN CHOICE: of no
bytes it does nothing, also at an address that is not mapped; R271 does not say which of its two rules comes first. -/
def runCflush (wb inv : Bool) (h : Hdr) (f : FmtM) (s : State) : Host.Outcome State Fault Refusal :=
  runPlain h s fun s =>
    let l := s.me
    let a := addrM l f
    let n := (readSpec l f.x).toNat % 2 ^ 32
    let lo := a / 128 * 128
    let len := min ((a + n + 127) / 128 * 128) (2 ^ 56) - lo
    if n = 0 then .ok s
    else match winOf a with
      | some (.global, _) =>
        if s.host.posted.isEmpty && (Sparse.get [] s.host.rdBufs l.id.seq).isEmpty then .ok s
        else
          let runs := hostRuns s l.id.part (s.jobOf l.id.part l.id.handle) (len / 2 ^ 16 + 2) lo len
          .ok (runs.foldl (fun s (b, m) =>
            let s := if wb then s.writeBack s.cur.1 s.cur.2 b m else s
            if inv then s.dropReads s.cur.1 s.cur.2 b m else s) s)
      | some (.flag, _) => .ok s
      | _ => .trap .addrUnmapped (BitVec.ofNat 64 a) s

/-- Write back (09 R271). -/
def execCflushWb (h : Hdr) (f : FmtM) (s : State) : Host.Outcome State Fault Refusal := runCflush true false h f s
/-- Invalidate (09 R271). -/
def execCflushInv (h : Hdr) (f : FmtM) (s : State) : Host.Outcome State Fault Refusal := runCflush false true h f s
/-- Write back, then invalidate (09 R271). -/
def execCflushWbinv (h : Hdr) (f : FmtM) (s : State) : Host.Outcome State Fault Refusal := runCflush true true h f s

/-- PREF has no effect that any agent can read (09 R272). -/
def execPref (h : Hdr) (f : FmtM) (s : State) : Host.Outcome State Fault Refusal :=
  runPlain h s fun s => let _ := addrM s.me f; .ok s

/-! ### Counting flags and waits (09 R273 to R277) -/

/-- FLAG (09 R273; 03 R83, R84). -/
def execFlag (h : Hdr) (f : FmtAT) (s : State) : Host.Outcome State Fault Refusal :=
  runPlain h s fun s =>
    let l := s.me
    let a := (readSpec l f.a).toNat
    let d := (readSpec l f.b).toNat
    if a % 8 ≠ 0 then .trap .misalign (BitVec.ofNat 64 a) s
    else match checkWin a 8 with
      | .error c => .trap c (BitVec.ofNat 64 a) s
      | .ok (.loc, _) | .ok (.block _, _) | .ok (.ctrs, _) =>
        (match s.access .store a 8 8 false with
        | .trap c x s => .trap c (BitVec.ofNat 64 x) s
        | .walk x k s => .walk x k s
        | .ok segs s =>
          let s := s.noteRange a segs
          .ok (s.rmw .add segs 8 d 0).2)
      | .ok _ => .trap .perm (BitVec.ofNat 64 a) s

/-- A WAITF word: the first test is made at issue; a wait with no limit, or one of `limit` cycles (09 R274 to R277). -/
def runWaitf (h : Hdr) (f : FmtT) (s : State) (timed : Bool) : Host.Outcome State Fault Refusal :=
  runPlain h s fun s =>
    let l := s.me
    let a := (readSpec l f.a).toNat
    let v := readSpec l f.b
    let limit := (readSpec l f.c).toNat % 2 ^ 32
    let dst := dstRef f.dst
    let rel := f.imm.extractLsb' 0 2
    match s.access .load a 8 8 false with
    | .trap c x s => .trap c (BitVec.ofNat 64 x) s
    | .walk x k s => .walk x k s
    | .ok segs s =>
      if !waitable segs then .trap .perm (BitVec.ofNat 64 a) s
      else match poisonAt s a segs with
      | some x => .trap .dataPoison (BitVec.ofNat 64 x) s
      | none =>
        let s := s.noteRange a segs
        let loc := waitLoc segs
        if waitHolds rel (BitVec.ofNat 64 (natOfBytes (readSeg s ⟨loc, 8⟩))) v then .ok (s.landNow dst 0)
        else if timed && limit = 0 then .ok (s.landNow dst 1)
        else
          let s := s.startWait (if timed then .waitfT else .waitf) (BitVec.ofNat 64 a) v rel loc
            (if timed then some (s.cycle + limit) else none) (hdrTag h)
          .ok (s.await (hdrTag h) dst .wait)

/-- WAITF (09 R274 to R276). -/
def execWaitf (h : Hdr) (f : FmtT) (s : State) : Host.Outcome State Fault Refusal := runWaitf h f s false
/-- WAITF.T (09 R277). -/
def execWaitfT (h : Hdr) (f : FmtT) (s : State) : Host.Outcome State Fault Refusal := runWaitf h f s true

/-- The monitors of a die outside the table, in the order in which they came. -/
def State.monitorsAt (s : State) (die : Nat) (p : MonPlace) : List (Waiter × Wait) :=
  (s.waiters.filter fun (x, w) => w.place = p && x.die = die).foldr insertWait []

/-- A waiter's monitor stands elsewhere. -/
def State.placeMonitor (s : State) (x : Waiter) (p : MonPlace) (entry : Nat) : State :=
  match x with
  | .slot c k => let l := s.slot c k; s.setSlot c k { l with wait := l.wait.map fun (w : Wait) => { w with place := p, entry := entry } }
  | .frame d q => s.updRec d q fun r => { r with wait := r.wait.map fun (w : Wait) => { w with place := p, entry := entry } }

/-- The context of a waiter's launch. -/
def State.waiterCtx (s : State) : Waiter → Nat
  | .slot c k => s.jobOf (s.slot c k).id.part (s.slot c k).id.handle
  | .frame d q => match (s.die d).recs.find? fun r => r.seq = q with | some r => s.jobOf r.part r.handle | none => 0

/-- A deferred monitor moves into a free entry of its own partition's area, if there is one (18 R568). -/
def State.undefer (s : State) (die : Nat) (x : Waiter) : State :=
  let p := s.waiterPart x
  match s.ovfFree die p with
  | some i => (s.placeMonitor x .overflow i).ovfWrite die p (s.waiterCtx x) i
  | none => s

/-- Spilled monitors move into free table entries, then deferred ones into free overflow entries (18 R474, R568). -/
def State.moveMonitors (s : State) (die : Nat) : State :=
  let s := ((s.monitorsAt die .overflow).take (1024 - (s.monitorsAt die .table).length)).foldl
    (fun s x => s.placeMonitor x.1 .table 0) s
  (s.monitorsAt die .deferred).foldl (fun s x => s.undefer die x.1) s

/-- A scan of a die: it tests the spilled and deferred monitors, then moves them (09 R278; 18 R474, R568). -/
def State.scan (s : State) (die : Nat) : State :=
  let s := (s.testWaits fun d => d == die).moveMonitors die
  s.setDie die { s.die die with scanned := s.cycle + 1 }

/-- MONITOR_SCAN: the scan of a die at its phase in every 4,096 cycles. -/
def execMonitorScan (die : Nat) (s : State) : Host.Outcome State Fault Refusal :=
  .next (if s.cycle % 4096 = Config.scanPhase die % 4096 then s.scan die else s)

/-- Whether a die has a monitor that its last scan point was to test and no scan has. -/
def State.scanDue (s : State) (die : Nat) : Bool :=
  let ws := s.waiters.filter fun (x, w) => x.die = die && (w.place = .overflow || w.place = .deferred)
  !ws.isEmpty && match s.scanPoint die with
    | some p => decide ((s.die die).scanned ≤ p) && ws.any fun x => decide (x.2.since ≤ p)
    | none => false

/-- WAIT_TIMEOUT: the limit of a slot's wait passes, if it has (09 R277); a condition met in the same cycle stands first, and of a spilled
wait the scan that is due. -/
def execWaitTimeout (core slot : Nat) (s : State) : Host.Outcome State Fault Refusal :=
  .next <|
    match (s.slot core slot).wait with
    | some w =>
      (match w.kind, w.deadline with
      | .waitfT, some d =>
        if d ≤ s.cycle then
          let spilled := w.place = .overflow || w.place = .deferred
          if spilled && s.scanDue (coreDie core) then s.scan (coreDie core)
          else match (if spilled then none else s.testWait (.slot core slot) w) with
          | some (v, s) => s.endWait (.slot core slot) w v
          | none => s.endWait (.slot core slot) w (some (w.status true))
        else s
      | _, _ => s)
    | none => s

/-- Every scan comes at its phase, whatever else the device does (18 R474). -/
def State.scans (s : State) : State := (s.dies.map (·.1)).foldl (fun s d => if s.scanDue d then s.scan d else s) s

end Machine
end Sys2Proof
end

