-- ==== Sys2Proof/Machine/Copies.lean ====
section
/-! DEFINITION. Engines' accesses (09 R284, 19 R486, R492) and the copy engines (09 R279 to R284). -/

namespace Sys2Proof
namespace Machine

/-! ### Accesses of engines -/

/-- What an engine's access comes to: its runs; a page to wait for, with the machine after its fault record; or a refusal with
the code of Table 9-7. -/
inductive ERes where
  | ok (segs : List Seg) (s : State)
  | wait (waits : Option PageWait) (s : State)
  | refuse (code : BitVec 8)

/-- EVTCNT of a partition on a core's die. -/
def State.evtOf (s : State) (core part : Nat) : Word := ((s.die (coreDie core)).march part).evtcnt

/-- Whether bytes at `a` lie on the page that an engine waits for. -/
def PageWait.meets (w : PageWait) (a n : Nat) : Bool :=
  a / 2 ^ 16 ≤ w.addr.toNat / 2 ^ 16 && w.addr.toNat / 2 ^ 16 ≤ (a + n - 1) / 2 ^ 16

/-- The number by which a fault record names an engine's core (19 Table 19-4). -/
def Agent.coreNo (g : Agent) : Nat := if g.engine = 5 || g.engine = 6 then 0xFFFF else g.core

/-- Whether the fault record of an agent's byte is held back: its task or engine stays waiting until HEAD frees an entry (19 R493). -/
def State.recordHeld (s : State) (part engine core : Nat) (a : Word) : Bool :=
  (s.part part).held.any fun r => let f (o n : Nat) : Nat := natOfBytes ((r.bytes.drop o).take n)
    f 0 8 = a.toNat && f 0x14 1 = engine && f 0x16 2 = core

/-- An engine's access of `n` bytes at `a` (09 R284): a page that fails step 1 or 2 leaves one fault record and is waited for, until its
record is written and EVTCNT has risen; `waits` is the page that the engine waits for, if any (19 R492, R493). -/
def engineAccess (s : State) (g : Agent) (k : Acc) (a n : Nat) (waits : Option PageWait) : ERes :=
  let evt := s.evtOf g.core g.part
  let absent (cause acc x : Nat) (s : State) : ERes :=
    let same : Bool := match waits with | some w => w.meets x 1 | none => false
    .wait (some ⟨evt, if same then (waits.map (·.addr)).getD 0 else BitVec.ofNat 64 x⟩) (if same then s
      else s.faultRecord g.part (BitVec.ofNat 64 x) 0 g.ctx cause acc g.engine (coreDie g.core) g.coreNo)
  let stays : Bool := match waits with
    | some w => w.meets a n && (w.evt = evt || s.recordHeld g.part g.engine g.coreNo w.addr)
    | none => false
  match checkWin a n with
  | .error _ => .refuse 4
  | .ok (.pod _ _, _) | .ok (.ctrs, _) => .refuse 4
  | .ok _ =>
    if stays then .wait waits s
    else match resolve s g k a n with
      | .ok segs s => .ok segs s
      | .absent f x s => absent 0x10 (accessCode k f) x s
      | .fault .ownership x => absent 0x13 (accessCode k ⟨false, false⟩) x s
      | .fault .enginePerm _ => .refuse 3
      | .fault _ _ => .refuse 2
      | .walk _ s => .wait waits s

/-- What an engine waits for after an access to bytes that are there. -/
def waitsAfter (waits : Option PageWait) (a n : Nat) : Option PageWait := waits.filter fun w => !w.meets a n

/-- Physical poison of a run's place as a read by an engine finds it. -/
def runsPoison (s : State) (segs : List Seg) : Bool := segs.any (segPoison s)

/-! ### Commands -/

/-- The commands of a core that hold an engine place. -/
def Core.engineLoad (c : Core) (e : Nat) : Nat := (c.copies.filter fun x => x.2.engine = some e).length

/-- An engine with a free place, the least loaded first (09 R279). -/
def Core.freeEngine (c : Core) : Option Nat :=
  (List.range 4).foldl (fun (b : Option Nat) e =>
    if 8 ≤ c.engineLoad e then b
    else match b with | none => some e | some x => if c.engineLoad e < c.engineLoad x then some e else b) none

/-- A copy command goes to an engine, or to the intake behind the commands that wait there (09 R279). -/
def State.startCopy (s : State) (f : FmtT) (tag : Nat) (scale : Bool) (d src t lines : Nat) : State :=
  let l := s.me
  let c := s.myCore
  let id := c.nextCopy
  let queued := c.copies.any fun x => x.2.engine.isNone
  let cmd : CopyCmd :=
    { own := s.owner, tag := tag, dst := dstRef f.dst, wpc := l.wpc, isScale := scale, d := BitVec.ofNat 64 d,
      s := BitVec.ofNat 64 src, lines := lines, lay := [], t := BitVec.ofNat 64 t, acq := f.acq = 1, rel := f.rel = 1,
      scope := f.scope, engine := if queued then none else c.freeEngine, pos := 0, doneN := 0, code := 0, finished := false,
      handle := l.id.handle, scratch := l.id.hdr.scratch, job := s.jobOf l.id.part l.id.handle, part := l.id.part }
  let s := s.setMyCore { c with copies := Sparse.put c.copies id cmd, nextCopy := id + 1 }
  s.await tag (dstRef f.dst) (.copy id)

/-- CPY (09 R280, R281).  DESIGN CHOICE: of several traps at issue a misplaced record comes first, then a misplaced target, then a target
outside the local and block windows; the rules give no order. -/
def execCpy (h : Hdr) (f : FmtT) (s : State) : Host.Outcome State Fault Refusal :=
  runPlain h s fun s =>
    let l := s.me
    let d := (readSpec l f.a).toNat
    let src := (readSpec l f.b).toNat
    let t := (readSpec l f.c).toNat
    if t % 64 ≠ 0 then .trap .misalign (BitVec.ofNat 64 t) s
    else if f.imm ≠ 0 && d % 128 ≠ 0 then .trap .misalign (BitVec.ofNat 64 d) s
    else if f.imm ≠ 0 && !inLocal d then .trap .perm (BitVec.ofNat 64 d) s
    else .ok (s.startCopy f (hdrTag h) false d src t f.imm.toNat)

/-- CPY.SCALE (09 R282). -/
def execCpyScale (h : Hdr) (f : FmtT) (s : State) : Host.Outcome State Fault Refusal :=
  runPlain h s fun s =>
    let l := s.me
    let src := (readSpec l f.b).toNat
    if src % 32 ≠ 0 then .trap .misalign (BitVec.ofNat 64 src) s
    else .ok (s.startCopy f (hdrTag h) true 0 src (readSpec l f.a).toNat 0)

/-- COPY_INTAKE_DISPATCH: the oldest waiting command passes to a place that is free (09 R279). -/
def execCopyIntakeDispatch (core : Nat) (s : State) : Host.Outcome State Fault Refusal :=
  .next <|
    let c := s.core core
    match c.copies.find? fun x => x.2.engine.isNone, c.freeEngine with
    | some (id, cmd), some e =>
      s.setCore core { c with copies := Sparse.put c.copies id { cmd with engine := some e } }
    | _, _ => s

/-! ### Records -/

/-- The copy layout record (09 Table 9-6). -/
structure Layout where
  n0 : Nat
  n1 : Nat
  n2 : Nat
  flags : Nat
  ok : Bool
  srow : Word
  splane : Word
  drow : Word
  dplane : Word
  deriving DecidableEq, Repr

/-- The fields of a copy layout record.  DESIGN CHOICE: one whose reserved bytes or bits are not zero is BADDESC, as a version other than
0x01 is; Table 9-6 says no more of them than that they are reserved. -/
def layoutOf (bs : List Byte) : Layout :=
  let f (o n : Nat) := natOfBytes ((bs.drop o).take n)
  let w (o : Nat) : Word := BitVec.ofNat 64 (f o 8)
  { n0 := f 0 4, n1 := f 4 4, n2 := f 8 4, flags := f 0xD 1,
    ok := f 0 4 ≠ 0 && f 4 4 ≠ 0 && f 8 4 ≠ 0 && f 0xC 1 = 1 && f 0xD 1 < 2 && f 0xE 2 = 0 && f 0x30 16 = 0,
    srow := w 0x10, splane := w 0x18, drow := w 0x20, dplane := w 0x28 }

def Layout.size (y : Layout) : Nat := y.n0 * y.n1 * y.n2

/-- The source address of byte `i` in the order of R280. -/
def Layout.src (y : Layout) (base : Word) (i : Nat) : Nat :=
  let row := i / y.n0
  (base + BitVec.ofNat 64 (row / y.n1) * y.splane + BitVec.ofNat 64 (row % y.n1) * y.srow + BitVec.ofNat 64 (i % y.n0)).toNat

/-- Its destination address without the fill form. -/
def Layout.dst (y : Layout) (base : Word) (i : Nat) : Nat :=
  let row := i / y.n0
  (base + BitVec.ofNat 64 (row / y.n1) * y.dplane + BitVec.ofNat 64 (row % y.n1) * y.drow + BitVec.ofNat 64 (i % y.n0)).toNat

/-- The scale layout record (04 Table 4-6, R102). -/
structure ScaleRec where
  base : Word
  dim0 : Nat
  dim1 : Nat
  stride0 : Word
  stride1 : Word
  bs : Nat
  axis : Nat
  es : Nat
  ok : Bool
  deriving DecidableEq, Repr

def scaleOf (b : List Byte) : ScaleRec :=
  let f (o n : Nat) := natOfBytes ((b.drop o).take n)
  let sx (o : Nat) : Word := (BitVec.ofNat 32 (f o 4)).signExtend 64
  { base := BitVec.ofNat 64 (f 0 8), dim0 := f 8 4, dim1 := f 0xC 4, stride0 := sx 0x10, stride1 := sx 0x14,
    bs := match f 0x18 1 with | 1 => 16 | 2 => 32 | _ => 64, axis := f 0x19 1, es := f 0x1A 1,
    ok := f 8 4 ≠ 0 && f 0xC 4 ≠ 0 && 1 ≤ f 0x18 1 && f 0x18 1 ≤ 3 && f 0x19 1 ≤ 1 && (f 0x1A 1 = 1 || f 0x1A 1 = 2) &&
      f 0x1B 1 = 1 && f 0x1C 4 = 0 && !(f 0x1A 1 = 2 && f 0x18 1 ≠ 2) }

/-- Entries of a scale tensor, and the entries of one line of its table (09 R282). -/
def ScaleRec.perRow (r : ScaleRec) : Nat := if r.axis = 1 then (r.dim1 + r.bs - 1) / r.bs else r.dim1
def ScaleRec.count (r : ScaleRec) : Nat := (if r.axis = 1 then r.dim0 else (r.dim0 + r.bs - 1) / r.bs) * r.perRow
/-- The address of entry `i` in the order of the scale memory (04 R102). -/
def ScaleRec.addr (r : ScaleRec) (i : Nat) : Nat :=
  (r.base + BitVec.ofNat 64 (i / r.perRow) * r.stride0 + BitVec.ofNat 64 (i % r.perRow) * r.stride1).toNat

/-! ### Progress -/

/-- On whose behalf a copy engine acts. -/
def CopyCmd.agent (x : CopyCmd) (core : Nat) : Agent := ⟨x.part, x.job, x.handle, core, x.scratch, 1 + x.engine.getD 0⟩

def State.setCopy (s : State) (core id : Nat) (x : CopyCmd) : State :=
  let c := s.core core
  s.setCore core { c with copies := Sparse.put c.copies id x }

/-- The first out-of-range byte of an engine's access, noted for its task (03 R82). -/
def State.engineRange (s : State) (o : Owner) (a : Nat) (segs : List Seg) : State :=
  match oorAt a segs with
  | some x => s.ownerOor o (BitVec.ofNat 64 x)
  | none => s

/-- Whether the engine can take one step more, what it has become and the machine. -/
abbrev CopyStep := Bool × CopyCmd × State

def CopyCmd.stop (x : CopyCmd) (code : BitVec 8) (s : State) : CopyStep := (false, { x with code := code, finished := true }, s)
def CopyCmd.hold (x : CopyCmd) (waits : Option PageWait) (s : State) : CopyStep := (false, { x with waits := waits }, s)

/-- A place as space and offset, for comparing places (09 R280). -/
def locKey : Loc → Nat × Nat
  | .scr c o => (1 + 8 * c, o)
  | .sync d o => (2 + 8 * d, o)
  | .flag p o => (3 + 8 * p, o)
  | .ctr b o => (4 + 8 * b, o)
  | .hbm a | .ext a => (5, a)
  | .host a => (6, a)
  | .peer c o => (7 + 8 * c, o)
  | .oor | .denied _ => (0, 0)

/-- A remote word made on behalf of a copy engine. -/
def CopyCmd.word (x : CopyCmd) (core : Nat) : RemoteWord :=
  { op := opStore, a := 0, b := 0, c := 0, d := 0, fill := false, eos := false, sig := false, ty := 0, acq := false, scope := 0,
    data := [], core := core, own := x.own, tag := 0, wpc := x.wpc, part := x.part, job := x.job, fired := none, seq := 0,
    handle := x.handle, scratch := x.scratch }

/-- Writes bytes of a copy engine to runs with what poison makes of the destination: the machine and the bytes written (09 R284).
A host page takes posted writes of the task (05 R161), a peer page puts that answer to command `id` (05 R142).  `bad` says that the
data carries poison, `unit` of each byte whether the unit that holds it does. -/
def engineWrite (s : State) (id : Nat) (agent : RemoteWord) (segs : List Seg) (bs : List Byte) (bad : Bool) (unit : Nat → Bool) :
    State × Nat :=
  let go (acc : State × Nat × Nat) (g : Seg) : State × Nat × Nat :=
    let (s, i, n) := acc
    let b := (bs.drop i).take g.len
    match g.loc with
    | .oor => (s, i + g.len, n)
    | .peer chip q =>
      let w := { agent with op := opStore, a := BitVec.ofNat 64 (podAddr chip q), b := BitVec.ofNat 64 id,
                            c := BitVec.ofNat 64 b.length, data := b, reply := 5, poison := bad }
      (s.enqueue w.core w, i + g.len, n + g.len)
    | .host a => (s.postHost (some agent.part) (some agent.own.seq) a b bad, i + g.len, n + g.len)
    | .sync _ _ | .flag _ _ =>
      let (s, n) := b.zipIdx.foldl (fun (s, n) (x, j) =>
        if unit (i + j) then (s, n)
        else
          let loc := match g.loc with | .sync d o => Loc.sync d (o + j) | .flag p o => .flag p (o + j) | l => l
          (writeSeg s ⟨loc, 1⟩ [x], n + 1)) (s, n)
      (s, i + g.len, n)
    | _ =>
      let s := writeSeg s g b
      (if bad then poisonSeg s g else s, i + g.len, n + g.len)
  let (s, _, n) := segs.foldl go (s, 0, 0)
  (s, n)

/-- The puts that a write to runs sends. -/
def peerRuns (segs : List Seg) : Nat := (segs.filter isPeer).length

/-- The runs of a copy's source from byte `skip` on, as far as they go: a run on a peer chip is read by the slow path (19 R490) once
the queue of the core takes the word. -/
def sourceRuns (core id : Nat) : List Seg → Nat → CopyCmd → State → Except CopyStep (CopyCmd × State)
  | [], _, x, s => .ok (x, s)
  | g :: r, skip, x, s =>
    if g.len ≤ skip then sourceRuns core id r (skip - g.len) x s
    else match g.loc with
      | .peer chip q =>
        if x.asked || s.queueFull core then .error (false, x, s)
        else
          let w := { x.word core with
            op := opRead, a := BitVec.ofNat 64 (podAddr chip (q + skip)), b := BitVec.ofNat 64 (g.len - skip),
            c := BitVec.ofNat 64 id, reply := 1 }
          .error (false, { x with asked := true }, s.enqueue core w)
      | _ =>
        sourceRuns core id r 0
          { x with got := x.got ++ (readSeg s g).drop skip, gotBad := x.gotBad || segPoison s g } s

/-- Bytes of a copy's source: the bytes, whether they carry poison, and the step where they are not all there yet. -/
def copySource (s : State) (core id : Nat) (x : CopyCmd) (a n : Nat) : Except CopyStep (List Byte × Bool × CopyCmd × State) :=
  match engineAccess s (x.agent core) .load a n x.waits with
  | .refuse c => .error (x.stop c s)
  | .wait e s => .error (x.hold e s)
  | .ok segs s =>
    match sourceRuns core id segs x.got.length { x with waits := waitsAfter x.waits a n } (s.engineRange x.own a segs) with
    | .error r => .error r
    | .ok (x, s) => .ok (x.got.take n, x.gotBad, { x with got := [], gotBad := false, asked := false }, s)

/-- What the record that the command names says of it, checked before any byte is written (09 R280 to R282). -/
def copyChecked (x : CopyCmd) (bs : List Byte) (s : State) : CopyStep :=
  let x := { x with lay := bs, waits := none }
  if x.isScale then
    let r := scaleOf bs
    let t := x.t.toNat
    if !r.ok || fld t 15 14 ≠ 0 || fld t 63 18 ≠ 0 || 16384 < fld t 13 0 + r.count * r.es then x.stop 1 s else (true, x, s)
  else
    let y := layoutOf bs
    if !y.ok || (x.lines = 0 && y.flags ≠ 0) || (x.lines ≠ 0 && y.size ≠ 128 * x.lines) then x.stop 1 s else (true, x, s)

/-- Reads the record that the command names, and checks it (09 R280 to R282). -/
def copyRecord (s : State) (core id : Nat) (x : CopyCmd) : CopyStep :=
  let n := if x.isScale then 32 else 64
  let a := if x.isScale then x.s.toNat else x.t.toNat
  match copySource s core id x a n with
  | .error r => r
  | .ok (bs, bad, x, s) => if bad then x.stop 5 s else copyChecked x bs s

/-! ### Copies onto themselves (09 R280) -/

/-- The space, the offset and the length of a run. -/
def Seg.key (g : Seg) : Nat × Nat × Nat := ((locKey g.loc).1, (locKey g.loc).2, g.len)

/-- A place some bytes further on. -/
def Loc.shift (n : Nat) : Loc → Loc
  | .scr c o => .scr c (o + n) | .sync d o => .sync d (o + n) | .flag p o => .flag p (o + n) | .ctr b o => .ctr b (o + n)
  | .hbm a => .hbm (a + n) | .ext a => .ext (a + n) | .host a => .host (a + n) | .peer c o => .peer c (o + n)
  | .oor => .oor | .denied a => .denied (a.map (· + n))

/-- The part of a run that lies in another. -/
def Seg.meet (g h : Seg) : Option Seg :=
  let (a, o, n) := g.key
  let (b, p, m) := h.key
  let lo := max o p
  let hi := min (o + n) (p + m)
  if a = b && a ≠ 0 && lo < hi then some ⟨g.loc.shift (lo - o), hi - lo⟩ else none

/-- The runs of the rows that begin at addresses. -/
def rowRuns (s : State) (g : Agent) (k : Acc) (n : Nat) (rows : List Nat) : List Seg :=
  rows.flatMap fun a => match resolve s g k a n with | .ok segs _ => segs | _ => []

/-- The runs of a copy's whole source. -/
def CopyCmd.source (x : CopyCmd) (s : State) (core : Nat) : List Seg :=
  let y := layoutOf x.lay
  rowRuns s (x.agent core) .load y.n0 ((List.range (y.n1 * y.n2)).map fun r => y.src x.s (r * y.n0))

/-- The parts of destination runs that are source bytes of the same copy too, which end holding unspecified values. -/
def copyOverlap (src dst : List Seg) : List Seg := dst.flatMap fun g => src.filterMap fun h => g.meet h

/-- The bytes of a piece copied one by one in ascending order: one whose source the piece itself has written takes that value. -/
def bytewise (src dst : List Seg) (bs : List Byte) : List Byte :=
  if (copyOverlap src dst).isEmpty then bs
  else
    let key (l : List Seg) : List (Nat × Nat) := l.flatMap fun g => (List.range g.len).map fun i => (g.key.1, g.key.2.1 + i)
    let ss := key src
    let ds := key dst
    ((List.range bs.length).foldl (fun (out : List Byte) i =>
      let j := (List.range i).reverse.find? fun j => (ss.getD i (0, 0)).1 ≠ 0 && ds.getD j (0, 0) = ss.getD i (0, 0)
      out ++ [match j with | some j => out.getD j 0 | none => bs.getD i 0]) [])

/-- The runs of a copy's whole destination. -/
def CopyCmd.target (x : CopyCmd) (s : State) (core : Nat) : List Seg :=
  let y := layoutOf x.lay
  if x.lines ≠ 0 then rowRuns s (x.agent core) .store 128 ((List.range x.lines).map fun i => x.d.toNat + 128 * i)
  else rowRuns s (x.agent core) .store y.n0 ((List.range (y.n1 * y.n2)).map fun r => y.dst x.d (r * y.n0))

/-- The end of a copy, whose bytes are all written: its `k`-th part of the bytes that are both source and destination takes free
values. -/
def copyBlur (s : State) (core id : Nat) (x : CopyCmd) (k : Nat) : CopyStep :=
  match (copyOverlap (x.source s core) (x.target s core))[k]? with
  | none => x.stop x.code s
  | some g =>
    if isPeer g && s.queueFull core then (false, x, s)
    else
      let bs : List Byte := (List.range g.len).map fun i => (Config.freeWord (s.freeCtr + i)).setWidth 8
      let (s, _) := engineWrite { s with freeCtr := s.freeCtr + g.len } id (x.word core) [g] bs false fun _ => false
      (true, { x with pos := x.pos + 1, outs := x.outs + peerRuns [g] }, s)

/-- The length of the next piece of a plain copy: within a row, and up to a 64-byte boundary of the destination, so that no aligned
8-byte unit of a row is written in two steps (05 R134). -/
def pieceLen (y : Layout) (x : CopyCmd) : Nat :=
  min (y.n0 - x.pos % y.n0) (64 - y.dst x.d x.pos % 64)

/-- The length of the next read of a copy's source from byte `i` of its order on, where `n` bytes are still wanted: within a row and a
64-byte unit, and to the end of the last aligned 8-byte unit, which is read whole (05 R134). -/
def chunkLen (y : Layout) (src : Word) (i n : Nat) : Nat :=
  let a := y.src src i
  min (y.n0 - i % y.n0) (min (64 - a % 64) ((a + n + 7) / 8 * 8 - a))

/-- Whether a byte of the source carries poison. -/
def poisonedByte (s : State) (g : Agent) (a : Nat) : Bool :=
  match resolve s g .load a 1 with | .ok r s => runsPoison s r | _ => false

/-- Whether the aligned 8-byte unit of a destination address takes poison from any row of a copy (09 R284). -/
def unitPoisoned (s : State) (core : Nat) (x : CopyCmd) (a : Nat) : Bool :=
  let y := layoutOf x.lay
  let lo := a / 8 * 8
  (List.range (y.n1 * y.n2)).any fun r =>
    let b := y.dst x.d (r * y.n0)
    (List.range 8).any fun j => b ≤ lo + j && lo + j < b + y.n0 && poisonedByte s (x.agent core) (y.src x.s (r * y.n0 + (lo + j - b)))

/-- Whether a row of a copy lies in one window that an engine may use (09 R284). -/
def wholeRow (a n : Nat) : Bool :=
  match checkWin a n with
  | .ok (.pod _ _, _) | .ok (.ctrs, _) | .error _ => false
  | .ok _ => true

/-- Reads a copy's source from byte `base` of its order on until `x.line` holds `want` bytes; more of them are the rest of the last
aligned 8-byte unit.  The step that it stops at, if any. -/
def gather (core id : Nat) (y : Layout) (base want : Nat) : Nat → State → CopyCmd → Option CopyStep × CopyCmd × State
  | 0, s, x => (none, x, s)
  | fuel + 1, s, x =>
    if want ≤ x.line.length then (none, x, s)
    else
      let i := base + x.line.length
      if !wholeRow (y.src x.s (i / y.n0 * y.n0)) y.n0 then (some (x.stop 4 s), x, s)
      else match copySource s core id x (y.src x.s i) (chunkLen y x.s i (want - x.line.length)) with
        | .error r => (some r, r.2.1, r.2.2)
        | .ok (b, p, x, s) => gather core id y base want fuel s { x with line := x.line ++ b, lineBad := x.lineBad || p }

/-- The source of `n` bytes of a copy's order, byte by byte. -/
def CopyCmd.sourceBytes (x : CopyCmd) (s : State) (core base n : Nat) : List Seg :=
  rowRuns s (x.agent core) .load 1 ((List.range n).map fun i => (layoutOf x.lay).src x.s (base + i))

/-- The first `n` bytes that a copy has read have been written to runs: what it keeps of the others, which are read again where the
copy itself has changed them. -/
def CopyCmd.keepRest (x : CopyCmd) (s : State) (core base n : Nat) (segs : List Seg) : CopyCmd :=
  let rest := x.line.drop n
  let src := x.sourceBytes s core (base + n) rest.length
  if rest.isEmpty || !(copyOverlap src segs).isEmpty then { x with line := [], lineBad := false }
  else { x with line := rest, lineBad := x.lineBad && (src.any isPeer || runsPoison s src) }

/-- The aligned 8-byte units of a destination that take poison read from another chip, beside those noted before. -/
def CopyCmd.noteUnits (x : CopyCmd) (s : State) (core a base n : Nat) : CopyCmd :=
  if x.lineBad && (x.sourceBytes s core base n).any isPeer then
    { x with badUnits := x.badUnits ++ ((List.range (a % 8 + n)).filterMap fun i => if i % 8 = 0 then some (a / 8 + i / 8) else none) }
  else x

/-- One piece of a plain copy (09 R280, R284). -/
def copyPiece (s : State) (core id : Nat) (x : CopyCmd) : CopyStep :=
  let y := layoutOf x.lay
  if y.size ≤ x.pos then copyBlur s core id x (x.pos - y.size)
  else
    let row := x.pos / y.n0 * y.n0
    if !wholeRow (y.src x.s row) y.n0 || !wholeRow (y.dst x.d row) y.n0 then x.stop 4 s
    else
      let before := x.code
      let (e, x, s) := gather core id y x.pos (pieceLen y x) 129 s x
      let n := min (pieceLen y x) x.line.length
      let finish : Option (BitVec 8) := match e with
        | some (_, z, _) => if z.finished then some z.code else none
        | none => none
      if (e.isSome && finish.isNone) || n = 0 then (false, { x with code := finish.getD before, finished := finish.isSome }, s)
      else
        let x := { x with code := before, finished := false }
        let a := y.dst x.d x.pos
        match engineAccess s (x.agent core) .store a n x.waits with
        | .refuse c => x.stop c s
        | .wait e s => x.hold e s
        | .ok segs s =>
          if segs.any isPeer && s.queueFull core then (false, x, s)
          else
            let s := s.engineRange x.own a segs
            let x := { x with waits := waitsAfter x.waits a n }.noteUnits s core a x.pos n
            let bs := bytewise (x.sourceBytes s core x.pos n) segs (x.line.take n)
            let (t, w) := engineWrite s id (x.word core) segs bs x.lineBad fun i =>
              x.badUnits.contains ((a + i) / 8) || unitPoisoned s core x (a + i)
            let code := finish.getD (if x.lineBad then 5 else x.code)
            (finish.isNone, { x.keepRest t core x.pos n segs with
              pos := x.pos + n, doneN := x.doneN + w, code := code, finished := finish.isSome, outs := x.outs + peerRuns segs }, t)

/-- One scale entry (09 R282): no routine sees it before the task has consumed the token (09 R283). -/
def copyEntry (s : State) (core id : Nat) (x : CopyCmd) : CopyStep :=
  let r := scaleOf x.lay
  if r.count ≤ x.pos then x.stop x.code s
  else match copySource s core id x (r.addr x.pos) r.es with
    | .error e => e
    | .ok (bs, bad, x, s) =>
      (true, { x with pos := x.pos + 1, doneN := x.doneN + 1, code := if bad then 5 else x.code,
                      due := x.due ++ [(fld x.t.toNat 13 0 + x.pos * r.es, bs)] }, s)

/-- One line of a fill: a line that is not EMPTY is waited for (09 R281; 03 R80). -/
def copyLine (s : State) (core id : Nat) (x : CopyCmd) : CopyStep :=
  let y := layoutOf x.lay
  if x.lines ≤ x.pos then copyBlur s core id x (x.pos - x.lines)
  else
    let a := x.d.toNat + 128 * x.pos
    match engineAccess s (x.agent core) .store a 128 x.waits with
    | .refuse c => x.stop c s
    | .wait e s => x.hold e s
    | .ok segs s =>
      let s := s.engineRange x.own a segs
      let ready := segs.all fun g => match g.loc with
        | .scr c o => (s.core c).line (o / 128) == lnEmpty
        | _ => true
      if !ready then (false, x, s)
      else
        let put (x : CopyCmd) (s : State) (n : Nat) : State × Nat :=
          engineWrite s id (x.word core) segs (bytewise (x.sourceBytes s core (128 * x.pos) n) segs (x.line.take n)) false
            (fun _ => false)
        match gather core id y (128 * x.pos) 128 129 s { x with waits := waitsAfter x.waits a 128 } with
        | (some (_, x', _), x, s) =>
          if x'.finished then
            let (t, w) := put x s (min 128 x.line.length)
            (false, { x' with doneN := x.doneN + min w x.line.length, line := [], lineBad := false }, t)
          else (false, x', s)
        | (none, x, s) =>
          let (t, w) := put x s 128
          let st := if x.lineBad then lnPoison else if y.flags = 1 && x.pos + 1 = x.lines then lnEos else lnFull
          let t := segs.foldl (fun s g => match g.loc with | .scr c o => s.setLine c (o / 128) st | _ => s) t
          (true, { x.keepRest s core (128 * x.pos) 128 segs with
            pos := x.pos + 1, doneN := x.doneN + w, code := if x.lineBad then 5 else x.code }, t)

/-- One step of a command: its record, then a line, a piece or an entry. -/
def copyStep (s : State) (core id : Nat) (x : CopyCmd) : CopyStep :=
  if x.lay.isEmpty then copyRecord s core id x
  else if x.isScale then copyEntry s core id x
  else if x.lines ≠ 0 then copyLine s core id x
  else copyPiece s core id x

/-- Steps until the command is finished or waits. -/
def copyRun (core id : Nat) : Nat → State → CopyCmd → CopyCmd × State
  | 0, s, x => (x, s)
  | fuel + 1, s, x =>
    match copyStep s core id x with
    | (true, x, s) => copyRun core id fuel s x
    | (false, x, s) => (x, s)

/-- A bound of the steps of any command. -/
def copyFuel : Nat := 2 ^ 192

/-- The token status (09 Table 9-7). -/
def CopyCmd.token (x : CopyCmd) : Word := BitVec.ofNat 64 (min x.doneN 0xFFFFFFFF * 2 ^ 32 + x.code.toNat)

/-- COPY_LINE_FILL: an engine reads its record, or writes one line of a fill once it is EMPTY (09 R281). -/
def execCopyLineFill (core cmd : Nat) (s : State) : Host.Outcome State Fault Refusal :=
  .next <|
    match Sparse.find (s.core core).copies cmd with
    | some x =>
      if x.engine.isNone || x.finished then s
      else
        let (_, x, s) := copyStep s core cmd x
        s.setCopy core cmd x
    | none => s

/-- The end of a command: its token and the retirement of its tag; scale entries wait for the token's consumption, in the core or the
frame where the task is (09 R283). -/
def State.endCopy (s : State) (core id : Nat) (x : CopyCmd) : State :=
  let c := s.core core
  let s := s.setCore core { c with copies := Sparse.del c.copies id }
  let d : ScaleDue := ⟨x.own.seq, x.tag, x.dst, fld x.t.toNat 17 16, x.due⟩
  let s := if x.due.isEmpty then s
    else match s.whereIs x.own with
      | .inl (some (e, _)) => s.setCore e { s.core e with scaleDue := (s.core e).scaleDue ++ [d] }
      | .inr (some (e, r)) => s.updRec e r.seq fun r => { r with side := { r.side with scaleDue := r.side.scaleDue ++ [d] } }
      | _ => s
  s.complete x.own x.tag (fun r => r.op == .copy id) (some (x.token.setWidth 4096))

/-- CPY_COMPLETION: an engine goes on to the end of its command where no line or page holds it.  When all its writes have performed,
those to peer chips acknowledged (05 R142), and, for a release at chip scope or wider, every remote word of the core (05 R143,
R156), it writes the token status and retires the tag (09 R283). -/
def execCpyCompletion (core cmd : Nat) (s : State) : Host.Outcome State Fault Refusal :=
  .next <|
    match Sparse.find (s.core core).copies cmd with
    | some x =>
      if x.engine.isNone then s
      else
        let (x, s) := if x.finished then (x, s) else copyRun core cmd copyFuel s x
        if x.finished && x.outs = 0 && !(x.rel && 3 ≤ x.scope.toNat && (s.core core).acks ≠ 0) then s.endCopy core cmd x
        else s.setCopy core cmd x
    | none => s

end Machine
end Sys2Proof
end

