-- ==== Sys2Proof/Machine/Tasks.lean ====
section
/-! DEFINITION. Task words: SPAWN, DEP, SUSP, BAR and GETC (09 R292 to R298; 02 R37 to R39). -/

namespace Sys2Proof
namespace Machine

/-! ### Records that words name -/

/-- The access of a word to a record or descriptor in the global window: MISALIGN, ADDR_UNMAPPED, PERM of another window, then
the faults of the page (09 R292 to R294).  DESIGN CHOICE: a record on a page of a peer chip is PERM for SPAWN, DEP and
SUSP.SUSPEND; the manual names PERM outside the global window only, and no way in which a Solstice step acts on another chip. -/
def State.recordAccess (s : State) (a n align : Nat) (k : Acc) : ARes :=
  match winOf a with
  | some (.global, _) =>
    match s.access k a n align false with
    | .ok segs s => if segs.any isPeer then .trap .perm a s else .ok segs s
    | r => r
  | w => .trap (if a % align ≠ 0 then .misalign else if w.isSome then .perm else .addrUnmapped) a s

/-- Turns an access into a word's result. -/
def ARes.word (r : ARes) (f : List Seg → State → WRes) : WRes :=
  match r with
  | .ok segs s => f segs s
  | .trap c a s => .trap c (BitVec.ofNat 64 a) s
  | .walk a k s => .walk a k s

/-- A word that reads poison traps DATA_POISON (21 R544; 22 R567). -/
def State.unpoisoned (s : State) (a : Nat) (segs : List Seg) (f : State → WRes) : WRes :=
  match poisonAt s a segs with
  | some x => .trap .dataPoison (BitVec.ofNat 64 x) s
  | none => f s

/-- Fields of a record's bytes (02 Tables 2-2, 2-3). -/
def recF (bs : List Byte) (o n : Nat) : Nat := natOfBytes ((bs.drop o).take n)
def recState (bs : List Byte) : Nat := fld (recF bs 0 8) 3 0
def recVer (bs : List Byte) : Nat := fld (recF bs 0 8) 47 32

/-- SPAWN (09 R292).  The record's reserved bytes are zero from its creation on (02 R27). -/
def execSpawn (h : Hdr) (f : FmtT) (s : State) : Host.Outcome State Fault Refusal :=
  runPlain h s fun s =>
    let l := s.me
    let id := l.id
    let a := (readSpec l f.a).toNat
    (s.recordAccess a 256 256 .atomic).word fun segs s =>
      s.unpoisoned a segs fun s =>
      let bs := readSegs s segs
      let held := s.recAt id.part (s.jobOf id.part id.handle) (BitVec.ofNat 64 a)
      if held.isSome || recState bs ≠ 0 || recVer bs ≠ 1 then .ok (s.launchErr id.part id.handle 1)
      else
        let prio := fld (recF bs 0 8) 10 4
        let dep := recF bs 8 4
        let aff : Word := BitVec.ofNat 64 (recF bs 0x10 8)
        let bs := putField bs 0 8 (recHdr id.handle prio (if dep = 0 then 2 else 1) false)
        let bs := putField (putField (putField bs 0xC 2 0) 0x18 8 id.kernel.toNat) 0x24 4 id.coord.toNat
        let bs := zeroReserved bs
        let s := writeSegs s segs bs
        .ok (s.addRec (s.dieFor id.part id.handle aff) id.part id.handle (BitVec.ofNat 64 a) prio id.coord aff id.kernel
          false false none dep)

/-- SPAWN.L: the descriptor waits for launch intake (09 R293). -/
def execSpawnL (h : Hdr) (f : FmtT) (s : State) : Host.Outcome State Fault Refusal :=
  runPlain h s fun s =>
    let l := s.me
    let a := (readSpec l f.a).toNat
    (s.recordAccess a 128 128 .load).word fun _ s =>
      let x : Intake :=
        { part := l.id.part, addr := BitVec.ofNat 64 a, ctx := s.jobOf l.id.part l.id.handle, core := some s.cur.1, host := none,
          cpl := 0, tag := 0, flags := 0, vec := 0 }
      .ok { s with intake := s.intake ++ [x] }

/-! ### Dependence counters (02 R37 to R39; 09 R294) -/

/-- A counter operation on the record at `a`, by a task of a launch: `add` raises, none lowers by one. -/
def State.depOp (s : State) (part ctx handle a : Nat) (add : Option Nat) : State :=
  match s.recAt part ctx (BitVec.ofNat 64 a) with
  | some (d, r) =>
    if r.st = .pending then
      let cnt := natOfBytes ((s.marchRead part ctx (a + 8) 4).getD [])
      let put (x : Nat) (s : State) : State := s.marchWrite part ctx (a + 8) (bytesOfNat 4 x)
      match add with
      | some n => if 0xFFFFFFFF < cnt + n then (put 0xFFFFFFFF s).launchErr part r.handle 1 else put (cnt + n) s
      | none =>
        if cnt = 0 then s.launchErr part r.handle 1
        else
          let s := put (cnt - 1) s
          if cnt = 1 then s.readyRec d r.seq else s
    else s.launchErr part r.handle 1
  | none =>
    let bs := (s.marchRead part ctx a 16).getD (List.replicate 16 0)
    let st := recState bs
    let cnt := recF bs 8 4
    let put (x : Nat) (s : State) : State := s.marchWrite part ctx (a + 8) (bytesOfNat 4 x)
    if st = 0 then
      match add with
      | some n => if 0xFFFFFFFF < cnt + n then (put 0xFFFFFFFF s).launchErr part handle 1 else put (cnt + n) s
      | none => if cnt = 0 then s.launchErr part handle 1 else put (cnt - 1) s
    else s.launchErr part (fld (recF bs 0 8) 31 16) 1

/-- A DEP word (09 R294). -/
def runDep (h : Hdr) (f : FmtT) (s : State) (add : Slot → Option Nat) : Host.Outcome State Fault Refusal :=
  runPlain h s fun s =>
    let l := s.me
    let a := (readSpec l f.a).toNat
    (s.recordAccess a 256 256 .atomic).word fun segs s =>
      s.unpoisoned a (segs.map fun g => { g with len := min 16 g.len }) fun s =>
      .ok (s.depOp l.id.part (s.jobOf l.id.part l.id.handle) l.id.handle a (add l))

/-- DEP.ADD (09 R294). -/
def execDepAdd (h : Hdr) (f : FmtT) (s : State) : Host.Outcome State Fault Refusal :=
  runDep h f s fun l => some ((readSpec l f.b).toNat % 2 ^ 32)
/-- DEP.SIGNAL (09 R294). -/
def execDepSignal (h : Hdr) (f : FmtT) (s : State) : Host.Outcome State Fault Refusal := runDep h f s fun _ => none

/-! ### SUSP (09 R295, R296) -/

/-- The group ends the task's stay in its slot. -/
def State.endWith (s : State) (e : GroupEnd) : State :=
  s.setMe (s.me.setGroup fun g => { g with fin := e, finBit := 1 <<< g.idx })

/-- SUSP.SUSPEND (09 R295): the continuation is written as the task leaves its slot at the end of the group. -/
def execSuspSuspend (h : Hdr) (f : FmtT) (s : State) : Host.Outcome State Fault Refusal :=
  runPlain h s fun s =>
    let l := s.me
    let a := (readSpec l f.a).toNat
    (s.recordAccess a 256 256 .atomic).word fun _ s =>
      .ok (s.endWith (.suspend (BitVec.ofNat 64 a) (if f.imm.getLsbD 0 then some ((readSpec l f.c).setWidth 32) else none)))

/-- SUSP.YIELD (09 R296). -/
def execSuspYield (h : Hdr) (_f : FmtT) (s : State) : Host.Outcome State Fault Refusal :=
  runPlain h s fun s => .ok (s.endWith .yield)

/-- SUSP.FINISH (09 R296). -/
def execSuspFinish (h : Hdr) (_f : FmtT) (s : State) : Host.Outcome State Fault Refusal :=
  runPlain h s fun s => .ok (s.endWith .finish)

/-! ### BAR (09 R297) -/

/-- The gang of the slot's task, with its block and the task's member number. -/
def State.myGang (s : State) : Option (Nat × Gang × Nat) :=
  let id := s.me.id
  let (g, m) := s.gangOf id.part id.handle id.coord
  if id.member then (s.gangHome id.part id.handle g).map fun (b, x) => (b, x, m) else none

/-- ARRIVE: the task is recorded in the barrier's current phase, or in the next where it is recorded already. -/
def State.barArrive (s : State) (b : Nat) : State :=
  match s.myGang with
  | none => s
  | some (bk, g, m) =>
    let x := Sparse.get {} g.bars b
    let n := max (Sparse.get 0 x.arrived m) x.phase
    let g' := ({ g with bars := Sparse.put g.bars b { x with arrived := Sparse.put x.arrived m (n + 1) } } : Gang).advance
    s.setBlock bk ((s.block bk).updGang g.part g.handle g.index fun _ => g')

/-- WAIT: until the phase of the task's latest ARRIVE is complete. -/
def State.barWait (s : State) (b : Nat) : State :=
  match s.myGang with
  | none => s
  | some (bk, g, m) =>
    let x := Sparse.get {} g.bars b
    let n := Sparse.get 0 x.arrived m
    if n ≤ x.phase then s else s.startWait .bar (BitVec.ofNat 64 b) (BitVec.ofNat 64 n) 0 (.ctr bk 0) none 0

def barNo (f : FmtT) : Nat := (f.imm.extractLsb' 0 4).toNat

/-- BAR.ARRIVE (09 R297). -/
def execBarArrive (h : Hdr) (f : FmtT) (s : State) : Host.Outcome State Fault Refusal :=
  runPlain h s fun s => .ok (s.barArrive (barNo f))
/-- BAR.WAIT (09 R297). -/
def execBarWait (h : Hdr) (f : FmtT) (s : State) : Host.Outcome State Fault Refusal :=
  runPlain h s fun s => .ok (s.barWait (barNo f))
/-- BAR.BOTH: ARRIVE followed by WAIT (09 R297). -/
def execBarBoth (h : Hdr) (f : FmtT) (s : State) : Host.Outcome State Fault Refusal :=
  runPlain h s fun s => .ok ((s.barArrive (barNo f)).barWait (barNo f))

/-! ### GETC (09 R298) -/

/-- A GETC word: the value lands at once. -/
def runGetc (h : Hdr) (f : FmtT) (s : State) (v : State → Nat) : Host.Outcome State Fault Refusal :=
  runPlain h s fun s => .ok (s.landNow (dstRef f.dst) (BitVec.ofNat 64 (v s)))

/-- COORD (02 Table 2-4). -/
def execGetcCoord (h : Hdr) (f : FmtT) (s : State) : Host.Outcome State Fault Refusal := runGetc h f s fun s => s.me.id.coord.toNat

/-- The launch's shape: STAGES, CHIPS, GANGS, GANGSZ. -/
def execGetcShape (h : Hdr) (f : FmtT) (s : State) : Host.Outcome State Fault Refusal :=
  runGetc h f s fun s =>
    match s.launch? s.me.id.part s.me.id.handle with
    | some x => x.stages * 2 ^ 40 + x.chips * 2 ^ 24 + x.gangs * 2 ^ 8 + x.gangSz
    | none => 0

/-- The launch handle and JOB. -/
def execGetcLaunch (h : Hdr) (f : FmtT) (s : State) : Host.Outcome State Fault Refusal :=
  runGetc h f s fun s => s.me.id.handle % 2 ^ 16 * 2 ^ 16 + s.jobOf s.me.id.part s.me.id.handle % 2 ^ 16

/-- The number of the current core. -/
def execGetcCore (h : Hdr) (f : FmtT) (s : State) : Host.Outcome State Fault Refusal := runGetc h f s fun s => s.cur.1

end Machine
end Sys2Proof
end

