-- ==== Sys2Proof/Machine/Fabric.lean ====
section
/-! DEFINITION. Remote words (12 R364 to R372), the mailbox words and RACK (12 R374 to R377), and QPOST (12 R378 to R382). -/

namespace Sys2Proof
namespace Machine

/-- The F-die of a fabric port, and of the host port of the same number (01 R18). -/
def portDie (p : Nat) : Nat := p / 64
/-- Whether a fabric port is an electrical local port; the others are optical global ports (01 R18). -/
def portLocal (p : Nat) : Bool := p - 64 * portDie p < 48
/-- The number of a local port among the 96 of the chip (20 R502). -/
def localNo (p : Nat) : Nat := 48 * portDie p + (p - 64 * portDie p)
/-- The other members of the group that local ports lead to, by their index; spares lead to none of their own (20 R502). -/
def localLeads (ps : List Nat) : List Nat := (((ps.map localNo).filter (· < 93)).map (· / 3)).eraseDups
/-- Whether ports can be bonded into a link toward one neighbour: 1 to 8 ports of the chip's 128, rising, all global, or all local and
leading to one member, with spares, which may also have taken the places of all its ports (01 R15, R18; 20 R502, R503). -/
def bondable (ps : List Nat) : Bool :=
  ps ≠ [] && ps.length ≤ 8 && (ps.zip ps.tail).all (fun x => x.1 < x.2) && ps.all (· < 128) &&
  ((ps.all portLocal && (localLeads ps).length ≤ 1) || ps.all fun p => !portLocal p)

/-- The index among the other members of its group, in ascending order, of the member that a chip is, seen from another chip of the
group; none of another group (20 R501, R502). -/
def memberIndex (here chip : Nat) : Option Nat :=
  if here / 32 ≠ chip / 32 || here = chip then none
  else some (if chip % 32 < here % 32 then chip % 32 else chip % 32 - 1)

/-! ### Checks at issue (12 R366) -/

/-- The segment of a pod address: its chip and segment. -/
def podSeg (a : Nat) : Option (Nat × Nat) := match winOf a with | some (.pod c g, _) => some (c, g) | _ => none

/-- The offset in its segment. -/
def podOfs (a : Nat) : Nat := a % 2 ^ 40

/-- Whether an address lies where a local operand may (12 R364, R366; 03 R84). -/
def localOperand (a : Nat) : Bool :=
  match winOf a with | some (.global, _) | some (.loc, _) | some (.block _, _) => true | _ => false

/-- What a remote word names: its pod address with the bytes that it writes there, its local operands, and its flag. -/
structure RemoteAsk where
  a : Nat
  n : Nat
  locals : List Nat
  flag : Option Nat := none
  fill : Bool := false
  odd : Option Nat := none
  cross : Option (Nat × Nat) := none
  long : Bool := false
  deriving DecidableEq, Repr

/-- The first check that fails, in the order of R75, with the address of the trap (12 R366). -/
def RemoteAsk.check (q : RemoteAsk) : Option (Cause × Nat) :=
  let fails : List (Bool × Cause × Nat) :=
    [ (q.fill && podOfs q.a % 128 ≠ 0, .misalign, q.a), (q.fill && q.n % 128 ≠ 0, .misalign, q.a),
      (q.odd.isSome, .misalign, q.odd.getD 0) ] ++
    (q.flag.toList.map fun f => (decide (f % 8 ≠ 0), .misalign, f)) ++
    (q.locals.map fun x => ((winOf x).isNone, .addrUnmapped, x)) ++
    [ ((podSeg q.a).isSome && 2 ^ 40 < podOfs q.a + q.n, .windowStraddle, q.a) ] ++
    (q.cross.toList.map fun (x, n) =>
      ((match checkWin x n with | .error .windowStraddle => true | _ => false), .windowStraddle, x)) ++
    (q.flag.toList.map fun f =>
      ((podSeg q.a).isSome && (podSeg f).isSome && podSeg q.a ≠ podSeg f, .windowStraddle, f)) ++
    [ ((podSeg q.a).isNone, .perm, q.a) ] ++
    (q.locals.map fun x => (!localOperand x, .perm, x)) ++
    (q.flag.toList.map fun f => ((podSeg f).isNone, .perm, f)) ++
    [ (q.long, .perm, q.a) ]
  (fails.find? fun x => x.1).map fun x => x.2

/-- The greatest length of a word's data (12 R366). -/
def maxRemote : Nat := 16777216

/-- A remote word that passes its checks goes toward the egress unit; its tag awaits the acknowledgement (12 R361, R365). -/
def runRemote (h : Hdr) (f : FmtF) (s : State) (ask : Slot → RemoteAsk) (op : Nat) (mk : Slot → RemoteWord → RemoteWord) :
    Host.Outcome State Fault Refusal :=
  runPlain h s fun s =>
    let l := s.me
    match (ask l).check with
    | some (c, x) => .trap c (BitVec.ofNat 64 x) s
    | none =>
      let w := { RemoteWord.blank s op with
        a := readSpec l f.a, b := readSpec l f.b, c := readSpec l f.c, d := readSpec l f.d, fill := f.opt.getLsbD 0,
        eos := f.opt.getLsbD 1, ty := f.ty, acq := f.acq = 1, scope := f.scope, tag := hdrTag h }
      let seq := s.myCore.nextRemote
      let s := s.sendRemote (mk l w)
      .ok (if h.ta = 0 then s else s.await (hdrTag h) .none (.remote seq))

/-- What RPUT names (12 R364). -/
def askPut (f : FmtF) (sig : Bool) (l : Slot) : RemoteAsk :=
  let n := (readSpec l f.c).toNat % 2 ^ 32
  let b := (readSpec l f.b).toNat
  { a := (readSpec l f.a).toNat, n := n, locals := [b], flag := if sig then some (readSpec l f.d).toNat else none,
    fill := f.opt.getLsbD 0, cross := if f.opt.getLsbD 0 then some (b, n) else none, long := decide (maxRemote < n) }

/-- RPUT (12 R367). -/
def execRput (h : Hdr) (f : FmtF) (s : State) : Host.Outcome State Fault Refusal :=
  runRemote h f s (askPut f false) opPut fun _ w => { w with c := w.c &&& 0xFFFFFFFF }
/-- RPUT.SIG (12 R368). -/
def execRputSig (h : Hdr) (f : FmtF) (s : State) : Host.Outcome State Fault Refusal :=
  runRemote h f s (askPut f true) opPutSig fun _ w => { w with c := w.c &&& 0xFFFFFFFF, sig := true }

/-- What RCOPY names; its range is known only from its record (12 R369). -/
def askCopy (f : FmtF) (sig : Bool) (l : Slot) : RemoteAsk :=
  { a := (readSpec l f.a).toNat, n := 0, locals := [(readSpec l f.b).toNat, (readSpec l f.c).toNat],
    flag := if sig then some (readSpec l f.d).toNat else none, fill := f.opt.getLsbD 0 }

/-- RCOPY (12 R369). -/
def execRcopy (h : Hdr) (f : FmtF) (s : State) : Host.Outcome State Fault Refusal :=
  runRemote h f s (askCopy f false) opRcopy fun _ w => w
/-- RCOPY.SIG (12 R369). -/
def execRcopySig (h : Hdr) (f : FmtF) (s : State) : Host.Outcome State Fault Refusal :=
  runRemote h f s (askCopy f true) opRcopySig fun _ w => { w with sig := true }

/-- RSEM: the amount travels as its data (12 R370). -/
def execRsem (h : Hdr) (f : FmtF) (s : State) : Host.Outcome State Fault Refusal :=
  runRemote h f s
    (fun l => { a := (readSpec l f.a).toNat, n := 8, locals := [], odd := if (readSpec l f.a).toNat % 8 ≠ 0 then some (readSpec l f.a).toNat else none })
    opSem fun _ w => { w with data := bytesOfNat 8 w.b.toNat }

/-- The bytes of an element of a reduction (06 Table 6-6). -/
def redBytes (ty : BitVec 4) : Nat := WellFormed.tyWidth ty / 8

/-- The operand of RRED that breaks an alignment rule (12 R371). -/
def redOdd (ty : BitVec 4) (a b n : Nat) : Option Nat :=
  let k := if redBytes ty = 8 then 8 else 4
  if a % k ≠ 0 then some a else if b % k ≠ 0 then some b else if ty = 7 && n % 2 ≠ 0 then some b else none

/-- What RRED names (12 R371). -/
def askRed (f : FmtF) (l : Slot) : RemoteAsk :=
  let a := (readSpec l f.a).toNat
  let b := (readSpec l f.b).toNat
  let n := (readSpec l f.c).toNat % 2 ^ 32
  { a := a, n := n * redBytes f.ty, locals := [b], flag := if f.opt.getLsbD 2 then some (readSpec l f.d).toNat else none,
    odd := redOdd f.ty a b n, long := decide (maxRemote < n * redBytes f.ty) }

/-- RRED (12 R371). -/
def execRred (h : Hdr) (f : FmtF) (s : State) : Host.Outcome State Fault Refusal :=
  runRemote h f s (askRed f) (if f.opt.getLsbD 2 then opRedSig else opRed) fun _ w =>
    { w with c := w.c &&& 0xFFFFFFFF, sig := f.opt.getLsbD 2 }

/-- What MCRED names: D is an offset in the segment (12 R372). -/
def askMcred (f : FmtF) (l : Slot) : RemoteAsk :=
  let n := (readSpec l f.c).toNat % 2 ^ 32
  let d := (readSpec l f.d).toNat
  { a := (readSpec l f.a).toNat, n := n * redBytes f.ty, locals := [(readSpec l f.b).toNat],
    odd := if f.opt.getLsbD 2 && d % 8 ≠ 0 then some d else none, long := decide (65536 < n * redBytes f.ty) }

/-- MCRED (12 R372, R373). -/
def execMcred (h : Hdr) (f : FmtF) (s : State) : Host.Outcome State Fault Refusal :=
  runRemote h f s (askMcred f) (if f.opt.getLsbD 2 then opMcredSig else opMcred) fun _ w =>
    { w with c := w.c &&& 0xFFFFFFFF, sig := f.opt.getLsbD 2 }

/-! ### Refusals (05 R157) -/

/-- A refusal counted, saturating, with the reason of the first. -/
def refuseCount (n : BitVec 32) (first : BitVec 8) (code : Nat) : BitVec 32 × BitVec 8 :=
  (if n = 0xFFFFFFFF then n else n + 1, if n = 0 then BitVec.ofNat 8 code else first)

/-- A refusal counts for an owner's task and sets CTXSTAT.REMERR (05 R157). -/
def State.refuse (s : State) (o : Owner) (code : Nat) : State :=
  match s.whereIs o with
  | .inl (some (c, k)) =>
    let l := s.slot c k
    let (n, x) := refuseCount l.refused l.first code
    s.setSlot c k ({ l with refused := n, first := x }.setCtx csRemErr)
  | .inr (some (d, r)) =>
    let (n, x) := refuseCount r.side.refused r.side.first code
    (s.updRec d r.seq fun r => { r with side := { r.side with refused := n, first := x } }).ownerCtx o csRemErr
  | _ => s

/-! ### The mailbox (12 R363, R374 to R377) -/

/-- The entries of a mailbox that a taker takes. -/
def swCount (m : List MbxEntry) : Nat := (m.filter fun e => match e with | .sw _ _ => true | _ => false).length
def hwCount (m : List MbxEntry) : Nat := (m.filter fun e => match e with | .hw _ => true | _ => false).length

/-- Places a software entry. -/
def State.post (s : State) (x : Word) : State :=
  let b := coreBlock s.cur.1
  let bl := s.block b
  s.setBlock b { bl with mailbox := bl.mailbox ++ [.sw (coreInBlock s.cur.1) (x.setWidth 56)] }

/-- MBX.POST (12 R375): a full mailbox holds the word from issue. -/
def execMbxPost (h : Hdr) (f : FmtT) (s : State) : Host.Outcome State Fault Refusal :=
  runPlain h s fun s => .ok (s.post (readSpec s.me f.a))

/-- MBX.POSTNB (12 R375). -/
def execMbxPostnb (h : Hdr) (f : FmtT) (s : State) : Host.Outcome State Fault Refusal :=
  runPlain h s fun s =>
    if mailboxSize ≤ (s.block (coreBlock s.cur.1)).queued false then .ok (s.landNow (dstRef f.dst) 0)
    else .ok ((s.post (readSpec s.me f.a)).landNow (dstRef f.dst) 1)

/-- MBX.TAKE (12 R376). -/
def execMbxTake (h : Hdr) (f : FmtT) (s : State) : Host.Outcome State Fault Refusal :=
  runPlain h s fun s =>
    let b := coreBlock s.cur.1
    let bl := s.block b
    if !s.isAugust then .trap .perm 0 s
    else match takeSw bl.mailbox with
      | some (x, m) => .ok ((s.setBlock b { bl with mailbox := m }).landNow (dstRef f.dst) x)
      | none =>
        let s := s.startWait .mbxTake 0 0 0 (.ctr b 0) none (hdrTag h)
        .ok (s.await (hdrTag h) (dstRef f.dst) .wait)

/-- MBX.STATUS (12 Table 12-5). -/
def execMbxStatus (h : Hdr) (f : FmtT) (s : State) : Host.Outcome State Fault Refusal :=
  runPlain h s fun s =>
    let m := (s.block (coreBlock s.cur.1)).mailbox
    .ok (s.landNow (dstRef f.dst)
      (BitVec.ofNat 64 (s.myCore.acks % 2 ^ 32 * 2 ^ 32 + hwCount m * 2 ^ 16 + swCount m * 2 ^ 8 + m.length)))

/-- RACK (12 R377): its wait holds the word from issue. -/
def execRack (h : Hdr) (f : FmtT) (s : State) : Host.Outcome State Fault Refusal :=
  runPlain h s fun s => .ok (s.landRefusals (dstRef f.dst))

/-! ### Work entries (12 R378 to R381) -/

def qeF (bs : List Byte) (o n : Nat) : Nat := natOfBytes ((bs.drop o).take n)
def qeOp (bs : List Byte) : Nat := qeF bs 0 1
def qeTy (bs : List Byte) : BitVec 4 := BitVec.ofNat 4 (qeF bs 1 1)
def qeFill (bs : List Byte) : Bool := (qeF bs 2 1).testBit 0
def qeEos (bs : List Byte) : Bool := (qeF bs 2 1).testBit 1
def qeTimed (bs : List Byte) : Bool := (qeF bs 2 1).testBit 2
def qeAcq (bs : List Byte) : Bool := (qeF bs 2 1).testBit 3
def qeRel (bs : List Byte) : Bool := (qeF bs 2 1).testBit 4
def qeLen (bs : List Byte) : Nat := qeF bs 4 4
def qeSrc (bs : List Byte) : Nat := qeF bs 8 8
def qeDst (bs : List Byte) : Nat := qeF bs 0x10 8
def qeFlag (bs : List Byte) : Nat := qeF bs 0x18 8
def qeWatch (bs : List Byte) : Nat := qeF bs 0x20 8
def qeThresh (bs : List Byte) : Nat := qeF bs 0x28 8
def qeCpl (bs : List Byte) : Nat := qeF bs 0x30 8
def qeFire (bs : List Byte) : Nat := qeF bs 0x38 8

/-- Whether the operation carries a signal (12 Table 12-6). -/
def qeSig (bs : List Byte) : Bool := match qeOp bs with | 2 | 4 | 7 => true | _ => false

/-- What the word of an entry names (12 R380). -/
def qeAsk (bs : List Byte) : RemoteAsk :=
  let sig := qeSig bs
  match qeOp bs with
  | 1 | 2 =>
    { a := qeDst bs, n := qeLen bs, locals := [qeSrc bs], flag := if sig then some (qeFlag bs) else none, fill := qeFill bs,
      cross := if qeFill bs then some (qeSrc bs, qeLen bs) else none, long := decide (maxRemote < qeLen bs) }
  | 3 | 4 =>
    let n := qeLen bs * redBytes (qeTy bs)
    { a := qeDst bs, n := n, locals := [qeSrc bs], flag := if sig then some (qeFlag bs) else none,
      odd := redOdd (qeTy bs) (qeDst bs) (qeSrc bs) (qeLen bs), long := decide (maxRemote < n) }
  | 5 => { a := qeFlag bs, n := 8, locals := [], flag := some (qeFlag bs) }
  | _ =>
    let n := qeLen bs * redBytes (qeTy bs)
    { a := qeDst bs, n := n, locals := [qeSrc bs], odd := if sig && qeFlag bs % 8 ≠ 0 then some (qeFlag bs) else none,
      long := decide (65536 < n) }

/-- Whether WATCH or CPL names the block window, aligned; 0 names none (12 R380). -/
def qeBlock (a k : Nat) : Bool := a = 0 || (a % k = 0 && (match winOf a with | some (.block _, _) => true | _ => false))

/-- Whether a work entry keeps the rules of R380. -/
def qeOk (bs : List Byte) : Bool :=
  let op := qeOp bs
  let fl := qeF bs 2 1
  let red := op = 3 || op = 4 || op = 6 || op = 7
  let flags := (qeAcq bs || qeRel bs)
  1 ≤ op && op ≤ 8 && qeF bs 1 1 < 16 && fl < 32 && qeF bs 3 1 < 6 && (flags || qeF bs 3 1 = 0) &&
  (if red then WellFormed.redTy (qeTy bs) else qeTy bs = 0) &&
  ((op = 1 || op = 2) || (!qeFill bs && !qeEos bs)) && (!qeEos bs || qeFill bs) &&
  !(op = 5 && qeAcq bs) && (op ≠ 5 || qeLen bs = 0) && ((qeSig bs || op = 5) || qeFlag bs = 0) &&
  qeBlock (qeWatch bs) 8 && qeBlock (qeCpl bs) 16 &&
  (if op = 8 then qeLen bs = 0 && qeSrc bs = 0 && qeDst bs % 256 = 0 &&
      (match winOf (qeDst bs) with | some (.global, _) => true | _ => false)
   else (qeAsk bs).check.isNone) &&
  ((op ≠ 6 && op ≠ 7) || fld (qeDst bs) 58 48 < 256) && (op ≠ 7 || qeFlag bs < 2 ^ 40)

/-- The place of eight bytes of the block window for the task that issues; out of range it reads zero (03 R82). -/
def State.blockPlace (s : State) (a n : Nat) : Loc :=
  if a = 0 then .oor
  else match resolve s (s.myAgent 0) .load a n with | .ok [g] _ => g.loc | _ => .oor

/-- Whether an entry's watch has reached its threshold (12 R381). -/
def QEntry.met (s : State) (q : QEntry) : Bool :=
  qeWatch q.bytes = 0 || qeThresh q.bytes ≤ natOfBytes (readSeg s ⟨q.watch, 8⟩)

/-- An armed entry after a write to its watch: the first test that succeeds notes pod time (12 R381). -/
def QEntry.test (s : State) (q : QEntry) : QEntry :=
  if q.ready.isNone && q.met s then { q with ready := some s.podNow.toNat } else q

/-- Tests every armed entry. -/
def State.testWatches (s : State) : State :=
  if s.blocks.all fun b => b.2.qtab.isEmpty then s
  else { s with blocks := s.blocks.map fun (b, x) => (b, { x with qtab := x.qtab.map fun (i, q) => (i, q.test s) }) }

/-- QPOST (12 R378, R380). -/
def execQpost (h : Hdr) (f : FmtF) (s : State) : Host.Outcome State Fault Refusal :=
  runPlain h s fun s =>
    let l := s.me
    let a := (readSpec l f.a).toNat
    if !s.isAugust then .trap .perm (BitVec.ofNat 64 a) s
    else if a % 64 ≠ 0 then .trap .misalign (BitVec.ofNat 64 a) s
    else if !inLocal a then .trap .perm (BitVec.ofNat 64 a) s
    else match s.access .load a 64 64 false with
      | .trap c x s => .trap c (BitVec.ofNat 64 x) s
      | .walk x k s => .walk x k s
      | .ok segs s =>
        match poisonAt s a segs with
        | some x => .trap .dataPoison (BitVec.ofNat 64 x) s
        | none =>
          let s := s.noteRange a segs
          let bs := readSegs s segs
          let b := coreBlock s.cur.1
          let bl := s.block b
          if !qeOk bs then .ok (s.refuse s.owner 0xC4)
          else if 64 ≤ bl.qtab.length then .ok (s.refuse s.owner 0xC3)
          else
            let cpl := s.blockPlace (qeCpl bs) 16
            let watch := s.blockPlace (qeWatch bs) 8
            let s := if qeWatch bs ≠ 0 && watch = .oor then s.setMe (s.me.noteOor (BitVec.ofNat 64 (qeWatch bs))) else s
            let q : QEntry :=
              { bytes := bs, watch := watch, cpl := cpl, own := s.owner, part := l.id.part,
                job := s.jobOf l.id.part l.id.handle, ready := none, sent := false, late := false, skew := false,
                order := bl.nextQ, handle := l.id.handle, scratch := l.id.hdr.scratch }
            .ok (s.setBlock b { bl with qtab := Sparse.put bl.qtab bl.nextQ (q.test s), nextQ := bl.nextQ + 1 })

/-- The word that a fired entry sends (12 R381). -/
def QEntry.word (q : QEntry) (core no : Nat) : RemoteWord :=
  let bs := q.bytes
  let op := match qeOp bs with
    | 1 => opPut | 2 => opPutSig | 3 => opRed | 4 => opRedSig | 5 => opSem | 6 => opMcred | _ => opMcredSig
  { op := op, a := BitVec.ofNat 64 (if qeOp bs = 5 then qeFlag bs else qeDst bs), b := BitVec.ofNat 64 (qeSrc bs),
    c := BitVec.ofNat 64 (qeLen bs), d := BitVec.ofNat 64 (qeFlag bs), fill := qeFill bs, eos := qeEos bs, sig := qeSig bs,
    ty := qeTy bs, acq := qeAcq bs, scope := BitVec.ofNat 3 (qeF bs 3 1),
    data := if qeOp bs = 5 then bytesOfNat 8 (qeSrc bs) else [], core := core, own := q.own, tag := 0, wpc := 0, part := q.part,
    job := q.job, fired := some no, seq := 0, handle := q.handle, scratch := q.scratch, timed := qeTimed bs }

/-- The status word of an entry (12 Table 12-7). -/
def QEntry.status (q : QEntry) (code : Nat) : Nat :=
  (if code ≠ 0 then code * 256 + 1 else 0) + (if q.late then 2 else 0) + (if q.skew then 4 else 0)

/-- The completion pair of an entry: the status word, then the add to the flag; out of range neither is written (03 R82; 12
R381). -/
def State.completionPair (s : State) (q : QEntry) (code : Nat) : State :=
  if qeCpl q.bytes = 0 then s
  else match q.cpl with
    | .scr c o => ((writeSeg s ⟨.scr c (o + 8), 8⟩ (bytesOfNat 8 (q.status code))).rmw .add [⟨.scr c o, 8⟩] 8 1 0).2
    | _ => s.ownerOor q.own (BitVec.ofNat 64 (qeCpl q.bytes + 8))

/-- An entry ends: the signal of a DEP entry, the completion pair, and its place (12 R381, Table 12-7). -/
def State.closeEntry (s : State) (b no code : Nat) (q : QEntry) : State :=
  let s := if qeOp q.bytes = 8 then (s.marchLook q.part q.job (qeDst q.bytes) 16).depOp q.part q.job q.handle (qeDst q.bytes) none else s
  let s := s.completionPair q code
  let bl := s.block b
  s.setBlock b { bl with qtab := Sparse.del bl.qtab no }

/-- Whether the end of an entry is a release that waits for the acknowledgements of its core, the August core (05 R156; 12 R381). -/
def State.entryWaits (s : State) (b : Nat) (q : QEntry) : Bool :=
  qeRel q.bytes && 3 ≤ qeF q.bytes 3 1 && (qeOp q.bytes = 8 || qeCpl q.bytes ≠ 0) && (s.core (8 * b + (s.block b).august)).acks ≠ 0

/-- An entry is acknowledged: it ends, or its release waits. -/
def State.endEntry (s : State) (b no code : Nat) : State :=
  let bl := s.block b
  match Sparse.find bl.qtab no with
  | none => s
  | some q =>
    if s.entryWaits b q then s.setBlock b { bl with qtab := Sparse.put bl.qtab no { q with acked := some code } }
    else s.closeEntry b no code q

/-- The entries whose release waited end, in the order of arming, once nothing is outstanding. -/
def State.endHeld (s : State) (b : Nat) : State :=
  if (s.core (8 * b + (s.block b).august)).acks ≠ 0 then s
  else (s.block b).qtab.foldl (fun s x => match x.2.acked with | some code => s.closeEntry b x.1 code x.2 | none => s) s

/-- Fires an armed entry: the word joins the August core's, or the record of a DEP entry is signalled (12 R381, R382). -/
def State.fire (s : State) (b no : Nat) (q : QEntry) (late skew : Bool) : State :=
  let bl := s.block b
  let s := s.setBlock b { bl with qtab := Sparse.put bl.qtab no { q with sent := true, late := late, skew := skew } }
  let s := if late then s.ownerCtx q.own csLate else s
  if qeOp q.bytes = 8 then
    s.endEntry b no 0
  else
    let core := 8 * b + bl.august
    let c := s.core core
    let s := s.setCore core { c with acks := c.acks + 1, nextRemote := c.nextRemote + 1 }
    let bl := s.block b
    s.setBlock b { bl with fired := bl.fired ++ [{ q.word core no with seq := c.nextRemote }] }

/-- The slot width of an entry's job (12 R381). -/
def State.slotWidth (s : State) (q : QEntry) : Nat := match s.jobEntry q.job with | some j => max 1 j.slotW | none => 1

/-- The first slot boundary at or after FIRE: T0 (12 R381). -/
def State.slotEdge (s : State) (q : QEntry) : Nat :=
  let w := s.slotWidth q
  (qeFire q.bytes + w - 1) / w * w

/-- The pod time at which a ready entry fires (12 R381). -/
def State.fireAt (s : State) (q : QEntry) (t : Nat) : Nat := if qeTimed q.bytes then max (s.slotEdge q) t else t

/-- Whether an entry that fires before this one has not fired: one whose fire time comes first, and one that was armed earlier, became
ready at the same test and fires no later (12 R381; 05 R151). -/
def State.earlierReady (s : State) (b : Nat) (q : QEntry) : Bool :=
  (s.block b).qtab.any fun (_, x) => !x.sent &&
    match q.ready, x.ready with
    | some t, some u =>
      decide (s.fireAt x u < s.fireAt q t) || (decide (x.order < q.order) && u = t && decide (s.fireAt x u ≤ s.fireAt q t))
    | _, _ => false

/-- QPOST_ENTRY_FIRE: an untimed entry that is ready fires (12 R381). -/
def execQpostEntryFire (block entry : Nat) (s : State) : Host.Outcome State Fault Refusal :=
  .next <|
    let bl := s.block block
    match Sparse.find bl.qtab entry with
    | some q => if q.ready.isSome && !q.sent && !qeTimed q.bytes && !s.earlierReady block q then s.fire block entry q false false else s
    | none => s

/-- QPOST_TIMED_FIRE: a timed entry that is ready fires at the first slot boundary at or after FIRE, or at once when that is past
(12 R381, R382). -/
def execQpostTimedFire (block entry : Nat) (s : State) : Host.Outcome State Fault Refusal :=
  .next <|
    let bl := s.block block
    match Sparse.find bl.qtab entry with
    | some q =>
      (match q.ready with
      | some t =>
        let t0 := s.slotEdge q
        if !q.sent && qeTimed q.bytes && t0 ≤ s.podNow.toNat && !s.earlierReady block q then
          s.fire block entry q (decide (t0 < t)) (decide (s.slotWidth q < s.estNow.toNat)) else s
      | none => s)
    | none => s

end Machine
end Sys2Proof
end

