-- ==== Sys2Proof/Machine/Rings.lean ====
section
/-! DEFINITION. Ring words (09 R285 to R291; 03 R85 to R89). -/

namespace Sys2Proof
namespace Machine

/-- The handle's number in the core's file: the task's range begins at its first (03 R62). -/
def ringNo (l : Slot) (f : FmtT) : Nat := l.id.rh0 + (f.imm.extractLsb' 0 5).toNat

def State.ring (s : State) (f : FmtT) : Word := Sparse.get 0 s.myCore.rh (ringNo s.me f)
def State.setRing (s : State) (f : FmtT) (x : Word) : State :=
  let c := s.myCore
  s.setMyCore { c with rh := Sparse.set 0 c.rh (ringNo s.me f) x }

/-- The states of the addressed slot's lines. -/
def State.ringStates (s : State) (h : Word) : List (BitVec 2) := s.myCore.slotStates (s.regionLine (rhFirst h)) (rhLines h)

/-- INDEX + 1 (03 R87). -/
def rhNext (h : Word) : Word := (((rhIndex h + 1) % 2 ^ 32 * 2 ^ 32 : Nat) : Word) ||| (h.setWidth 32).setWidth 64
/-- The handle with its EOS bit set. -/
def rhEnd (h : Word) : Word := h ||| 8

/-- Sets the lines of the addressed slot that `p` picks. -/
def State.setSlotLines (s : State) (h : Word) (p : BitVec 2 → Bool) (x : BitVec 2) : State :=
  (List.range (rhLines h)).foldl (fun s i =>
    let n := s.regionLine (rhFirst h + i)
    if p (s.myCore.line n) then s.setLine s.cur.1 n x else s) s

/-- Whether a handle suits a word: bound, its role one of those named (09 R291); then its EOS bit (03 R89). -/
def ringTrap (h : Word) (roles : Nat → Bool) : Option Cause :=
  if !rhBound h || !roles (rhRole h) then some .perm
  else if rhEos h then some .streamEosMisuse else none

/-- RING.BIND (09 R286). -/
def execRingBind (h : Hdr) (f : FmtT) (s : State) : Host.Outcome State Fault Refusal :=
  runPlain h s fun s =>
    let l := s.me
    let a := (readSpec l f.a).toNat
    let g := (readSpec l f.b).toNat
    let n := fld g 3 0
    let lines := fld g 9 4 + 1
    if a % 128 ≠ 0 || l.id.hdr.scratch < a + 2 ^ n * lines * 128 || 12 < n || fld g 11 10 = 3 || fld g 63 12 ≠ 0 then
      .trap .misalign (BitVec.ofNat 64 a) s
    else
      let idx := (readSpec l f.c).toNat % 2 ^ 32
      .ok (s.setRing f (BitVec.ofNat 64 (idx * 2 ^ 32 + a / 128 * 2 ^ 16 + n * 2 ^ 12 + (lines - 1) * 2 ^ 6 + fld g 11 10 * 2 ^ 4 + 1)))

/-- RING.GET (09 R287). -/
def execRingGet (h : Hdr) (f : FmtT) (s : State) : Host.Outcome State Fault Refusal :=
  runPlain h s fun s =>
    let x := s.ring f
    match ringTrap x (fun r => r < 2) with
    | some c => .trap c (BitVec.ofNat 64 (f.imm.extractLsb' 0 5).toNat) s
    | none =>
      let st := s.ringStates x
      if ringHolds x st then .ok (s.landNow (dstRef f.dst) (slotWord x st))
      else
        let loc := Loc.scr s.cur.1 (128 * s.regionLine (rhFirst x))
        .ok ((s.startWait .ringGet x x 0 loc none (hdrTag h)).await (hdrTag h) (dstRef f.dst) .wait)

/-- A commit: every EMPTY or FULL line of the slot takes the state, and INDEX rises (09 R288). -/
def runCommit (h : Hdr) (f : FmtT) (s : State) (eos : Bool) : Host.Outcome State Fault Refusal :=
  runPlain h s fun s =>
    let x := s.ring f
    match ringTrap x (fun r => r = 0) with
    | some c => .trap c (BitVec.ofNat 64 (f.imm.extractLsb' 0 5).toNat) s
    | none =>
      let s := s.setSlotLines x (fun st => st == lnEmpty || st == lnFull) (if eos then lnEos else lnFull)
      .ok (s.setRing f (if eos then rhEnd (rhNext x) else rhNext x))

/-- RING.COMMIT (09 R288). -/
def execRingCommit (h : Hdr) (f : FmtT) (s : State) : Host.Outcome State Fault Refusal := runCommit h f s false
/-- RING.EOS (09 R288). -/
def execRingEos (h : Hdr) (f : FmtT) (s : State) : Host.Outcome State Fault Refusal := runCommit h f s true

/-- The end-of-stream slot (03 R88). -/
def eosSlot (st : List (BitVec 2)) : Bool := st.all (fun x => x == lnFull || x == lnEos) && st.getLast? == some lnEos

/-- RING.FREE (09 R289). -/
def execRingFree (h : Hdr) (f : FmtT) (s : State) : Host.Outcome State Fault Refusal :=
  runPlain h s fun s =>
    let x := s.ring f
    match ringTrap x (fun r => r = 1) with
    | some c => .trap c (BitVec.ofNat 64 (f.imm.extractLsb' 0 5).toNat) s
    | none =>
      let last := eosSlot (s.ringStates x)
      let s := s.setSlotLines x (fun _ => true) lnEmpty
      .ok (s.setRing f (if last then rhEnd (rhNext x) else rhNext x))

/-- The state of a slot as RING.STAT gives it (09 R290). -/
def statCode (st : List (BitVec 2)) : Word :=
  if st.any (· == lnPoison) then 3
  else if st.all (· == lnEmpty) then 0
  else if st.all (fun x => x == lnFull || x == lnEos) then 1 else 2

/-- RING.STAT (09 R290). -/
def execRingStat (h : Hdr) (f : FmtT) (s : State) : Host.Outcome State Fault Refusal :=
  runPlain h s fun s =>
    let x := s.ring f
    .ok (s.landNow (dstRef f.dst) (if rhBound x then x ||| (statCode (s.ringStates x) <<< 1) else x &&& ~~~(6 : Word)))

end Machine
end Sys2Proof
end

