-- ==== Sys2Proof/Machine/Wide.lean ====
section
/-! DEFINITION. The wide multipliers' arithmetic (10; 04 R116 to R125; 11 R334 to R343): packing, digits, the format table,
outer steps, the closing of groups, and extraction, on the registers of one core. -/

namespace Sys2Proof
namespace Machine

/-! ### Packed operands and digits (10 R300 to R307, 11 R334, R335) -/

/-- One slot of a w register as an element (10 R300). -/
def wElem (e : Nat) (uns : Bool) (x : BitVec 12) : Int :=
  if uns then ((x.toNat % 2 ^ e : Nat) : Int) else sintNat e x.toNat

/-- The modes whose products land in digits (10 Table 10-2). -/
inductive DigitMode where
  | conv | corr | limb
  deriving DecidableEq, Repr

/-- Fields of WMCFG (10 Table 10-1). -/
def cfgE (x : BitVec 32) : Nat := (x.extractLsb' 0 4).toNat
def cfgG (x : BitVec 32) : Nat := (x.extractLsb' 4 5).toNat
def cfgAu (x : BitVec 32) : Bool := x.getLsbD 9
def cfgBu (x : BitVec 32) : Bool := x.getLsbD 10
def cfgGsat (x : BitVec 32) : Bool := x.getLsbD 11
def cfgNa (x : BitVec 32) : Nat := (x.extractLsb' 16 7).toNat + 1
def cfgNb (x : BitVec 32) : Nat := (x.extractLsb' 23 7).toNat + 1
/-- The field width F = 2e + g (10 R301). -/
def cfgF (x : BitVec 32) : Nat := 2 * cfgE x + cfgG x

/-- Whether a value keeps the limits of Table 10-1 (10 R301, 11 R333). -/
def cfgOk (x : BitVec 32) : Bool :=
  x.extractLsb' 30 2 == 0 && x.extractLsb' 12 4 == 0 && 2 ≤ cfgE x && cfgE x ≤ 12 && cfgG x ≤ 24 && cfgF x ≤ 48 &&
  cfgNa x ≤ 96 && cfgNb x ≤ 96

/-- The digit that product (i, j) lands in (10 Table 10-2). -/
def landDigit (m : DigitMode) (nb i j : Nat) : Nat := match m with | .corr => i + (nb - 1 - j) | _ => i + j

/-- Digit d of a command: the sum over its landing pairs (10 R303, R306). -/
def digitOf (m : DigitMode) (as bs : List Int) (d : Nat) : Int :=
  (as.zipIdx).foldl (fun t (a, i) =>
    t + (bs.zipIdx).foldl (fun u (b, j) => if landDigit m bs.length i j = d then u + a * b else u) 0) 0

/-- A lane of a digit accumulator (10 R304). -/
def Core.lane48 (c : Core) (r d : Nat) : Int := (Sparse.get 0 c.acc (192 * r + d)).toInt

/-- Writes every lane of a digit accumulator. -/
def Core.setLanes (c : Core) (r : Nat) (t : List Int) : Core :=
  { c with acc := (t.zipIdx).foldl (fun m (x, d) => Sparse.set 0 m (192 * r + d) (BitVec.ofInt 48 x)) c.acc }

/-- The elements of a w register that take part (10 R300). -/
def Core.wElems (c : Core) (r n e : Nat) (uns : Bool) : List Int :=
  (List.range n).map fun i => wElem e uns (Sparse.get 0 c.w (96 * r + i))

def Core.wm (c : Core) (u : Nat) : Wm := Sparse.get {} c.wms u
def Core.setWm (c : Core) (u : Nat) (x : Wm) : Core := { c with wms := Sparse.set {} c.wms u x }

/-- Flags join WSTAT (10 R314). -/
def Core.joinWstat (c : Core) (u : Nat) (f : BitVec 6) : Core :=
  let w := c.wm u
  c.setWm u { w with flags := w.flags ||| f }

/-- WMUL and WMAC in CONV, CORR and LIMB modes (11 R335): a fault with its information, or the core and whether a digit
saturated. -/
def digitProduct (c : Core) (u : Nat) (m : DigitMode) (mac : Bool) (cfg : BitVec 32) (ed ea eb : Nat) :
    Except (Cause × Word) (Core × Bool) :=
  if m = .limb && (cfgE cfg ≠ 12 || cfgAu cfg || cfgBu cfg) then .error (.format, 0)
  else
    let as := c.wElems ea (cfgNa cfg) (cfgE cfg) (cfgAu cfg)
    let bs := c.wElems eb (cfgNb cfg) (cfgE cfg) (cfgBu cfg)
    let f := cfgF cfg
    let t := (List.range 192).map fun d => (if mac then c.lane48 ed d else 0) + digitOf m as bs d
    let bad (x : Int) : Bool := decide (x < minInt f) || decide (maxInt f < x)
    match t.findIdx? bad with
    | none => .ok (c.setLanes ed t, false)
    | some d =>
      if !cfgGsat cfg then .error (.guardOverflow, BitVec.ofNat 64 (d + 256 * u))
      else
        let w := c.wm u
        let w := { w with gdig := if w.flags &&& wsGov = 0 then BitVec.ofNat 8 d else w.gdig, flags := w.flags ||| wsGov }
        .ok ((c.setWm u w).setLanes ed (t.map (clampInt (minInt f) (maxInt f))), true)

/-- The slots that PACK writes (11 R334): elements of `size` bytes, or 12-bit limbs, clamped to 12 bits. -/
def packSlots (ty : BitVec 4) (limb rev : Bool) (n : Nat) (bs : List Byte) : List (BitVec 12) :=
  let whole := natOfBytes bs
  let w := if limb then 12 else WellFormed.tyWidth ty
  (List.range 96).map fun i =>
    if n ≤ i then 0
    else
      let x := bitsAt whole (w * (if rev then n - 1 - i else i)) w
      BitVec.ofInt 12 (clampInt (-2048) 2047 (if limb then sintNat 12 x else elemVal ty x))

def Core.setW (c : Core) (r : Nat) (t : List (BitVec 12)) : Core :=
  { c with w := (t.zipIdx).foldl (fun m (x, i) => Sparse.set 0 m (96 * r + i) x) c.w }

/-! ### Formats in the cells (04 Table 4-1, R116, R117; 10 Tables 10-4, 10-6) -/

/-- The cell classes. -/
inductive CellClass where
  | quarter | half | full | limb
  deriving DecidableEq, Repr

def fmtBits (c : Nat) : Nat :=
  match c with
  | 0 => 64 | 1 | 10 | 11 => 32 | 2 | 3 | 12 | 13 | 21 => 16 | 4 | 5 | 14 | 15 | 22 => 8 | 6 | 7 => 6
  | 8 | 9 | 16 | 17 => 4 | 18 | 19 | 20 => 2 | _ => 12

def fmtClass (c : Nat) : CellClass :=
  match c with
  | 0 | 1 | 10 | 11 | 12 | 13 | 21 => .limb
  | 2 | 3 | 14 | 15 | 22 => .full
  | 4 | 5 => .half
  | _ => .quarter

def fmtFloat (c : Nat) : Bool := c ≤ 9
/-- The formats of Table 4-3 and hf4. -/
def fmtMx (c : Nat) : Bool := 4 ≤ c && c ≤ 9
/-- Table 4-1's Accumulate column as ACC codes. -/
def fmtAccCode (c : Nat) : Nat :=
  match c with | 0 => 2 | 10 | 11 | 12 | 13 | 21 => 3 | _ => if fmtFloat c then 0 else 1
/-- Tile rows and columns of a step, and products per cell (10 Tables 10-4, 10-6). -/
def fmtLimit (c : Nat) : Nat := match c with | 0 => 19 | 1 | 12 | 13 | 21 => 48 | 10 | 11 => 32 | _ => 96
def fmtProducts (c : Nat) : Nat := match fmtClass c with | .quarter => 4 | .half => 2 | _ => 1
/-- The limb schemes of Table 10-4. -/
def fmtScheme (c : Nat) : Nat := match c with | 0 => 1 | 1 => 2 | 10 | 11 => 3 | 12 | 13 | 21 => 4 | _ => 0
/-- The binary point of a fixed-point format (04 R97). -/
def fmtPoint (c : Nat) : Nat := match c with | 21 => 15 | 22 => 7 | _ => 0

/-- A format-table entry (04 Table 4-8). -/
structure FtEnt where
  a : Nat
  b : Nat
  acc : Nat
  bs : Nat
  ascf : Nat
  bscf : Nat
  ofmt : Nat
  orm : RMode
  osat : Bool
  oscl : Bool
  deriving DecidableEq, Repr

/-- An operand's scale code and BS code suit its format (04 R117). -/
def scaleOk (fmt sc bs : Nat) : Bool :=
  if fmt = 9 then sc = 2 && (bs = 0 || bs = 2)
  else if fmtMx fmt then sc ≠ 2
  else sc = 0 && bs = 0

/-- An entry that may be used; none where R117 faults FORMAT. -/
def ftDecode (x : Word) : Option FtEnt :=
  let n := x.toNat
  let a := 16 * fld n 26 26 + fld n 3 0
  let b := fld n 8 4
  let o := fld n 21 17
  let acc := fld n 10 9
  let bs := fld n 12 11
  let asc := fld n 14 13
  let bsc := fld n 16 15
  if fld n 63 27 ≠ 0 || 23 ≤ a || 23 ≤ b || 23 ≤ o || asc = 3 || bsc = 3 || fmtClass a ≠ fmtClass b ||
      fmtFloat a ≠ fmtFloat b || fmtScheme a ≠ fmtScheme b || acc ≠ fmtAccCode a || acc ≠ fmtAccCode b ||
      !scaleOk a asc bs || !scaleOk b bsc bs then none
  else some { a := a, b := b, acc := acc, bs := match bs with | 1 => 16 | 3 => 64 | _ => 32, ascf := asc, bscf := bsc, ofmt := o,
              orm := RMode.ofBits (fld n 23 22), osat := fld n 24 24 = 1, oscl := fld n 25 25 = 1 }

def FtEnt.lim (e : FtEnt) : Nat := fmtLimit e.a
def FtEnt.r (e : FtEnt) : Nat := fmtProducts e.a
/-- Bytes of one step of a port; a sparse B step is laid out as one of 2r (10 Table 10-6, R319). -/
def FtEnt.aBytes (e : FtEnt) : Nat := e.lim * e.r * fmtBits e.a / 8
def FtEnt.bBytes (e : FtEnt) (sparse : Bool) : Nat := e.lim * e.r * (if sparse then 2 else 1) * fmtBits e.b / 8

/-- The value an operand element presents, and whether it is a signalling NaN; none for tern's 0b10 (04 R96, R103, R119). -/
def cellValue (fmt xv x : Nat) : Option (XVal × Bool) :=
  if fmt = 20 then (if x = 2 then none else some (XVal.ofInt (sintNat 2 x) 0, false))
  else if fmtFloat fmt then
    some (elemValue fmt xv x, match fmtCode fmt with | some f => f.snan x | none => false)
  else
    let signed := match fmt with | 11 | 13 | 15 | 17 | 19 => false | _ => true
    some (XVal.ofInt (if signed then sintNat (fmtBits fmt) x else (x : Int)) 0, false)

/-! ### Outer steps (10 R309 to R311, R316, R319; 04 R119 to R125; 11 R336, R337) -/

/-- The exponent that R122 adds up: the unbiased exponent, emin for a subnormal. -/
def cellExp (fmt : Nat) : XVal → Int
  | .fin _ _ e => e + (((fmtCode fmt).map fun f => f.mb).getD 0 : Nat)
  | _ => 0

/-- An exact product with its exponent sum, and NV where it is invalid (04 R125). -/
def cellProduct (e : FtEnt) (x y : XVal × Bool) : (XVal × Int) × Fl :=
  let ex := cellExp e.a x.1 + cellExp e.b y.1
  match x.1.mul? y.1 with
  | none => ((.nan, ex), Fl.nv)
  | some p => ((p, ex), if x.2 || y.2 then Fl.nv else 0)

/-- floor(p ÷ 2^u) of a finite value. -/
def floorAt (p : XVal) (u : Int) : Int :=
  match p with
  | .fin s m e =>
    let x : Int := if s then -(m : Int) else (m : Int)
    if u ≤ e then x * (2 : Int) ^ (e - u).toNat else x / (2 : Int) ^ (u - e).toNat
  | _ => 0

/-- Σ of a group's products after R122, with emax. -/
def truncSum (ps : List (XVal × Int)) : XVal :=
  let live := ps.filter fun p => !p.1.isZero
  match live with
  | [] => .fin false 0 0
  | p :: r =>
    let u := r.foldl (fun m q => max m q.2) p.2 - 40
    XVal.ofInt (live.foldl (fun t q => t + floorAt q.1 u) 0) u

/-- Σ of a group's finite products, exact. -/
def exactSum (ps : List (XVal × Int)) : XVal :=
  ps.foldl (fun t p => (t.add? false p.1).getD .nan) (.fin false 0 0)

/-- T of a group (04 R121, R122, R125); `free` stands for T where the group has none. -/
def TileP.total (p : TileP) (free : Word) : XVal × Fl :=
  let infs := p.prods.filterMap fun q => match q.1 with | .inf s => some s | _ => none
  if p.mixed then (fmtF32.value (free.toNat % 2 ^ 32), 0)
  else if p.prods.any (fun q => q.1 == .nan) then (.nan, 0)
  else if infs.contains true && infs.contains false then (.nan, Fl.nv)
  else if !p.trunc && (p.xa = 255 || p.xb = 255) then (.nan, 0)
  else match infs with
    | s :: _ => (.inf s, 0)
    | [] =>
      let x := if p.trunc then truncSum p.prods else (exactSum p.prods).scale ((p.xa : Int) + p.xb - 254)
      let (t, fl) := fmtF32.round .rne false x
      (fmtF32.value t, fl)

/-- S joins a value with one rounding (04 R120, R123). -/
def joinS (f : FFmt) (s : Nat) (x : XVal) : Nat × Fl :=
  match (f.value s).add? false x with
  | none => (f.nan, Fl.nv)
  | some y => f.round .rne false y

/-- S of a tile element as a bit pattern of a width. -/
def Tile.sBits (t : Tile) (i w : Nat) : Nat := (Sparse.get 0 t.s i).toNat % 2 ^ w

/-- Closes the group of one element (04 R120). -/
def Tile.closeElem (t : Tile) (i : Nat) (free : Word) : Tile × Fl :=
  let (x, f1) := (Sparse.get {} t.p i).total free
  let (y, f2) := joinS fmtF32 (t.sBits i 32) x
  ({ t with s := Sparse.set 0 t.s i (BitVec.ofNat 64 y), p := Sparse.del t.p i }, f1 ||| f2)

/-- Closes the open groups of a row's elements below a limit; an empty group leaves S (04 R120). -/
def Tile.closeRow (t : Tile) (row lim : Nat) (free : Nat → Word) : Tile × Fl :=
  (List.range lim).foldl (fun (acc : Tile × Fl) j =>
    let i := 96 * row + j
    if acc.1.count i = 0 then acc
    else
      let (t, f) := acc.1.closeElem i (free i)
      (t, acc.2 ||| f)) (t, 0)

def Tile.closeRows (t : Tile) (rows : List Nat) (lim : Nat) (free : Nat → Word) : Tile × Fl :=
  rows.foldl (fun (acc : Tile × Fl) i =>
    let (t, f) := acc.1.closeRow i lim free
    (t, acc.2 ||| f)) (t, 0)

/-- Whether closing these rows takes free values. -/
def Tile.anyMixed (t : Tile) : Bool := t.p.any fun p => p.2.mixed

/-- The operands of a step: element q of row, or column, i; none where a tern code is no value.  DESIGN CHOICE: the manual does not say
whether the code 0b10 counts in an element of B that no position of a sparse step selects: it does, as in every other (04 R96). -/
def cellOperands (fmt lim k : Nat) (xvs : List Nat) (bits : Nat) : Option (List (List (XVal × Bool))) :=
  (List.range lim).mapM fun i => (List.range k).mapM fun q =>
    cellValue fmt (xvs.getD i 0) (bitsAt bits (fmtBits fmt * (i * k + q)) (fmtBits fmt))

/-- The scale codes and XV bytes of rows or columns (11 R337, Table 11-2); none for FORMAT (10 R321, 04 R104). -/
def cellScales (c : Core) (u sc ofs str inc beta lim : Nat) : Option (List Nat × List Nat) :=
  if sc = 0 then some (List.replicate lim 127, List.replicate lim 0)
  else
    let mem := (c.wm u).scale
    let at_ (i : Nat) := ofs + i * str + beta * inc
    if (List.range lim).any fun i => 16384 < at_ i + sc then none
    else
      let xs := (List.range lim).map fun i => (Memory.byte mem (at_ i)).toNat
      let vs := (List.range lim).map fun i => if sc = 2 then (Memory.byte mem (at_ i + 1)).toNat else 0
      if sc = 2 && vs.any xvBad then none else some (xs, vs)

/-- The positions of a row's kept values in a sparse step; none where they do not ascend (10 R319). -/
def sparsePos (r : Nat) (x : BitVec 12) : Option (List Nat) :=
  let w := match r with | 1 => 1 | 2 => 2 | _ => 3
  let ps := (List.range r).map fun q => bitsAt x.toNat (w * q) w
  if (List.range (r - 1)).all fun q => decide (ps.getD q 0 < ps.getD (q + 1) 0) then some ps else none

/-- The pairs of factors of element (i, j), in ascending k. -/
def cellPairs (as bs : List (List (XVal × Bool))) (pos : Option (List (List Nat))) (i j : Nat) :
    List ((XVal × Bool) × (XVal × Bool)) :=
  ((as.getD i []).zipIdx).map fun (x, q) =>
    (x, (bs.getD j []).getD (match pos with | some p => (p.getD i []).getD q 0 | none => q) (.fin false 0 0, false))

/-- One element of a step of k k-values with a group: the products join P, and the group closes when n reaches G (04 R120 to
R122). -/
def Tile.groupAdd (t : Tile) (e : FtEnt) (i xa xb k : Nat) (prs : List ((XVal × Bool) × (XVal × Bool))) (free : Word) : Tile × Fl :=
  let ps := prs.map fun (x, y) => cellProduct e x y
  let fl := ps.foldl (fun f p => f ||| p.2) (0 : Fl)
  let tr := !fmtMx e.a
  let old := Sparse.get {} t.p i
  let new : TileP :=
    { prods := old.prods ++ ps.map Prod.fst, xa := xa, xb := xb, trunc := tr,
      mixed := old.n ≠ 0 && (old.mixed || old.xa ≠ xa || old.xb ≠ xb || old.trunc ≠ tr), n := old.n + k }
  let t := { t with p := Sparse.set {} t.p i new }
  if (if fmtMx e.a then e.bs else 32) ≤ new.n then
    let (t, f) := t.closeElem i free
    (t, fl ||| f)
  else (t, fl)

/-- One element of a step without a group: the products join S (04 R123, R124); whether S saturated. -/
def Tile.directAdd (t : Tile) (e : FtEnt) (i : Nat) (prs : List ((XVal × Bool) × (XVal × Bool))) : Tile × Fl × Bool :=
  if fmtFloat e.a then
    let f := if e.a = 0 then fmtF64 else fmtF32
    let (s, fl) := prs.foldl (fun (acc : Nat × Fl) (x, y) =>
      let (p, f1) := cellProduct e x y
      let (s, f2) := joinS f acc.1 p.1
      (s, acc.2 ||| f1 ||| f2)) (t.sBits i f.w, 0)
    ({ t with s := Sparse.set 0 t.s i (BitVec.ofNat 64 s) }, fl, false)
  else
    let w := if e.acc = 1 then 32 else 64
    let sum := prs.foldl (fun n (x, y) => n + floorAt x.1 0 * floorAt y.1 0) (0 : Int)
    let v := sintNat w (t.sBits i w) + sum
    let v' := clampInt (minInt w) (maxInt w) v
    ({ t with s := Sparse.set 0 t.s i (BitVec.ofNat 64 (truncInt w v')) }, 0, v ≠ v')

/-- The elements in the range of a step return to S = +0, P = 0, n = 0 (11 R336). -/
def Tile.wipe (t : Tile) (rows : List Nat) (lim : Nat) : Tile :=
  let mine (i : Nat) : Bool := rows.contains (i / 96) && i % 96 < lim
  { t with s := t.s.filter fun x => !mine x.1, p := t.p.filter fun x => !mine x.1 }

/-- The operands of a step once it may enter the cells. -/
structure StepOps where
  as : List (List (XVal × Bool))
  bs : List (List (XVal × Bool))
  xa : List Nat
  xb : List Nat
  pos : Option (List (List Nat))

/-- The checks of a step that depend on its bytes (11 R336): scales, positions, tern codes; none for FORMAT. -/
def stepOps (c : Core) (u : Nat) (e : FtEnt) (op : Word) (beta : Nat) (entry : Option (List (BitVec 12)))
    (abits bbits : Nat) : Option StepOps := do
  let n := op.toNat
  let (xa, va) ← cellScales c u e.ascf (fld n 13 0) (fld n 37 28) (fld n 55 48) beta e.lim
  let (xb, vb) ← cellScales c u e.bscf (fld n 27 14) (fld n 47 38) (fld n 63 56) beta e.lim
  let pos ← match entry with
    | none => some none
    | some f => ((List.range e.lim).mapM fun i => sparsePos e.r (f.getD i 0)).map some
  let as ← cellOperands e.a e.lim e.r va abits
  let bs ← cellOperands e.b e.lim (if entry.isSome then 2 * e.r else e.r) vb bbits
  return { as, bs, xa, xb, pos }

/-- A step enters the cells: the tile after it and the flags of WSTAT.  DESIGN CHOICE: the manual does not say what a step of an f32,
f64, limb or integer format makes of an element with an open group: it adds to S, and the group stays open (04 R120). -/
def outerStep (t : Tile) (e : FtEnt) (o : StepOps) (free : Nat → Word) : Tile × BitVec 6 :=
  let k := if o.pos.isSome then 2 * e.r else e.r
  let rows := List.range e.lim
  let t := { t with live := true, kcount := t.kcount + BitVec.ofNat 32 k }
  if e.acc = 0 && fmtClass e.a ≠ .limb then
    rows.foldl (fun (acc : Tile × BitVec 6) i =>
      let (t, f) := rows.foldl (fun (ac : Tile × Fl) j =>
        let (t, f) := ac.1.groupAdd e (96 * i + j) (o.xa.getD i 127) (o.xb.getD j 127) k (cellPairs o.as o.bs o.pos i j) (free (96 * i + j))
        (t, ac.2 ||| f)) (acc.1, 0)
      (t, acc.2 ||| wsOfFl f)) (t, 0)
  else
    rows.foldl (fun (acc : Tile × BitVec 6) i =>
      rows.foldl (fun (ac : Tile × BitVec 6) j =>
        let (t, f, sat) := ac.1.directAdd e (96 * i + j) (cellPairs o.as o.bs o.pos i j)
        (t, ac.2 ||| wsOfFl f ||| if sat then wsIsat else 0)) acc) (t, 0)

/-! ### Extraction (11 R339 to R341) -/

/-- S of an element as a value (11 R341). -/
def FtEnt.sValue (e : FtEnt) (s : Nat) : XVal :=
  match e.acc with
  | 0 => fmtF32.value (s % 2 ^ 32)
  | 2 => fmtF64.value s
  | 1 => XVal.ofInt (sintNat 32 s) (-((fmtPoint e.a + fmtPoint e.b : Nat) : Int))
  | _ => XVal.ofInt (sintNat 64 s) (-((fmtPoint e.a + fmtPoint e.b : Nat) : Int))

def FtEnt.sSnan (e : FtEnt) (s : Nat) : Bool :=
  match e.acc with | 0 => fmtF32.snan (s % 2 ^ 32) | 2 => fmtF64.snan s | _ => false

/-- The range of an integer, fixed-point or ternary format. -/
def fmtRange (c : Nat) : Int × Int :=
  let w := fmtBits c
  match c with
  | 20 => (-1, 1)
  | 11 | 13 | 15 | 17 | 19 => (0, (2 : Int) ^ w - 1)
  | _ => (minInt w, maxInt w)

/-- One element without a computed scale (11 R341): its code and WSTAT's flags. -/
def FtEnt.extract (e : FtEnt) (s : Nat) : Nat × BitVec 6 :=
  let v := e.sValue s
  let nv : Fl := if e.sSnan s then Fl.nv else 0
  if fmtFloat e.ofmt then
    let (x, f) := if e.ofmt = 8 then round4 none v else if e.ofmt = 9 then round4 (some 0) v
      else ((fmtCode e.ofmt).getD fmtF32).round e.orm e.osat v
    (x, wsOfFl (f ||| nv))
  else
    let (lo, hi) := fmtRange e.ofmt
    let (x, f) := v.toInt e.orm (fmtPoint e.ofmt) lo hi
    let int := e.acc = 1 || e.acc = 3
    let fl := if int && f &&& Fl.nv ≠ 0 then wsIsat else wsOfFl (f ||| nv)
    (truncInt (fmtBits e.ofmt) x, fl)

/-- Cuts a list into pieces of n. -/
def chunks {α : Type} (n : Nat) : Nat → List α → List (List α)
  | 0, _ => []
  | fuel + 1, l => if l.isEmpty then [] else l.take n :: chunks n fuel (l.drop n)

/-- A row of elements with computed scales: the codes, the scale entries and the flags (04 R114; 11 R341). -/
def FtEnt.extractBlocks (e : FtEnt) (ss : List Nat) : List Nat × List Byte × BitVec 6 :=
  (chunks e.bs ss.length ss).foldl (fun (acc : List Nat × List Byte × BitVec 6) blk =>
    let vs := blk.map e.sValue
    let (x, xv, bad) := blockScale e.ofmt vs
    let ent := BitVec.ofNat 8 x :: (if e.ofmt = 9 then [BitVec.ofNat 8 xv] else [])
    let rs := if bad then vs.map fun _ => ((0, 0) : Nat × Fl) else vs.map (packElem e.ofmt e.orm e.osat x xv)
    let fl := rs.foldl (fun f r => f ||| r.2) (if bad then Fl.nv else 0)
    (acc.1 ++ rs.map Prod.fst, acc.2.1 ++ ent, acc.2.2 ||| wsOfFl fl)) ([], [], 0)

/-- The bytes of a row of TILE (11 R340). -/
def FtEnt.rowBytes (e : FtEnt) : Nat :=
  (e.lim * fmtBits e.ofmt + 7) / 8 + if e.oscl then (e.lim + e.bs - 1) / e.bs * (if e.ofmt = 9 then 2 else 1) else 0

/-- One row as TILE writes it, and the flags. -/
def FtEnt.row (e : FtEnt) (t : Tile) (i : Nat) : List Byte × BitVec 6 :=
  let ss := (List.range e.lim).map fun j => t.sBits (96 * i + j) 64
  let n := (e.lim * fmtBits e.ofmt + 7) / 8
  if e.oscl then
    let (cs, ent, fl) := e.extractBlocks ss
    (bytesOfNat n (packElems (fmtBits e.ofmt) cs) ++ ent, fl)
  else
    let rs := ss.map e.extract
    (bytesOfNat n (packElems (fmtBits e.ofmt) (rs.map Prod.fst)), rs.foldl (fun f r => f ||| r.2) 0)

/-- The control word of TILE (11 R340): the first row, the number of rows, the stride; none where it faults FORMAT. -/
def FtEnt.control (e : FtEnt) (c : Word) : Option (Nat × Nat × Nat) :=
  let n := c.toNat
  let row0 := fld n 6 0
  let nr := fld n 14 8 + 1
  let sr := fld n 47 16
  if fld n 15 15 ≠ 0 || fld n 63 48 ≠ 0 || e.lim < row0 + nr || sr % 4 ≠ 0 || sr < e.rowBytes ||
      (e.oscl && !fmtMx e.ofmt) then none
  else some (row0, nr, sr)

/-- The control word of DIGM and LIMB (11 R339). -/
def digitControl (c : Word) : Option (Nat × Nat) :=
  let d0 := fld c.toNat 7 0
  let n := fld c.toNat 15 8 + 1
  if fld c.toNat 63 16 ≠ 0 || 192 < d0 + n then none else some (d0, n)

/-- DIGM: the bytes and whether a digit was clamped (11 R339). -/
def Core.digm (c : Core) (r d0 n : Nat) (ty : BitVec 4) : List Byte × Bool :=
  let xs := (List.range n).map fun i => c.lane48 r (d0 + i)
  (xs.flatMap fun x => bytesOfNat (WellFormed.tyWidth ty / 8) (truncInt (WellFormed.tyWidth ty) (clampInt (tyMin ty) (tyMax ty) x)),
   xs.any fun x => decide (x < tyMin ty) || decide (tyMax ty < x))

/-- LIMB: the bytes and whether V passes 2,304 bits (10 R307, 11 R339). -/
def Core.limbs (c : Core) (r d0 n : Nat) : List Byte × Bool :=
  let v := (List.range 192).foldl (fun (t : Int) d => t + c.lane48 r d * (2 : Int) ^ (12 * d)) 0
  let x := truncInt 2304 v
  (bytesOfNat ((12 * n + 7) / 8) (bitsAt x (12 * d0) (12 * n)), decide (v < minInt 2304) || decide (maxInt 2304 < v))

end Machine
end Sys2Proof
end

