-- ==== Sys2Proof/Machine/EngineWords.lean ====
section
/-! DEFINITION. E-slot words, issued by a task or by a matrix routine (11 R326 to R350): configuration, packing, digit
products, outer steps through the stream ports (10 R315 to R320), extraction, clearing, tables, queues and status. -/

namespace Sys2Proof
namespace Machine

/-! ### Who issues an E word -/

/-- Where an E word gets its operands: a task's group (11 R329), or a routine with its captures (11 R328, R351). -/
structure Eng where
  wm : Nat
  routine : Bool
  cfg : BitVec 32
  k : List (BitVec 32)
  mp : List Word

/-- What an E word does: it performs, faults, waits for a walk, or is held (10 R312). -/
inductive GRes where
  | ok (s : State)
  | fault (c : Cause) (info : Word) (s : State)
  | walk (a : Nat) (k : Acc) (s : State)
  | stall

/-- A source specifier; in a routine index n of the main kind is mp n (11 R328). -/
def Eng.val (g : Eng) (l : Slot) (x : BitVec 9) : Word :=
  if g.routine then (if isImm x then BitVec.ofInt 64 (specImm x) else g.mp.getD (x.extractLsb' 0 7).toNat 0) else readSpec l x

/-- An engine register code 110 (06 Table 6-5): s, or mp in a routine. -/
def Eng.sreg (g : Eng) (l : Slot) (x : BitVec 8) : Word :=
  let i := (x.extractLsb' 0 5).toNat
  if g.routine then g.mp.getD i 0 else l.rdS l.level i

/-- The index of an engine register code. -/
def engIdx (x : BitVec 8) : Nat := (x.extractLsb' 0 5).toNat
def engFile (x : BitVec 8) : Nat := (x.extractLsb' 5 3).toNat

/-- WMCFG of the slot (10 Table 10-1). -/
def Slot.cfg (l : Slot) (u : Nat) : BitVec 32 := Sparse.get 0x2FDF000C l.wmcfg u

/-- The context of a direct command on a WM. -/
def Slot.eng (l : Slot) (u : Nat) : Eng := ⟨u, false, l.cfg u, (List.range 6).map l.loopIndex, []⟩

/-! ### Routines in their sequencers (10 R323, 11 R351 to R353) -/

/-- The running routine of a WM. -/
def State.running (s : State) (core u : Nat) : Option Routine := ((s.core core).wm u).run

def State.setRun (s : State) (core u : Nat) (r : Option Routine) : State :=
  let c := s.core core
  s.setCore core (c.setWm u { c.wm u with run := r })

def Routine.eng (r : Routine) (u : Nat) : Eng := ⟨u, true, r.wmcfg, r.kcap, r.mp⟩

/-- The ports of an owner's task, in its slot or beside its frame. -/
def State.ownerPorts (s : State) (o : Owner) : SMap Port :=
  match s.whereIs o with
  | .inl (some (c, k)) => (s.slot c k).ports
  | .inr (some (_, r)) => r.side.ports
  | _ => []

/-- The token (11 Table 11-3).  DESIGN CHOICE: RPC of a routine that ran past word 4,095 is its PC modulo 4,096, the field's 12 bits (11
R352). -/
def State.token (s : State) (r : Routine) (u : Nat) (cause : BitVec 8) (code : Nat) : Word :=
  let p (i : Nat) : Nat := if rhEos (Sparse.get {} (s.ownerPorts r.own) (2 * u + i)).h then 1 else 0
  BitVec.ofNat 64 (r.steps * 2 ^ 32 + r.rpc % 4096 * 2 ^ 20 + p 1 * 2 ^ 19 + p 0 * 2 ^ 18 + cause.toNat * 2 ^ 8 + code)

/-- The stand-in slot of a task that has ended goes when none of its routines is left (17 R455). -/
def State.dropGhost (s : State) (o : Owner) : State :=
  let l := s.slot o.core o.slot
  if o.slot < 4 || !(routinesOf (s.core o.core) l.id).isEmpty then s else s.clearSlot o.core o.slot

/-- The token is written, the tag retires, and the sequencer is free. -/
def State.endRoutine (s : State) (core u : Nat) (r : Routine) (token : Word) : State :=
  let s := (s.setRun core u none).complete r.own r.tag (fun x => x.op == .routine u) (some (token.setWidth 4096))
  s.dropGhost r.own

/-- The lines that the ports of a WM have read ahead for a step that faults are let go: it enters no cell (10 R317, R318). -/
def State.dropAhead (s : State) (o : Owner) (u : Nat) : State :=
  let l := s.slot o.core o.slot
  s.setSlot o.core o.slot { l with ports := l.ports.map fun x => (x.1, if x.1 / 2 = u then { x.2 with got := [] } else x.2) }

/-- A routine fault (11 R353): the routine is abandoned, its token says so, and the task takes a deferred trap. -/
def State.routineFault (s : State) (core u : Nat) (c : Cause) : State :=
  match s.running core u with
  | none => s
  | some r =>
    let t := s.token r u c.code 2
    ((s.dropAhead r.own u).endRoutine core u r t).deferTrap r.own ⟨c, t, r.callPc⟩

/-- Closures at store PC `pc` over the frames, innermost first (11 R355). -/
def closeMloops (pc : Nat) : List MFrame → List MFrame × Nat
  | [] => ([], pc + 1)
  | f :: r =>
    if f.last = pc then
      if f.k.toNat + 1 < f.n.toNat then ({ f with k := f.k + 1 } :: r, f.first) else closeMloops pc r
    else (f :: r, pc + 1)

/-- One more routine word has issued (11 Table 11-3 STEPS). -/
def Routine.count (r : Routine) : Routine := { r with steps := min 0xFFFFFFFF (r.steps + 1) }

/-- The routine after a word that does not transfer control. -/
def Routine.next (r : Routine) : Routine :=
  let (f, pc) := closeMloops r.rpc r.mloops.reverse
  { r.count with mloops := f.reverse, rpc := pc }

/-- Runs an E word: in its group, or as a routine word. -/
def runEng (h : Hdr) (f : FmtE) (s : State) (eff : Eng → State → GRes) : Host.Outcome State Fault Refusal :=
  .next <|
    match s.inRoutine with
    | some (c, u) =>
      match s.running c u with
      | none => s
      | some r =>
        match eff (r.eng u) s with
        | .ok s => s.setRun c u (((s.running c u).getD r).next)
        | .fault x _ s => s.routineFault c u x
        | .walk _ _ s => s
        | .stall => s
    | none =>
      if s.me.enabled h then
        match eff (s.me.eng f.wu.toNat) s with
        | .ok s => finishWord s.markPerf
        | .fault x i s => finishWord (s.noteTrap x i)
        | .walk a k s => finishWord (s.noteWalk a k)
        | .stall => s
      else finishWord s.markPerf

/-! ### Scratchpad operands (11 R334, R342, R347) -/

/-- The runs of an access in the local or block window: MISALIGN, the window checks, then PERM. -/
def State.padAccess (s : State) (k : Acc) (a n align : Nat) : Except Cause (List Seg) :=
  if a % align ≠ 0 then .error .misalign
  else match checkWin a n with
    | .error c => .error c
    | .ok _ =>
      if !inLocal a then .error .perm
      else match resolve s (s.myAgent 0) k a n with
        | .ok segs _ => .ok segs
        | _ => .error .perm

/-- A plain read of the task there: poison is a precise DATA_POISON. -/
def State.padRead (s : State) (a n align : Nat) (eff : List Byte → State → GRes) : GRes :=
  match s.padAccess .load a n align with
  | .error c => .fault c (BitVec.ofNat 64 a) s
  | .ok segs =>
    match poisonAt s a segs with
    | some x => .fault .dataPoison (BitVec.ofNat 64 x) s
    | none => eff (readSegs s segs) (s.noteRange a segs)

/-- A plain write of the task there. -/
def State.padWrite (s : State) (a : Nat) (segs : List Seg) (bs : List Byte) : State :=
  writeSegs (s.noteRange a segs) segs bs

/-! ### Configuration and packing -/

/-- A new WMCFG: FORMAT where it breaks Table 10-1 (11 R333). -/
def setCfg (g : Eng) (v : BitVec 32) (s : State) : GRes :=
  if cfgOk v then
    let l := s.me
    .ok (s.setMe { l with wmcfg := Sparse.set 0x2FDF000C l.wmcfg g.wm v })
  else .fault .format 0 s

/-- WCFG, the whole form (11 R333). -/
def execWcfg (h : Hdr) (f : FmtE) (s : State) : Host.Outcome State Fault Refusal :=
  runEng h f s fun g s => setCfg g ((g.val s.me f.sa).setWidth 32) s

/-- WCFG.EG (11 R333). -/
def execWcfgEg (h : Hdr) (f : FmtE) (s : State) : Host.Outcome State Fault Refusal :=
  runEng h f s fun g s => setCfg g ((s.me.cfg g.wm &&& ~~~(0x1FF : BitVec 32)) ||| f.aux.setWidth 32) s

/-- PACK in its three forms (11 R334). -/
def runPack (limb rev : Bool) (h : Hdr) (f : FmtE) (s : State) : Host.Outcome State Fault Refusal :=
  runEng h f s fun g s =>
    let n := (f.aux.extractLsb' 0 7).toNat + 1
    let size := if limb then 2 else WellFormed.tyWidth f.ty / 8
    s.padRead (g.val s.me f.sa).toNat (if limb then (12 * n + 7) / 8 else n * size) size fun bs s =>
      let c := s.myCore
      .ok (s.setMyCore (c.setW (s.me.id.w0 + engIdx f.ed) (packSlots f.ty limb rev n bs)))

/-- PACK (11 R334). -/
def execPack (h : Hdr) (f : FmtE) (s : State) : Host.Outcome State Fault Refusal := runPack false false h f s
/-- PACK reversed (11 R334). -/
def execPackRev (h : Hdr) (f : FmtE) (s : State) : Host.Outcome State Fault Refusal := runPack false true h f s
/-- PACK.LIMB (11 R334). -/
def execPackLimb (h : Hdr) (f : FmtE) (s : State) : Host.Outcome State Fault Refusal := runPack true false h f s

/-! ### Digit products (11 R335) -/

def runDigits (m : DigitMode) (mac : Bool) (h : Hdr) (f : FmtE) (s : State) : Host.Outcome State Fault Refusal :=
  runEng h f s fun g s =>
    let l := s.me
    match digitProduct s.myCore g.wm m mac g.cfg (l.id.acc0 + engIdx f.ed) (l.id.w0 + engIdx f.ea) (l.id.w0 + engIdx f.eb) with
    | .error (c, i) => .fault c i s
    | .ok (c, sat) =>
      let s := s.setMyCore c
      .ok (if sat then s.setMe (s.me.setCtx csGov) else s)

/-- WMUL and WMAC in CONV, CORR and LIMB modes (11 R335). -/
def execWmulConv (h : Hdr) (f : FmtE) (s : State) : Host.Outcome State Fault Refusal := runDigits .conv false h f s
def execWmulCorr (h : Hdr) (f : FmtE) (s : State) : Host.Outcome State Fault Refusal := runDigits .corr false h f s
def execWmulLimb (h : Hdr) (f : FmtE) (s : State) : Host.Outcome State Fault Refusal := runDigits .limb false h f s
def execWmacConv (h : Hdr) (f : FmtE) (s : State) : Host.Outcome State Fault Refusal := runDigits .conv true h f s
def execWmacCorr (h : Hdr) (f : FmtE) (s : State) : Host.Outcome State Fault Refusal := runDigits .corr true h f s
def execWmacLimb (h : Hdr) (f : FmtE) (s : State) : Host.Outcome State Fault Refusal := runDigits .limb true h f s

/-! ### Stream ports (10 R315 to R318) -/

/-- Bytes of a slot of a bound ring. -/
def portBytes (h : Word) : Nat := 128 * rhLines h

/-- Where a port's next step of `n` bytes lies: whether it skips the rest of its slot, the handle at the slot it begins in, and
the byte there (10 R316). -/
def Port.place (p : Port) (n : Nat) : Bool × Word × Nat :=
  if portBytes p.h < p.pos + n then (true, rhNext p.h, 0) else (false, p.h, p.pos)

/-- What a port has read of the lines of a step that begins in the slot of a handle at a byte: nothing of it where it read for a step that
began elsewhere, as its format-table entry was another. -/
def Port.here (p : Port) (h : Word) (pos : Nat) : List Byte := if p.gotH = h && p.gotPos = pos then p.got else []

/-- The lines of a step that a port has read. -/
def Port.fetched (p : Port) (h : Word) (pos : Nat) : Nat := (p.here h pos).length / 128

/-- What a port answers a step. -/
inductive PortRes where
  | ready (skip : Bool) (h : Word) (pos : Nat)
  | empty (lines : Nat)
  | fault (c : Cause) (info : Word)

/-- The lines of a step are tested in ascending order; those already read are not tested again (10 R317). -/
def portLines (s : State) (h : Word) : List Nat → Nat → PortRes → PortRes
  | [], _, ok => ok
  | i :: r, read, ok =>
    let n := s.regionLine (rhFirst h + i)
    let st := s.myCore.line n
    if st == lnPoison then .fault .dataPoison (0xFF00000000000000 + BitVec.ofNat 64 (128 * (rhFirst h + i)))
    else if st == lnEmpty then .empty read
    else portLines s h r (read + 1) ok

/-- Whether a port can give a step of `n` bytes now (11 R336; 10 R315 to R318).  DESIGN CHOICE: TRAPINFO of the PERM of an unbound port is
0; the rule names no address and no handle for it. -/
def portReady (s : State) (p : Port) (n : Nat) : PortRes :=
  if !rhBound p.h then .fault .perm 0
  else if rhEos p.h then .fault .streamEosMisuse (BitVec.ofNat 64 p.idx)
  else if portBytes p.h < n then .fault .format 0
  else
    let (skip, h, pos) := p.place n
    let lines := (List.range ((pos + n - 1) / 128 - pos / 128 + 1)).map (· + pos / 128)
    portLines s h (lines.drop (p.fetched h pos)) (p.fetched h pos) (.ready skip h pos)

/-- The bytes of a step, as a bit string: those of the lines already read as they were then, the others as they are now (10 R317). -/
def portBits (s : State) (p : Port) (h : Word) (pos n : Nat) : Nat :=
  let o := 128 * (pos / 128 + p.fetched h pos)
  let rest := Memory.read s.myCore.scr (128 * s.regionLine (rhFirst h) + o) (pos + n - o)
  natOfBytes (((p.here h pos ++ rest).drop (pos % 128)).take n)

/-- The port frees the slot that its index addresses and advances it; behind the end-of-stream slot it stops (10 R318). -/
def State.portFree (s : State) (h : Word) : Word × State :=
  let st := s.ringStates h
  let s := s.setSlotLines h (fun st => st == lnFull || st == lnEos) lnEmpty
  (if eosSlot st then rhEnd (rhNext h) else rhNext h, s)

/-- The port after its step has entered the cells. -/
def State.portDone (s : State) (key : Nat) (p : Port) (skip : Bool) (pos n : Nat) : State :=
  let (h, s) := if skip then s.portFree p.h else (p.h, s)
  let (h, pos, s) := if pos + n = portBytes h then
      let (h', s) := s.portFree h
      (h' ||| (h &&& 8), 0, s) else (h, pos + n, s)
  let l := s.me
  s.setMe { l with ports := Sparse.set {} l.ports key { p with h := h, pos := pos, got := [] } }

/-- A line of the core's scratchpad read ahead for a step that is held, which begins in the slot of `h` at byte `pos` (10 R317). -/
def State.portAhead (s : State) (key : Nat) (p : Port) (h : Word) (pos line : Nat) : State :=
  let l := s.me
  let got := p.here h pos ++ Memory.read s.myCore.scr (128 * line) 128
  s.setMe { l with ports := Sparse.set {} l.ports key { p with got := got, gotH := h, gotPos := pos } }

/-! ### Outer steps (11 R336 to R338) -/

/-- The format-table entry that a word names (04 R118, 11 R336). -/
def ftIndex (g : Eng) (f : FmtE) : Nat :=
  let b := (f.aux.extractLsb' 0 6).toNat
  if f.ty = 12 then (b + (g.k.getD (f.aux.extractLsb' 6 3).toNat 0).toNat) % 64 else b

def ftEntry (g : Eng) (f : FmtE) (s : State) : Option FtEnt := ftDecode (Sparse.get 0 s.myCore.ft (ftIndex g f))

/-- A tile closes or takes a step: the free values it may have used are spent. -/
def State.spend (s : State) (t : Tile) : State := if t.anyMixed then { s with freeCtr := s.freeCtr + 9216 } else s

/-- The free values of a tile's elements. -/
def State.tileFree (s : State) (i : Nat) : Word := Config.freeWord (s.freeCtr + i)

def State.tile (s : State) (n : Nat) : Tile := Sparse.get {} s.myCore.ta n

/-- A tile after an operation, and the flags that join WSTAT. -/
def State.setTile (s : State) (n u : Nat) (t : Tile) (f : BitVec 6) : State :=
  let s := s.spend (s.tile n)
  let c := s.myCore
  s.setMyCore ({ c with ta := Sparse.set {} c.ta n t }.joinWstat u f)

/-- A routine notes the elements that its step added to: 128 j + their limit, of tile j (04 R120). -/
def State.noteAdded (s : State) (n : Nat) : State :=
  match s.inRoutine with
  | some (c, u) => (match s.running c u with
      | some r => s.setRun c u (some { r with added := insertNat n r.added })
      | none => s)
  | none => s

/-- The step itself once both ports are ready and its entry is at hand. -/
def outerEnter (g : Eng) (f : FmtE) (e : FtEnt) (clear sparse : Bool) (s : State)
    (pa pb : Port) (a b : Bool × Word × Nat) : GRes :=
  let n := s.me.id.ta0 + engIdx f.ed
  let t := s.tile n
  let rows := List.range e.lim
  let t := if clear then { t.wipe rows e.lim with kcount := 0 } else t
  let q := engIdx f.eb
  let queue := Sparse.get [] s.myCore.sq q
  let entry := if sparse then queue.head? else none
  let na := e.aBytes
  let nb := e.bBytes sparse
  match stepOps s.myCore g.wm e (g.val s.me f.sa) (t.kcount.toNat / e.bs) entry
      (portBits s pa a.2.1 a.2.2 na) (portBits s pb b.2.1 b.2.2 nb) with
  | none => .fault .format 0 s
  | some o =>
    let (t, fl) := outerStep t e o s.tileFree
    let s := (s.setTile n g.wm t fl).noteAdded (128 * engIdx f.ed + e.lim)
    let s := if sparse then
        let c := s.myCore
        s.setMyCore { c with sq := Sparse.set [] c.sq q queue.tail }
      else s
    let s := s.portDone (2 * g.wm) pa a.1 a.2.2 na
    .ok (s.portDone (2 * g.wm + 1) pb b.1 b.2.2 nb)

/-- One OUTER step on a tile (11 R336, R338).  DESIGN CHOICE, where the rules leave it open: a step that is held has not issued, so that its
word, its format-table entry and its scales are read at every try (10 R317); of several faults of a step that of port A stands before that of
port B, and the checks of the queue's entry, the scales and the codes come after both ports; and a direct sparse step with an empty queue
waits for its ports before it faults. -/
def outerWord (g : Eng) (f : FmtE) (clear sparse : Bool) (s : State) : GRes :=
  match ftEntry g f s with
  | none => .fault .format 0 s
  | some e =>
    let l := s.me
    let pa := Sparse.get {} l.ports (2 * g.wm)
    let pb := Sparse.get {} l.ports (2 * g.wm + 1)
    let noEntry := sparse && (Sparse.get [] s.myCore.sq (engIdx f.eb)).isEmpty
    match portReady s pa e.aBytes, portReady s pb (e.bBytes sparse) with
    | .fault c i, _ => .fault c i s
    | _, .fault c i => .fault c i s
    | .empty _, _ => .stall
    | _, .empty _ => .stall
    | .ready sa ha oa, .ready sb hb ob =>
      if noEntry then (if g.routine then .stall else .fault .format 0 s)
      else outerEnter g f e clear sparse s pa pb (sa, ha, oa) (sb, hb, ob)

def runOuter (clear sparse : Bool) (h : Hdr) (f : FmtE) (s : State) : Host.Outcome State Fault Refusal :=
  runEng h f s fun g s => outerWord g f clear sparse s

/-- WMUL and WMAC in OUTER modes (11 R336, R338). -/
def execWmulOuter (h : Hdr) (f : FmtE) (s : State) : Host.Outcome State Fault Refusal := runOuter true false h f s
def execWmulOuterSp (h : Hdr) (f : FmtE) (s : State) : Host.Outcome State Fault Refusal := runOuter true true h f s
def execWmacOuter (h : Hdr) (f : FmtE) (s : State) : Host.Outcome State Fault Refusal := runOuter false false h f s
def execWmacOuterSp (h : Hdr) (f : FmtE) (s : State) : Host.Outcome State Fault Refusal := runOuter false true h f s

/-! ### Extraction (11 R339 to R342) -/

/-- ISAT of WSTAT where it is set. -/
def State.isat (s : State) (u : Nat) (on : Bool) : State :=
  if on then s.setMyCore (s.myCore.joinWstat u wsIsat) else s

/-- EXTR.DIGM and EXTR.LIMB (11 R339). -/
def runExtrDigits (limb : Bool) (h : Hdr) (f : FmtE) (s : State) : Host.Outcome State Fault Refusal :=
  runEng h f s fun g s =>
    let l := s.me
    match digitControl (g.sreg l f.eb) with
    | none => .fault .format 0 s
    | some (d0, n) =>
      let r := l.id.acc0 + engIdx f.ea
      let (bs, sat) := if limb then s.myCore.limbs r d0 n else s.myCore.digm r d0 n f.ty
      let a := (g.val l f.sa).toNat
      match s.padAccess .store a bs.length (if limb then 4 else WellFormed.tyWidth f.ty / 8) with
      | .error c => .fault c (BitVec.ofNat 64 a) s
      | .ok segs => .ok ((s.padWrite a segs bs).isat g.wm sat)

/-- EXTR.DIGM (11 R339). -/
def execExtrDigm (h : Hdr) (f : FmtE) (s : State) : Host.Outcome State Fault Refusal := runExtrDigits false h f s
/-- EXTR.LIMB (11 R339). -/
def execExtrLimb (h : Hdr) (f : FmtE) (s : State) : Host.Outcome State Fault Refusal := runExtrDigits true h f s

/-- EXTR.DIGS (11 R339). -/
def execExtrDigs (h : Hdr) (f : FmtE) (s : State) : Host.Outcome State Fault Refusal :=
  runEng h f s fun _ s =>
    .ok (s.landNow (engRef f.ed) (BitVec.ofInt 64 (s.myCore.lane48 (s.me.id.acc0 + engIdx f.ea) (f.aux.extractLsb' 0 8).toNat)))

/-- The runs of the rows of TILE; the first fault with its address. -/
def tileRuns (s : State) (a : Word) (sr n : Nat) : List Nat → Except (Cause × Nat) (List (Nat × List Seg))
  | [] => .ok []
  | i :: r =>
    let x := (a + BitVec.ofNat 64 (i * sr)).toNat
    match s.padAccess .store x n 4 with
    | .error c => .error (c, x)
    | .ok segs => (tileRuns s a sr n r).map fun t => (x, segs) :: t

/-- EXTR.TILE and EXTR.TILE.CLR (11 R340, R341). -/
def runExtrTile (clr : Bool) (h : Hdr) (f : FmtE) (s : State) : Host.Outcome State Fault Refusal :=
  runEng h f s fun g s =>
    let l := s.me
    match ftEntry g f s with
    | none => .fault .format 0 s
    | some e =>
      match e.control (g.sreg l f.eb) with
      | none => .fault .format 0 s
      | some (row0, nr, sr) =>
        match tileRuns s (g.val l f.sa) sr e.rowBytes (List.range nr) with
        | .error (c, x) => .fault c (BitVec.ofNat 64 x) s
        | .ok runs =>
          let n := l.id.ta0 + engIdx f.ea
          let rows := (List.range nr).map (· + row0)
          let (t, f1) := (s.tile n).closeRows rows e.lim s.tileFree
          let out := rows.map fun i => e.row t i
          let fl := out.foldl (fun x r => x ||| r.2) (wsOfFl f1)
          let t' := if clr then
              let t := t.wipe rows e.lim
              if nr = e.lim then { t with kcount := 0 } else t
            else t
          let s := s.setTile n g.wm t' fl
          .ok ((runs.zip out).foldl (fun s x => s.padWrite x.1.1 x.1.2 x.2.1) s)

/-- EXTR.TILE (11 R340). -/
def execExtrTile (h : Hdr) (f : FmtE) (s : State) : Host.Outcome State Fault Refusal := runExtrTile false h f s
/-- EXTR.TILE.CLR (11 R340). -/
def execExtrTileClr (h : Hdr) (f : FmtE) (s : State) : Host.Outcome State Fault Refusal := runExtrTile true h f s

/-! ### Clearing and moving (11 R343) -/

/-- WCLR (11 R343). -/
def execWclr (h : Hdr) (f : FmtE) (s : State) : Host.Outcome State Fault Refusal :=
  runEng h f s fun _ s =>
    let id := s.me.id
    let c := s.myCore
    let i := engIdx f.ed
    .ok (s.setMyCore (match engFile f.ed with
      | 0 => { c with w := Sparse.clear c.w (96 * (id.w0 + i)) 96 }
      | 1 => { c with acc := Sparse.clear c.acc (192 * (id.acc0 + i)) 192 }
      | _ => { c with ta := Sparse.del c.ta (id.ta0 + i) }))

/-- WMOV (11 R343). -/
def execWmov (h : Hdr) (f : FmtE) (s : State) : Host.Outcome State Fault Refusal :=
  runEng h f s fun g s =>
    let id := s.me.id
    let c := s.myCore
    let i := engIdx f.ed
    let j := engIdx f.ea
    match engFile f.ed with
    | 0 => .ok (s.setMyCore (c.setW (id.w0 + i) ((List.range 96).map fun k => Sparse.get 0 c.w (96 * (id.w0 + j) + k))))
    | 1 => .ok (s.setMyCore (c.setLanes (id.acc0 + i) ((List.range 192).map fun d => c.lane48 (id.acc0 + j) d)))
    | _ =>
      let (t, fl) := (s.tile (id.ta0 + j)).closeRows (List.range 96) 96 s.tileFree
      let s := s.setTile (id.ta0 + j) g.wm t (wsOfFl fl)
      .ok (if i = j then s else s.setTile (id.ta0 + i) g.wm { s := t.s, live := t.live } 0)

/-! ### Ports, mp registers and tables (11 R345 to R350) -/

/-- A port's binding. -/
def bindPort (key : Nat) (p : Port) (s : State) : State :=
  let l := s.me
  s.setMe { l with ports := Sparse.set {} l.ports key p }

def runSbind (port : Nat) (h : Hdr) (f : FmtE) (s : State) : Host.Outcome State Fault Refusal :=
  runEng h f s fun g s =>
    let i := engIdx f.ea
    let x := Sparse.get 0 s.myCore.rh (s.me.id.rh0 + i)
    if rhRole x ≠ 2 || !rhBound x then .fault .perm (BitVec.ofNat 64 i) s
    else .ok (bindPort (2 * g.wm + port) { h := x, idx := i } s)

/-- SBIND to port A (11 R350). -/
def execSbindA (h : Hdr) (f : FmtE) (s : State) : Host.Outcome State Fault Refusal := runSbind 0 h f s
/-- SBIND to port B (11 R350). -/
def execSbindB (h : Hdr) (f : FmtE) (s : State) : Host.Outcome State Fault Refusal := runSbind 1 h f s
/-- SBIND with unbind: MODE[0] names the port (11 R350). -/
def execSbindUnbind (h : Hdr) (f : FmtE) (s : State) : Host.Outcome State Fault Refusal :=
  runEng h f s fun g s => .ok (bindPort (2 * g.wm + if f.mode.getLsbD 0 then 1 else 0) {} s)

/-- MPLD (11 R349). -/
def execMpld (h : Hdr) (f : FmtE) (s : State) : Host.Outcome State Fault Refusal :=
  runEng h f s fun g s =>
    let l := s.me
    .ok (s.setMe { l with mp := Sparse.set 0 l.mp (engIdx f.ed) (g.val l f.sa) })

/-- FTLD (11 R345). -/
def execFtld (h : Hdr) (f : FmtE) (s : State) : Host.Outcome State Fault Refusal :=
  runEng h f s fun g s =>
    let c := s.myCore
    .ok (s.setMyCore { c with ft := Sparse.set 0 c.ft (f.aux.extractLsb' 0 6).toNat (g.val s.me f.sa) })

/-- The scale-memory offset of SCLD; none for FORMAT (11 R346). -/
def scldOfs (x : Word) : Option Nat := if 16384 ≤ x.toNat || x.toNat % 8 ≠ 0 then none else some x.toNat

/-- SCLD (11 R346). -/
def execScld (h : Hdr) (f : FmtE) (s : State) : Host.Outcome State Fault Refusal :=
  runEng h f s fun g s =>
    match scldOfs (g.sreg s.me f.ea) with
    | none => .fault .format 0 s
    | some o =>
      let c := s.myCore
      let w := c.wm g.wm
      .ok (s.setMyCore (c.setWm g.wm { w with scale := Memory.write w.scale o (bytesOfNat 8 (g.val s.me f.sa).toNat) }))

/-- SCLD.RD (11 R346). -/
def execScldRd (h : Hdr) (f : FmtE) (s : State) : Host.Outcome State Fault Refusal :=
  runEng h f s fun g s =>
    match scldOfs (g.sreg s.me f.ea) with
    | none => .fault .format 0 s
    | some o => .ok (s.landNow (engRef f.ed) (Memory.word (s.myCore.wm g.wm).scale o))

/-- METAQ.PUSH (11 R347): entries that fit are read and pushed. -/
def execMetaqPush (h : Hdr) (f : FmtE) (s : State) : Host.Outcome State Fault Refusal :=
  runEng h f s fun g s =>
    let q := engIdx f.ea
    let old := Sparse.get [] s.myCore.sq q
    let n := min ((f.aux.extractLsb' 0 4).toNat + 1) (16 - old.length)
    let a := (g.val s.me f.sa).toNat
    if n = 0 then
      match s.padAccess .load a 1 16 with
      | .error c => .fault c (BitVec.ofNat 64 a) s
      | .ok _ => .ok (s.landNow (engRef f.ed) 0)
    else s.padRead a (144 * n) 16 fun bs s =>
      let x := natOfBytes bs
      let new := (List.range n).map fun i => sqOfBits (bitsAt x (1152 * i) 1152)
      let c := s.myCore
      .ok ((s.setMyCore { c with sq := Sparse.set [] c.sq q (old ++ new) }).landNow (engRef f.ed) (BitVec.ofNat 64 n))

/-- METAQ.CLEAR (11 R347). -/
def execMetaqClear (h : Hdr) (f : FmtE) (s : State) : Host.Outcome State Fault Refusal :=
  runEng h f s fun _ s =>
    let c := s.myCore
    .ok (s.setMyCore { c with sq := Sparse.del c.sq (engIdx f.ea) })

/-- WSTAT (11 R344, 10 Table 10-5). -/
def execWstat (h : Hdr) (f : FmtE) (s : State) : Host.Outcome State Fault Refusal :=
  runEng h f s fun g s =>
    let w := s.myCore.wm g.wm
    .ok (s.landNow (engRef f.ed) (BitVec.ofNat 64 (w.gdig.toNat * 2 ^ 32 + w.flags.toNat)))

/-- WSTAT.CLR (11 R344). -/
def execWstatClr (h : Hdr) (f : FmtE) (s : State) : Host.Outcome State Fault Refusal :=
  runEng h f s fun g s =>
    let c := s.myCore
    let w := c.wm g.wm
    .ok (s.setMyCore (c.setWm g.wm { w with flags := w.flags &&& ~~~((g.val s.me f.sa).setWidth 6) }))

end Machine
end Sys2Proof
end

