-- ==== Sys2Proof/Machine/Issue.lean ====
section
/-! DEFINITION. Opening a group: fetching its words (06 R162, 19 R494), the decode checks in the order of 06 R195, the repeat
prefix (06 R191, R192), tag stalls (06 R184, R186; 11 R331) and STALE (06 R185). -/

namespace Sys2Proof
namespace Machine

/-! ### Fetch -/

/-- What fetching a group gives: its words; a fault at the word of a PC; a walk to wait for; or a word whose bytes on a peer page are
to be read first. -/
inductive FRes where
  | ok (ws : List IWord) (s : State)
  | fault (c : Cause) (info : Word) (pc : Nat) (s : State)
  | walk (a : Nat) (s : State)
  | ask (a : Nat) (segs : List Seg) (s : State)

/-- The code base and length of the level that the slot runs at (02 R44; 17 R441). -/
def Slot.code (l : Slot) : Word × Nat := if l.level = .s then (l.hBase, l.hLen) else (l.codeBase, l.id.hdr.codeLen)

/-- What the fetch of the group at an address has from another chip. -/
def Slot.peerFetch (l : Slot) (base : Nat) : PeerFetch := (l.fetch.filter fun f => f.base = base).getD { base := base }

/-- The bytes of a word of the group at `base`, those on a page of another chip as its fetch has them; none where they are not all
there, or the first that came with poison (19 R490). -/
def fetched (l : Slot) (base a : Nat) (segs : List Seg) (s : State) : Except (Option Nat) (List Byte) :=
  if !segs.any isPeer then .ok (readSegs s segs)
  else
    let f := l.peerFetch base
    let bs : List (Option Byte) := (segs.foldl (fun (acc : List (Option Byte) × Nat) g =>
      (acc.1 ++ (if isPeer g then (List.range g.len).map fun i => Sparse.find f.got (a + acc.2 + i) else (readSeg s g).map some),
       acc.2 + g.len)) ([], 0)).1
    match f.bad with
    | some x => .error (some x)
    | none => if bs.all Option.isSome then .ok (bs.filterMap id) else .error none

/-- The words from a PC up to the first with S = 1; a group that reaches CODELEN is ILLEGAL_OPCODE, reported at its first word
(06 R162, 17 R441).  `fuel` counts the words up to CODELEN. -/
def fetchWords (s : State) (g : Agent) (base : Word) (first : Nat) : Nat → Nat → FRes
  | 0, _ => .fault .illegalOpcode 0 first s
  | fuel + 1, pc =>
      let a := (base + BitVec.ofNat 64 (10 * pc)).toNat
      match resolve s g .exec a 10 with
      | .fault c x => .fault c (BitVec.ofNat 64 x) pc s
      | .absent _ x _ => .walk x s
      | .walk x s => .walk x s
      | .ok segs s =>
        match poisonAt s a segs with
        | some x => .fault .dataPoison (BitVec.ofNat 64 x) pc s
        | none =>
          match fetched s.me (base + BitVec.ofNat 64 (10 * first)).toNat a segs s with
          | .error (some x) => .fault .dataPoison (BitVec.ofNat 64 x) pc s
          | .error none => .ask a segs s
          | .ok bs =>
          let w := wordOfBytes bs
          if w.getLsbD 79 then .ok [w] s
          else match fetchWords s g base first fuel (pc + 1) with
            | .ok ws s => .ok (w :: ws) s
            | r => r

/-- The group at the slot's PC. -/
def fetchGroup (s : State) : FRes :=
  let l := s.me
  fetchWords s (s.myAgent 0) l.code.1 l.pc.toNat (l.code.2 - l.pc.toNat) l.pc.toNat

/-! ### The repeat prefix (06 R191, R192) -/

/-- The formats that have stepped fields; those of the others are `other` (06 Table 6-3). -/
inductive Fmt where
  | rr | ri | m | g | at | t | fx | e | other
  deriving DecidableEq, Repr

/-- The format of a word, by major and FN (06 Table 6-8). -/
def fmtOf (w : IWord) : Fmt :=
  let opc := (w.extractLsb' 72 7).toNat
  let fn := (w.extractLsb' 56 6).toNat
  if 0x20 ≤ opc && opc < 0x40 then .rr
  else if 0x40 ≤ opc && opc ≤ 0x43 then .m
  else if 0x60 ≤ opc && opc ≤ 0x73 then .e
  else if (1 ≤ opc && opc ≤ 0x0D) || opc = 0x11 then (if fn % 2 = 0 then .rr else .ri)
  else match opc with
    | 0x0E => if fn < 8 then .rr else .ri
    | 0x10 => .ri
    | 0x0F | 0x12 | 0x13 | 0x14 | 0x15 | 0x16 | 0x17 | 0x18 | 0x19 | 0x1B | 0x1E | 0x76 | 0x77 => .rr
    | 0x44 | 0x45 => .g
    | 0x46 | 0x48 => .at
    | 0x47 | 0x4A | 0x52 => .m
    | 0x49 | 0x4B | 0x4C | 0x4D | 0x4E | 0x4F | 0x50 | 0x51 | 0x5E | 0x5F => .t
    | 0x58 | 0x59 | 0x5A | 0x5B | 0x5C | 0x5D => .fx
    | _ => .other

/-- A stepped field: where it lies, and whether it is a destination specifier, a source specifier or an engine register code. -/
inductive FieldKind where
  | dst | src | eng | mx
  deriving DecidableEq, Repr

/-- The stepped fields DST, A, B, C of a format (06 Table 6-3). -/
def stepField (f : Fmt) (k : Nat) : Option (Nat × FieldKind) :=
  match f, k with
  | .rr, 3 | .ri, 3 | .at, 3 | .t, 3 => some (48, .dst)
  | .rr, 2 | .ri, 2 | .at, 2 | .t, 2 => some (39, .src)
  | .rr, 1 | .at, 1 | .t, 1 => some (30, .src)
  | .rr, 0 | .at, 0 | .t, 0 => some (21, .src)
  | .m, 3 => some (47, .mx)
  | .m, 2 => some (38, .src)
  | .g, 3 => some (47, .mx)
  | .g, 2 => some (38, .src)
  | .g, 1 => some (29, .src)
  | .fx, 2 => some (47, .src)
  | .fx, 1 => some (38, .src)
  | .fx, 0 => some (29, .src)
  | .e, 3 => some (48, .eng)
  | .e, 2 => some (40, .eng)
  | .e, 1 => some (32, .eng)
  | .e, 0 => some (23, .src)
  | _, _ => none

/-- The width of the index that is stepped in a field's value; none for an immediate or a last result. -/
def indexWidth (k : FieldKind) (x : Nat) : Option Nat :=
  match k with
  | .dst => some (if x.testBit 7 then 4 else 7)
  | .eng => some 5
  | .src | .mx => match fld x 8 7 with | 0 => some 7 | 1 => some 4 | _ => none

/-- One field raised by m; none where it cannot be stepped or the index passes its field. -/
def raiseField (w : IWord) (pos : Nat) (k : FieldKind) (m : Nat) : Option IWord :=
  let n := match k with | .src | .mx => 9 | _ => 8
  let x := (w.extractLsb' pos n).toNat
  let k := match k with
    | .mx => if !x.testBit 8 && x.testBit 7 then FieldKind.dst else .src
    | k => k
  match indexWidth k x with
  | none => none
  | some n => if x % 2 ^ n + m < 2 ^ n then some (w + BitVec.ofNat 80 (m * 2 ^ pos)) else none

/-- The target of RPT in repeat m (06 R191). -/
def stepWord (w : IWord) (step : BitVec 4) (m : Nat) : Option IWord :=
  let f := fmtOf w
  (List.range 4).foldl (fun (acc : Option IWord) k =>
    match acc with
    | none => none
    | some w =>
      if step.getLsbD k then
        (match stepField f k with
        | some (pos, kind) => raiseField w pos kind m
        | none => none)
      else some w) (some w)

/-- Whether a stepped field names a register of the word: raising it changes what the word names. -/
def stepUsed (w : IWord) (k : Nat) : Bool :=
  match stepField (fmtOf w) k with
  | none => false
  | some (pos, kind) =>
    let flip := (w ^^^ (1 <<< pos))
    let u (w : IWord) := match decodeRow (w.extractLsb' 72 7).toNat (w.extractLsb' 56 6).toNat (Hdr.ofWord w) (w.extractLsb' 0 56) with
      | .ok i => some (uses i) | .error _ => none
    let x := (w.extractLsb' pos (if kind = .dst || kind = .eng then 8 else 9)).toNat
    (kind = .dst || kind = .eng || kind = .mx || fld x 8 7 < 2) && u w ≠ u flip

/-- Whether a STEP bit stands on a field that the target's format lacks, or on an immediate or a last result: what can be told of a
target whose own encoding is illegal (06 R191). -/
def stepLacks (w : IWord) (step : BitVec 4) : Bool :=
  (List.range 4).any fun k => step.getLsbD k && match stepField (fmtOf w) k with
    | none => true
    | some (pos, kind) => (kind = .src || kind = .mx) && 2 ≤ fld (w.extractLsb' pos 9).toNat 8 7

/-- Whether STEP may be set as it is on this target, and the last repeat's word keeps its encoding (06 R191, R192). -/
def stepOk (w : IWord) (step : BitVec 4) (count : Nat) : Bool :=
  (List.range 4).all (fun k => !step.getLsbD k || stepUsed w k) &&
  match stepWord w step (count - 1) with
  | some w => (match decodeWord w with | .ok _ => true | .error _ => false)
  | none => false

/-! ### Decode checks (06 R195) -/

/-- A group trap with the index of the word it reports. -/
abbrev GTrap := Cause × Word × Nat

/-- The first index at which a check fails. -/
def firstBad (n : Nat) (p : Nat → Bool) : Option Nat := (List.range n).find? p

/-- Registers that are one and the same (06 R175). -/
def RegRef.meets : RegRef → RegRef → Bool
  | .s i, .s j => i = j
  | .q i, .q j => i = j
  | .p i, .p j => i = j
  | .v a i, .v b j => i = j && a &&& b ≠ 0
  | .vq a i, .vq b j => i = j && a &&& b ≠ 0
  | .vp c i, .vp d j => c = d && i = j
  | .eng a, .eng b => a = b
  | _, _ => false

/-- Whether two words of a group conflict (06 R175). -/
def useClash (a b : List Use) : Bool :=
  a.any fun x => b.any fun y =>
    match x, y with
    | .wr r, .wr q | .rd r, .wr q | .wr r, .rd q => r.meets q
    | .rdD _, .wrD | .wrD, .rdD _ => true
    | .rdDv c _, .wrDv d | .wrDv d, .rdDv c _ => c &&& d ≠ 0
    | _, _ => false

/-- The cluster mask of a V or G-format word (06 R175). -/
def vMask (i : Instr) : BitVec 8 × Bool :=
  match i with
  | .vgath _ f | .vscat _ f => (f.cmask, false)
  | _ => if cls i = .v then (match encode i with | some w => w.extractLsb' 13 8 | none => 0, true) else (0, false)

/-- Words that stand alone but for NOPs: system words, APXB and APXE (06 R174, 13 R392). -/
def alone : Instr → Bool
  | .apxb _ _ | .apxe _ _ => true
  | i => cls i = .sys

/-- RPT with its count and steps. -/
def rptOf : Instr → Option (Nat × BitVec 4)
  | .rpt _ f => some (f.countM1.toNat + 1, f.step)
  | _ => none

def tagOf (i : Instr) : Nat := match hdrOf i with | some h => h.ta.toNat | none => 0
def consOf (i : Instr) : Nat := match hdrOf i with | some h => h.tc.toNat | none => 0

/-- Whether word j breaks a limit of the group together with the words before it (06 R174, R175): a ninth word does. -/
def groupBad (is : List Instr) (j : Nat) : Bool :=
  let w := is.getD j (.nop ⟨true, 0, 0, 0⟩)
  let before := is.take j
  let cl := cls w
  let same := (before.filter fun i => cls i = cl).length
  8 ≤ j || (cl = .s && 1 ≤ same) || (cl = .m && 1 ≤ same) || (cl = .e && 1 ≤ same) || (cl = .v && 5 ≤ same) ||
  ((alone w && before.any fun i => cls i ≠ .nop) || (cl ≠ .nop && before.any alone)) ||
  before.any (fun i =>
    let (m, v) := vMask i
    let (n, x) := vMask w
    ((v || x) && m &&& n ≠ 0) || useClash (uses i) (uses w) ||
    (tagOf w ≠ 0 && tagOf w = tagOf i) || (tagOf w ≠ 0 && tagOf w = consOf i) || (consOf w ≠ 0 && consOf w = tagOf i)) ||
  ((rptOf w).isSome && j ≠ 0) ||
  (match is.head?.bind rptOf with
    | some _ => (is.length ≠ 2 && j + 1 = is.length) ||
        (j = 1 && !(cl = .v || cl = .m || cl = .e))
    | none => false)

/-- The index that an engine code names and its declared count; none where the file is not checked (02 R46). -/
def engOver (h : Header) (x : BitVec 8) : Bool :=
  let i := (x.extractLsb' 0 5).toNat
  match (x.extractLsb' 5 3).toNat with
  | 0 => h.nw ≤ i | 1 => h.nacc ≤ i | 2 => h.nta ≤ i | 4 => h.nrh ≤ i | _ => false

/-- A register or region beyond its declared count (02 R46, 17 R432, 13 R396). -/
def Use.over (h : Header) (v : Level) : Use → Bool
  | .rd r | .wr r =>
    match r with
    | .s i => h.ns ≤ i && !(v = .s && 120 ≤ i)
    | .q i => h.nq ≤ i
    | .v _ i => h.nv ≤ i
    | .vq _ i => h.nvq ≤ i
    | .eng x => engOver h x
    | _ => false
  | .region r => h.napx ≤ r
  | _ => false

/-- Words refused at a level (17 R433, R435, Table 17-4): level F refuses RFT alone. -/
def privBad (v : Level) (i : Instr) : Bool :=
  match v with
  | .s =>
    (cls i = .v || cls i = .e) ||
    match i with
    | .waitf _ _ | .waitfT _ _ | .barArrive _ _ | .barWait _ _ | .barBoth _ _ | .suspSuspend _ _ | .suspYield _ _
    | .suspFinish _ _ | .ringGet _ _ | .mbxTake _ _ => true
    | _ => false
  | .f =>
    match i with
    | .rft _ => true
    | _ => false
  | .t =>
    match i with
    | .csrRd _ f | .csrWr _ f | .csrSet _ f | .csrClr _ f => !(f.csrn.toNat < 8)
    | i => cls i = .sys

/-- Words that belong to the routine store (11 R357). -/
def mseqWord (w : IWord) : Bool := w.extractLsb' 72 7 == 0x6F && (w.extractLsb' 56 6).toNat < 3

/-- The decode checks of a group of words at a PC, in the order of 06 R195.  DESIGN CHOICE: ILLEGAL_ENCODING for a STEP bit or a
stepped index (06 R191, R192) is reported at the RPT word, which holds STEP; the manual does not say at which word. -/
def checkGroup (l : Slot) (ws : List IWord) (pc : BitVec 32) : Except GTrap (List Instr) :=
  let ds := ws.map decodeWord
  let n := ws.length
  let isOp (d : Except DecodeErr Instr) : Bool := match d with | .error .illegalOpcode => true | _ => false
  let isBad (d : Except DecodeErr Instr) : Bool := match d with | .error _ => true | _ => false
  let is := ds.filterMap fun d => match d with | .ok i => some i | .error _ => none
  let h := l.id.hdr
  match firstBad n fun j => isOp (ds.getD j (.error .illegalOpcode)) with
  | some j => .error (.illegalOpcode, 0, j)
  | none =>
  match firstBad n fun j => mseqWord (ws.getD j 0) with
  | some j => .error (.mseqOutside, 0, j)
  | none =>
  let rpt := match ds.head? with | some (.ok i) => rptOf i | _ => none
  let badStep : Bool := match rpt, ws[1]? with
    | some (count, step), some w => if isBad (ds.getD 1 (.error .illegalOpcode)) then stepLacks w step else !stepOk w step count
    | _, _ => false
  match firstBad n fun j => isBad (ds.getD j (.error .illegalOpcode)) || (j = 0 && badStep) with
  | some j => .error (.illegalEncoding, 0, j)
  | none =>
  let last := match rpt, ws[1]? with
    | some (count, step), some w => (stepWord w step (count - 1)).bind fun w =>
        match decodeWord w with | .ok i => some i | .error _ => none
    | _, _ => none
  match firstBad n fun j => groupBad is j || (j + 1 < n && l.bank.loops.any fun f => f.e = pc + BitVec.ofNat 32 j) with
  | some j => .error (.illegalGroup, 0, j)
  | none =>
  let us (j : Nat) : List Use := uses (is.getD j (.nop ⟨true, 0, 0, 0⟩)) ++
    (if j = 1 then match last with | some i => uses i | none => [] else [])
  match firstBad n fun j => (us j).any fun u => u.over h l.level with
  | some j => .error (.regUndeclared, 0, j)
  | none =>
  let barOf (j : Nat) : Option Nat := (us j).findSome? fun u => match u with | .bar b => if h.nbar ≤ b then some b else none | _ => none
  match firstBad n fun j => (barOf j).isSome with
  | some j => .error (.barUndeclared, BitVec.ofNat 64 ((barOf j).getD 0), j)
  | none =>
  match firstBad n fun j => privBad l.level (is.getD j (.nop ⟨true, 0, 0, 0⟩)) with
  | some j => .error (.priv, 0, j)
  | none => .ok is

/-! ### Tags (06 R184 to R186; 11 R331) -/

/-- The port bindings that a word names on a WM: an SBIND, or an OUTER step's streams. -/
def portUse (i : Instr) : Option Nat :=
  match i with
  | .sbindA _ f | .sbindB _ f | .sbindUnbind _ f | .wmulOuter _ f | .wmulOuterSp _ f | .wmacOuter _ f | .wmacOuterSp _ f =>
    some f.wu.toNat
  | _ => none

def isMcall : Instr → Bool
  | .mcall _ _ => true
  | _ => false

/-- Whether a word names a w, acc or ta register. -/
def namesWide (us : List Use) : Bool :=
  us.any fun u => match u with
    | .rd (.eng x) | .wr (.eng x) => (x.extractLsb' 5 3).toNat < 3
    | _ => false

/-- Whether a word is held by the pending destinations of a busy tag's result; a direct command that names a destination of a
routine, its token register among them, counts as writing it (11 R331). -/
def TagRes.holds (r : TagRes) (i : Instr) (us : List Use) : Bool :=
  us.any (fun u => match u with | .wr q => r.dst.meets q | _ => false) ||
  match r.op with
  | .routine wm => !isMcall i && cls i = .e &&
      (namesWide us || portUse i = some wm || us.any (fun u => match u with | .rd q => r.dst.meets q | _ => false))
  | _ => false

/-- Whether a word stalls on a tag: one that it consumes, one that it allocates, one whose destination it writes. -/
def Slot.tagStall (l : Slot) (i : Instr) : Bool :=
  let v := l.level
  (consOf i ≠ 0 && l.tagBusy v (consOf i)) || (tagOf i ≠ 0 && l.tagBusy v (tagOf i)) ||
  (l.bankOf v).tags.any fun (_, rs) => rs.any fun r => r.holds i (uses i)

/-- Whether a word reads the pending destination of a busy tag other than `cons`, the one it consumes (06 R185); at level S that of
a task's tag counts too, but for the registers of which the S bank has its own (17 R432). -/
def Slot.reads (l : Slot) (i : Instr) (cons : Nat) : Bool :=
  let reads (r : TagRes) := (uses i).any fun u => match u with | .rd q => r.dst.meets q | _ => false
  l.bank.tags.any (fun (t, rs) => t ≠ cons && rs.any reads) ||
  (l.level = .s && l.tb.tags.any fun (_, rs) => rs.any fun r => !r.dst.banked && reads r)

/-- Whether a word is enabled, or a V word in some lane: a nullified word reads nothing (06 R188 to R190). -/
def Slot.acts (l : Slot) (i : Instr) : Bool :=
  match hdrOf i with
  | some h => if cls i = .v then (clusters (vMask i).1).any fun c => l.laneMask h c ≠ 0 else l.enabled h
  | none => false

/-- An acquiring read of a peer page that has not performed: no later access of its task goes before it (05 R133, R136). -/
def TagRes.acquires (r : TagRes) : Bool := match r.op with | .remote _ a | .parts _ a _ => a | _ => false

/-- Whether a read or atomic of a peer page by the slot's task is under way: a release or fence of any scope comes after it (05 R133,
R136 to R138). -/
def Slot.peerReads (l : Slot) : Bool :=
  (l.tb.tags ++ l.sb.tags).any fun x => x.2.any fun r => r.op.isPeer && r.dst ≠ .none

/-- Whether a word waits for an acquire of its task. -/
def Slot.acqHeld (l : Slot) (i : Instr) : Bool :=
  (cls i = .m || cls i = .e || cls i = .sys) && l.bank.tags.any fun x => x.2.any TagRes.acquires

/-! ### Words that wait for the slot's own results (06 R181) -/

/-- SUSP.SUSPEND and SUSP.FINISH issue once every result of the task has landed and every tag has retired (06 R181). -/
def waitsResults : Instr → Bool
  | .suspSuspend _ _ | .suspFinish _ _ => true
  | _ => false

/-- The words of a group that is issued again: those that have not performed (17 R446). -/
def Group.leftWords (g : Group) : List (Nat × Instr) :=
  ((List.range g.words.length).filter fun i => !g.perf.getLsbD i).filterMap fun i =>
    match decodeWord (g.words.getD i 0) with | .ok w => some (i, w) | .error _ => none

/-- Whether the group at which a slot stands, and which has not issued, waits for results in flight alone.  DESIGN CHOICE: the
cycles of that hold count for their landing, though R177 counts no held cycle as an issue cycle; the manual does not say how else
they land before the word issues (06 R181). -/
def State.drains (s : State) (core k : Nat) : Bool :=
  let t := { s with cur := (core, k) }
  let l := t.me
  let waits (x : Nat × Instr) : Bool := waitsResults x.2 && (l.setGroup fun g => { g with idx := x.1 }).acts x.2
  l.st = .running && l.walk.isNone && l.bank.tags.isEmpty && !l.bank.inflight.isEmpty &&
  match l.grp with
  | some g => !g.checked && g.leftWords.any waits
  | none => match fetchGroup t with
    | .ok ws _ => ws.any fun w => match decodeWord w with | .ok i => waitsResults i && l.acts i | .error _ => false
    | _ => false

/-! ### LOOP_DEPTH (07 R223, R227) -/

/-- Whether a word traps LOOP_DEPTH before its group has effect. -/
def Slot.loopDepth (l : Slot) (i : Instr) : Bool :=
  match i with
  | .loopI h f => l.enabled h && (readSpec l f.count).setWidth 32 ≠ 0 && 6 ≤ l.bank.loops.length
  | .brkl h => l.enabled h && l.bank.loops.isEmpty
  | _ => false

/-- The capture that RPT makes for its target (06 R192): the enable or lane masks, and FPC. -/
def Slot.rptCapture (l : Slot) (i : Instr) : Capture :=
  let l := { l with grp := none }
  let h := (hdrOf i).getD ⟨false, 0, 0, 0⟩
  let masks := if cls i = .v then (List.range 8).foldl (fun x c => Sparse.set 0 x c (l.laneMask h c)) [] else []
  ⟨l.enabled h, l.bank.fpc, masks, [], []⟩

end Machine
end Sys2Proof
end

