-- ==== Sys2Proof/Machine/Routines.lean ====
section
/-! DEFINITION. Matrix routines (10 R322 to R325, 11 R348 to R357): the routine store, calls, sequencing words, and the events
of a sequencer and its ports. -/

namespace Sys2Proof
namespace Machine

/-! ### The routine store (11 R348) -/

/-- The bytes of store words from word `first` on, ten a word. -/
def Core.storeBytes (c : Core) (first n : Nat) : List Byte :=
  (List.range n).flatMap fun i => bytesOfNat 10 (Sparse.get 0 c.store (first + i)).toNat

/-- Writes bytes into the store from byte `o` on. -/
def Core.patchStore (c : Core) (o : Nat) (bs : List Byte) : Core :=
  if bs.isEmpty then c
  else
    let first := o / 10
    let n := (o + bs.length - 1) / 10 - first + 1
    let old := c.storeBytes first n
    let new := old.take (o % 10) ++ bs ++ old.drop (o % 10 + bs.length)
    { c with store := (List.range n).foldl (fun m i =>
        Sparse.set 0 m (first + i) (BitVec.ofNat 80 (natOfBytes ((new.drop (10 * i)).take 10)))) c.store }

/-- A piece of one word of the store joins the other pieces that a load has of it; the word is written whole (11 R348). -/
def Core.joinWord (c : Core) (id o : Nat) (bs : List Byte) : Core :=
  if bs.isEmpty then c
  else
    let first := o / 10 * 10
    let mine := Sparse.get [] c.pieces id ++ bs.zipIdx.map fun (b, i) => (o + i, b)
    match (List.range 10).mapM fun i => Sparse.find mine (first + i) with
    | some w =>
      { c.patchStore first w with pieces := Sparse.set [] c.pieces id (mine.filter fun x => x.1 < first || first + 10 ≤ x.1) }
    | none => { c with pieces := Sparse.set [] c.pieces id mine }

/-- A run of a load lands in the store: its whole words at once, its pieces of words with their other pieces. -/
def Core.landStore (c : Core) (id o : Nat) (bs : List Byte) : Core :=
  let head := min bs.length ((o + 9) / 10 * 10 - o)
  let whole := (bs.length - head) / 10 * 10
  ((c.patchStore (o + head) ((bs.drop head).take whole)).joinWord id o (bs.take head)).joinWord id (o + head + whole)
    (bs.drop (head + whole))

/-- Writes bytes into the entry table from byte `o` on. -/
def Core.patchEntries (c : Core) (o : Nat) (bs : List Byte) : Core :=
  if bs.isEmpty then c
  else
    let first := o / 2
    let n := (o + bs.length - 1) / 2 - first + 1
    let old := (List.range n).flatMap fun i => bytesOfNat 2 (Sparse.get 0 c.entries (first + i)).toNat
    let new := old.take (o % 2) ++ bs ++ old.drop (o % 2 + bs.length)
    { c with entries := (List.range n).foldl (fun m i =>
        Sparse.set 0 m (first + i) (BitVec.ofNat 16 (natOfBytes ((new.drop (2 * i)).take 2)))) c.entries }

/-- MLDR's read, from the local, block or global window: runs of this chip land at once, a run on a peer page by a read there
(19 R490). -/
def loadStore (tag a n pos : Nat) (words : Bool) (s : State) : GRes :=
  if a % 2 ≠ 0 then .fault .misalign (BitVec.ofNat 64 a) s
  else match checkWin a n with
    | .error c => .fault c (BitVec.ofNat 64 a) s
    | .ok (w, _) =>
      if w ≠ .global && !inLocal a then .fault .perm (BitVec.ofNat 64 a) s
      else match s.access .load a n 2 true with
        | .trap c x s => .fault c (BitVec.ofNat 64 x) s
        | .walk x k s => .walk x k s
        | .ok segs s =>
          match poisonAt s a segs with
          | some x => .fault .dataPoison (BitVec.ofNat 64 x) s
          | none =>
            let s := s.noteRange a segs
            let id := s.myCore.nextRemote
            let put (s : State) (o : Nat) (bs : List Byte) : State :=
              let c := s.myCore
              s.setMyCore (if words then c.landStore id o bs else c.patchEntries o bs)
            .ok (segs.foldl (fun (acc : State × Nat) g =>
              match g.loc with
              | .peer chip q =>
                let s := acc.1
                let w := { RemoteWord.blank s opRead with
                  a := BitVec.ofNat 64 (podAddr chip q), b := BitVec.ofNat 64 g.len, c := BitVec.ofNat 64 acc.2,
                  d := BitVec.ofNat 64 id, tag := tag, reply := if words then 3 else 4 }
                let c := s.myCore
                let seq := c.nextRemote
                let s := (s.setMyCore { c with loading := c.loading + 1 }).sendRemote w
                (s.await tag .none (.remote seq), acc.2 + g.len)
              | _ =>
                let (bs, s) := readOwn acc.1 g
                (put s acc.2 bs, acc.2 + g.len)) (s, pos)).1

/-- MLDR (11 R348). -/
def execMldr (h : Hdr) (f : FmtE) (s : State) : Host.Outcome State Fault Refusal :=
  runEng h f s fun g s =>
    let c := (g.sreg s.me f.ea).toNat
    let first := fld c 11 0
    let n := fld c 28 16
    if fld c 15 12 ≠ 0 || fld c 63 29 ≠ 0 || n = 0 || 4096 < n || 4096 < first + n then .fault .format 0 s
    else loadStore (hdrTag h) (g.val s.me f.sa).toNat (10 * n) (10 * first) true s

/-- MLDR.ENTRIES (11 R348). -/
def execMldrEntries (h : Hdr) (f : FmtE) (s : State) : Host.Outcome State Fault Refusal :=
  runEng h f s fun g s => loadStore (hdrTag h) (g.val s.me f.sa).toNat 512 0 false s

/-! ### MCALL (11 R351) -/

/-- Whether a task of the core has a routine earlier than number `order` that has not completed. -/
def Core.earlier (c : Core) (o : Owner) (order : Nat) : Bool :=
  c.wms.any fun (_, w) => (w.run.toList ++ w.pend.toList).any fun r =>
    r.own.recAddr = o.recAddr && r.own.seq = o.seq && r.order < order

/-- Whether the pending routine of a WM can start. -/
def Core.canStart (c : Core) (u : Nat) : Bool :=
  match (c.wm u).run, (c.wm u).pend with
  | none, some r => !c.earlier r.own r.order && c.loading = 0
  | _, _ => false

/-- The pending routine of a WM starts (11 R351). -/
def Core.startRoutine (c : Core) (u : Nat) : Core :=
  if c.canStart u then let w := c.wm u; c.setWm u { w with run := w.pend, pend := none } else c

/-- A number above those of every routine of the core. -/
def Core.callOrder (c : Core) : Nat :=
  c.wms.foldl (fun n (_, w) => (w.run.toList ++ w.pend.toList).foldl (fun n r => max n (r.order + 1)) n) 0

/-- MCALL (11 R351). -/
def execMcall (h : Hdr) (f : FmtE) (s : State) : Host.Outcome State Fault Refusal :=
  runEng h f s fun g s =>
    let l := s.me
    let c := s.myCore
    let u := g.wm
    let no := f.aux.extractLsb' 0 8
    let ent := (Sparse.get 0 c.entries no.toNat).toNat
    if (c.wm u).pend.isSome then .ok (s.landNow (engRef f.ed) 1)
    else if fld ent 15 12 ≠ 8 then .ok (s.landNow (engRef f.ed) 3)
    else
      let r : Routine :=
        { own := s.owner, rpc := fld ent 11 0, entry := no, tag := hdrTag h, token := engRef f.ed, wmcfg := g.cfg, fpc := l.fpcNow,
          steps := 0, callPc := l.wpc, kcap := g.k, mloops := [], mp := (List.range 8).map fun i => Sparse.get 0 l.mp i,
          acq := f.acq = 1, rel := f.rel = 1, scope := f.scope, done := false, order := c.callOrder, added := [] }
      let c := (c.setWm u { c.wm u with pend := some r }).startRoutine u
      .ok ((s.setMyCore c).await (hdrTag h) (engRef f.ed) (.routine u))

/-- ROUTINE_START: a pending routine starts once its sequencer and the earlier calls of its task are done (11 R351). -/
def execRoutineStart (core wm : Nat) (s : State) : Host.Outcome State Fault Refusal :=
  .next (s.setCore core ((s.core core).startRoutine wm))

/-! ### Sequencing words (11 R355, R356) -/

/-- A sequencing word in its routine; outside the routine store it is a group trap (11 R357). -/
def runSeq (s : State) (eff : Eng → Routine → State → Except Cause (Routine × State)) : Host.Outcome State Fault Refusal :=
  .next <|
    match s.inRoutine with
    | none => s.takeTrap ⟨.mseqOutside, 0, s.me.wpc⟩ .g s.me.group.pc
    | some (c, u) =>
      match s.running c u with
      | none => s
      | some r =>
        match eff (r.eng u) r s with
        | .ok (r, s) => s.setRun c u (some r)
        | .error x => s.routineFault c u x

/-- MLOOP (11 R355).  With N = 0 it is as any other last word of an outer body: the outer frame closes.  DESIGN CHOICE: the manual does not
say what becomes of a frame that ends at an MLOOP with N above 0: it stays, as R224's choice has it for LOOP. -/
def execMloop (_ : Hdr) (f : FmtE) (s : State) : Host.Outcome State Fault Refusal :=
  runSeq s fun g r s =>
    let n := (g.val s.me f.sa).setWidth 32
    let body := f.aux.toNat
    if body = 0 then .error .illegalEncoding
    else if n = 0 then
      let (fs, pc) := closeMloops r.rpc r.mloops.reverse
      .ok ({ r.count with mloops := fs.reverse, rpc := if pc = r.rpc + 1 then pc + body else pc }, s)
    else if 4 ≤ r.mloops.length then .error .loopDepth
    else .ok ({ r.count with mloops := r.mloops ++ [⟨r.rpc + 1, r.rpc + body, n, 0⟩], rpc := r.rpc + 1 }, s)

/-- MJMP (11 R356). -/
def execMjmp (_ : Hdr) (f : FmtE) (s : State) : Host.Outcome State Fault Refusal :=
  runSeq s fun g r s =>
    let eos (p : Nat) : Bool := rhEos (Sparse.get {} s.me.ports (2 * g.wm + p)).h
    let take? : Option Bool := match f.mode.toNat with
      | 0 => some true | 1 => some (eos 0) | 2 => some (eos 1) | 3 => some (eos 0 || eos 1) | _ => none
    match take? with
    | none => .error .illegalEncoding
    | some false => .ok (r.next, s)
    | some true =>
      let t : Int := (r.rpc : Int) + f.aux.toInt
      if t < 0 || 4096 ≤ t then .error .illegalOpcode else .ok ({ r.count with rpc := t.toNat }, s)

/-- The open groups of the elements that a routine's steps added to close (04 R120). -/
def State.closeAdded (s : State) (u : Nat) (ns : List Nat) : State :=
  ns.foldl (fun s x =>
    let n := s.me.id.ta0 + x / 128
    let (t, f) := (s.tile n).closeRows (List.range (x % 128)) (x % 128) s.tileFree
    s.setTile n u t (wsOfFl f)) s

/-- MRET (11 R356): the routine ends; what is left is ROUTINE_COMPLETION's. -/
def execMret (_ : Hdr) (_ : FmtE) (s : State) : Host.Outcome State Fault Refusal :=
  runSeq s fun g r s => .ok ({ r.count with done := true }, s.closeAdded g.wm r.added)

/-- ROUTINE_COMPLETION: the release, the token, the tag (11 R351).  A release at chip scope or wider waits for the core's
remote words (05 R157). -/
def execRoutineCompletion (core wm : Nat) (s : State) : Host.Outcome State Fault Refusal :=
  .next <|
    match s.running core wm with
    | some r =>
      if !r.done || (r.rel && 3 ≤ r.scope.toNat && (s.core core).acks ≠ 0) then s
      else s.endRoutine core wm r (s.token r wm 0 0)
    | none => s

/-! ### A routine's turn (11 R352, R354) -/

/-- The forms that a routine may hold (11 R354). -/
def routineForm : Instr → Bool
  | .wmulConv _ _ | .wmulCorr _ _ | .wmulLimb _ _ | .wmulOuter _ _ | .wmulOuterSp _ _ | .wmacConv _ _ | .wmacCorr _ _
  | .wmacLimb _ _ | .wmacOuter _ _ | .wmacOuterSp _ _ | .extrDigm _ _ | .extrLimb _ _ | .extrTile _ _ | .extrTileClr _ _
  | .wclr _ _ | .wmov _ _ | .mloop _ _ | .mjmp _ _ | .mret _ _ => true
  | _ => false

/-- Whether a word's major and form are among them, as its bits say; a MODE that no form has is left to decoding (06 R172, 11 R327). -/
def routineMajor (w : IWord) : Bool :=
  let mode := (w.extractLsb' 20 3).toNat
  let fn := (w.extractLsb' 56 6).toNat
  match (w.extractLsb' 72 7).toNat with
  | 0x63 | 0x64 => fn = 0
  | 0x65 => fn = 0 && mode ≠ 1
  | 0x66 => fn < 2
  | 0x6F => fn < 3
  | _ => false

/-- A source specifier that a routine may hold (11 R328). -/
def routineSrc (x : BitVec 9) : Bool := isImm x || (x.extractLsb' 7 2 == 0 && (x.extractLsb' 0 7).toNat < 8)

/-- An engine register code 110 that a routine may hold (11 R328). -/
def routineReg (x : BitVec 8) : Bool := engFile x ≠ 6 || engIdx x < 8

/-- The checks of a routine word as it issues (11 R328, R354; 02 R46). -/
def routineCheck (hdr : Header) (w : IWord) : Except Cause Instr :=
  if !routineMajor w then .error .illegalOpcode
  else
    match decodeWord w with
    | .error .illegalOpcode => .error .illegalOpcode
    | .error _ => .error .illegalEncoding
    | .ok i =>
      let h := (hdrOf i).getD ⟨false, 0, 0, 0⟩
      if !routineForm i then .error .illegalOpcode
      else if !w.getLsbD 79 || h.pr ≠ 0 || h.ta ≠ 0 || h.tc ≠ 0 || w.extractLsb' 18 2 ≠ 0 || w.extractLsb' 0 5 ≠ 0 then
        .error .illegalEncoding
      else if !routineSrc (w.extractLsb' 23 9) || !routineReg (w.extractLsb' 48 8) || !routineReg (w.extractLsb' 40 8) ||
          !routineReg (w.extractLsb' 32 8) then .error .illegalEncoding
      else if (uses i).any fun u => match u with
          | .rd (.eng x) | .wr (.eng x) => engOver hdr x
          | _ => false then .error .regUndeclared
      else .ok i

/-- The word whose turn it is in a routine, or the fault it raises. -/
def State.routineWord (s : State) (r : Routine) : Except Cause Instr :=
  if 4096 ≤ r.rpc then .error .illegalOpcode
  else routineCheck (s.slot r.own.core r.own.slot).id.hdr (Sparse.get 0 (s.core r.own.core).store r.rpc)

/-- Whether a routine word is held now (10 R312, R317, 11 R338). -/
def State.outerHeld (s : State) (g : Eng) (f : FmtE) (sparse : Bool) : Bool :=
  match outerWord g f false sparse s with | .stall => true | _ => false

/-- STREAM_FETCH: the port reads the next line of the step that its routine is held at (10 R317). -/
def execStreamFetch (core wm port : Nat) (s : State) : Host.Outcome State Fault Refusal :=
  .next <|
    match s.running core wm with
    | none => s
    | some r =>
      let cur := s.cur
      let s' := { s with cur := (r.own.core, r.own.slot) }
      let go (f : FmtE) (sparse : Bool) : State :=
        match ftEntry (r.eng wm) f s' with
        | none => s
        | some e =>
          let p := Sparse.get {} s'.me.ports (2 * wm + port)
          let n := if port = 0 then e.aBytes else e.bBytes sparse
          if !rhBound p.h || rhEos p.h || portBytes p.h < n then s
          else
            let (_, h, pos) := p.place n
            let lines := (List.range ((pos + n - 1) / 128 - pos / 128 + 1)).map (· + pos / 128)
            match lines.drop (p.fetched h pos) with
            | [] => s
            | i :: _ =>
              let line := s'.regionLine (rhFirst h + i)
              let st := s'.myCore.line line
              if st == lnFull || st == lnEos then { s'.portAhead (2 * wm + port) p h pos line with cur := cur } else s
      if r.done then s
      else match s.routineWord r with
        | .ok (.wmulOuter _ f) | .ok (.wmacOuter _ f) => go f false
        | .ok (.wmulOuterSp _ f) | .ok (.wmacOuterSp _ f) => go f true
        | _ => s

end Machine
end Sys2Proof
end

