-- ==== Sys2Proof/Machine/Egress.lean ====
section
/-! DEFINITION. The egress unit, the receiving port, reduction rounds and acknowledgements (12 R360 to R373, 20 R511 to R520,
19 R490), and the links' sending side (20 R503 to R510). -/

namespace Sys2Proof
namespace Machine

/-! ### Packets (20 Tables 20-2, 20-3) -/

def pktFill (p : Packet) : Bool := p.flags.getLsbD 0
def pktEos (p : Packet) : Bool := p.flags.getLsbD 1
def pktSig (p : Packet) : Bool := p.flags.getLsbD 2
def pktFirst (p : Packet) : Bool := p.flags.getLsbD 3
def pktLast (p : Packet) : Bool := p.flags.getLsbD 4

def pkPut : BitVec 8 := 1
def pkRed : BitVec 8 := 2
def pkSem : BitVec 8 := 3
def pkMcred : BitVec 8 := 4
def pkMcdata : BitVec 8 := 5
def pkRead : BitVec 8 := 6
def pkAtomic : BitVec 8 := 7
def pkResp : BitVec 8 := 8
def pkAck : BitVec 8 := 9

/-- A packet with nothing set. -/
def pktBlank : Packet :=
  { op := 0, flags := 0, job := 0, src := 0, score := 0, dst := 0, seg := 0, typ := 0, pseq := 0, ofs := 0, len := 0,
    wofs := 0, wlen := 0, fofs := 0, fn := 0, poison := false, data := [] }

/-- The bytes of a packet: its header, then its data.  DESIGN CHOICE: an ATOMIC's operation follows its operands as one byte more of its
data, for which Table 20-2 has no field. -/
def pktBytes (p : Packet) : List Byte :=
  [p.op, p.flags] ++ bytesOfNat 2 p.job.toNat ++ bytesOfNat 2 p.src.toNat ++ bytesOfNat 2 p.score.toNat ++
    bytesOfNat 2 p.dst.toNat ++ [p.seg, p.typ] ++ bytesOfNat 4 p.pseq.toNat ++ bytesOfNat 5 p.ofs.toNat ++
    bytesOfNat 3 (if p.op = pkAtomic then p.data.length + 1 else p.data.length) ++ bytesOfNat 5 p.wofs.toNat ++ bytesOfNat 3 0 ++
    bytesOfNat 4 p.wlen.toNat ++ bytesOfNat 4 0 ++ bytesOfNat 5 p.fofs.toNat ++ bytesOfNat 3 0 ++ p.data ++
    (if p.op = pkAtomic then [p.fn] else [])

/-- The packet that 48 bytes of header and its data make. -/
def packetOf (bs : List Byte) : Packet :=
  let f (o n : Nat) : Nat := natOfBytes ((bs.drop o).take n)
  let len := f 0x15 3
  let data := (bs.drop 48).take len
  let atom : Bool := f 0 1 = 7
  { op := BitVec.ofNat 8 (f 0 1), flags := BitVec.ofNat 8 (f 1 1), job := BitVec.ofNat 16 (f 2 2), src := BitVec.ofNat 16 (f 4 2),
    score := BitVec.ofNat 16 (f 6 2), dst := BitVec.ofNat 16 (f 8 2), seg := BitVec.ofNat 8 (f 0xA 1),
    typ := BitVec.ofNat 8 (f 0xB 1), pseq := BitVec.ofNat 32 (f 0xC 4), ofs := BitVec.ofNat 40 (f 0x10 5),
    len := BitVec.ofNat 24 (if atom then len - 1 else len), wofs := BitVec.ofNat 40 (f 0x18 5),
    wlen := BitVec.ofNat 32 (f 0x20 4), fofs := BitVec.ofNat 40 (f 0x28 5),
    fn := if atom then data.getLastD 0 else 0, poison := false, data := if atom then data.dropLast else data }

/-- Cuts data at an offset into packets of at most 4,096 bytes (20 R512). -/
def cutData (ofs : Nat) (bs : List Byte) : List (Nat × List Byte) :=
  if bs.isEmpty then [(ofs, [])]
  else (List.range ((bs.length + 4095) / 4096)).map fun i => (ofs + 4096 * i, (bs.drop (4096 * i)).take 4096)

/-- Where the packets of a word stand: their span (20 Table 20-2 WOFS, WLEN); a span of 2^32 bytes or more shows as the
greatest WLEN. -/
def spanOf (ps : List (Nat × List Byte)) : Nat × Nat :=
  let lo := ps.foldl (fun n p => min n p.1) ((ps.headD (0, [])).1)
  let hi := ps.foldl (fun n p => max n (p.1 + p.2.length)) lo
  (lo, min (2 ^ 32 - 1) (hi - lo))

/-- Numbers the packets of a word from `base`, with FIRST, LAST and, in the last, the flag's offset. -/
def numberPackets (base : Packet) (next : BitVec 32) (fofs : Nat) (ps : List (Nat × List Byte)) : List Packet :=
  let (lo, n) := spanOf ps
  ps.zipIdx.map fun ((o, bs), i) =>
    let one : BitVec 8 := (if i = 0 then 8 else 0) ||| (if i + 1 = ps.length then 16 else 0)
    { base with
      flags := base.flags ||| one, pseq := next + BitVec.ofNat 32 i, ofs := BitVec.ofNat 40 o,
      len := BitVec.ofNat 24 bs.length, data := bs, wofs := if i = 0 then BitVec.ofNat 40 lo else 0,
      wlen := if i = 0 then BitVec.ofNat 32 n else 0,
      fofs := if i + 1 = ps.length && pktSig base then BitVec.ofNat 40 fofs else 0 }

/-! ### Reduction groups (20 R519) -/

/-- A group: the chip that combines, the timeout in ns, and the members' chips. -/
structure GroupEnt where
  home : Nat
  timeout : Nat
  members : List Nat
  deriving DecidableEq, Repr

/-- Whether a list holds no number twice. -/
def noRepeat : List Nat → Bool
  | [] => true
  | x :: r => !r.contains x && noRepeat r

/-- The group's entry; none where it is invalid or its list repeats a number. -/
def State.groupEntry (s : State) (job group : Nat) : Option GroupEnt :=
  match s.jobEntry job with
  | none => none
  | some j =>
    if 256 ≤ group then none
    else match interAddr s j.part (j.grpTab + 16 * group) with
      | .error _ => none
      | .ok a =>
        if s.unitOwner (a / 2 ^ 30) != some j.part || hbmPoisoned s a 16 then none else
        let e := s.rdHbm a 16
        let n := fld e 31 16
        if fld e 15 0 ≠ 1 || n = 0 || 2048 < n || fld e 63 48 = 0 then none
        else
          let get (i : Nat) : Option Nat := match interAddr s j.part (fld e 127 64 + 2 * i) with
            | .ok q => if s.unitOwner (q / 2 ^ 30) != some j.part || hbmPoisoned s q 2 then none else some (s.rdHbm q 2)
            | .error _ => none
          let ms := (List.range n).filterMap get
          if ms.length ≠ n || !noRepeat ms then none
          else some ⟨fld e 47 32, fld e 63 48 * 1000, ms⟩

/-- The chip that a packet goes to. -/
def State.pktChip (s : State) (p : Packet) : Option Nat :=
  if p.op = pkMcred then (s.groupEntry p.job.toNat p.dst.toNat).map (·.home) else some p.dst.toNat

def State.chipNo (s : State) : Nat := s.fab.chip.toNat

/-! ### Links, the sending side (20 R503 to R510) -/

def State.link (s : State) (i : Nat) : Link := Sparse.get {} s.fab.links i
def State.setLink (s : State) (i : Nat) (x : Link) : State :=
  { s with fab := { s.fab with links := Sparse.set {} s.fab.links i x } }

/-- A flit header (20 Table 20-1). -/
def flitHdr (k : Bool) (vc kind cvc credit : Nat) (seq ack : BitVec 10) : BitVec 32 :=
  BitVec.ofNat 32 ((if k then 2 ^ 31 else 0) + vc % 4 * 2 ^ 29 + kind % 4 * 2 ^ 27 + cvc % 4 * 2 ^ 25 + credit % 32 * 2 ^ 20 +
    seq.toNat * 2 ^ 10 + ack.toNat)

/-- The key bank that the next flit goes out under. -/
def Link.txKey (l : Link) : Option KeyBank := Sparse.find l.txKeys (if l.txBank then 1 else 0)

/-- The lanes of a link among those that are named, in physical order (20 R503). -/
def Link.physical (l : Link) (lanes : List Nat) : List Nat := (List.range (2 * l.ports.length)).filter lanes.contains

/-- The channel whose freed buffers the next flit tells of, and how many: the lowest that has some (20 Table 20-1). -/
def Link.credit (l : Link) : Nat × Nat :=
  match l.owed with
  | (v, n) :: _ => (v, min 31 n)
  | [] => (0, 0)

/-- Sends one flit: it takes the next SEQ, acknowledges what was accepted, tells of freed buffers and enters the replay buffer (20 R504,
R505). -/
def Link.sendFlit (l : Link) (vc kind : Nat) (payload : List Byte) : Link :=
  match l.txKey with
  | none => l
  | some b =>
    let (cvc, n) := l.credit
    let h := flitHdr l.txBank vc kind cvc n l.txSeq l.rxLast
    let f : Flit := ⟨h, Config.gcmStream b.key b.salt b.ctr payload, Config.gcmTag b.key b.salt b.ctr h payload⟩
    { l with txSeq := l.txSeq + 1, replay := l.replay ++ [f], sent := l.sent ++ [f], k := l.k + 256, owes := false,
             owed := Sparse.set 0 l.owed cvc (Sparse.get 0 l.owed cvc - n),
             txKeys := Sparse.put l.txKeys (if l.txBank then 1 else 0) { b with ctr := b.ctr + 1 } }

/-- Whether a link can send a new flit now (20 R506). -/
def Link.ready (l : Link) : Bool := l.up && !l.retraining && !l.fenced && l.txKey.isSome && decide (l.replay.length < 512)

/-- Whether the far end has a buffer free for a flit of a channel. -/
def Link.roomFor (l : Link) (vc : Nat) : Bool := Sparse.get 0 l.used vc ≤ Config.flitBuffers vc

/-- The virtual channel of a packet's next hop: 0, 1 after its first global hop and 2 after its second; ACK and RESP packets use 3
(20 R513). -/
def pktVc (p : Packet) : Nat := if p.op = pkAck || p.op = pkResp then 3 else min 2 p.vc

/-- The packets that are whole in the first `n` bytes of a channel's stream, and the bytes of the next one. -/
def popSent : List Packet → Nat → List Packet × Nat
  | [], n => ([], n)
  | p :: r, n =>
    let m := (pktBytes p).length
    if m ≤ n then let (ps, k) := popSent r (n - m); (p :: ps, k) else ([], n)

/-- The packets that wait for a channel of a link. -/
def State.waitingOn (s : State) (i vc : Nat) : List Packet :=
  (s.fab.out.filter fun x => x.1 = i && pktVc x.2 = vc).map (·.2)

/-- The bytes of a channel's stream that are not in flits: its packets back to back (20 R512). -/
def State.txStream (s : State) (i vc : Nat) : List Byte :=
  ((s.waitingOn i vc).flatMap pktBytes).drop (Sparse.get 0 (s.link i).txDone vc)

/-- One data flit of a channel: the next 236 bytes of its stream, filled with zeros behind the last packet. -/
def State.sendData (s : State) (i vc : Nat) : State :=
  let l := s.link i
  let bs := s.txStream i vc
  let (done, n) := popSent (s.waitingOn i vc) (Sparse.get 0 l.txDone vc + min 236 bs.length)
  let l := l.sendFlit vc 0 (padTo 236 (bs.take 236))
  let l := { l with pkts := l.pkts ++ done.map fun p => (l.txSeq - 1, p), txDone := Sparse.set 0 l.txDone vc n,
                    used := Sparse.set 0 l.used vc (Sparse.get 0 l.used vc + 1) }
  let s := s.setLink i l
  { s with fab := { s.fab with out := done.foldl (fun o _ => o.eraseP fun x => x.1 = i && pktVc x.2 = vc) s.fab.out } }

/-- Control flits (20 R504, R506, R510, R521). -/
def ctlNak : Nat := 0
def ctlKeydone : Nat := 1
def ctlDreq : Nat := 2
def ctlSync : Nat := 3

/-- A control flit waits for its link (20 R506, R510, R521). -/
def State.sendControl (s : State) (i kind : Nat) (args : List Nat) : State :=
  let l := s.link i
  s.setLink i { l with ctrl := l.ctrl ++ [(kind, args)] }

/-- A link that leads toward a chip and is not fenced. -/
def State.linkTo (s : State) (chip : Nat) : Option Nat :=
  (Sparse.get [] s.fab.routes chip).find? fun i => (Sparse.find s.fab.links i).isSome && !(s.link i).fenced

/-- Hands a packet to the switch: it waits for its link, behind those that wait there; none where no path reaches its chip (20 R509,
R513). -/
def State.linkSend (s : State) (chip : Nat) (p : Packet) : Option State :=
  match s.linkTo chip with
  | none => none
  | some i => some { s with fab := { s.fab with out := s.fab.out ++ [(i, p)] } }

/-- What a link sends as far as it takes flits: control flits first, then the channels' packets, the lowest channel first, and an idle flit
where an acceptance is left to tell (20 R504, R512). -/
def State.flushLink (s : State) (i : Nat) : Nat → State
  | 0 => s
  | fuel + 1 =>
    let l := s.link i
    if !l.ready then s
    else match l.ctrl with
      | (k, args) :: rest =>
        let l := { l with ctrl := rest, keyDone := if k = ctlKeydone then some l.txSeq else l.keyDone }
        (s.setLink i (l.sendFlit 0 1 ((Config.controlBytes k args ++ List.replicate 236 0).take 236))).flushLink i fuel
      | [] =>
        match [0, 1, 2, 3].find? fun v => l.roomFor v && !(s.txStream i v).isEmpty with
        | some v => (s.sendData i v).flushLink i fuel
        | none => if l.owes then s.setLink i (l.sendFlit 0 2 (List.replicate 236 0)) else s

/-- Every link sends what it can. -/
def State.flushLinks (s : State) : State :=
  if s.fab.out.isEmpty && s.fab.links.all fun x => x.2.ctrl.isEmpty && !x.2.owes then s
  else s.fab.links.foldl (fun s x => s.flushLink x.1 1024) s

/-! ### Results of reads, and acknowledgements (05 R155; 12 R365; 19 R490) -/

/-- Bytes at a position of a tag's destination; the tag retires, of a load of several parts with the last (06 R182, R185; 17 R451). -/
def State.landBytes (s : State) (o : Owner) (t seq pos : Nat) (bs : List Byte) : State :=
  let p (r : TagRes) : Bool := r.op.isRemote seq
  match s.whereIs o with
  | .inl (some (c, k)) =>
    let l := s.slot c k
    match l.awaits o.level t p with
    | none => s
    | some (v, t, r) =>
      match r.op with
      | .parts seqs acq x =>
        let x := patchImage x pos bs
        let left := seqs.erase seq
        let b := l.bankOf v
        let rs := ((Sparse.find b.tags t).getD []).map fun y => if p y then { y with op := .parts left acq x } else y
        s.setSlot c k (if left.isEmpty then (writeRef l v 0xFFFF x r.dst).retire v t p
          else l.setBankOf v { b with tags := Sparse.put b.tags t rs })
      | _ =>
        let l := writeRef l v 0xFFFF (patchImage (regImage l v r.dst) pos bs) r.dst
        s.setSlot c k (l.retire v t p)
  | .inr (some (d, r)) =>
    match (Sparse.find r.side.tags (frameTag o.level t)).bind fun rs => rs.find? p with
    | none => s
    | some q =>
      let s := (frameOfs (s.readFrame d r 2 2) q.dst).foldl (fun (s : State) (ofs, n, b) =>
        (List.range n).foldl (fun (s : State) i =>
          if pos ≤ b + i && b + i < pos + bs.length then s.patchFrame d r (ofs + i) [bs.getD (b + i - pos) 0] else s) s) s
      s.complete o t p none
  | _ => s

/-- A remote word that waits in its block's queues, changed. -/
def State.updWord (s : State) (core seq : Nat) (f : RemoteWord → RemoteWord) : State :=
  let g (w : RemoteWord) : RemoteWord := if w.core = core && w.seq = seq then f w else w
  let b := coreBlock core
  let bl := s.block b
  s.setBlock b { bl with
    mailbox := bl.mailbox.map fun e => (match e with | .hw w => .hw (g w) | x => x),
    augQ := bl.augQ.map g, mbxSurplus := bl.mbxSurplus.map g, augSurplus := bl.augSurplus.map g, fired := bl.fired.map g }

/-- The bytes of a fetch from another chip, where the slot that asked for them still waits (19 R490). -/
def State.landFetch (s : State) (w : RemoteWord) (bs : List Byte) (poison : Bool) : State :=
  match s.whereIs w.own with
  | .inl (some (c, k)) =>
    let l := s.slot c k
    (match l.fetch with
    | some f =>
      if f.seq = some w.seq then
        let got := bs.zipIdx.foldl (fun m (b, i) => Sparse.put m (w.c.toNat + i) b) f.got
        s.setSlot c k { l with fetch := some { f with got := got, seq := none, bad := if poison then some w.c.toNat else f.bad } }
      else s
    | none => s)
  | _ => s

/-- The bytes of a read reach what it serves; those of a refused one are zero (19 R490). -/
def State.serveRead (s : State) (w : RemoteWord) (bs : List Byte) (poison : Bool) (code : Nat) : State :=
  match w.reply with
  | 1 =>
    let c := s.core w.core
    (match Sparse.find c.copies w.c.toNat with
    | some x =>
      let x : CopyCmd := if code ≠ 0 then { x with code := 2, finished := true }
        else { x with got := x.got ++ bs, gotBad := x.gotBad || poison, asked := false }
      s.setCore w.core { c with copies := Sparse.put c.copies w.c.toNat x }
    | none => s)
  | 2 => s.updWord w.core w.d.toNat fun x =>
      { x with got := x.got ++ bs, asked := false, bad := if code ≠ 0 then 0xC0 else if poison then 0xC2 else x.bad }
  | 3 | 4 =>
    let c := s.core w.core
    let c := if poison then { c with pieces := Sparse.del c.pieces w.d.toNat }
      else if w.reply = 3 then c.landStore w.d.toNat w.c.toNat bs else c.patchEntries w.c.toNat bs
    let s := (s.setCore w.core { c with loading := c.loading - 1 }).complete w.own w.tag (fun r => r.op.isRemote w.seq) none
    if poison then s.deferTrap w.own ⟨.dataPoison, w.a, w.wpc⟩ else s
  | 6 => s.landFetch w bs poison
  | _ =>
    if poison then
      (s.complete w.own w.tag (fun r => r.op.isRemote w.seq) none).deferTrap w.own ⟨.dataPoison, w.a, w.wpc⟩
    else if w.op = opAtomic then s.landBytes w.own w.tag w.seq 0 (padTo 8 bs)
    else s.landBytes w.own w.tag w.seq w.c.toNat (padTo w.d.toNat bs)

/-- A put of a copy engine is acknowledged: its command has one fewer outstanding; a refusal, whose bytes are not written, ends it as a
fault does (05 R142; 09 R283, R284). -/
def State.ackCopy (s : State) (w : RemoteWord) (code : Nat) : State :=
  let c := s.core w.core
  match Sparse.find c.copies w.b.toNat with
  | some x =>
    let x := if code = 0 then x else { x with code := 2, finished := true, doneN := x.doneN - w.data.length }
    s.setCore w.core { c with copies := Sparse.put c.copies w.b.toNat { x with outs := x.outs - 1 } }
  | none => s

/-- The end of a remote word: its core's counter, its tag, its refusal, and the entry that fired it (05 R155, R157; 12 R365,
R381). -/
def State.endRemote (s : State) (w : RemoteWord) (code : Nat) : State :=
  let c := s.core w.core
  let s := (s.setCore w.core { c with acks := c.acks - 1 }).endHeld (coreBlock w.core)
  match w.fired with
  | some no => s.endEntry (coreBlock w.core) no code
  | none =>
    let read : Bool := w.op = opRead || w.op = opAtomic
    let s := if !read && w.reply = 5 then s.ackCopy w code else s
    let s := if read then (if code ≠ 0 then s.serveRead w (List.replicate w.b.toNat 0) false code else s)
      else s.complete w.own w.tag (fun r => r.op.isRemote w.seq) none
    if code ≠ 0 && w.reply ≠ 5 && !(read && w.reply = 2) then s.refuse w.own code else s

/-- The pair of a source core and a destination chip (20 R514). -/
def txKey (core chip : Nat) : Nat := core * 2048 + chip % 2048

def State.txPair (s : State) (k : Nat) : TxPair := Sparse.get {} s.fab.tx k
def State.setTx (s : State) (k : Nat) (x : TxPair) : State := { s with fab := { s.fab with tx := Sparse.set {} s.fab.tx k x } }

/-- The word of a pair that an acknowledgement names, taken off the pair. -/
def State.popWord (s : State) (k : Nat) (pseq : BitVec 32) : Option (RemoteWord × State) :=
  let x := s.txPair k
  match x.unacked.find? fun u => u.1 = pseq with
  | some (_, w) => some (w, s.setTx k { x with unacked := x.unacked.filter fun u => u.1 ≠ pseq })
  | none => none

/-- The acknowledgement of the word whose LAST packet is `p`: its SRC is the chip of its pair, also where a chip on the way refuses
it. -/
def ackOf (p : Packet) (chip code : Nat) : Packet :=
  { pktBlank with
    op := pkAck, flags := 0x18, job := p.job, src := BitVec.ofNat 16 chip, score := p.score, dst := p.src, seg := p.seg,
    typ := BitVec.ofNat 8 code, pseq := p.pseq }

/-- The core number under which a switch sends MCDATA. -/
def switchCore : Nat := 0xFFFF

/-- Acknowledges a word of a core: here, or by a packet (20 R515). -/
def State.ackCore (s : State) (p : Packet) (chip code : Nat) : State :=
  if p.src.toNat = s.chipNo then
    match s.popWord (txKey p.score.toNat chip) p.pseq with
    | some (w, s) => s.endRemote w code
    | none => s
  else (s.linkSend p.src.toNat (ackOf p chip code)).getD s

/-- Every contributor of a round is acknowledged and the round is gone (20 R520). -/
def State.endRound (s : State) (r : Round) (code : Nat) : State :=
  let s := { s with fab := { s.fab with rounds := s.fab.rounds.filter fun x => x.id ≠ r.id } }
  let lasts := (r.contribs.filterMap fun c => c.2.getLast?) ++ r.strangers
  lasts.foldl (fun s p => s.ackCore p s.chipNo code) s

/-- A member has acknowledged a combined write: when every member has, the code is that of the lowest member that refused. -/
def State.roundAck (s : State) (id i code : Nat) : State :=
  match s.fab.rounds.find? fun r => r.id = id with
  | none => s
  | some r =>
    let r' := { r with acks := Sparse.put r.acks i code }
    let s := { s with fab := { s.fab with rounds := s.fab.rounds.map fun x => if x.id = id then r' else x } }
    if r'.acks.length < r.contribs.length then s
    else s.endRound r' (((r'.acks.find? fun a => a.2 ≠ 0).map (·.2)).getD 0)

/-- Acknowledges a word, of a core or of this chip's switch. -/
def State.ackWord (s : State) (p : Packet) (chip code : Nat) : State :=
  if p.src.toNat = s.chipNo && p.score.toNat = switchCore then
    match s.popWord (txKey switchCore chip) p.pseq with
    | some (w, s) => s.roundAck w.a.toNat w.b.toNat code
    | none => s
  else s.ackCore p chip code

/-! ### The receiving port (20 R514 to R518) -/

/-- What a word asks of its segment, by its first packet. -/
def pktAsk (p : Packet) : SegAsk :=
  let flag := if (pktSig p) && (pktLast p) then some p.fofs.toNat else none
  let sig := if (pktSig p) then rSignal else 0
  let q : SegAsk :=
    { job := p.job.toNat, seg := p.seg.toNat, wofs := p.wofs.toNat, wlen := p.wlen.toNat, flag := flag, need := rPut ||| sig,
      fill := (pktFill p), noHbm := false, align := if (pktFill p) then 128 else 1, noScr := false, acc := .store }
  let ty := p.typ.setWidth 4
  match p.op.toNat with
  | 2 => { q with need := rReduce ||| sig, noHbm := true, align := if redBytes ty = 8 then 8 else 4, acc := .atomic }
  | 3 => { q with need := rSignal, flag := some p.ofs.toNat, wofs := p.ofs.toNat, wlen := 8, acc := .atomic }
  | 5 => { q with need := rReduce ||| sig }
  | 6 => { q with acc := .load }
  | 7 => { q with need := rReduce, align := max 1 p.wlen.toNat, noScr := !(AtomOp.ofCode p.fn.toNat).bank, acc := .atomic }
  | _ => if (pktFill p) then { q with need := rPut ||| rFill ||| sig } else q

/-- What comes of a packet whose turn it is: it is dealt with, or must wait. -/
inductive Got where
  | done (s : State)
  | hold (s : State)

/-- The runs of every packet of a word, by what its FIRST packet decided; the first code that one earns. -/
def State.wordRuns (s : State) (q : SegAsk) (e : SegEnt) (pages : SMap PagePlan) : List (Nat × Nat) → SegAns
  | [] => .yes [] s
  | (o, n) :: r =>
    if e.limit < o + n then .no 3 s
    else match s.planRuns q e pages (n / 2 ^ 16 + 2) o n with
      | .yes g s => (match s.wordRuns q e pages r with | .yes h s => .yes (g ++ h) s | x => x)
      | x => x

/-- The operation that a bank makes of a reduction's TYPE (12 R371). -/
def redOp (ty : BitVec 4) : AtomOp := match ty.toNat with | 4 => .fadd | 7 => .bfadd | _ => .add

/-- The elements of a reduction, in ascending address order (12 R371). -/
def State.applyRed (s : State) (ty : BitVec 4) (runs : List Seg) (bs : List Byte) : State :=
  let k := if redBytes ty = 8 then 8 else 4
  let places := runs.flatMap fun g => match g.loc with
    | .scr c o => (List.range (g.len / k)).map fun i => (⟨.scr c (o + k * i), k⟩ : Seg)
    | _ => []
  places.zipIdx.foldl (fun s (g, i) => (s.rmw (redOp ty) [g] k (natOfBytes ((bs.drop (k * i)).take k)) 0).2) s

/-- The lines of a fill become FULL, its last FULL_EOS with EOS (12 R367, 05 R144). -/
def State.fillLines (s : State) (eos : Bool) (runs : List Seg) : State :=
  let ls := runs.flatMap fun g => match g.loc with | .scr c o => (lines128 o g.len).map fun i => (c, i) | _ => []
  ls.zipIdx.foldl (fun s ((c, i), n) => s.setLine c i (if eos && n + 1 = ls.length then lnEos else lnFull)) s

/-- The bytes of a response, cut into packets by position. -/
def respPackets (s : State) (p : Packet) (bs : List Byte) (poison : Bool) : List Packet :=
  (cutData 0 bs).map fun (o, x) =>
    { pktBlank with
      op := pkResp, flags := 0x18, job := p.job, src := BitVec.ofNat 16 s.chipNo, score := p.score, dst := p.src, seg := p.seg,
      pseq := p.pseq, ofs := BitVec.ofNat 40 o, len := BitVec.ofNat 24 x.length, wlen := BitVec.ofNat 32 bs.length,
      poison := poison, data := x }

/-- A RESP arrives: its bytes join the others, a second copy of a part is discarded (20 R523); when none is outstanding the read is over
(19 R490). -/
def State.respArrives (s : State) (p : Packet) : State :=
  let k := txKey p.score.toNat p.src.toNat
  match s.popWord k p.pseq with
  | none => s
  | some (w, s') =>
    if !(w.op = opRead || w.op = opAtomic) || w.came.contains p.ofs.toNat then s
    else
      let o := p.ofs.toNat
      let w := { w with
        came := o :: w.came, got := w.got.take o ++ p.data ++ w.got.drop (o + p.data.length), left := w.left - p.data.length,
        bad := if p.poison then 8 else w.bad }
      if w.left = 0 then (s'.endRemote w 0).serveRead w w.got (decide (w.bad ≠ 0)) 0
      else
        let x := s.txPair k
        s.setTx k { x with unacked := x.unacked.map fun u => if u.1 = p.pseq then (u.1, w) else u }

/-- The effect of an accepted word: its bytes, then its signal, then its acknowledgement or response (20 R515; 05 R154). -/
def State.applyWord (s : State) (q : SegAsk) (ps : List Packet) (runs flag : List Seg) : State :=
  let p := ps.headD pktBlank
  let z := ps.getLastD pktBlank
  let bs := ps.flatMap (·.data)
  let signal (s : State) : State := if flag.isEmpty then s else (s.rmw .add flag 8 1 0).2
  let self := s.chipNo
  match p.op.toNat with
  | 2 => (signal (s.applyRed (p.typ.setWidth 4) runs bs)).ackWord z self 0
  | 3 => ((s.rmw .add runs 8 (natOfBytes (bs.take 8)) 0).2).ackWord z self 0
  | 6 | 7 =>
    let n := q.wlen
    let bad := runsPoison s runs
    let (x, s) := if p.op = pkRead then (readSegs s runs, s)
      else if bad then (List.replicate n 0, s)
      else
        let (old, s) := s.rmw (AtomOp.ofCode p.fn.toNat) runs n (natOfBytes (bs.take n)) (natOfBytes ((bs.drop n).take n))
        (bytesOfNat n old, s)
    (respPackets s p x bad).foldl (fun s r =>
      if r.dst.toNat = self then s.respArrives r else (s.linkSend r.dst.toNat r).getD s) s
  | _ =>
    let s := writeSegs s runs bs
    let s := if (pktFill p) then s.fillLines (pktEos p) runs else s
    (signal s).ackWord z self 0

/-- The reason code of a collected word before its translations: what its FIRST packet earned, with the checks of the flag, which only the
LAST packet names, in their places among the others (20 R515). -/
def collectedCode (code : Nat) (e : SegEnt) (sig : Bool) (f : Nat) : Nat :=
  if 1 ≤ code && code ≤ 3 then code
  else if sig && decide (e.limit < f + 8) then 3
  else if code = 4 || code = 6 || code = 7 then code
  else if sig && decide ((e.base + f) % 8 ≠ 0) then 7
  else code

/-- A whole word that the port has collected: what its FIRST packet decided with the flag that its LAST packet names, poison, then its
effect or its refusal (20 R515, R516, R518). -/
def State.finishCollected (s : State) (ps : List Packet) (x : RxPair) : Got :=
  let p := ps.headD pktBlank
  let z := ps.getLastD pktBlank
  let no (c : Nat) (s : State) : Got := .done (s.ackWord z s.chipNo c)
  match x.ent with
  | none => no (if x.code = 0 then 2 else x.code) s
  | some e =>
    let q := (pktAsk p)
    let f := z.fofs.toNat
    let sig := (pktSig p) && p.op ≠ pkSem
    match collectedCode x.code e sig f with
    | 0 =>
      if ps.any (·.poison) then no 8 s
      else
        let parts := if p.op = pkRead || p.op = pkAtomic then [(q.wofs, q.wlen)] else ps.map fun x => (x.ofs.toNat, x.data.length)
        match s.wordRuns q e x.pages parts with
        | .no c s => no c s
        | .hold s => .hold s
        | .yes runs s =>
          if !sig then .done (s.applyWord q ps runs [])
          else match s.segXlate { q with acc := .atomic } e f 8 with
            | .no c s => no c s
            | .hold s => .hold s
            | .yes flag s => .done (s.applyWord q ps runs flag)
    | c => no c s

def rxKey (p : Packet) : Nat := p.src.toNat * 65536 + p.score.toNat
def State.rxPair (s : State) (k : Nat) : RxPair := Sparse.get {} s.fab.rx k
def State.setRx (s : State) (k : Nat) (x : RxPair) : State := { s with fab := { s.fab with rx := Sparse.set {} s.fab.rx k x } }

/-- What a FIRST packet decides of its word: the reason code, the entry, and what the granules of its span translate to (20 R515, R516,
R518). -/
def State.decideWord (s : State) (x : RxPair) (p : Packet) : RxPair × State :=
  match s.segLookup p.job.toNat p.seg.toNat with
  | .error c => ({ x with code := c, ent := none, cur := [], pages := [] }, if c = 2 then s.segDenied p.job.toNat p.seg.toNat else s)
  | .ok e =>
    let q := pktAsk p
    match s.segTest q e, e.granules q.wofs q.wlen with
    | 0, some gs =>
      ({ x with code := 0, ent := some e, cur := [], pages := gs.map fun g => (g, s.pagePlan q e (max (g * 2 ^ 16) (e.base + q.wofs))) }, s)
    | 0, none => ({ x with code := 10, ent := some e, cur := [], pages := [] }, s)
    | c, _ => ({ x with code := c, ent := some e, cur := [], pages := [] }, s)

/-- A packet whose turn it is: the word is decided at its FIRST packet and applied at its LAST (20 R515, R518).  A FIRST packet whose
translations miss waits while the port's die runs 128 walks (19 R488). -/
def State.portPacket (s : State) (p : Packet) : Got :=
  let k := rxKey p
  if pktFirst p && !s.walkFree 0 then .hold s
  else
    let (x, s) := if pktFirst p then s.decideWord (s.rxPair k) p else (s.rxPair k, s)
    let ps := x.cur ++ [p]
    if (pktLast p) then
      match s.finishCollected ps x with
      | .done s => .done (s.setRx k { s.rxPair k with cur := [], code := 0, ent := none, pages := [] })
      | .hold s => .hold s
    else .done (s.setRx k { x with cur := ps })

/-- Whether sequence number `a` lies before `b` (20 R514). -/
def seqBefore (a b : BitVec 32) : Bool := a ≠ b && 2 ^ 31 ≤ (a - b).toNat

/-- The held packets of a pair whose turn it is are dealt with in PSEQ order (20 R514). -/
def State.drainPair (proc : State → Packet → Got) (k : Nat) : Nat → State → State
  | 0, s => s
  | fuel + 1, s =>
    let x := s.rxPair k
    match x.held.find? fun p => p.pseq = x.next with
    | none => s
    | some p =>
      let s := s.setRx k { x with next := x.next + 1, held := x.held.filter fun y => y.pseq ≠ p.pseq }
      match proc s p with
      | .done s => State.drainPair proc k fuel s
      | .hold s =>
        let y := s.rxPair k
        s.setRx k { y with next := p.pseq, held := p :: y.held }

/-- A packet arrives at the port: one already applied is discarded, one that is early is held (20 R514). -/
def State.portTakes (proc : State → Packet → Got) (s : State) (p : Packet) : State :=
  let k := rxKey p
  let x := s.rxPair k
  if seqBefore p.pseq x.next || x.held.any fun y => y.pseq = p.pseq then s
  else State.drainPair proc k (x.held.length + 2) (s.setRx k { x with held := x.held ++ [p] })

/-! ### Rounds (12 R373, 20 R520, 05 R159) -/

/-- The sum of the members' elements in ascending member index (05 R159). -/
def sumElems (ty : BitVec 4) (ms : List (List Byte)) : List Byte :=
  let k := redBytes ty
  let n := (ms.headD []).length / k
  let add (a b : Nat) : Nat := match ty.toNat with
    | 4 => bankAdd fmtF32 a b
    | 7 => bankAdd fmtBf16 a b
    | _ => (a + b) % 2 ^ (8 * k)
  (List.range n).flatMap fun i =>
    let xs := ms.map fun m => natOfBytes ((m.drop (k * i)).take k)
    bytesOfNat k (xs.tail.foldl add (xs.headD 0))

/-- What the contributions to a round must agree in (12 R373). -/
def contribKey (ps : List Packet) : Nat × Nat × Nat × Nat :=
  let p := ps.headD pktBlank
  (p.typ.toNat, (ps.flatMap (·.data)).length, p.seg.toNat, p.ofs.toNat)

/-- Sends packets of this chip's switch: to the port here, or out; an unreachable chip refuses its word. -/
def State.switchSend (s : State) (chip : Nat) (p : Packet) : State :=
  if chip = s.chipNo then State.portTakes State.portPacket s p
  else match s.linkSend chip p with
    | some s => s
    | none => if (pktLast p) then s.ackWord p chip 15 else s

/-- The combined write goes to every member (20 R520). -/
def State.combine (s : State) (r : Round) (members : List Nat) : State :=
  let ms := r.contribs.map fun c => c.2.flatMap (·.data)
  let ps := (r.contribs.headD (0, [])).2
  let p := ps.headD pktBlank
  let z := ps.getLastD pktBlank
  let sum := sumElems (p.typ.setWidth 4) ms
  let s := { s with fab := { s.fab with rounds := s.fab.rounds.map fun (x : Round) => if x.id = r.id then { r with sent := true } else x } }
  members.zipIdx.foldl (fun s (m, i) =>
    let k := txKey switchCore m
    let x := s.txPair k
    let base := { pktBlank with
      op := pkMcdata, flags := p.flags &&& 4, job := p.job, src := BitVec.ofNat 16 s.chipNo, score := BitVec.ofNat 16 switchCore,
      dst := BitVec.ofNat 16 m, seg := p.seg }
    let out := numberPackets base x.next z.fofs.toNat (cutData p.ofs.toNat sum)
    let w : RemoteWord :=
      { op := opMcdata, a := BitVec.ofNat 64 r.id, b := BitVec.ofNat 64 i, c := 0, d := 0, fill := false, eos := false,
        sig := false, ty := 0, acq := false, scope := 0, data := [], core := switchCore, own := ⟨0, 0, 0, 0, .t⟩, tag := 0, wpc := 0,
        part := 0, job := p.job.toNat, fired := none, seq := 0, handle := 0, scratch := 0 }
    let last := x.next + BitVec.ofNat 32 (out.length - 1)
    let s := s.setTx k { next := x.next + BitVec.ofNat 32 out.length, unacked := x.unacked ++ [(last, w)] }
    out.foldl (fun s q => s.switchSend m q) s) s

/-- The open rounds of a group, oldest first. -/
def State.openRounds (s : State) (job group : Nat) : List Round :=
  s.fab.rounds.filter fun r => r.job = job && r.group = group && !r.sent

/-- Rounds of a group whose time is over are refused: TIMEOUT, or the reason found earlier (12 R373, 20 R520). -/
def State.expireRounds (s : State) (job group limit : Nat) : State :=
  (s.openRounds job group).foldl (fun s r =>
    if r.start + limit < s.podNow.toNat then s.endRound r (if r.bad ≠ 0 then r.bad else 13) else s) s

/-- A whole contribution at its home (20 R520): it joins the first open round that lacks its member, opens one, or waits while two
are open. -/
def State.contribute (s : State) (ps : List Packet) : Got :=
  let p := ps.headD pktBlank
  let z := ps.getLastD pktBlank
  let job := p.job.toNat
  let group := p.dst.toNat
  match s.groupEntry job group with
  | none => .done (s.ackCore z s.chipNo (if (s.jobEntry job).isNone then 1 else 11))
  | some g =>
    let s := s.expireRounds job group g.timeout
    let idx := (g.members.zipIdx.find? fun m => m.1 = p.src.toNat).map (·.2)
    let opened := s.openRounds job group
    let fits (r : Round) : Bool := match idx with | some i => (Sparse.find r.contribs i).isNone | none => true
    let at_ : Option (Round × State) := match opened.find? fits with
      | some r => some (r, s)
      | none =>
        if 2 ≤ opened.length then none
        else
          let r : Round := { id := s.fab.nextRound, job := job, group := group, start := s.podNow.toNat, contribs := [],
                             strangers := [], bad := 0, sent := false, acks := [] }
          some (r, { s with fab := { s.fab with rounds := s.fab.rounds ++ [r], nextRound := s.fab.nextRound + 1 } })
    match at_ with
    | none => .hold s
    | some (r, s) =>
      let differs := (r.contribs.head?.map fun c => decide (contribKey c.2 ≠ contribKey ps)).getD false
      let poison := ps.any (·.poison)
      let bad := if r.bad ≠ 0 then r.bad else if idx.isNone then 12 else if differs then 11 else if poison then 8 else 0
      let r := { r with
        bad := bad, contribs := (match idx with | some i => Sparse.put r.contribs i ps | none => r.contribs),
        strangers := if idx.isNone then r.strangers ++ [z] else r.strangers }
      let s := { s with fab := { s.fab with rounds := s.fab.rounds.map fun x => if x.id = r.id then r else x } }
      if r.contribs.length < g.members.length then .done s
      else if r.bad ≠ 0 then .done (s.endRound r r.bad)
      else .done (s.combine r g.members)

/-- A packet whose turn it is, of any word. -/
def State.anyPacket (s : State) (p : Packet) : Got :=
  if p.op ≠ pkMcred then s.portPacket p
  else
    let k := rxKey p
    let x := s.rxPair k
    let ps := (if (pktFirst p) then [] else x.cur) ++ [p]
    if !(pktLast p) then .done (s.setRx k { x with cur := ps })
    else match s.contribute ps with
      | .done s => .done (s.setRx k { s.rxPair k with cur := [] })
      | .hold s => .hold s

/-- Packets that waited at the port are tried again. -/
def State.settle (s : State) : State :=
  (s.fab.rx.map (·.1)).foldl (fun s k => State.drainPair State.anyPacket k ((s.rxPair k).held.length + 1) s) s

/-- A packet of this chip is sent: to the port here, or out (20 R509). -/
def State.route (s : State) (chip : Nat) (p : Packet) : State :=
  if chip = s.chipNo then State.portTakes State.anyPacket s p
  else match s.linkSend chip p with
    | some s => s
    | none => if (pktLast p) then s.ackWord p chip 15 else s

/-- A packet arrives from a link, or from its event: at this chip's port or switch, or in transit (20 R513).  A contribution to a group
that this chip's table does not hold is dealt with here. -/
def State.arrives (s : State) (p : Packet) : State :=
    let chip := (s.pktChip p).getD s.chipNo
    if chip = s.chipNo then
      match p.op.toNat with
      | 8 => s.respArrives p
      | 9 =>
        (match s.popWord (txKey p.score.toNat p.src.toNat) p.pseq with
        | some (w, s) =>
          if p.score.toNat = switchCore then s.roundAck w.a.toNat w.b.toNat p.typ.toNat else s.endRemote w p.typ.toNat
        | none => s)
      | 1 | 2 | 3 | 4 | 5 | 6 | 7 => State.portTakes State.anyPacket s p
      | _ => s
    else match s.linkSend chip p with
      | some s => s
      | none =>
        if (pktLast p) && p.op ≠ pkAck && p.op ≠ pkResp then
          (s.linkSend p.src.toNat (ackOf p chip 15)).getD s
        else s

/-! ### The egress unit (12 R360 to R362, R369) -/

/-- The parts of a word's source, in the order of its data. -/
def RemoteWord.parts (w : RemoteWord) : List (Nat × Nat) :=
  if w.op = opRcopy || w.op = opRcopySig then
    if w.lay.isEmpty then [(w.c.toNat, 64)]
    else
      let y := layoutOf w.lay
      (List.range (y.n1 * y.n2)).map fun r => (y.src w.b (r * y.n0), y.n0)
  else if w.op = opPut || w.op = opPutSig then [(w.b.toNat, w.c.toNat)]
  else if w.op = opRed || w.op = opRedSig || w.op = opMcred || w.op = opMcredSig then [(w.b.toNat, w.c.toNat * redBytes w.ty)]
  else []

/-- The next piece to read when `got` bytes are here: within a part and a granule of 64 KiB. -/
def nextPiece : List (Nat × Nat) → Nat → Option (Nat × Nat)
  | [], _ => none
  | (a, n) :: r, got =>
    if n ≤ got then nextPiece r (got - n)
    else
      let b := (a + got) % 2 ^ 64
      some (b, min (n - got) (2 ^ 16 - b % 2 ^ 16))

/-- Whether a part lies in one window that a local operand may name (12 R360, R366). -/
def partOk (x : Nat × Nat) : Bool :=
  match checkWin x.1 x.2 with
  | .ok (.global, _) | .ok (.loc, _) | .ok (.block _, _) => true
  | _ => x.2 = 0

/-- What reading a word's source comes to: all of it is here; it waits; a piece is on a peer chip; or a refusal (12 R360). -/
inductive Pull where
  | done (w : RemoteWord) (s : State)
  | stop (w : RemoteWord) (s : State)
  | ask (w : RemoteWord) (chip q n : Nat) (s : State)
  | refuse (code : Nat) (s : State)

/-- Reads the pieces of a word's source as far as they go. -/
def pullSource (parts : List (Nat × Nat)) : Nat → RemoteWord → State → Pull
  | 0, w, s => .done w s
  | fuel + 1, w, s =>
    if w.bad ≠ 0 then .refuse w.bad s
    else match nextPiece parts w.got.length with
      | none => .done w s
      | some (a, n) =>
        match engineAccess s ⟨w.part, w.job, w.handle, w.core, w.scratch, 7⟩ .load a n w.waits with
        | .refuse _ => .refuse 0xC0 s
        | .wait e s => .stop { w with waits := e } s
        | .ok segs s =>
          let w := { w with waits := waitsAfter w.waits a n }
          match segs with
          | [⟨.peer chip q, _⟩] => if w.asked then .stop w s else .ask w chip q n s
          | _ =>
            let s := s.engineRange w.own a segs
            if runsPoison s segs then .refuse 0xC2 s
            else pullSource parts fuel { w with got := w.got ++ readSegs s segs } s

/-- The offsets in its segment of the bytes that RCOPY writes, row by row; none where one lies outside 0 to 2^40 (12 R369). -/
def copyRows (w : RemoteWord) (y : Layout) : Option (List Nat) :=
  if w.fill then
    (if 2 ^ 40 < podOfs w.a.toNat + y.size then none else some ((List.range (y.n1 * y.n2)).map fun r => podOfs w.a.toNat + r * y.n0))
  else
    let rows := (List.range (y.n1 * y.n2)).map fun r =>
      (podOfs w.a.toNat : Int) + ((r / y.n1 : Nat) : Int) * y.dplane.toInt + ((r % y.n1 : Nat) : Int) * y.drow.toInt
    if rows.any fun o => o < 0 || (2 : Int) ^ 40 < o + (y.n0 : Int) then none else some (rows.map Int.toNat)

/-- Whether a layout record suits RCOPY (12 R366, R369). -/
def copyOk (w : RemoteWord) (y : Layout) : Bool :=
  y.ok && y.flags = 0 && (!w.fill || y.size % 128 = 0) && (copyRows w y).isSome && w.c.toNat % 64 = 0

/-- The places and data of a word's packets. -/
def RemoteWord.pieces (w : RemoteWord) : List (Nat × List Byte) :=
  let o := podOfs w.a.toNat
  if w.op = opRcopy || w.op = opRcopySig then
    let y := layoutOf w.lay
    if w.fill then cutData o w.got
    else ((copyRows w y).getD []).zipIdx.flatMap fun (r, i) => cutData r ((w.got.drop (i * y.n0)).take y.n0)
  else if w.op = opSem || w.op = opStore then cutData o w.data
  else if w.op = opRead then [(o, [])]
  else if w.op = opAtomic then
    [(o, bytesOfNat w.b.toNat w.d.toNat ++ bytesOfNat w.b.toNat w.c.toNat)]
  else cutData o w.got

/-- The operation, TYPE and options of a word's packets (20 Tables 20-2, 20-3). -/
def RemoteWord.base (w : RemoteWord) (s : State) (chip : Nat) : Packet :=
  let red : Bool := w.op = opRed || w.op = opRedSig || w.op = opMcred || w.op = opMcredSig
  let mc : Bool := w.op = opMcred || w.op = opMcredSig
  let op := if red then (if mc then pkMcred else pkRed) else if w.op = opSem then pkSem else if w.op = opRead then pkRead
    else if w.op = opAtomic then pkAtomic else pkPut
  { pktBlank with
    op := op,
    flags := (if w.fill then 1 else 0) ||| (if w.eos then 2 else 0) ||| (if w.sig then 4 else 0) ||| (if w.timed then 32 else 0),
    job := BitVec.ofNat 16 w.job, src := BitVec.ofNat 16 s.chipNo, score := BitVec.ofNat 16 w.core,
    dst := if mc then BitVec.ofNat 16 (fld w.a.toNat 58 48) else BitVec.ofNat 16 chip,
    seg := BitVec.ofNat 8 (fld w.a.toNat 47 40), typ := if red then w.ty.setWidth 8 else 0,
    fn := if w.op = opAtomic then w.ty.setWidth 8 else 0 }

/-- The chip that a word goes to: of a contribution, the home of its group; none where the group is invalid. -/
def State.wordChip (s : State) (w : RemoteWord) : Option Nat :=
  if w.op = opMcred || w.op = opMcredSig then (s.groupEntry w.job (fld w.a.toNat 58 48)).map (·.home)
  else some (fld w.a.toNat 58 48)

/-- The packets of a pair that are sent and not covered by an acknowledgement (20 R514). -/
def TxPair.outstanding (x : TxPair) : Nat := x.unacked.foldl (fun n u => n + u.2.npk) 0

/-- The contributions of this chip to a group that are not acknowledged: each stands in a round of its own. -/
def State.contributed (s : State) (job group : Nat) : Nat :=
  (s.fab.tx.flatMap fun x => x.2.unacked.filter fun u =>
    (u.2.op = opMcred || u.2.op = opMcredSig) && u.2.job = job && fld u.2.a.toNat 58 48 = group).length

/-- Whether a word must wait at its egress unit: for the window of its pair, or, as a contribution to a third round of its group, for one of
the two in which this chip's contributions stand (20 R514, R520). -/
def State.mustWait (s : State) (w : RemoteWord) (chip n : Nat) : Bool :=
  let x := s.txPair (txKey w.core chip)
  (x.outstanding ≠ 0 && 256 < x.outstanding + n) ||
  ((w.op = opMcred || w.op = opMcredSig) && 2 ≤ s.contributed w.job (fld w.a.toNat 58 48))

/-- Sends a word whose data is here: its packets take the pair's next sequence numbers (20 R512, R514). -/
def State.transmit (s : State) (w : RemoteWord) (chip : Nat) : State :=
  let k := txKey w.core chip
  let x := s.txPair k
  let ps := w.pieces
  let out := numberPackets (w.base s chip) x.next (podOfs w.d.toNat) ps
  let read : Bool := w.op = opRead || w.op = opAtomic
  let out := if read then out.map fun p => { p with wofs := BitVec.ofNat 40 (podOfs w.a.toNat), wlen := BitVec.ofNat 32 w.b.toNat }
    else out
  let w := { w with npk := out.length, left := if read then w.b.toNat else 0,
                    got := if read then List.replicate w.b.toNat 0 else [], data := [] }
  let last := x.next + BitVec.ofNat 32 (out.length - 1)
  let s := s.setTx k { next := x.next + BitVec.ofNat 32 out.length, unacked := x.unacked ++ [(last, w)] }
  out.foldl (fun s p => s.route chip { p with poison := w.poison }) s

/-- The first word that a source of the egress unit holds (12 R361, R363). -/
def Block.egressHead (bl : Block) : EgressSrc → Option RemoteWord
  | .mailbox => bl.mailbox.findSome? fun e => match e with | .hw w => some w | _ => none
  | .august => bl.augQ.head?
  | .fired => bl.fired.head?

/-- The block without that word. -/
def Block.egressDrop (bl : Block) : EgressSrc → Block
  | .mailbox => { bl with mailbox := bl.mailbox.eraseP fun e => match e with | .hw _ => true | _ => false }
  | .august => { bl with augQ := bl.augQ.tail }
  | .fired => { bl with fired := bl.fired.tail }

/-- The read of a word's source on a peer page (12 R366, 19 R490). -/
def State.askPeer (s : State) (w : RemoteWord) (chip q n : Nat) : State :=
  let c := s.core w.core
  let r := { w with
    op := opRead, a := BitVec.ofNat 64 (podAddr chip q), b := BitVec.ofNat 64 n, c := 0, d := BitVec.ofNat 64 w.seq, fill := false,
    eos := false, sig := false, ty := 0, data := [], tag := 0, fired := none, seq := c.nextRemote, got := [], asked := false,
    reply := 2, bad := 0, lay := [], timed := false }
  if s.mustWait r (fld r.a.toNat 58 48) 1 then s
  else
    let s := s.setCore w.core { c with acks := c.acks + 1, nextRemote := c.nextRemote + 1 }
    (s.updWord w.core w.seq fun x => { x with asked := true }).transmit r (fld r.a.toNat 58 48)

/-- The egress unit deals with the first word of a source: it reads the word's source and sends it, refuses it, or waits
(12 R360, R361).  DESIGN CHOICE: a put that carries poison to another chip, whose port would refuse it with POISON, is refused here: no
field of a packet says that its data is poisoned (20 Tables 20-2, 20-7). -/
def State.egress (s : State) (b : Nat) (src : EgressSrc) : State :=
  match (s.block b).egressHead src with
  | none => s
  | some w =>
    let refuse (code : Nat) (s : State) : State := (s.setBlock b ((s.block b).egressDrop src)).endRemote w code
    let send (w : RemoteWord) (s : State) : State :=
      match s.wordChip w with
      | none => refuse 11 s
      | some chip =>
        let n := w.pieces.length
        if w.poison && chip ≠ s.chipNo then refuse 8 s
        else if s.mustWait w chip n then s.updWord w.core w.seq fun _ => w
        else (s.setBlock b ((s.block b).egressDrop src)).transmit w chip
    let copy : Bool := w.op = opRcopy || w.op = opRcopySig
    let ps := w.parts
    let fuel := ps.foldl (fun n x => n + x.2 / 2 ^ 16 + 2) 1
    if !ps.all partOk then refuse 0xC0 s
    else match pullSource ps fuel w s with
      | .refuse c s => refuse c s
      | .stop w s => s.updWord w.core w.seq fun _ => w
      | .ask w chip q n s => (s.updWord w.core w.seq fun _ => w).askPeer w chip q n
      | .done x s =>
        if copy && x.lay.isEmpty then
          let x := { x with lay := x.got, got := [] }
          let y := layoutOf x.lay
          if !copyOk x y then refuse 0xC1 s
          else
            let ps := x.parts
            let fuel := ps.foldl (fun n x => n + x.2 / 2 ^ 16 + 2) 1
            let s := s.updWord x.core x.seq fun _ => x
            if !ps.all partOk then refuse 0xC0 s
            else match pullSource ps fuel x s with
              | .refuse c s => refuse c s
              | .stop w s => s.updWord w.core w.seq fun _ => w
              | .ask w chip q n s => (s.updWord w.core w.seq fun _ => w).askPeer w chip q n
              | .done x s => send x s
        else send x s

/-- EGRESS_ACCEPT: the egress unit takes the next word of a source (12 R361). -/
def execEgressAccept (block : Nat) (src : EgressSrc) (s : State) : Host.Outcome State Fault Refusal :=
  .next (s.egress block src).settle

/-! ### Packets that arrive (20 Table 20-3) -/

/-- A packet of an operation arrives. -/
def packetEvent (op : BitVec 8) (p : Packet) (s : State) : Host.Outcome State Fault Refusal :=
  .next (s.arrives { p with op := op }).settle

/-- PUT (20 R515). -/
def execPutPkt (p : Packet) (s : State) : Host.Outcome State Fault Refusal := packetEvent pkPut p s
/-- RED (20 R515, 05 R158). -/
def execRedPkt (p : Packet) (s : State) : Host.Outcome State Fault Refusal := packetEvent pkRed p s
/-- SEM (20 R515, 12 R370). -/
def execSemPkt (p : Packet) (s : State) : Host.Outcome State Fault Refusal := packetEvent pkSem p s
/-- A contribution to a round (20 R520). -/
def execMcredContribution (p : Packet) (s : State) : Host.Outcome State Fault Refusal := packetEvent pkMcred p s
/-- MCDATA (20 R520). -/
def execMcdata (p : Packet) (s : State) : Host.Outcome State Fault Refusal := packetEvent pkMcdata p s
/-- READ (19 R490). -/
def execReadPkt (p : Packet) (s : State) : Host.Outcome State Fault Refusal := packetEvent pkRead p s
/-- ATOMIC (19 R490). -/
def execAtomic (p : Packet) (s : State) : Host.Outcome State Fault Refusal := packetEvent pkAtomic p s
/-- RESP (19 R490). -/
def execRespPkt (p : Packet) (s : State) : Host.Outcome State Fault Refusal := packetEvent pkResp p s
/-- ACK (05 R155, 20 R515). -/
def execAckPkt (p : Packet) (s : State) : Host.Outcome State Fault Refusal := packetEvent pkAck p s

/-- MCRED_ROUND_TIMEOUT: open rounds of the group whose time is over are refused (12 R373, 20 R520). -/
def execMcredRoundTimeout (job group : Nat) (s : State) : Host.Outcome State Fault Refusal :=
  .next (match s.groupEntry job group with
    | some g => (s.expireRounds job group g.timeout).settle
    | none => s)

end Machine
end Sys2Proof
end

