-- ==== Sys2Proof/Machine/HostQueues.lean ====
section
/-! DEFINITION. The control plane's semaphore and doorbell, and the queue interfaces with their request packets (21 R526 to
R534). -/

namespace Sys2Proof
namespace Machine

/-! ### The control plane (21 R526 to R528) -/

/-- A write to a control-plane register: dropped and counted unless the port holds CPSEM (21 R526). -/
def State.cpWrite (s : State) (port : Nat) (f : State → State) : State :=
  if s.host.owner = port + 1 then f s else { s with host := { s.host with cpdrop := s.host.cpdrop + 1 } }

/-- OWNER changes: EPOCH advances; a claim sends the signals that were held (21 R527, R528). -/
def State.setOwner (s : State) (owner : Nat) : State :=
  let h := s.host
  let sent := if owner = 0 then [] else h.heldSig.map fun p => s.msixOf (owner - 1) p 0
  { s with host := { h with owner := owner, epoch := h.epoch + 1, recent := if owner = 0 then h.recent else owner - 1,
                            msix := h.msix ++ sent, heldSig := if owner = 0 then h.heldSig else [] } }

/-- Whether a port's write to CPSEM claims it, or frees it. -/
def cpClaims (owner port : Nat) (v : Word) : Bool := owner = 0 && v.toNat % 4 = port + 1
def cpFrees (owner port : Nat) (v : Word) : Bool := owner = port + 1 && v.toNat % 4 = 0

/-- CPSEM: writes of one cycle; of two claims that of the port that held the semaphore least recently wins (21 R527). -/
def execCpsem (port : Nat) (value : BitVec 64) (other : Option (BitVec 64)) (s : State) : Host.Outcome State Fault Refusal :=
  .next <|
    let o := s.host.owner
    let a := cpClaims o port value
    let b := match other with | some v => cpClaims o (1 - port) v | none => false
    let frees := cpFrees o port value || (match other with | some v => cpFrees o (1 - port) v | none => false)
    if a && b then s.setOwner (1 - s.host.recent + 1)
    else if a then s.setOwner (port + 1)
    else if b then s.setOwner (1 - port + 1)
    else if frees then s.setOwner 0
    else s

/-- HOST_LINK_DOWN: the port's link goes down or takes a hot reset (21 R527). -/
def execHostLinkDown (port : Nat) (s : State) : Host.Outcome State Fault Refusal :=
  .next <|
    let s := { s with host := { s.host with linkUp := Sparse.put s.host.linkUp port false } }
    if s.host.owner = port + 1 then s.setOwner 0 else s

/-- The port of a function: functions 0 and 1 are the physical functions of the ports, and 2 × (v + 1) + p is virtual function v of port
p (21 R524). -/
def fnPort (fn : Nat) : Nat := fn % 2

/-- Whether a function reaches a partition's control region: in RUN only the virtual function that it is bound to, otherwise either
physical function (21 R525). -/
def State.reaches (s : State) (fn part : Nat) : Bool :=
  let p := s.part part
  if p.tdi = .run then fnPort fn = p.port && fn / 2 = p.vf + 1 else fn < 2

/-- A write to a register of a partition's control region: nothing where its function does not reach the region; else as any other write of
its port (21 R525, R526). -/
def State.regionWrite (s : State) (fn part : Nat) (f : State → State) : State :=
  if s.reaches fn part then s.cpWrite (fnPort fn) f else s

/-- EVTDOOR (21 R528). -/
def execEvtdoor (port part : Nat) (s : State) : Host.Outcome State Fault Refusal :=
  .next <| s.regionWrite port part fun s => (List.range 8).foldl (fun s d => s.raiseEvt d part) s

/-! ### Queue interfaces (21 R529 to R534) -/

/-- An interface by its number 8 × port + q. -/
def State.qif (s : State) (i : Nat) : Qif := Sparse.get {} s.host.qifs i
def State.setQif (s : State) (i : Nat) (x : Qif) : State := { s with host := { s.host with qifs := Sparse.set {} s.host.qifs i x } }

def qifPart (x : Qif) : Nat := fld x.qcfg.toNat 2 0
def qifEnable (x : Qif) : Bool := x.qcfg.getLsbD 4
def qifEvec (x : Qif) : Nat := fld x.qcfg.toNat 27 16

/-- An MSI-X write of a function's vector; one beyond its table is suppressed (21 R534). -/
def State.msix (s : State) (port part vec : Nat) : State :=
  if vec < Config.msixVectors port then { s with host := { s.host with msix := s.host.msix ++ [s.msixOf port part vec] } } else s

/-- QCREDIT.FREE: an interface's free entries (21 R529, R530). -/
def Qif.credit (x : Qif) : BitVec 64 := BitVec.ofNat 64 (32 - x.queue.length)

/-- QERR after a refusal, and EVEC (21 R529, R531). -/
def State.refusePacket (s : State) (i : Nat) (pasid : BitVec 20) (status : Nat) : State :=
  let x := s.qif i
  let e := x.qerr.toNat
  let count := min 0xFFFF (fld e 15 0 + 1)
  let first := fld e 63 63 = 0
  let e' := 2 ^ 63 + (if first then pasid.toNat * 2 ^ 24 + status * 2 ^ 16 else fld e 43 16 * 2 ^ 16) + count
  (s.setQif i { x with qerr := BitVec.ofNat 64 e' }).msix (i / 8) (qifPart x) (qifEvec x)

/-- QERR_CLEAR: VALID written 1 (21 R529). -/
def execQerrClear (port q : Nat) (s : State) : Host.Outcome State Fault Refusal :=
  .next <| s.cpWrite port fun s => s.setQif (8 * port + q) { s.qif (8 * port + q) with qerr := 0 }

/-- STATE of the lowest PASIDTAB entry, active or revoked, that holds a PASID (21 R531). -/
def Qif.pasidState (x : Qif) (p : BitVec 20) : Option Nat :=
  (List.range 16).findSome? fun i =>
    let e := (Sparse.get 0 x.pasid i).toNat
    let st := fld e 31 30
    if fld e 19 0 = p.toNat && (st = 1 || st = 2) then some st else none

/-- A packet's reserved fields are zero, its OP is one of Table 21-4 and CPL is aligned (21 R530). -/
def packetFields (p : ReqPacket) : Bool :=
  p.flags.toNat < 2 && p.rest = 0 && p.cpl.toNat % 16 = 0 && 1 ≤ p.op.toNat && p.op.toNat ≤ 4 &&
  (p.op = 3 || p.arg1 = 0) && (p.op ≠ 4 || p.arg0 = 0)

/-- The checks of Table 21-5 in their order: the STATUS of the first that fails. -/
def packetCheck (x : Qif) (p : ReqPacket) : Option Nat :=
  if 32 ≤ x.queue.length then some 6
  else if !p.whole then some 3
  else match p.pasid.bind x.pasidState with
    | none => some 2
    | some 2 => some 1
    | some _ => if packetFields p then none else some 3

/-! ### Completions (21 R532, R534) -/

/-- The page of host memory that the host's IOMMU gives an access of a port's function with a PASID: none where it does not translate, and
the page itself where it names no other (21 R532). -/
def State.dmaPage (s : State) (port : Nat) (pasid : BitVec 20) (page : Nat) : Option Nat :=
  let k := (port, pasid.toNat, page)
  if s.host.noXlate.contains k then none
  else some (((s.host.xmap.find? fun x => x.1 = k).map (·.2)).getD page)

/-- The parts of an access of the host-port DMA engine, cut at pages, with their addresses in host memory; none where one does not
translate (21 R532). -/
def State.dmaRuns (s : State) (port : Nat) (pasid : BitVec 20) (a n : Nat) : Option (List (Nat × Nat)) :=
  let first := a / 4096
  let pages := if n = 0 then [] else (List.range ((a + n - 1) / 4096 - first + 1)).map (first + ·)
  let runs := pages.filterMap fun p => (s.dmaPage port pasid p).map fun q =>
    let lo := max a (4096 * p)
    (4096 * q + lo % 4096, min (a + n) (4096 * (p + 1)) - lo)
  if runs.length = pages.length then some runs else none

/-- The device may keep the translations it used. -/
def State.dmaNote (s : State) (port : Nat) (pasid : BitVec 20) (a : Nat) : State :=
  let k := (port, pasid.toNat, a / 4096)
  if s.host.ats.contains k then s else { s with host := { s.host with ats := s.host.ats ++ [k] } }

/-- Writes through the host's IOMMU. -/
def State.dmaWrites (s : State) : List (Nat × Nat) → List Byte → State
  | [], _ => s
  | (q, n) :: r, bs => (s.dmaWrite q (bs.take n)).dmaWrites r (bs.drop n)

/-- The packet at an interface's head is complete: its completion record, then its interrupt (21 R534); neither where
the partition's DMA has stopped (22 R551). -/
def State.completePacket (s : State) (i status : Nat) (result : Nat) : State :=
  let x := s.qif i
  match x.queue with
  | [] => s
  | p :: rest =>
    let s := s.setQif i { x with queue := rest, busy := false }
    let bs := bytesOfNat 8 (status + i * 2 ^ 16 + p.tag.toNat * 2 ^ 32) ++ bytesOfNat 8 result
    if (s.part (qifPart x)).tdi = .error then s
    else match s.dmaRuns (i / 8) (p.pasid.getD 0) p.cpl.toNat (if p.cpl = 0 then 0 else 16) with
    | none => s.msix (i / 8) (qifPart x) (qifEvec x)
    | some runs =>
      let s := if p.cpl = 0 then s else s.dmaNote (i / 8) (p.pasid.getD 0) p.cpl.toNat
      let s := s.dmaWrites runs bs
      if p.flags.getLsbD 0 then s.msix (i / 8) (qifPart x) p.vec.toNat else s

/-! ### What packets do (21 R533) -/

/-- LAUNCH: the descriptor waits for launch intake. -/
def State.packetLaunch (s : State) (i : Nat) (p : ReqPacket) : State :=
  let x := s.qif i
  let k : Intake := { part := qifPart x, addr := p.arg0, ctx := 0, core := none, host := some (i / 8, i % 8), cpl := p.cpl,
                      tag := p.tag, flags := p.flags, vec := p.vec }
  { s.setQif i { x with busy := true } with intake := s.intake ++ [k] }

/-- DEPSIG: DEP.SIGNAL on a record in context 0; where host copies of a shared extent stand in the way it waits for them (21 R539). -/
def State.packetDepsig (s : State) (i : Nat) (p : ReqPacket) : State :=
  let part := qifPart (s.qif i)
  let a := p.arg0.toNat
  match (if a % 256 = 0 && a < 2 ^ 56 then resolve s ⟨part, 0, 0, 0, 0, 12⟩ .atomic a 256 else .fault .misalign a) with
  | .ok segs s' =>
    if segs.any isPeer then s.completePacket i 4 0 else (s'.depOp part 0 65536 a none).completePacket i 0 0
  | .walk _ s => s.setQif i { s.qif i with busy := true }
  | _ => s.completePacket i 4 0

/-- The 64-bit word that FLAGADD names: in the partition's share of a sync window, or at a scratchpad flag address. -/
def State.flagaddLoc (s : State) (part a : Nat) : Option Loc :=
  if a % 8 ≠ 0 then none
  else match winOf a with
    | some (.sync d, o) =>
      let p := s.part part
      if o + 8 ≤ p.shareSize.getD d 0 then some (.sync d (p.shareBase.getD d 0 + o)) else none
    | _ =>
      let o := a - 0xFF80000000000000
      let c := o / 2 ^ 23
      if 0xFF80000000000000 ≤ a && c < 1024 && (s.block (coreBlock c)).owner = some part then some (.scr c (o % 2 ^ 23)) else none

/-- Adds to a 64-bit flag, modulo 2^64 (03 R83). -/
def State.addAt (s : State) (l : Loc) (x : Word) : State :=
  let g : Seg := ⟨l, 8⟩
  writeSeg s g (bytesOfNat 8 (BitVec.ofNat 64 (natOfBytes (readSeg s g)) + x).toNat)

/-- FLAGADD. -/
def State.packetFlagadd (s : State) (i : Nat) (p : ReqPacket) : State :=
  match s.flagaddLoc (qifPart (s.qif i)) p.arg0.toNat with
  | some l => (s.addAt l p.arg1).completePacket i 0 0
  | none => s.completePacket i 4 0

/-- The interface takes its packets in arrival order, one at a time: until one waits for launch intake. -/
def State.runQueue (i : Nat) : Nat → State → State
  | 0, s => s
  | fuel + 1, s =>
    let x := s.qif i
    match x.queue, x.busy with
    | p :: _, false =>
      State.runQueue i fuel (match p.op.toNat with
        | 1 => s.packetLaunch i p
        | 2 => s.packetDepsig i p
        | 3 => s.packetFlagadd i p
        | _ => s.completePacket i 0 0)
    | _, _ => s

/-- Packets that waited for host copies are tried again. -/
def State.resumeQueues (s : State) : State :=
  (s.host.qifs.map (·.1)).foldl (fun s i =>
    let x := s.qif i
    if x.busy && (x.queue.head?.any fun p => p.op = 2) then State.runQueue i 33 (s.setQif i { x with busy := false }) else s) s

/-- A write to a notify page: an interface that is not enabled, or whose partition is in the TDISP state ERROR, drops it with
STATUS 0x07 (21 R529, 22 R551); one that fails a check is refused; else it is queued. -/
def State.packetIn (s : State) (i : Nat) (p : ReqPacket) : State :=
  let x := s.qif i
  if !qifEnable x || (s.part (qifPart x)).tdi = .error then s.refusePacket i (p.pasid.getD 0) 7
  else match packetCheck x p with
    | some st => s.refusePacket i (p.pasid.getD 0) st
    | none => State.runQueue i 33 (s.setQif i { x with queue := x.queue ++ [p] })

/-- Whether a packet is one of its row: of the row's OP, or of a reserved one. -/
def rowPacket (p : ReqPacket) (op : BitVec 8) : Bool := p.op = op || p.op = 0 || 4 < p.op.toNat

/-- LAUNCH (21 R533). -/
def execLaunchReq (port q : Nat) (p : ReqPacket) (s : State) : Host.Outcome State Fault Refusal :=
  .next <| if rowPacket p 1 then s.packetIn (8 * port + q) p else s
/-- DEPSIG (21 R533). -/
def execDepsig (port q : Nat) (p : ReqPacket) (s : State) : Host.Outcome State Fault Refusal :=
  .next <| if rowPacket p 2 then s.packetIn (8 * port + q) p else s
/-- FLAGADD (21 R533). -/
def execFlagadd (port q : Nat) (p : ReqPacket) (s : State) : Host.Outcome State Fault Refusal :=
  .next <| if rowPacket p 3 then s.packetIn (8 * port + q) p else s
/-- NOP (21 R533). -/
def execPacketNop (port q : Nat) (p : ReqPacket) (s : State) : Host.Outcome State Fault Refusal :=
  .next <| if rowPacket p 4 then s.packetIn (8 * port + q) p else s

/-- ATS_INVALIDATION: every access through the translation is complete; the device keeps it no longer (21 R532). -/
def execAtsInvalidation (port : Nat) (pasid : BitVec 20) (page : BitVec 64) (s : State) : Host.Outcome State Fault Refusal :=
  .next { s with host := { s.host with ats := s.host.ats.filter fun k => k ≠ (port, pasid.toNat, page.toNat / 4096) } }

end Machine
end Sys2Proof
end

