-- ==== Sys2Proof/Machine/HostExtents.lean ====
section
/-! DEFINITION. Hosts at the flag window and at shared extents: the directory, snapshots, revocation and recalls (21 R536 to
R544). -/

namespace Sys2Proof
namespace Machine

/-! ### Extents -/

def State.ext (s : State) (x : Nat) : Extent := Sparse.get {} s.host.exts x
def State.setExt (s : State) (x : Nat) (e : Extent) : State := { s with host := { s.host with exts := Sparse.set {} s.host.exts x e } }
/-- Sets bits of EXTERR (21 Table 21-6). -/
def State.extErr (s : State) (x : Nat) (m : BitVec 5) : State := s.setExt x { s.ext x with exterr := (s.ext x).exterr ||| m }
def State.reply (s : State) (r : HostReply) : State := { s with host := { s.host with replies := s.host.replies ++ [r] } }

/-- The local HBM address of a line of an extent. -/
def extLine (x line : Nat) : Nat := x * 2 ^ 30 + 64 * line

/-- The hosts that hold a copy of a line. -/
def holders (d : Option DirLine) : List Nat := conflictHosts d true

/-- The directory without a host's copy of a line. -/
def dropHolder (dir : SMap DirLine) (line host : Nat) : SMap DirLine :=
  match Sparse.find dir line with
  | some (.shared hs) => if hs.filter (· ≠ host) = [] then Sparse.del dir line else Sparse.put dir line (.shared (hs.filter (· ≠ host)))
  | some (.modified h) => if h = host then Sparse.del dir line else dir
  | _ => dir

/-- Whether a line reads as poison. -/
def State.lineBad (s : State) (x line : Nat) : Bool :=
  hbmPoisoned s (extLine x line) 64 || Sparse.find (s.ext x).dir line == some DirLine.lost

/-- A read of the view of a host that has pinned a version: the version's copy of the page, or the head (21 R541, R542). -/
def State.readView (s : State) (host x line v : Nat) : State :=
  let e := s.ext x
  match e.copies.find? fun c => c.1 = v && c.2.1 = line / 64 with
  | some (_, _, p) =>
    let a := e.sparex * 2 ^ 30 + p * 4096 + line % 64 * 64
    s.reply (.data host (Memory.read s.hbm a 64) (hbmPoisoned s a 64))
  | none => s.reply (.data host (Memory.read s.hbm (extLine x line) 64) (s.lineBad x line))

/-- A host's write of bytes of a line, which first copies a page that a pinned version shares; where no page is free it is
answered with an unmapped error (21 R542). -/
def State.hostWrite (s : State) (host x line ofs : Nat) (bs : List Byte) : State :=
  let a := extLine x line + ofs
  if s.snapFull a bs.length then (s.extErr x 2).reply (.unmapped host)
  else (writeSeg s ⟨.ext a, bs.length⟩ bs).reply (.done host)

/-- A request that no copy of another host stands in the way of. -/
def State.extPerform (s : State) (host x line : Nat) (k : HostAccess) : State :=
  let e := s.ext x
  let bs := Memory.read s.hbm (extLine x line) 64
  let bad := s.lineBad x line
  match k with
  | .read =>
    let dir := match Sparse.find e.dir line with
      | some .lost => e.dir
      | some (.shared hs) => Sparse.put e.dir line (.shared (insertNat host hs))
      | _ => Sparse.put e.dir line (.shared [host])
    (s.setExt x { e with dir := dir }).reply (.data host bs bad)
  | .readOwn =>
    let dir := if Sparse.find e.dir line = some .lost then e.dir else Sparse.put e.dir line (.modified host)
    (s.setExt x { e with dir := dir }).reply (.data host bs bad)
  | .write ofs data => (s.setExt x { e with dir := dropHolder e.dir line host }).hostWrite host x line (ofs % 64) (data.take (64 - ofs % 64))
  | .writeBack data =>
    if Sparse.find e.dir line = some (.modified host)
      then (s.setExt x { e with dir := dropHolder e.dir line host }).hostWrite host x line 0 (data.take 64)
      else s.reply (.done host)

/-- The other hosts whose copies stand in the way of a request (21 R539). -/
def blockers (d : Option DirLine) (host : Nat) (k : HostAccess) : List Nat :=
  let l := match k with
    | .read => conflictHosts d false
    | .readOwn | .write _ _ => conflictHosts d true
    | .writeBack _ => []
  l.filter (· ≠ host)

/-- An accepted request: of a host with a pin, from its version; else after the recalls that it needs. -/
def State.extServe (s : State) (host x line : Nat) (k : HostAccess) : State :=
  let e := s.ext x
  match (if e.mode = 1 then Sparse.find e.pins host else none), k with
  | some v, .read => s.readView host x line v.toNat
  | some _, .readOwn | some _, .write _ _ => (s.extErr x 4).reply (.unmapped host)
  | _, _ =>
    let bs := blockers (Sparse.find e.dir line) host k
    if bs.isEmpty then s.extPerform host x line k
    else s.setExt x { e with recalls := e.recalls ++ [⟨line, bs, some (host, k), s.cycle⟩] }

/-- HOST_EXTENT_ACCESS: an extent whose unit has another owner than the entry's partition is closed to it, and the access is recorded (21
R538, R539, R543; 22 R546, R548). -/
def execHostExtentAccess (host ext line : Nat) (kind : HostAccess) (s : State) : Host.Outcome State Fault Refusal :=
  .next <|
    let e := s.ext ext
    if e.state = 1 && e.hosts.getLsbD host && !s.fw.unitFenced.contains ext then
      if s.unitOwner ext = some e.part then s.extServe host ext line kind
      else (s.errRecord (some e.part) 6 1 3 ext (BitVec.ofNat 64 (extLine ext line))).reply (.unmapped host)
    else s.reply (.unmapped host)

/-- The host copies that the recall of an extent's lines finds: of all, or of the modified ones alone; those that are being recalled
already are left (21 R539). -/
def State.recallLines (s : State) (x : Nat) (all : Bool) : State :=
  let e := s.ext x
  let new := e.dir.filterMap fun (l, d) =>
    let hs := conflictHosts (some d) all
    if hs.isEmpty || e.recalls.any (fun r => r.line = l && !r.from_.isEmpty) then none else some (⟨l, hs, none, s.cycle⟩ : Recall)
  s.setExt x { e with recalls := e.recalls ++ new }

/-- Whether a host holds a line of the extent modified. -/
def Extent.modified (e : Extent) : Bool := e.dir.any fun d => !(conflictHosts (some d.2) false).isEmpty

/-- Pins that wait for modified lines perform, in their order, once there is none: each host's view is the head at that point, and VCUR
rises (21 R541). -/
def State.tryPins (s : State) (x : Nat) : State :=
  let e := s.ext x
  if e.pinWait.isEmpty then s
  else if e.modified then s.recallLines x false
  else s.setExt x (e.pinWait.foldl (fun (e : Extent) h => { e with pins := Sparse.put e.pins h e.vcur, vcur := e.vcur + 1 })
    { e with pinWait := [] })

/-- The recalls that nobody is awaited for any more are done: the requests that waited on them go on. -/
def State.endRecalls (s : State) (x : Nat) : State :=
  let e := s.ext x
  let done := e.recalls.filter fun r => r.from_.isEmpty
  let s := s.setExt x { e with recalls := e.recalls.filter fun r => !r.from_.isEmpty }
  ((done.foldl (fun s r => match r.req with | some (h, k) => s.extServe h x r.line k | none => s) s).tryPins x).settle.resumeQueues

/-- RECALL_RESPONSE (21 R539): dirty data is written before the request that caused the recall proceeds. -/
def execRecallResponse (ext line host : Nat) (dirty : Option (List (BitVec 8))) (s : State) : Host.Outcome State Fault Refusal :=
  .next <|
    let e := s.ext ext
    if !e.recalls.any fun r => r.line = line && r.from_.contains host then s
    else
      let own : Bool := Sparse.find e.dir line == some (.modified host)
      let s := s.setExt ext { e with dir := dropHolder e.dir line host,
                                     recalls := e.recalls.map fun r =>
                                       if r.line = line then { r with from_ := r.from_.filter (· ≠ host) } else r }
      let s := match dirty, own with
        | some bs, true =>
          if s.snapFull (extLine ext line) 64 then s.extErr ext 2 else writeSeg s ⟨.ext (extLine ext line), 64⟩ (bs.take 64)
        | _, _ => s
      s.endRecalls ext

/-- Whether a number of microseconds, at the nominal 850 MHz (00 R3), has passed since a cycle; 0 stands for the default. -/
def State.elapsed (s : State) (since : Nat) (us : BitVec 32) (dflt : Nat) : Bool :=
  (if us = 0 then dflt else us.toNat) * 850 ≤ s.cycle - since

/-- RECALL_TIMEOUT (21 R544): the line is POISON_LOST. -/
def execRecallTimeout (ext line : Nat) (s : State) : Host.Outcome State Fault Refusal :=
  .next <|
    let e := s.ext ext
    if !e.recalls.any fun r => r.line = line && !r.from_.isEmpty && s.elapsed r.since e.recallUs 100 then s
    else
      let s := s.setExt ext { e with dir := Sparse.put e.dir line .lost, exterr := e.exterr ||| 8,
                                     recalls := e.recalls.map fun r => if r.line = line then { r with from_ := [] } else r }
      (s.errRecord (some e.part) 7 1 4 ext (BitVec.ofNat 64 (extLine ext line))).endRecalls ext

/-! ### Snapshots (21 R541, R542) -/

/-- SNAPVIEW_PIN: lines that hosts hold modified come back first, as the head holds what they wrote; then the pin performs. -/
def execSnapviewPin (host ext : Nat) (s : State) : Host.Outcome State Fault Refusal :=
  .next <|
    let e := s.ext ext
    if e.state = 1 && e.mode = 1 && e.hosts.getLsbD host && (Sparse.find e.pins host).isNone && !e.pinWait.contains host then
      (s.setExt ext { e with pinWait := e.pinWait ++ [host] }).tryPins ext
    else s

/-- SNAPVIEW as a host reads it: PIN, and the version that it has pinned, or VCUR (21 Table 21-7). -/
def Extent.snapview (e : Extent) (host : Nat) : BitVec 64 :=
  match Sparse.find e.pins host with
  | some v => 1#64 <<< 32 ||| v.setWidth 64
  | none => e.vcur.setWidth 64

/-- SNAPVIEW_UNPIN: the pages of a version return when no host holds a pin on it, and writes that wait for a page go on. -/
def execSnapviewUnpin (host ext : Nat) (s : State) : Host.Outcome State Fault Refusal :=
  .next <|
    let e := s.ext ext
    if (Sparse.find e.pins host).isNone then s.setExt ext { e with pinWait := e.pinWait.filter (· ≠ host) }
    else
      let pins := Sparse.del e.pins host
      let s := s.setExt ext { e with pins := pins, copies := e.copies.filter fun c => pins.any fun p => p.2.toNat = c.1 }
      s.settle.resumeQueues

/-- The device's writes that wait for a page are tried again, in their order (21 R542). -/
def State.snapRetry (s : State) : State :=
  if s.host.snapWait.isEmpty then s
  else s.host.snapWait.foldl (fun s w => writeSeg s ⟨.ext w.1, w.2.length⟩ w.2) { s with host := { s.host with snapWait := [] } }

/-! ### Revocation (21 R543) -/

/-- STATE becomes REVOKING: every host copy is recalled. -/
def State.revoke (s : State) (x : Nat) : State :=
  (s.setExt x { s.ext x with state := 2, revokedAt := s.cycle, pinWait := [] }).recallLines x true

/-- EXTENT_REVOKE: a control-plane write of REVOKING to an ACTIVE entry. -/
def execExtentRevoke (port ext : Nat) (s : State) : Host.Outcome State Fault Refusal :=
  .next <| s.cpWrite port fun s => if (s.ext ext).state = 1 then s.revoke ext else s

/-- DRAIN_TIMEOUT: requests still in flight complete with poison. -/
def execDrainTimeout (ext : Nat) (s : State) : Host.Outcome State Fault Refusal :=
  .next <|
    let e := s.ext ext
    if e.state ≠ 2 || !s.elapsed e.revokedAt e.drainUs 1000 then s
    else
      let left := e.recalls.filterMap fun r => r.req.map fun q => (r.line, q.1)
      let s := s.setExt ext { e with recalls := e.recalls.map (fun r => { r with req := none }),
                                     exterr := if left.isEmpty then e.exterr else e.exterr ||| 16 }
      left.foldl (fun s (l, h) => s.reply (.data h (Memory.read s.hbm (extLine ext l) 64) true)) s

/-- Bytes of HBM become zero, with no poison. -/
def State.zeroHbm (s : State) (a n : Nat) : State :=
  let s := touchCode s false a n
  { s with hbm := Sparse.clear s.hbm a n, hbmPoison := s.hbmPoison.filter fun l => !(a ≤ 64 * l && 64 * l < a + n) }

/-- The pages of SPAREX that hold an extent's pinned versions become zero. -/
def State.zeroVersions (s : State) (e : Extent) : State :=
  e.copies.foldl (fun s c => s.zeroHbm (e.sparex * 2 ^ 30 + 4096 * c.2.2) 4096) s

/-- EXTENT_ZEROING: once the recalls are done and nothing is in flight the state is ZEROING, unless a request that was served meanwhile has
left a host a copy, which is recalled first; then the extent is zeroed, with its pinned versions, its pins and its line states, and is
FREE; the partition's log records it with EXTERR. -/
def execExtentZeroing (ext : Nat) (s : State) : Host.Outcome State Fault Refusal :=
  .next <|
    let e := s.ext ext
    if e.state = 3 then
      let s := ((s.zeroHbm (ext * 2 ^ 30) (2 ^ 30)).zeroVersions e).setExt ext { e with state := 0, pins := [], copies := [], dir := [] }
      let s := { s with host := { s.host with snapWait := s.host.snapWait.filter fun w => w.1 / 2 ^ 30 ≠ ext } }
      s.errRecord (some e.part) 7 1 5 ext (e.exterr.setWidth 64)
    else if e.state ≠ 2 || !e.recalls.isEmpty then s
    else if e.dir.any fun d => !(holders (some d.2)).isEmpty then s.recallLines ext true
    else s.setExt ext { e with state := 3 }

/-! ### The host flag window (21 R536) -/

/-- HOST_FLAG_ACCESS: the partition's owning host reads, owns, writes or writes back a line, of which it holds a copy from a read and a
copy that it may modify from a read for ownership; any other gets an unmapped error. -/
def execHostFlagAccess (host part ofs : Nat) (kind : HostAccess) (s : State) : Host.Outcome State Fault Refusal :=
  .next <|
    if (Sparse.find s.parts part).isNone || host ≠ Config.flagHost part then s.reply (.unmapped host)
    else
      let p := s.part part
      let a := ofs / 64 * 64
      let line := ofs / 64
      let away : Partition := { p with flagHost := p.flagHost.filter (· ≠ line), flagMod := p.flagMod.filter (· ≠ line) }
      match kind with
      | .read =>
        (s.setPart part { p with flagHost := insertNat line p.flagHost }).reply (.data host (Memory.read p.flagRam a 64) false)
      | .readOwn =>
        (s.setPart part { p with flagHost := insertNat line p.flagHost, flagMod := insertNat line p.flagMod }).reply
          (.data host (Memory.read p.flagRam a 64) false)
      | .write o data =>
        (s.setPart part { away with flagRam := Memory.write p.flagRam (a + o % 64) (data.take (64 - o % 64)) }).reply (.done host)
      | .writeBack data =>
        if p.flagMod.contains line then
          (s.setPart part { away with flagRam := Memory.write p.flagRam a (data.take 64) }).reply (.done host)
        else s.reply (.done host)

end Machine
end Sys2Proof
end

