-- ==== Sys2Proof/Machine/Links.lean ====
section
/-! DEFINITION. Links: flits received, resending, retraining, fencing and rekeying (20 R504 to R510), and the time service
(20 R521). -/

namespace Sys2Proof
namespace Machine

/-! ### Fields of a flit header (20 Table 20-1) -/

def flitK (f : Flit) : Bool := f.hdr.getLsbD 31
def flitVc (f : Flit) : Nat := (f.hdr.extractLsb' 29 2).toNat
def flitKind (f : Flit) : Nat := (f.hdr.extractLsb' 27 2).toNat
def flitCvc (f : Flit) : Nat := (f.hdr.extractLsb' 25 2).toNat
def flitCredit (f : Flit) : Nat := (f.hdr.extractLsb' 20 5).toNat
def flitSeq (f : Flit) : BitVec 10 := f.hdr.extractLsb' 10 10
def flitAck (f : Flit) : BitVec 10 := f.hdr.extractLsb' 0 10

/-- Where byte k of a direction's stream travels: its physical lane and its beat (20 R507). -/
def Link.place (l : Link) (k : Nat) : Nat × Nat := (l.lanes.getD (k % l.lanes.length) 0, k / l.lanes.length)

/-- Flits sent again, with their stored bytes (20 R505, R506). -/
def Link.resend (l : Link) (fs : List Flit) : Link := { l with sent := l.sent ++ fs, k := l.k + 256 * fs.length }

/-- Flits up to `a` are accepted: they leave the replay buffer, and the packets that they ended are through (20 R506). -/
def Link.accepted (l : Link) (a : BitVec 10) : Link :=
  if !l.replay.any fun f => flitSeq f = a then l
  else
    let rest := (l.replay.dropWhile fun f => flitSeq f ≠ a).drop 1
    let gone := (l.replay.take (l.replay.length - rest.length)).map flitSeq
    let through (x : Option (BitVec 10)) : Option (BitVec 10) := x.filter fun q => !gone.contains q
    { l with replay := rest, pkts := l.pkts.filter fun x => !gone.contains x.1, keyDone := through l.keyDone }

/-- Step 5 of a rekey: once the last flit under the old bank is accepted, the bank is erased and KEYDONE is to go out (20 R510). -/
def State.closeRekey (s : State) (i : Nat) : State :=
  let l := s.link i
  match l.oldLast with
  | some q =>
    if l.replay.any fun f => flitSeq f = q then s
    else
      let l := { l with oldLast := none, txKeys := Sparse.del l.txKeys (if l.txBank then 0 else 1) }
      (s.setLink i l).sendControl i ctlKeydone []
  | none => s

/-- Cuts the packets that are whole off a stream of payload bytes; zeros between packets are passed over. -/
def cutPackets : Nat → List Byte → List Packet → List Packet × List Byte
  | 0, bs, ps => (ps, bs)
  | fuel + 1, bs, ps =>
    let bs := bs.dropWhile fun b => b = 0
    let n := 48 + natOfBytes ((bs.drop 0x15).take 3)
    if bs.length < 48 || bs.length < n then (ps, bs)
    else cutPackets fuel (bs.drop n) (ps ++ [packetOf (bs.take n)])

/-! ### Fencing and retraining (20 R508, R509) -/

/-- A packet that came back from a fenced link takes another path, or is refused (20 R509). -/
def State.reroute (s : State) (p : Packet) : State :=
  match s.pktChip p with
  | none => s
  | some chip =>
    match s.linkSend chip p with
    | some s => s
    | none =>
      if !pktLast p || p.op = pkAck || p.op = pkResp then s
      else if p.src.toNat = s.chipNo then s.ackWord p chip 15
      else (s.linkSend p.src.toNat (ackOf p chip 15)).getD s

/-- The parent link that TIMECTL names: of a chip that is not the grandmaster, once it is trained (20 R521). -/
def State.parentLink (s : State) : Option Nat :=
  (s.fab.links.find? fun x => x.2.ports.contains (fld s.fab.timeCtl.toNat 15 0)).map (·.1)

/-- Whether a chip lacks its parent link (20 R521). -/
def State.parentDown (s : State) : Bool :=
  s.fab.trained && !s.fab.timeCtl.getLsbD 17 && match s.parentLink with
    | some i => !(s.link i).up || (s.link i).retraining || (s.link i).fenced
    | none => true

/-- The parent link's loss is noted when it comes, whatever brought it down (20 R521). -/
def State.noteParent (s : State) : State :=
  if s.parentDown && s.fab.downAt.isNone then { s with fab := { s.fab with downAt := some s.podNow.toNat } } else s

/-- The link is fenced: an error record, the parent's loss, and its packets, sent in part or waiting, back to the switch (20 R509,
R521). -/
def State.fenceLink (s : State) (i : Nat) : State :=
  let l := s.link i
  let back := l.pkts.map (·.2) ++ (s.fab.out.filter fun x => x.1 = i).map (·.2)
  let s := s.setLink i { l with fenced := true, up := false, retraining := false, pkts := [], replay := [], ctrl := [], txDone := [] }
  let s := ({ s with fab := { s.fab with out := s.fab.out.filter fun x => x.1 ≠ i } } : State).noteParent
  let (x, s) := s.free
  let s := s.errRecord none 5 2 (x.toNat % 65536) i 0
  back.foldl State.reroute s

/-- A link begins to retrain (20 R506, R508). -/
def Link.retrain (l : Link) (now : Nat) : Link := { l with retraining := true, since := if l.retraining then l.since else now }

/-- LANE_FAILURE: a lane of one direction is lost, and both directions retrain on the lanes that remain (20 R508). -/
def execLaneFailure (link lane : Nat) (s : State) (rx : Bool := false) : Host.Outcome State Fault Refusal :=
  .next <|
    let l := s.link link
    if l.fenced || !(if rx then l.rxLanes else l.lanes).contains lane then s
    else
      let l := if rx then { l with rxLanes := l.rxLanes.filter fun x => x ≠ lane } else { l with lanes := l.lanes.filter fun x => x ≠ lane }
      let s := s.setLink link (l.retrain s.cycle)
      if l.lanes.isEmpty || l.rxLanes.isEmpty then (s.fenceLink link).settle else s

/-- Whether the 2 µs of an attempt to retrain are over (20 R508). -/
def State.attemptOver (s : State) (l : Link) : Bool := 2000 * s.fw.cclk < (s.cycle - l.since) * 1000

/-- An attempt to retrain has failed: three in a row fence the link, else the next begins (20 R508, R509). -/
def State.attemptFails (s : State) (i : Nat) : State :=
  let l := s.link i
  let s := s.setLink i { l with failures := l.failures + 1, since := s.cycle }
  if 3 ≤ l.failures + 1 then (s.fenceLink i).settle else s

/-- RETRAIN_TIMEOUT: an attempt that does not finish within 2 µs failed (20 R508). -/
def execRetrainTimeout (link : Nat) (s : State) : Host.Outcome State Fault Refusal :=
  .next <| if (s.link link).retraining && s.attemptOver (s.link link) then s.attemptFails link else s

/-- Whether a port is a spare of the chip (20 R502). -/
def portSpare (p : Nat) : Bool := portLocal p && 93 ≤ localNo p

/-- Whether the ports `ps` may stand in for a link's own: spares that no other link has, in place of ports of a local link that have no
lane left in some direction (20 R502). -/
def State.bondsSpares (s : State) (i : Nat) (ps : List Nat) : Bool :=
  let l := s.link i
  let works (p : Nat) : Bool :=
    let j := l.ports.idxOf p
    [2 * j, 2 * j + 1].any fun x => l.lanes.contains x && l.rxLanes.contains x
  bondable ps && ps.length = l.ports.length && l.ports.all portLocal &&
    (ps.all fun p => l.ports.contains p || (portSpare p && s.fab.links.all fun x => x.1 = i || !x.2.ports.contains p)) &&
    l.ports.all fun p => ps.contains p || !works p

/-- The lanes of a direction that a retraining may end with: of those that trained, the ones that remain, and those of ports new to the
link, in physical order (20 R503, R508). -/
def Link.remain (l : Link) (ports had lanes : List Nat) : List Nat :=
  (Link.physical { l with ports := ports } lanes).filter fun x =>
    let p := ports.getD (x / 2) 0
    if l.ports.contains p then had.contains (2 * l.ports.idxOf p + x % 2) else true

/-- RETRAINING_COMPLETE: each direction works on the lanes that trained; k restarts and the sender resumes with its oldest
unacknowledged flit.  An attempt whose 2 µs are over has failed, and one that ends with no lane in a direction fences the link
(20 R503, R508, R509). -/
def execRetrainingComplete (link : Nat) (lanes : List Nat) (s : State) (ports : List Nat := []) (rxLanes : List Nat := lanes) : Host.Outcome State Fault Refusal :=
  .next <|
    let l := s.link link
    let ps := if s.bondsSpares link ports then ports else l.ports
    let tx := l.remain ps l.lanes lanes
    let rx := l.remain ps l.rxLanes rxLanes
    if !l.retraining then s
    else if s.attemptOver l then s.attemptFails link
    else if tx.isEmpty || rx.isEmpty then (s.fenceLink link).settle
    else
      let l := { l with ports := ps, lanes := tx, rxLanes := rx, retraining := false, up := true, failures := 0, tagFails := 0, k := 0 }
      s.setLink link (l.resend l.replay)

/-! ### Control flits (20 R506, R510, R521) -/

/-- The sender resends from a SEQ onward (20 R506). -/
def State.goBack (s : State) (i : Nat) (seq : BitVec 10) : State :=
  let l := s.link i
  if l.retraining || l.fenced then s else s.setLink i (l.resend (l.replay.dropWhile fun f => flitSeq f ≠ seq))

/-- The receiver erases its old bank (20 R510 step 6). -/
def State.eraseOldKey (s : State) (i : Nat) : State :=
  let l := s.link i
  s.setLink i { l with rxKeys := Sparse.del l.rxKeys (if l.rxBank then 0 else 1) }

/-- The end of an exchange: a child corrects its offset from its parent by slewing.  The new EST is not given: a free value (20 R521). -/
def State.exchange (s : State) (t1 t2 t3 t4 : Nat) : State :=
  if s.fab.timeCtl.getLsbD 17 || s.parentDown then s
  else
    let ofs : Int := (((t2 : Int) - t1) - ((t4 : Int) - t3)) / 2
    let (x, s) := s.podMark.free
    { s with fab := { s.fab with slew := -ofs, timeEst := x, downAt := none } }

/-- What an accepted control flit does.  DREQ brings the child's time, and SYNC goes back with the times of its own first beat and of
DREQ's (20 R521). -/
def State.control (s : State) (i : Nat) : Nat × List Nat → State
  | (0, [q]) => s.goBack i (BitVec.ofNat 10 q)
  | (1, _) => s.eraseOldKey i
  | (2, [t3]) => s.sendControl i ctlSync [s.podNow.toNat, t3, s.podNow.toNat]
  | (3, [t1, t3, t4]) => if s.parentLink = some i then s.exchange t1 s.podNow.toNat t3 t4 else s
  | _ => s

/-- NAK: the sender resends from the SEQ that it names onward (20 R506). -/
def execNakFlit (link : Nat) (seq : BitVec 10) (s : State) : Host.Outcome State Fault Refusal := .next <| s.goBack link seq

/-- KEYDONE: the receiver erases its old bank (20 R510 step 6). -/
def execKeydone (link : Nat) (s : State) : Host.Outcome State Fault Refusal := .next <| s.eraseOldKey link

/-- TIME_SYNC_EXCHANGE: an exchange of SYNC and DREQ ends, its four times as they were taken (20 R521). -/
def execTimeSyncExchange (t1 t2 t3 t4 : Nat) (s : State) : Host.Outcome State Fault Refusal := .next <| s.exchange t1 t2 t3 t4

/-- What a chip does for its time between exchanges: it notes that its parent link is down, and else begins one every 65,536 ns
(20 R521). -/
def State.trackParent (s : State) : State :=
  if !s.fab.trained || s.fab.timeCtl.getLsbD 17 then s
  else if s.parentDown then s.noteParent
  else
    match s.parentLink with
    | some i =>
      let now := s.podNow.toNat
      if now < s.fab.syncAt + 65536 then s
      else ({ s with fab := { s.fab with syncAt := now } } : State).sendControl i ctlDreq [now]
    | none => s

/-! ### Flits (20 R506) -/

/-- A flit is discarded: a NAK names the SEQ that is expected; the sixteenth tag failure in a row begins a retraining (20 R506). -/
def State.discard (s : State) (i : Nat) (tag : Bool) : State :=
  let l := s.link i
  let bad := { l with tagFails := l.tagFails + 1 }
  let s := if tag then s.setLink i (if 16 ≤ l.tagFails + 1 then bad.retrain s.cycle else bad) else s
  s.sendControl i ctlNak [l.rxNext.toNat]

/-- A flit is accepted: its payload joins its channel's stream, its buffer is to be told of, and what it tells of acceptances and
buffers is taken (20 R504, R506). -/
def Link.take (l : Link) (f : Flit) (b : KeyBank) (rest : List Byte) : Link :=
  let vc := flitVc f
  let freed := flitCredit f
  ({ l with
    rxNext := l.rxNext + 1, rxLast := flitSeq f, tagFails := 0, rxBank := flitK f,
    rxKeys := Sparse.put l.rxKeys (if flitK f then 1 else 0) { b with ctr := b.ctr + 1 }, rxBytes := Sparse.set [] l.rxBytes vc rest,
    credits := Sparse.set 0 l.credits (flitCvc f) (Sparse.get 0 l.credits (flitCvc f) + freed),
    used := Sparse.set 0 l.used (flitCvc f) (Sparse.get 0 l.used (flitCvc f) - freed),
    owes := l.owes || flitKind f ≠ 2,
    owed := if flitKind f = 0 then Sparse.set 0 l.owed vc (Sparse.get 0 l.owed vc + 1) else l.owed } : Link).accepted (flitAck f)

/-- FLIT_RECEIVE: the flit whose SEQ follows and whose tag checks is accepted; any other is discarded and a NAK sent. -/
def execFlitReceive (link : Nat) (flit : Flit) (s : State) : Host.Outcome State Fault Refusal :=
  .next <|
    let l := s.link link
    if !l.up || l.retraining || l.fenced then s
    else
      let good (b : KeyBank) : Bool :=
        Config.gcmTag b.key b.salt b.ctr flit.hdr (Config.gcmStream b.key b.salt b.ctr flit.payload) = flit.tag
      if flitSeq flit ≠ l.rxNext then s.discard link false
      else match (Sparse.find l.rxKeys (if flitK flit then 1 else 0)).filter good with
      | none => s.discard link true
      | some b =>
        let plain := Config.gcmStream b.key b.salt b.ctr flit.payload
        let vc := flitVc flit
        let bytes := Sparse.get [] l.rxBytes vc ++ (if flitKind flit = 0 then plain else [])
        let (ps, rest) := cutPackets (bytes.length / 48 + 1) bytes []
        let s := (s.setLink link (l.take flit b rest)).closeRekey link
        let s := if flitKind flit = 1 then (match Config.controlOf plain with | some c => s.control link c | none => s) else s
        let hop := if l.ports.any fun x => !portLocal x then 1 else 0
        ((ps.map fun p => { p with vc := vc + hop }).foldl State.arrives s).settle

/-! ### Rekeying (20 R510) -/

/-- A key and a salt enter the inactive bank of a direction; the sender's next flit uses it (20 R510 steps 1 to 3).  A rekey that is
under way goes first. -/
def State.installKey (s : State) (link : Nat) (tx : Bool) (key : BitVec 256) (salt : BitVec 32) : State :=
  let l := s.link link
  let b : KeyBank := ⟨key, salt, 0⟩
  if tx then
    if l.oldLast.isSome || l.keyDone.isSome || l.ctrl.any (fun x => x.1 = ctlKeydone) then s
    else
      let had := l.txKey.isSome
      let l := { l with txKeys := Sparse.put l.txKeys (if l.txBank then 0 else 1) b, txBank := !l.txBank,
                        oldLast := if had then some (l.txSeq - 1) else none }
      (s.setLink link l).closeRekey link
  else if l.rxKeys.length = 2 then s
  else s.setLink link { l with rxKeys := Sparse.put l.rxKeys (if l.rxBank then 0 else 1) b }

end Machine
end Sys2Proof
end

