-- ==== Sys2Proof/Machine/Equinox.lean ====
section
/-! DEFINITION. Approximable regions and the Equinox fitter (13 R384 to R397). -/

namespace Sys2Proof
namespace Machine

/-! ### The network and its arithmetic (13 R388 to R390) -/

/-- f32 with RNE, subnormals kept (13 R389). -/
def eqxCtx : FCtx := ⟨.rne, false, false, false⟩
def eqxOp (o : FpOp) (a b : BitVec 32) : BitVec 32 := BitVec.ofNat 32 (eqxCtx.op fmtF32 o a.toNat b.toNat 0).1
def eqxAdd : BitVec 32 → BitVec 32 → BitVec 32 := eqxOp .add
def eqxSub : BitVec 32 → BitVec 32 → BitVec 32 := eqxOp .sub
def eqxMul : BitVec 32 → BitVec 32 → BitVec 32 := eqxOp .mul
/-- A value times 2^-n, rounded once. -/
def eqxScale (a : BitVec 32) (n : Nat) : BitVec 32 :=
  BitVec.ofNat 32 (fmtF32.round .rne false ((fmtF32.value a.toNat).scale (-(n : Int)))).1
/-- A value divided by a small integer, rounded once. -/
def eqxDiv (a : BitVec 32) (n : Nat) : BitVec 32 := eqxOp .div a (BitVec.ofNat 32 (floatImm fmtF32 n))
/-- The test ≤, which no NaN satisfies (13 R390). -/
def eqxLe (a b : BitVec 32) : Bool := (eqxCtx.cmp fmtF32 .le a.toNat b.toNat).1
def eqxFinite (a : BitVec 32) : Bool := match fmtF32.value a.toNat with | .fin _ _ _ => true | _ => false
def eqxNeg (a : BitVec 32) : BitVec 32 := a ^^^ 0x80000000
def eqxAbs (a : BitVec 32) : BitVec 32 := a &&& 0x7FFFFFFF

/-- The sign P of hidden neuron k and input i (13 R388; 08 R256). -/
def eqxSign (k i : Nat) : Bool :=
  let x := (16 * k + i) ^^^ 0xA5
  let x := (x % 65536 * 109 + 90) % 65536
  (x ^^^ (x >>> 7)) % 2 = 0

/-- ReLU. -/
def eqxRelu (a : BitVec 32) : BitVec 32 := if a.getLsbD 31 && a.toNat ≤ 0xFF800000 then 0 else a

/-- The feature vector φ (13 R388). -/
def features (hid : Nat) (x : List (BitVec 32)) : List (BitVec 32) :=
  let h (k : Nat) : BitVec 32 :=
    eqxRelu (x.zipIdx.foldl (fun s (v, i) => eqxAdd s (if eqxSign k i then v else eqxNeg v)) 0)
  0x3F800000 :: x ++ (List.range hid).map h

/-- Weight W of output o and feature j. -/
def RSlot.weight (r : RSlot) (o j : Nat) : BitVec 32 := Sparse.get 0 r.weights (64 * o + j)

/-- The outputs of the network (13 R388). -/
def RSlot.net (r : RSlot) (x : List (BitVec 32)) : List (BitVec 32) :=
  let phi := features r.hid x
  (List.range r.nout).map fun o => phi.zipIdx.foldl (fun s (v, j) => eqxAdd s (eqxMul (r.weight o j) v)) 0

/-- The errors of one sample. -/
def RSlot.errors (r : RSlot) (p : List (BitVec 32) × List (BitVec 32)) : List (BitVec 32) :=
  List.zipWith eqxSub (r.net p.1) p.2

/-- The error of a sample (13 R390). -/
def RSlot.sampleError (r : RSlot) (p : List (BitVec 32) × List (BitVec 32)) : BitVec 32 :=
  eqxDiv ((r.errors p).foldl (fun s e => eqxAdd s (eqxAbs e)) 0) r.nout

/-- The compare window with one sample more: the last 16. -/
def windowPut (w : List (BitVec 32)) (e : BitVec 32) : List (BitVec 32) :=
  let w := w ++ [e]
  w.drop (w.length - 16)

/-- The window mean; +0 until it holds 16 (13 R390, Table 13-5). -/
def RSlot.mean (r : RSlot) : BitVec 32 := if r.window.length < 16 then 0 else eqxDiv (r.window.foldl eqxAdd 0) 16

/-- BATCH in samples (13 Table 13-1). -/
def RSlot.batchSize (r : RSlot) : Nat := match r.batch.toNat with | 1 => 4 | 2 => 8 | _ => 16

/-- One batch update (13 R389, R390, Table 13-3). -/
def RSlot.train (r : RSlot) : RSlot :=
  let n := r.batchSize
  let log := match n with | 4 => 2 | 8 => 3 | _ => 4
  let ps := r.buffer.take n
  let es := ps.map r.errors
  let phis := ps.map fun p => features r.hid p.1
  let nf := 1 + r.nin + r.hid
  let w := (List.range r.nout).foldl (fun w o => (List.range nf).foldl (fun w j =>
    let g := (List.zipWith (fun (e phi : List (BitVec 32)) => eqxMul (e.getD o 0) (phi.getD j 0)) es phis).foldl eqxAdd 0
    Sparse.set 0 w (64 * o + j) (eqxSub (r.weight o j) (eqxScale g (r.lr.toNat + log)))) w) r.weights
  let win := (ps.map r.sampleError).foldl windowPut r.window
  if w.any fun x => !eqxFinite x.2 then { r with state := 1, weights := [], buffer := [], window := [] }
  else
    let r := { r with weights := w, window := win, buffer := r.buffer.drop n }
    if r.window.length = 16 && eqxLe r.mean r.thresh then { r with state := 3 } else { r with state := 2 }

/-- EQUINOX_BATCH_UPDATE: a batch that is full trains (13 R386, R389). -/
def execEquinoxBatchUpdate (block rslot : Nat) (s : State) : Host.Outcome State Fault Refusal :=
  .next <|
    let b := s.block block
    match Sparse.find b.eqx rslot with
    | some r =>
      if (r.state = 1 || r.state = 2) && r.batchSize ≤ r.buffer.length then
        s.setBlock block { b with eqx := Sparse.put b.eqx rslot r.train } else s
    | none => s

/-! ### Region slots (13 R385, R386) -/

/-- The slot of a region of the task that issues. -/
def State.rslotOf (s : State) (region : Nat) : Option (Nat × RSlot) :=
  let id := s.me.id
  (s.block (coreBlock s.cur.1)).eqx.find? fun x => x.2.part = id.part && x.2.kernel = id.kernel && x.2.region = region

def State.setRslot (s : State) (i : Nat) (r : RSlot) : State :=
  let b := coreBlock s.cur.1
  let bl := s.block b
  s.setBlock b { bl with eqx := Sparse.put bl.eqx i r }

/-- A region becomes NONAPPROX: what is open records nothing (13 R387). -/
def RSlot.nonApprox (r : RSlot) : RSlot :=
  if 1 ≤ r.state && r.state ≤ 3 then { r with state := 4, buffer := [], window := [], gen := r.gen + 1 } else r

def apxOpen (l : Slot) : Bool := l.csr.apxregion.getLsbD 4
def apxNo (l : Slot) : Nat := (l.csr.apxregion.extractLsb' 0 4).toNat
def apxMode (l : Slot) : Nat := (l.csr.apxregion.extractLsb' 5 2).toNat

/-- The open region closes. -/
def State.closeRegion (s : State) : State :=
  let l := s.me
  s.setMe { l with apx := none, csr := { l.csr with apxregion := l.csr.apxregion &&& ~~~(16 : BitVec 7) } }

/-- The open region becomes NONAPPROX (13 R387, R392). -/
def State.spoilRegion (s : State) : State :=
  match s.rslotOf (apxNo s.me) with
  | some (i, r) => s.setRslot i r.nonApprox
  | none => s

/-- The register of a name of the region table (13 Table 13-1). -/
def regionReg (x : BitVec 8) : RegRef := if x.getLsbD 7 then .q (x.extractLsb' 0 7).toNat else .s (x.extractLsb' 0 7).toNat

/-- The f32 values of named registers. -/
def regionVals (l : Slot) (rs : List (BitVec 8)) : List (BitVec 32) := rs.map fun x => (readRef l .t (regionReg x)).setWidth 32

/-! ### What a substitution leaves unspecified (13 R393, R394) -/

/-- The words of a region as memory holds them. -/
def State.regionWords (s : State) (bpc epc : Nat) : List IWord :=
  let l := s.me
  let n := epc + 1 - bpc
  match s.marchRead l.id.part (s.jobOf l.id.part l.id.handle) (l.codeBase.toNat + 10 * bpc) (10 * n) with
  | some bs => (List.range n).map fun i => BitVec.ofNat 80 (natOfBytes ((bs.drop (10 * i)).take 10))
  | none => []

/-- One sparse map with the entries of another at the keys that `pick` picks. -/
def mixMap {β : Type} [DecidableEq β] (d : β) (pick : Nat → Bool) (a b : SMap β) : SMap β :=
  (a ++ b).foldl (fun m x => if pick x.1 then Sparse.set d m x.1 (Sparse.get d b x.1) else m) a

/-- A mask of the bits that `pick` picks. -/
def pickMask (w : Nat) (pick : Nat → Bool) : BitVec w :=
  (List.range w).foldl (fun m i => if pick i then m ||| (1 <<< i) else m) 0

def mixBits {w : Nat} (m a b : BitVec w) : BitVec w := (a &&& ~~~m) ||| (b &&& m)

/-- The task's registers after a substitution: each holds its value at APXB or the true code's, which one a free value says; so do
predicates, lane masks, each flag of FPC, and each unit's last-result entries (13 R393, R394). -/
def State.blurRegion (s : State) : State :=
  match s.me.truth with
  | none => s
  | some t =>
    let l := s.me
    let c := s.myCore
    let id := l.id
    let pick (o i : Nat) : Bool := (Config.freeWord (s.freeCtr + o + i)).getLsbD 0
    let mine (b n k : Nat) (i : Nat) : Bool := b ≤ i / k && i / k < b + n
    let f := l.files
    let files : Files :=
      { s := mixMap 0 (pick 0) f.s t.files.s, q := mixMap 0 (pick 128) f.q t.files.q, v := mixMap 0 (pick 256) f.v t.files.v,
        vq := mixMap 0 (pick 768) f.vq t.files.vq, vp := mixMap 0 (pick 832) f.vp t.files.vp,
        dv := mixMap [] (pick 896) f.dv t.files.dv }
    let ctl := pick 904 0
    let tb : Bank :=
      { l.tb with
        sHi := mixMap 0 (pick 0) l.tb.sHi t.bank.sHi, p := mixBits (pickMask 8 (pick 905)) l.tb.p t.bank.p,
        fpc := mixBits (pickMask 32 fun i => if 8 ≤ i && i ≤ 12 then pick 913 i else ctl) l.tb.fpc t.bank.fpc,
        ds := if pick 945 0 then t.bank.ds else l.tb.ds }
    let s := s.setMe { l with tb := tb, files := files, mp := mixMap 0 (pick 946) l.mp t.mp, truth := none }
    let s := s.setMyCore { s.myCore with
      w := mixMap 0 (fun i => mine id.w0 id.hdr.nw 96 i && pick 1024 (i / 96)) c.w t.w,
      acc := mixMap 0 (fun i => mine id.acc0 id.hdr.nacc 192 i && pick 1152 (i / 192)) c.acc t.acc,
      ta := mixMap {} (fun i => mine id.ta0 id.hdr.nta 1 i && pick 1280 i) c.ta t.ta }
    { s with freeCtr := s.freeCtr + 2048 }

/-- The end of the issue group that holds the word at `pc`. -/
def State.groupEndAt (s : State) (pc : Nat) : Nat :=
  let ws := s.regionWords pc (pc + 7)
  pc + ((ws.zipIdx.find? fun (w, _) => w.getLsbD 79).map (·.2)).getD 0

/-! ### The words (13 R392, R395, R397) -/

/-- The region that a word names. -/
def apxField (f : FmtE) : Nat := (f.aux.extractLsb' 0 4).toNat

/-- A region opens with its inputs and mode. -/
def State.openRegion (s : State) (region mode : Nat) (smp : Option ApxSample) : State :=
  let l := s.me
  s.setMe { l with apx := smp, csr := { l.csr with apxregion := BitVec.ofNat 7 (mode * 32 + 16 + region) } }

/-- The machine as an APXB finds it once an open region is closed. -/
def State.apxEntry (s : State) : State := if apxOpen s.me then s.spoilRegion.closeRegion else s

/-- Whether an execution with these inputs is a sample (13 R392). -/
def RSlot.sampled (r : RSlot) (x : List (BitVec 32)) : Bool := x.any (fun v => !eqxFinite v) || r.exec.toNat % 2 ^ r.samp.toNat = 0

/-- The region whose network an APXB substitutes, with its slot; none where the true code runs (13 R392). -/
def State.substitutes (s : State) (f : FmtE) : Option (Nat × RSlot) :=
  (s.apxEntry.rslotOf (apxField f)).filter fun x => x.2.state = 3 && !x.2.sampled (regionVals s.apxEntry.me x.2.inreg)

/-- The results in flight land while a substituted APXB holds the task's next group (13 R393); the traps that they raise are deferred as at
the end of any cycle. -/
def State.landHeld : Nat → State → State
  | 0, s => s
  | fuel + 1, s =>
    if s.me.bank.inflight.isEmpty then s
    else
      let (l, ts) := s.me.endCycle
      State.landHeld fuel (s.setMe (l.setGroup fun g => { g with defer := g.defer ++ ts }))

/-- APXB (13 R392). -/
def execApxb (h : Hdr) (f : FmtE) (s : State) : Host.Outcome State Fault Refusal :=
  runPlain h s fun s =>
    let n := apxField f
    let s := s.apxEntry
    match s.rslotOf n with
    | none => .ok (s.openRegion n 0 none)
    | some (i, r) =>
      let x := regionVals s.me r.inreg
      let sampled := r.sampled x
      let r := { r with exec := r.exec + 1, state := if r.state = 0 then 1 else r.state }
      if r.state = 3 && !sampled then
        let s := ((s.setRslot i { r with subst := r.subst + 1 }).landHeld 64).blurRegion
        let s := s.setMe ((List.zip r.outreg (r.net x)).foldl
          (fun l (d, v) => writeRef l .t 0xFFFF (v.setWidth 4096) (regionReg d)) s.me)
        let e := s.groupEndAt r.epc
        .ok (s.setMe (s.me.setGroup fun g => { g with pc := BitVec.ofNat 32 (e + 1) - BitVec.ofNat 32 g.words.length }))
      else
        .ok ((s.setRslot i r).openRegion n (if r.state = 3 then 1 else 0) (some ⟨i, x.map fun (v : BitVec 32) => v.setWidth 64, r.gen⟩))

/-- A pair is recorded, unless it is not finite or the buffer is full (13 R391, R392). -/
def RSlot.record (r : RSlot) (x y : List (BitVec 32)) : RSlot :=
  if (x ++ y).any (fun v => !eqxFinite v) || 64 ≤ r.buffer.length then r
  else
    let r := { r with buffer := r.buffer ++ [(x, y)] }
    if r.state = 1 && r.batchSize ≤ r.buffer.length then { r with state := 2 } else r

/-- A sampled execution is compared (13 R390, R391). -/
def RSlot.compare (r : RSlot) (x y : List (BitVec 32)) : RSlot :=
  if (x ++ y).any fun v => !eqxFinite v then r
  else
    let e := r.sampleError (x, y)
    if eqxLe e r.thresh then { r with window := windowPut r.window e }
    else { r with state := 1, buffer := [], window := [] }

/-- APXE (13 R392). -/
def execApxe (h : Hdr) (f : FmtE) (s : State) : Host.Outcome State Fault Refusal :=
  runPlain h s fun s =>
    let n := apxField f
    let l := s.me
    if !apxOpen l then .ok s
    else if apxNo l ≠ n then .ok s.spoilRegion.closeRegion
    else
      let s' := match l.apx, s.rslotOf n with
        | some a, some (i, r) =>
          let x := a.inputs.map fun (v : BitVec 64) => (v.setWidth 32 : BitVec 32)
          let y := regionVals l r.outreg
          if a.rslot ≠ i || a.gen ≠ r.gen then s
          else if apxMode l = 0 && (r.state = 1 || r.state = 2) then s.setRslot i (r.record x y)
          else if apxMode l = 1 && r.state = 3 then s.setRslot i (r.compare x y)
          else s
        | _, _ => s
      .ok s'.closeRegion

/-- APXC (13 R395). -/
def execApxc (h : Hdr) (_f : FmtE) (s : State) : Host.Outcome State Fault Refusal :=
  runPlain h s fun s => .ok (if apxOpen s.me then s.closeRegion else s)

/-- The registers of a region slot (13 Table 13-5). -/
def RSlot.reg (r : RSlot) (k : Nat) : Word :=
  match k with
  | 0 => BitVec.ofNat 64 (r.samp.toNat * 2 ^ 16 + r.lr.toNat * 2 ^ 8 + r.batch.toNat * 2 ^ 4 + r.state)
  | 1 => r.thresh.setWidth 64
  | 2 => r.mean.setWidth 64
  | 3 => (r.subst.setWidth 64 <<< 32) ||| r.exec.setWidth 64
  | _ => BitVec.ofNat 64 (r.buffer.length * 2 ^ 5 + r.window.length)

def apxsNo (f : FmtE) : Nat := (f.aux.extractLsb' 4 3).toNat

/-- APXS.RD (13 R397). -/
def execApxsRd (h : Hdr) (f : FmtE) (s : State) : Host.Outcome State Fault Refusal :=
  runPlain h s fun s =>
    .ok (s.landNow (engRef f.ed) (match s.rslotOf (apxField f) with | some (_, r) => r.reg (apxsNo f) | none => 0))

/-- APXS.WR (13 R397). -/
def execApxsWr (h : Hdr) (f : FmtE) (s : State) : Host.Outcome State Fault Refusal :=
  runPlain h s fun s =>
    let x := readSpec s.me f.sa
    match s.rslotOf (apxField f) with
    | none => .ok s
    | some (i, r) =>
      match apxsNo f with
      | 0 =>
        let b := x.extractLsb' 4 2
        .ok (s.setRslot i { r with samp := x.extractLsb' 16 4, lr := x.extractLsb' 8 5, batch := if b = 0 then r.batch else b })
      | 1 => .ok (s.setRslot i { r with thresh := x.setWidth 32 })
      | _ => .ok s

/-- APXS.INV (13 R397). -/
def execApxsInv (h : Hdr) (f : FmtE) (s : State) : Host.Outcome State Fault Refusal :=
  runPlain h s fun s =>
    match s.rslotOf (apxField f) with
    | some (i, r) => .ok (s.setRslot i r.invalidate)
    | none => .ok s

/-- The side-effect class (13 R387). -/
def sideEffect : Instr → Bool
  | .st _ _ | .stv _ _ | .vscat _ _ | .atomAdd _ _ | .atomAnd _ _ | .atomOr _ _ | .atomXor _ _ | .atomMin _ _ | .atomMax _ _
  | .atomSwap _ _ | .atomCas _ _ | .atomFadd _ _ | .atomBfadd _ _ | .flagI _ _ | .waitf _ _ | .waitfT _ _ | .cflushWb _ _
  | .cflushInv _ _ | .cflushWbinv _ _ | .cpy _ _ | .cpyScale _ _ | .ringCommit _ _ | .ringEos _ _
  | .ringFree _ _ | .spawn _ _ | .spawnL _ _ | .depAdd _ _ | .depSignal _ _ | .suspSuspend _ _ | .suspYield _ _
  | .suspFinish _ _ | .barArrive _ _ | .barWait _ _ | .barBoth _ _ | .rput _ _ | .rputSig _ _ | .rcopy _ _ | .rcopySig _ _
  | .rsem _ _ | .rred _ _ | .mcred _ _ | .qpost _ _ | .mbxPost _ _ | .mbxTake _ _ | .mbxStatus _ _ | .mbxPostnb _ _
  | .mcall _ _ | .extrDigm _ _ | .extrLimb _ _ | .extrTile _ _ | .extrTileClr _ _ | .wmulOuter _ _ | .wmulOuterSp _ _
  | .wmacOuter _ _ | .wmacOuterSp _ _ => true
  | _ => false

end Machine
end Sys2Proof
end

