-- ==== Sys2Proof/Machine/Launch.lean ====
section
/-! DEFINITION. Launch intake and the completion of a launch (02 R40 to R43; 13 R384; 18 R457, R473). -/

namespace Sys2Proof
namespace Machine

/-! ### The checks of a launch (02 R42) -/

/-- A descriptor's own fields are in range and its reserved bits are zero (02 Table 2-6). -/
def descOk (bs : List Byte) : Bool :=
  let f := recF bs
  f 0 2 = 1 && f 2 2 < 4 && f 4 1 < 128 && 1 ≤ f 5 1 && f 5 1 ≤ 32 && 1 ≤ f 6 2 && f 6 2 ≤ 4096 && 1 ≤ f 8 2 && f 8 2 ≤ 2048 &&
  f 0xA 2 < f 8 2 && 1 ≤ f 0xC 1 && f 0xC 1 ≤ 16 && f 0xD 1 = 0 && f 0x38 8 % 256 = 0 &&
  (BitVec.ofNat 32 (f 0x58 4) &&& ~~~fpcMask) = 0 && f 0x5C 36 = 0

/-- JOB names a VALID entry of the partition's context table (19 R478). -/
def State.jobValid (s : State) (part job : Nat) : Bool :=
  let p := s.part part
  job < fld p.ptCtl.toNat 31 16 &&
  (match interAddr s part (fld p.ptBase.toNat 55 12 * 2 ^ 12 + 16 * job) with
   | .ok a => s.rdEntry a % 2 = 1
   | .error _ => false)

/-- Whether an entry of the region table is well formed (13 R384, Table 13-1). -/
def regionOk (h : Header) (bs : List Byte) : Bool :=
  let f := recF bs
  let nin := f 8 1
  let nout := f 9 1
  let reg (o i : Nat) : Bool := let b := f (o + i) 1; b % 128 < (if 128 ≤ b then h.nq else h.ns)
  1 ≤ nin && nin ≤ 16 && 1 ≤ nout && nout ≤ 8 && f 0xA 1 ≤ 32 && 1 ≤ f 0xB 1 && f 0xB 1 ≤ 3 && f 0xC 1 ≤ 31 && f 0xD 1 ≤ 15 &&
  f 0xE 2 = 0 && f 0x14 4 = 0 && f 0x30 16 = 0 && f 0 4 < f 4 4 && f 4 4 < h.codeLen &&
  (List.range nin).all (reg 0x18) && (List.range nout).all (reg 0x28) &&
  ((List.range 16).drop nin).all (fun i => f (0x18 + i) 1 = 0) && ((List.range 8).drop nout).all fun i => f (0x28 + i) 1 = 0

/-- The entries of a kernel's region table; none where they cannot be read. -/
def State.regionTable (s : State) (part ctx : Nat) (kernel : Word) (h : Header) : Option (List (List Byte)) :=
  (s.marchRead part ctx (kernel.toNat + h.apxTab) (64 * h.napx)).map fun bs =>
    (List.range h.napx).map fun r => (bs.drop (64 * r)).take 64

/-- Whether one gang can ever fit a block: a co-resident gang holds ⌈GANGSZ / 8⌉ slots on its fullest core (02 R42, R45, R52). -/
def gangFits (h : Header) (gangSz : Nat) : Bool :=
  let k := (gangSz + 7) / 8
  h.nbar = 0 || (k ≤ 4 && k * h.nw ≤ 8 && k * h.nacc ≤ 4 && k * h.nta ≤ 4 && k * h.nrh ≤ 32)

/-- The checks of a launch up to the placing of its records: the header, or a code of Table 2-7. -/
def State.checkLaunch (s : State) (part : Nat) (bs : List Byte) : Except Nat Header :=
  let f := recF bs
  let job := f 0xE 2
  if !descOk bs || !s.jobValid part job then .error 1
  else match s.marchRead part job (f 0x10 8) 128 with
    | none => .error 2
    | some hb =>
      let h := headerOf hb
      if !headerOk hb then .error 2
      else if h.stages ≠ f 0xC 1 then .error 1
      else match s.regionTable part job (BitVec.ofNat 64 (f 0x10 8)) h with
        | none => .error 2
        | some t =>
          if !t.all (regionOk h) then .error 2
          else if f 0x40 4 < f 0xC 1 * f 6 2 * f 5 1 then .error 4
          else if !gangFits h (f 5 1) then .error 3
          else .ok h

/-! ### Making the records (02 R41; 18 R457) -/

/-- A handle that no launch in progress has. -/
def State.freeHandle (s : State) : Nat :=
  let open_ (h : Nat) : Bool := s.launches.any fun x => x.handle = h && !x.completed
  match firstFrom (fun i => !open_ ((s.nextHandle + i) % 65536)) 65536 0 with
  | some i => (s.nextHandle + i) % 65536
  | none => 0

/-- The 256 bytes of an initial record. -/
def initialRecord (bs : List Byte) (h : Header) (handle coord aff : Nat) : List Byte :=
  let f := recF bs
  let dep := f 0x44 4
  let r := List.replicate 256 (0 : Byte)
  let r := putField (putField r 0 8 (recHdr handle (f 4 1) (if dep = 0 then 2 else 1) false)) 8 4 dep
  let r := putField (putField r 0x10 8 (aff % 2 ^ 64)) 0x18 8 (f 0x10 8)
  let r := putField (putField r 0x20 4 h.entry.toNat) 0x24 4 coord
  putField (putField r 0x28 8 (f 0x18 8)) 0x38 4 (f 0x58 4)

/-- The affinity of task t of linear gang index G. -/
def initialAff (bs : List Byte) (g t : Nat) : Nat :=
  let f := recF bs
  (f 0x20 8 + g * f 0x28 8 + t * f 0x30 8) % 2 ^ 64

/-- The records of one gang: all go to the die of task 0. -/
def State.makeGang (s : State) (part : Nat) (bs : List Byte) (h : Header) (handle g : Nat) : State :=
  let f := recF bs
  let d := s.dieFor part handle (BitVec.ofNat 64 (initialAff bs g 0))
  (List.range (f 5 1)).foldl (fun s t =>
    let a := f 0x38 8 + 256 * (g * f 5 1 + t)
    let coord := g / f 6 2 * 2 ^ 28 + f 0xA 2 * 2 ^ 17 + g % f 6 2 * 2 ^ 5 + t
    let aff := initialAff bs g t
    let s := s.marchWrite part (f 0xE 2) a (initialRecord bs h handle coord aff)
    s.addRec d part handle (BitVec.ofNat 64 a) (f 4 1) (BitVec.ofNat 32 coord) (BitVec.ofNat 64 aff) (BitVec.ofNat 64 (f 0x10 8))
      false true none (f 0x44 4)) s

/-- The launch with its records; none where a die that would hold one has no overflow area (18 R473). -/
def State.makeLaunch (s : State) (i : Intake) (bs : List Byte) (h : Header) : Option (Nat × State) :=
  let f := recF bs
  let n := s.freeHandle
  let x : Launch :=
    { part := i.part, handle := n, job := f 0xE 2, noaff := f 2 2 % 2 = 1, cplMsi := f 2 2 / 2 = 1, gangSz := f 5 1,
      gangs := f 6 2, chips := f 8 2, stages := f 0xC 1, kernel := BitVec.ofNat 64 (f 0x10 8), hdr := h,
      affBase := BitVec.ofNat 64 (f 0x20 8), affG := BitVec.ofNat 64 (f 0x28 8), cplFlag := BitVec.ofNat 64 (f 0x48 8),
      cplStat := BitVec.ofNat 64 (f 0x50 8), errcnt := 0, live := 0, killed := [], port := i.host, vec := i.vec,
      completed := false }
  let s := { s with launches := (s.launches.filter fun y => y.handle ≠ n) ++ [x], nextHandle := (n + 1) % 65536 }
  let s := (List.range (f 0xC 1 * f 6 2)).foldl (fun s g => s.makeGang i.part bs h n g) s
  let ready := s.dies.all fun (_, d) =>
    let r := d.march i.part
    !(d.recs.any fun r => r.handle = n) || (r.ovfSet && 512 ≤ r.monovfcnt.toNat)
  if ready then some (n, s) else none

/-- The descriptor's bytes: from the host, or from the context of the task that submitted it. -/
def State.descriptor (s : State) (i : Intake) : Option (List Byte) :=
  match i.host with
  | some (p, q) =>
    let pasid := (((s.qif (8 * p + q)).queue.head?).bind (·.pasid)).getD 0
    if (s.part i.part).tdi = .error then none
    else (s.dmaRuns p pasid i.addr.toNat 128).map fun rs => rs.flatMap fun (a, n) => Memory.read s.host.mem a n
  | none => s.marchRead i.part i.ctx i.addr.toNat 128

/-- Intake has done with a submission: a host's packet completes. -/
def State.intakeDone (s : State) (i : Intake) (status result : Nat) : State :=
  match i.host with
  | some (p, q) => State.runQueue (8 * p + q) 33 (s.completePacket (8 * p + q) status result)
  | none => s

/-- LAUNCH_INTAKE: the oldest submission is checked and its records are made, or it is refused through CPLSTAT; not before step 6
of the boot sequence (02 R40 to R42; 22 R560). -/
def execLaunchIntake (s : State) : Host.Outcome State Fault Refusal :=
  .next <|
    match s.intake with
    | [] => s
    | i :: rest =>
      if s.fw.boot < 6 then s
      else
        let s := { s with intake := rest }
        match s.descriptor i with
        | none => s.intakeDone i 4 0
        | some bs =>
          let refuse (code : Nat) : State :=
            let a := recF bs 0x50 8
            (if a = 0 then s else s.marchWrite i.part (recF bs 0xE 2) a (bytesOfNat 8 code)).intakeDone i 5 code
          if i.addr.toNat % 128 ≠ 0 then refuse 1
          else match s.checkLaunch i.part bs with
            | .error c => refuse c
            | .ok h =>
              match s.makeLaunch i bs h with
              | none => refuse 3
              | some (n, s) => s.intakeDone i 0 n

/-! ### Completion (02 R43; 16 R422) -/

/-- Where a counting flag of a launch lies: in the global window, the partition's share of a sync window, or its flag window. -/
def State.flagPlace (s : State) (part ctx a : Nat) : Option (List Seg) :=
  if a % 8 ≠ 0 then none
  else match winOf a with
    | some (.global, _) => s.marchSegs part ctx 2 a 8
    | some (.sync d, o) => some (syncSegs s ⟨part, ctx, 0, 0, 0, 0⟩ d o 8)
    | some (.flag, o) => some [⟨.flag part o, 8⟩]
    | _ => none

/-- Raises a counting flag by one.  DESIGN CHOICE: a flag in poisoned data stays as it is; a write of its word would make it clean (21
R544). -/
def State.raiseFlag (s : State) (part ctx : Nat) (a : Word) : State :=
  match (if a = 0 then none else s.flagPlace part ctx a.toNat) with
  | some g =>
    let s := g.foldl (fun s x => s.hostCopies x.loc x.len true) s
    if (poisonAt s a.toNat g).isSome then s else
    writeSegs s g (bytesOfNat 8 ((natOfBytes (readSegs s g) + 1) % 2 ^ 64))
  | none => s

/-- A launch's code at its completion (02 Table 2-7; 18 R475). -/
def Launch.code (x : Launch) : Nat := if x.errcnt ≠ 0 || 8 ≤ x.killed.length then 5 else 0

/-- What a launch held on the chip is free: its regions and the blocks of its gangs (03 R71; 18 R464). -/
def State.freeLaunch (s : State) (handle : Nat) : State :=
  let s := s.cores.foldl (fun s (i, c) =>
    if (c.region handle).isSome then s.setCore i { c with regions := c.regions.filter fun r => r.handle ≠ handle } else s) s
  s.dies.foldl (fun s (i, d) =>
    if d.gangBlock.any (fun g => g.1.1 = handle) then s.setDie i { d with gangBlock := d.gangBlock.filter fun g => g.1.1 ≠ handle }
    else s) s

/-- A launch completes if every record of it is DONE or in ERROR and no Spring or Fall record is bound to its regions: the status
word, then CPLFLAG, then the MSI-X of a launch that a host submitted. -/
def State.tryComplete (s : State) (handle : Nat) : State :=
  match s.launches.find? fun x => x.handle = handle && !x.completed with
  | none => s
  | some x =>
    let busy := s.sf.any fun (_, r) => (match r.bound with | some (_, _, h) => h = handle && !r.ended | none => false)
    if x.live ≠ 0 || busy then s
    else
      let s := if x.cplStat = 0 then s
        else s.marchWrite x.part x.job x.cplStat.toNat (bytesOfNat 8 (x.errcnt * 2 ^ 32 + x.code))
      let s := s.raiseFlag x.part x.job x.cplFlag
      let s := match x.cplMsi, x.port with
        | true, some (p, _) => if (s.part x.part).tdi = TdiState.error then s else s.msix p x.part x.vec.toNat
        | _, _ => s
      (s.freeLaunch handle).updLaunch x.part handle fun y => { y with completed := true }

/-- LAUNCH_COMPLETION. -/
def execLaunchCompletion (handle : Nat) (s : State) : Host.Outcome State Fault Refusal := .next (s.tryComplete handle)

end Machine
end Sys2Proof
end

