-- ==== Sys2Proof/Machine/Spring.lean ====
section
/-! DEFINITION. The records of Spring and Fall, on the base die of an HBM stack (16 R417 to R422). -/

namespace Sys2Proof
namespace Machine

/-! ### Records (16 Table 16-1) -/

/-- A field of a record. -/
def SfRec.f (r : SfRec) (o n : Nat) : Nat := recF r.bytes o n
def SfRec.kind (r : SfRec) : Nat := r.f 0 1
def SfRec.flag (r : SfRec) (i : Nat) : Bool := (r.f 1 1).testBit i
def SfRec.status (r : SfRec) : Nat := r.f 6 1
/-- A record that runs: STATUS running, or POISON while its stream goes on (16 R419, R420). -/
def SfRec.runs (r : SfRec) : Bool := r.status = 2 || (r.status = 0x12 && r.bound.isSome && !r.ended)
/-- Bytes of the whole stream. -/
def SfRec.total (r : SfRec) : Nat := r.f 0x20 4 * r.f 0x24 4 * r.f 0x28 4

/-- A record that breaks Table 16-1 (16 R417). -/
def SfRec.bad (r : SfRec) : Bool :=
  let n := r.f 3 1
  !(r.kind = 1 || r.kind = 2) || 32 ≤ r.f 1 1 || (r.kind = 2 && r.flag 1) || 6 ≤ r.f 2 1 || 12 < n || 63 < r.f 4 1 ||
  r.f 5 1 = 0 || min 255 (2 ^ n) < r.f 5 1 || r.f 7 1 ≠ 0 || r.f 0xA 2 ≠ 0 || r.f 0x2C 4 ≠ 0 || r.f 0x10 4 % 128 ≠ 0 ||
  (r.flag 4 && r.f 0x14 4 % 8 ≠ 0) || r.f 0x20 4 = 0 || r.f 0x24 4 = 0 || r.f 0x28 4 = 0

/-- A record's key: stack and number. -/
def sfKey (stack n : Nat) : Nat := 256 * stack + n

def SfRec.setStatus (r : SfRec) (x : Nat) : SfRec := { r with bytes := putField r.bytes 6 1 x }

/-- The record that nobody has written. -/
def SfRec.none : SfRec := { bytes := List.replicate 64 0, part := 0, bound := .none, pos := 0, poison := false, ended := false }

/-- System software writes word w of a record: STATUS stays the base die's; the word with VALID starts the record.  A record
that runs takes no write. -/
def State.writeSf (s : State) (part stack n w : Nat) (x : Word) : State :=
  let k := sfKey stack n
  let r := (Sparse.find s.sf k).getD SfRec.none
  if r.runs then s
  else
    let r' : SfRec := { SfRec.none with bytes := putField r.bytes (8 * w) 8 x.toNat, part := part }
    let st := if w ≠ 0 then r.status else if !r'.flag 0 then 0 else if r'.bad then 0x10 else 1
    { s with sf := Sparse.put s.sf k (r'.setStatus st) }

/-- A record ends with a code, or with POISON where it met poison; the flag at CPL of a bound record rises by one after STATUS
(16 R421). -/
def State.endSf (s : State) (k : Nat) (r : SfRec) (code : Nat) (flag : Bool) : State :=
  let st := if code ≠ 0 then code else if r.poison then 0x12 else 3
  let s := { s with sf := Sparse.put s.sf k { r.setStatus st with ended := true } }
  match r.bound with
  | some (c, base, _) => if flag && r.flag 4 then s.addAt (.scr c (base + r.f 0x14 4)) 1 else s
  | none => s

/-- A waiting record binds to the core and region of the task that March dispatches, or ends BADREC (16 R418). -/
def State.bindSf (s : State) (k : Nat) (r : SfRec) (core base handle scratch : Nat) : State :=
  let r := { r with bound := some (core, base, handle), pos := 0 }
  let sb := 128 * (r.f 4 1 + 1)
  if r.flag 4 && scratch < r.f 0x14 4 + 8 then s.endSf k r 0x10 false
  else if scratch < r.f 0x10 4 + sb * 2 ^ r.f 3 1 || r.total % sb ≠ 0 then s.endSf k r 0x10 true
  else { s with sf := Sparse.put s.sf k (r.setStatus 2) }

/-- Every record that waits for a task binds at its dispatch on the C-die adjacent to the record's stack. -/
def State.bindRecords (s : State) (core part handle job scratch : Nat) (coord : BitVec 32) : State :=
  match (s.core core).region handle with
  | none => s
  | some g =>
    s.sf.foldl (fun s (k, r) =>
      if r.status = 1 && k / 512 = coreDie core && r.part = part && r.f 8 2 = job % 65536 && r.f 0xC 4 = coord.toNat
        then s.bindSf k r core g.base handle scratch else s) s

/-! ### The pattern (16 R418; 09 R280) -/

/-- The address of stream byte q, and how many bytes follow in its row. -/
def SfRec.addr (r : SfRec) (q : Nat) : Nat × Nat :=
  let n0 := r.f 0x20 4
  let n1 := r.f 0x24 4
  let srow := sintNat 64 (r.f 0x30 8)
  let spl := sintNat 64 (r.f 0x38 8)
  let a : Int := r.f 0x18 8 + (q / (n0 * n1) : Nat) * spl + (q / n0 % n1 : Nat) * srow + (q % n0 : Nat)
  (truncInt 64 a, n0 - q % n0)

/-- What a base die does about a stretch of its pattern: it has the runs; it ends with a code; or it waits for a page. -/
inductive SfRes where
  | ok (segs : List Seg) (s : State)
  | stop (code : Nat) (s : State)
  | wait (waits : Option PageWait) (s : State)

/-- Whether a run lies in a stack. -/
def inStack (stack : Nat) (g : Seg) : Bool :=
  match g.loc with
  | .hbm a | .ext a | .denied (some a) => a / 2 ^ 36 = stack
  | _ => false

/-- The runs of stream bytes q to q + n - 1, every one in the record's stack. -/
def sfRuns (g : Agent) (k : Acc) (stack : Nat) (r : SfRec) : Nat → Nat → Nat → State → SfRes
  | 0, _, _, s => .ok [] s
  | fuel + 1, q, n, s =>
    if n = 0 then .ok [] s
    else
      let (a, row) := r.addr q
      let m := min n row
      if 2 ^ 56 ≤ a then .stop 0x10 s
      else match engineAccess s g k a m r.waits with
        | .refuse c => .stop (if c = 4 then 0x10 else 0x11) s
        | .wait e s => .wait e s
        | .ok segs s =>
          if !segs.all (inStack stack) then .stop 0x10 s
          else match sfRuns g k stack r fuel (q + m) (n - m) s with
            | .ok rest s => .ok (segs ++ rest) s
            | x => x

/-- Whether the rows of the pattern from stream byte q on leave the stack, as far as their pages are present (16 R418). -/
def patternOut (g : Agent) (k : Acc) (stack : Nat) (r : SfRec) (s : State) : Nat → Nat → Bool
  | 0, _ => false
  | rows + 1, q =>
    let (a, m) := r.addr q
    if r.total ≤ q then false else
    2 ^ 56 < a + m ||
    (match engineAccess s g k a m r.waits with
    | .refuse c => c = 4
    | .wait _ _ => false
    | .ok segs _ => !segs.all (inStack stack)) ||
    patternOut g k stack r s rows (q + m)

/-- A stretch of the stream went by: its poison shows in STATUS at once (16 R419, R420). -/
def SfRec.past (r : SfRec) (n : Nat) (bad : Bool) : SfRec :=
  let r := { r with pos := r.pos + n, poison := r.poison || bad, waits := Option.none }
  if r.poison then r.setStatus 0x12 else r

/-- The agent of a record: engine 5 or 6 of its base die. -/
def SfRec.agent (r : SfRec) (s : State) (stack handle : Nat) : Agent :=
  ⟨r.part, s.jobOf r.part handle, handle, stack / 2 * 128, 0, if r.kind = 1 then 5 else 6⟩

/-! ### The two engines (16 R419, R420) -/

/-- SPRING_FILL: the next line of the stream, once it is EMPTY; the end of the record after its last. -/
def execSpringFill (stack rec : Nat) (s : State) : Host.Outcome State Fault Refusal :=
  .next <|
    let k := sfKey stack rec
    match Sparse.find s.sf k with
    | none => s
    | some r =>
      match r.bound, r.runs && r.kind = 1 with
      | some (core, base, handle), true =>
        if r.total ≤ r.pos then s.endSf k r 0 true
        else
          let sb := 128 * (r.f 4 1 + 1)
          let ofs := base + r.f 0x10 4 + r.pos / sb % 2 ^ r.f 3 1 * sb + r.pos % sb
          if (s.core core).line (ofs / 128) ≠ lnEmpty then s
          else match sfRuns (r.agent s stack handle) .load stack r 129 r.pos 128 s with
            | .stop c s => s.endSf k r c true
            | .wait e s => { s with sf := Sparse.put s.sf k { r with waits := e } }
            | .ok segs s =>
              let bad := runsPoison s segs
              let s := writeSeg s ⟨.scr core ofs, 128⟩ (readSegs s segs)
              let last := r.pos + 128 = r.total
              let s := s.setLine core (ofs / 128) (if bad then lnPoison else if r.flag 1 && last then lnEos else lnFull)
              let r := r.past 128 bad
              if last then s.endSf k r 0 true else { s with sf := Sparse.put s.sf k r }
      | _, _ => s

/-- Writes the lines of a slot to their runs, a POISON line with poison. -/
def drainLines (core first : Nat) : Nat → Nat → List (List Seg) → State → State
  | 0, _, _, s => s
  | n + 1, i, runs, s =>
    let g := runs.headD []
    let ofs := 128 * (first + i)
    let bad := (s.core core).line (first + i) == lnPoison
    let s := writeSegs s g (readSeg s ⟨.scr core ofs, 128⟩)
    drainLines core first n (i + 1) runs.tail (if bad then g.foldl poisonSeg s else s)

/-- The runs of each line of a slot. -/
def slotRuns (g : Agent) (stack : Nat) (r : SfRec) : Nat → Nat → State → Except SfRes (List (List Seg) × State)
  | 0, _, s => .ok ([], s)
  | n + 1, q, s =>
    match sfRuns g .store stack r 129 q 128 s with
    | .ok segs s =>
      (match slotRuns g stack r n (q + 128) s with
      | .ok (rest, s) => .ok (segs :: rest, s)
      | .error x => .error x)
    | x => .error x

/-- FALL_DRAIN: the next slot, once every line of it is FULL, FULL_EOS or POISON; its lines become EMPTY after its bytes are
written; the record ends after its last byte or after the end-of-stream slot, where what is left of its pattern must lie in the
stack too (R418). -/
def execFallDrain (stack rec : Nat) (s : State) : Host.Outcome State Fault Refusal :=
  .next <|
    let k := sfKey stack rec
    match Sparse.find s.sf k with
    | none => s
    | some r =>
      match r.bound, r.runs && r.kind = 2 with
      | some (core, base, handle), true =>
        if r.total ≤ r.pos then s.endSf k r 0 true
        else
          let lines := r.f 4 1 + 1
          let sb := 128 * lines
          let first := (base + r.f 0x10 4 + r.pos / sb % 2 ^ r.f 3 1 * sb) / 128
          let st := (s.core core).slotStates first lines
          if st.any (· == lnEmpty) then s
          else match slotRuns (r.agent s stack handle) stack r lines r.pos s with
            | .error (.stop c s) => s.endSf k r c true
            | .error (.wait e s) => { s with sf := Sparse.put s.sf k { r with waits := e } }
            | .error (.ok _ s) => s
            | .ok (runs, s) =>
              let s := drainLines core first lines 0 runs s
              let r := r.past sb (st.any (· == lnPoison))
              let s := (List.range lines).foldl (fun s i => s.setLine core (first + i) lnEmpty) s
              if r.total ≤ r.pos then s.endSf k r 0 true
              else if eosSlot st then
                s.endSf k r (if patternOut (r.agent s stack handle) .store stack r s (r.f 0x24 4 * r.f 0x28 4 + 1) r.pos then 0x10 else 0) true
              else { s with sf := Sparse.put s.sf k r }
      | _, _ => s

end Machine
end Sys2Proof
end

