-- ==== Sys2Proof/Machine/System.lean ====
section
/-! DEFINITION. System words: CSR, RFT, TLBI, CTX, WFE and HALT (17 R433 to R437, R446, R452 to R456), the end of a walk
(17 R439, R441), and results that land while a slot drains (06 R178, R181). -/

namespace Sys2Proof
namespace Machine

/-! ### Levels (17 R433, R435) -/

/-- A system word: at a level that Table 17-4 refuses it traps PRIV, as a group trap (17 R433, R438). -/
def runSys (h : Hdr) (s : State) (legal : Level → Bool) (eff : State → WRes) : Host.Outcome State Fault Refusal :=
  if legal s.me.level then runPlain h s eff else .next (s.takeTrap ⟨.priv, 0, s.me.wpc⟩ .g s.me.group.pc)

/-- Levels S and F. -/
def notT (v : Level) : Bool := v ≠ .t

/-- The registers of Table 17-1 that level T reaches. -/
def csrOpen (n : BitVec 12) (v : Level) : Bool := v ≠ .t || n.toNat < 8

/-! ### CSR (17 R437) -/

/-- A control register as it stands at issue (17 Table 17-1). -/
def State.csrGet (s : State) (n : Nat) : Word :=
  let l := s.me
  let c := l.csr
  let p := s.part l.id.part
  match n with
  | 0x000 => l.bank.fpc.setWidth 64
  | 0x001 => (l.group.ctx0.getD c.ctxstat).setWidth 64
  | 0x002 => c.oorAddr
  | 0x003 => c.rptrem.setWidth 64
  | 0x004 => c.apxregion.setWidth 64
  | 0x005 => match l.level with | .t => 0 | .s => 1 | .f => 2
  | 0x006 => BitVec.ofNat 64 (s.cycle - s.myCore.resetCycle)
  | 0x007 => s.podNow
  | 0x040 => c.cause
  | 0x041 => c.trapPc.setWidth 64
  | 0x042 => c.trapInfo
  | 0x043 => c.trapWpc.setWidth 64
  | 0x044 => p.trapVec
  | 0x045 => l.rpl.stat
  | 0x046 => c.rplNext.setWidth 64
  | 0x047 => c.pend.setWidth 64
  | 0x048 => ((s.die (coreDie s.cur.1)).march l.id.part).evtcnt
  | 0x050 => l.tb.fpc.setWidth 64
  | 0x100 => (p.incarn.setWidth 64 <<< 32) ||| BitVec.ofNat 64 (l.id.part % 8)
  | 0x101 => p.ptBase
  | 0x102 => p.ptCtl
  | 0x103 => p.fltqBase
  | 0x104 => (p.head.setWidth 64 <<< 32) ||| p.tail.setWidth 64
  | 0x110 => p.dbgPol
  | _ => 0

/-- CSR.RD (17 R437). -/
def execCsrRd (h : Hdr) (f : FmtC) (s : State) : Host.Outcome State Fault Refusal :=
  runSys h s (csrOpen f.csrn) fun s => .ok (s.landNow (dstRef f.dst) (s.csrGet f.csrn.toNat))

/-- A CSR write: the value lands at the end of the issue cycle (17 R437). -/
def runCsr (h : Hdr) (f : FmtC) (s : State) (v : Word → Word → Word) : Host.Outcome State Fault Refusal :=
  runSys h s (csrOpen f.csrn) fun s =>
    let x := v (s.csrGet f.csrn.toNat) (readSpec s.me f.a)
    .ok (s.setMe (s.me.setGroup fun g => { g with csrs := g.csrs ++ [(f.csrn.toNat, x)] }))

/-- CSR.WR (17 R437). -/
def execCsrWr (h : Hdr) (f : FmtC) (s : State) : Host.Outcome State Fault Refusal := runCsr h f s fun _ x => x
/-- CSR.SET (17 R437). -/
def execCsrSet (h : Hdr) (f : FmtC) (s : State) : Host.Outcome State Fault Refusal := runCsr h f s fun o x => o ||| x
/-- CSR.CLR (17 R437). -/
def execCsrClr (h : Hdr) (f : FmtC) (s : State) : Host.Outcome State Fault Refusal := runCsr h f s fun o x => o &&& ~~~x

/-! ### RFT, HALT and WFE -/

/-- The group ends the slot's stay as `e` says. -/
def State.leaveWith (s : State) (e : GroupEnd) : State :=
  s.setMe (s.me.setGroup fun g => { g with fin := e, finBit := 1 <<< g.idx })

/-- RFT (17 R446): the return is made at the end of its group's cycle. -/
def execRft (h : Hdr) (s : State) : Host.Outcome State Fault Refusal :=
  runSys h s (· = .s) fun s => .ok (s.leaveWith .rft)

/-- HALT (17 R455): at level F the core stops. -/
def execHalt (h : Hdr) (s : State) : Host.Outcome State Fault Refusal :=
  runSys h s notT fun s =>
    if s.me.level = .f then .ok (s.setMyCore { s.myCore with halted := true }) else .ok (s.leaveWith .halt)

/-- WFE (17 R454). -/
def execWfe (h : Hdr) (s : State) : Host.Outcome State Fault Refusal :=
  runSys h s notT fun s =>
    .ok (s.setMe { s.me with wfe := some (((s.die (coreDie s.cur.1)).march s.me.id.part).evtcnt, s.cycle + 65536) })

/-- WFE_TIMEOUT: a WFE ends after 65,536 cycles (17 R454). -/
def execWfeTimeout (core slot : Nat) (s : State) : Host.Outcome State Fault Refusal :=
  .next <|
    match (s.slot core slot).wfe with
    | some (_, d) => if d ≤ s.cycle then s.endWfe core slot else s
    | none => s

/-! ### TLBI (17 R453) -/

/-- Posted writes of a partition, and those of no task, in a run of bus addresses reach the host (19 R489). -/
def State.writeBackPart (s : State) (part a n : Nat) : State :=
  s.flushHost fun x => (x.part = some part || x.part = none) && a ≤ x.addr && x.addr < a + n

/-- Drops the translations of a partition that `p` picks, in every TLB of the chip, and what the walk caches hold of its tables; the posted
writes made through them, also through one that a TLB has long replaced, are written back (19 R489, R491). -/
def State.dropXlate (s : State) (part : Nat) (p : TlbEntry → Bool) : State :=
  let hit (e : TlbEntry) : Bool := e.part = part && p e
  let s := (s.host.via.filter hit).foldl (fun s e => s.writeBackPart part e.target (2 ^ e.bits)) s
  let keep (l : List TlbEntry) : List TlbEntry := l.filter fun e => !hit e
  let cs : SMap Core := s.cores.map fun x => (x.1, { x.2 with tlb := keep x.2.tlb })
  let ds : SMap Die := s.dies.map fun x => (x.1, { x.2 with l2tlb := keep x.2.l2tlb, wcache := x.2.wcache.filter fun l => l.part ≠ part })
  { s with cores := cs, dies := ds, host := { s.host with via := keep s.host.via } }

/-- A TLBI word: it is held until every access through what it drops is performed (`tlbiHeld`), and then performs at once. -/
def runTlbi (h : Hdr) (f : FmtRR) (s : State) (p : Slot → TlbEntry → Bool) : Host.Outcome State Fault Refusal :=
  runSys h s notT fun s => .ok ((s.dropXlate s.me.id.part (p s.me)).landNow (dstRef f.dst) 0)

/-- The context that B names. -/
def tlbiCtx (l : Slot) (f : FmtRR) : Nat := (readSpec l f.b).toNat % 65536

/-- Whether a remote word goes to a peer page through a translation of a partition: of a context, and of a granule where they are named. -/
def RemoteWord.through (w : RemoteWord) (part : Nat) (ctx granule : Option Nat) : Bool :=
  (w.op = opRead || w.op = opAtomic || w.op = opStore) && w.part = part &&
  (match ctx with | some c => w.job = c | none => true) &&
  match granule, w.via with
  | some g, some (_, a) => a / 65536 = g
  | _, _ => true

/-- Whether a TLBI word waits for an access that is not performed: one to another chip, of any core of this one (17 R453; 19 R491, R495). -/
def State.tlbiHeld (s : State) (i : Instr) : Bool :=
  let l := s.me
  let out (ctx granule : Option Nat) : Bool := s.remoteWords.any fun w => w.through l.id.part ctx granule
  match i with
  | .tlbiAll _ _ => out none none
  | .tlbiAddr _ f => out (some (tlbiCtx l f)) (some ((readSpec l f.a).toNat / 65536))
  | .tlbiCtx _ f => out (some (tlbiCtx l f)) none
  | _ => false

/-- TLBI of every entry (17 R453). -/
def execTlbiAll (h : Hdr) (f : FmtRR) (s : State) : Host.Outcome State Fault Refusal := runTlbi h f s fun _ _ => true
/-- TLBI of the entries that cover the granule of A in a context (17 R453). -/
def execTlbiAddr (h : Hdr) (f : FmtRR) (s : State) : Host.Outcome State Fault Refusal :=
  runTlbi h f s fun l e =>
    let v := (readSpec l f.a).toNat / 65536 * 65536
    e.ctx = tlbiCtx l f && e.base < v + 65536 && v < e.base + 2 ^ e.bits
/-- TLBI of a context (17 R453). -/
def execTlbiCtx (h : Hdr) (f : FmtRR) (s : State) : Host.Outcome State Fault Refusal :=
  runTlbi h f s fun l e => e.ctx = tlbiCtx l f

/-! ### CTX (17 R452) -/

/-- Where a CTX word's access misses while its die runs 128 walks: the word waits for its walk's turn (19 R488). -/
def State.ctxHeld (s : State) (k : Acc) (a n : Nat) : Option (Nat × State) :=
  if s.walkFree (coreDie s.cur.1) then none
  else match resolve s (s.myAgent 0) k a n with
    | .walk x s => some (x, s)
    | _ => none

/-- An access that never faults: a miss is walked at once, and a fault or a page not present is PERM.  DESIGN CHOICE: so is a page of a peer
chip; the manual gives CTX no word to send there (17 R452, 19 R490). -/
def State.ctxAccess (s : State) (k : Acc) (a n : Nat) : Nat → Option (List Seg × State)
  | 0 => none
  | fuel + 1 =>
    let g := s.myAgent 0
    match resolve s g k a n with
    | .ok segs s => if segs.any fun x => (match x.loc with | .peer _ _ => true | _ => false) then none else some (segs, s)
    | .fault _ _ | .absent _ _ _ => none
    | .walk x s =>
      match walkInstall s g x k with
      | .ok _ s => s.ctxAccess k a n fuel
      | _ => none

/-- A status of CTX. -/
def State.ctxStatus (s : State) (f : FmtRR) (x : Word) : WRes := .ok (s.landNow (dstRef f.dst) x)

/-- CTX.SAVE (17 R452). -/
def execCtxSave (h : Hdr) (f : FmtRR) (s : State) : Host.Outcome State Fault Refusal :=
  runSys h s notT fun s =>
    let a := (readSpec s.me f.a).toNat
    if a % 256 ≠ 0 then s.ctxStatus f 1
    else
      let (m, n) := buildFrame s s.cur.1 s.cur.2
      match s.ctxHeld .store a n with
      | some (x, s) => .walk x .store s
      | none =>
      match s.ctxAccess .store a n 16 with
      | none => s.ctxStatus f 3
      | some (segs, s) =>
        let s := { s with freeCtr := s.freeCtr + 36864 }
        ((s.noteRange a segs).writeOwns segs (Memory.read m 0 n)).ctxStatus f 0

/-- Whether WM u runs no routine and holds none pending. -/
def Core.wmFree (c : Core) (u : Nat) : Bool :=
  let w : Wm := Sparse.get {} c.wms u
  w.run.isNone && w.pend.isNone

/-- The kind of wait that a frame holds (17 Table 17-6). -/
def frameWait (m : Mem) : Option WaitKind :=
  match getF m 0x1F 1 with
  | 1 => some .waitf | 2 => some .waitfT | 3 => some .bar | 4 => some .ringGet | 5 => some .mbxTake | _ => none

/-- The place that the wait of a frame watches, WAITADDR being an address, a barrier or a handle (17 Table 17-6); none where a monitor's
address cannot be read or may not be waited for. -/
def State.waitPlace (s : State) (m : Mem) : Option (Loc × State) :=
  let a := getF m 0x58 8
  match frameWait m with
  | some .waitf | some .waitfT =>
    if a % 8 ≠ 0 then none
    else (match s.ctxAccess .load a 8 16 with
      | some (segs, s) => if waitable segs then some (waitLoc segs, s) else none
      | none => none)
  | some .ringGet => some (.scr s.cur.1 (128 * s.regionLine (rhFirst (BitVec.ofNat 64 a))), s)
  | _ => some (.ctr (coreBlock s.cur.1) 0, s)

/-- The tag whose result a frame's wait brings: the one that awaits it, or of the frame's busy tags the lowest that nothing else holds,
with its pending destination (17 Table 17-6 TAGBUSY, TAGDST). -/
def Slot.waitTag (l : Slot) (m : Mem) : Nat × Slot :=
  match l.tb.tags.find? fun x => x.2.any TagRes.isWait with
  | some (t, _) => (t, l)
  | none =>
    match [1, 2, 3, 4, 5, 6, 7].find? fun t => (getF m 0x1E 1).testBit t && (Sparse.find l.tb.tags t).isNone with
    | some t =>
      let r : TagRes := ⟨RegRef.ofCode (BitVec.ofNat 16 (getF m (0x70 + 2 * (t - 1)) 2)), .wait, l.pc⟩
      (t, { l with tb := { l.tb with tags := Sparse.put l.tb.tags t [r] } })
    | none => (0, l)

/-- The wait of a frame (17 Table 17-6) becomes that of the task which a handler serves: WAITADDR, WAITVAL, DEADLINE; a monitor takes its
place anew. -/
def State.restoreWait (s : State) (m : Mem) (loc : Loc) : State :=
  match frameWait m with
  | none => s.setMe { s.me with wait := none }
  | some kd =>
    let old := s.me.wait
    let a := getF m 0x58 8
    let v := getF m 0x60 8
    let dl := getF m 0x50 8
    let timed := match kd with | .waitf | .waitfT => true | _ => false
    let (tag, l) := match kd with | .bar => (0, s.me) | _ => s.me.waitTag m
    let val := match kd with | .waitf | .waitfT => v % 2 ^ 62 | .ringGet => a | _ => v
    let s := (s.setMe { l with wait := none }).startWait kd (BitVec.ofNat 64 a) (BitVec.ofNat 64 val)
      (if timed then BitVec.ofNat 2 (v / 2 ^ 62) else 0) loc (if dl = 0 then none else some (dl + s.myCore.resetCycle)) tag
    match old with
    | some w => if w.kind = kd && w.addr.toNat = a then s.setMe { s.me with wait := some w } else s
    | none => s

/-- CTX.RESTORE (17 R452).  A WM whose routine in the frame finds it taken makes the sections unfit: MISMATCH; a wait whose word the task may
not wait for gives PERM. -/
def execCtxRestore (h : Hdr) (f : FmtRR) (s : State) : Host.Outcome State Fault Refusal :=
  runSys h s notT fun s =>
    let a := (readSpec s.me f.a).toNat
    if a % 256 ≠ 0 then s.ctxStatus f 1
    else match s.ctxHeld .load a 4096 with
      | some (x, s) => .walk x .load s
      | none =>
      match s.ctxAccess .load a 4096 16 with
      | none => s.ctxStatus f 3
      | some (segs, s') =>
        if runsBad s' segs then s.ctxStatus f 4
        else
          let head := Memory.write [] 0 (readOwns s' segs).1
          if checkFrame head s.me.id = some .bad then s.ctxStatus f 1
          else
            let n := frameSize (getF head 2 2)
            match s.ctxHeld .load a n with
            | some (x, s) => .walk x .load s
            | none =>
            match s.ctxAccess .load a n 16 with
            | none => s.ctxStatus f 3
            | some (segs, s') =>
              if runsBad s' segs then s.ctxStatus f 4
              else
                let (bs, s') := readOwns s' segs
                let m := Memory.write [] 0 bs
                match checkFrame m s.me.id with
                | some .bad => s.ctxStatus f 1
                | some .mismatch => s.ctxStatus f 2
                | none =>
                  let c := s'.myCore.dropRoutines s.me.id
                  if (List.range 4).any fun u => frameRoutine m u ≠ 0 && !c.wmFree u then s.ctxStatus f 2
                  else match (s'.setMyCore c).waitPlace m with
                    | none => s.ctxStatus f 3
                    | some (loc, s') =>
                      ((restoreFrame (s'.noteRange a segs) s.cur.1 s.cur.2 m none).restoreWait m loc).ctxStatus f 0
where
  runsBad (s : State) (segs : List Seg) : Bool := segs.any (segPoison s)

/-! ### Walks (17 R439, 19 R488, R492) -/

/-- Whether the walk of a slot runs: a die runs up to 128 at once, and misses beyond that wait in arrival order (19 R488); those of one
cycle in the order of core and slot. -/
def State.walkRuns (s : State) (core slot : Nat) (w : Walk) : Bool :=
  let ahead := s.cores.flatMap fun x => if coreDie x.1 = coreDie core then
      x.2.slots.filter fun y => match y.2.walk with
        | some z => z.since < w.since || (z.since = w.since && (x.1 < core || (x.1 = core && y.1 < slot)))
        | none => false
    else []
  ahead.length < 128

/-- The group that waited for a walk issues its remaining words again (17 R439). -/
def State.walkDone (s : State) (core slot : Nat) : State :=
  let l := s.slot core slot
  match l.grp with
  | some g =>
    let i := ((List.range g.words.length).find? fun i => !g.perf.getLsbD i).getD 0
    s.setSlot core slot { l with grp := some { g with walks := false, reissue := true, idx := i, checked := g.rptCount ≠ 0 } }
  | none => s

/-- Whether an address lies in the pod window: a word there waits for a host copy only, and no walk fails it (03 R70; 21 R539). -/
def inPod (a : Nat) : Bool := match winOf a with | some (.pod _ _, _) => true | _ => false

/-- Whether the word that waits for a walk is a CTX, which no walk makes fault (17 R452). -/
def Slot.atCtx (l : Slot) : Bool :=
  match l.grp with
  | some g => (match decodeWord (g.words.getD g.idx 0) with | .ok (.ctxSave _ _) | .ok (.ctxRestore _ _) => true | _ => false)
  | none => false

/-- PAGE_WALK_COMPLETE: the walk that a slot waits for ends, if it runs.  The word is issued again under the rule of RFT, or its trap is
raised; for PAGE_NOT_PRESENT and OWNERSHIP a fault record is written first.  A deferred trap that fell due meanwhile is taken with
it, and the word's own fault then comes again as it is issued again (17 R443). -/
def execPageWalkComplete (core slot : Nat) (s : State) : Host.Outcome State Fault Refusal :=
  .next <|
    let l := s.slot core slot
    match l.walk with
    | none => s
    | some w =>
      if !s.walkRuns core slot w then s else
      let old := s.cur
      let k : Acc := { rd := !w.write || w.atomic, wr := w.write, atom := w.atomic, fetch := w.fetch }
      let g := s.agent core slot 0
      let quiet := s.setSlot core slot { l with walk := none }
      let raise (c : Cause) (acc : Nat) (s : State) : State :=
        let s := { s with cur := (core, slot) }
        let due := l.group.defer
        let s := if (c = .pageNotPresent || c = .ownership) && due.isEmpty then
            s.faultRecord g.part w.addr l.id.recAddr g.ctx c.code.toNat acc 0 (coreDie core) core else s
        let t : Trap := ⟨c, w.addr, w.wpc⟩
        let s := if w.fetch then
            let l := s.me
            (s.setMe { l with rpl := if l.level = .t then { l.rpl with valid := false } else l.rpl }).takeTrap t .g l.pc
          else s.closeBroken { s.me.group with walks := false, trap := some t, defer := [] } due
        { s with cur := old }
      if inPod w.addr.toNat then quiet.walkDone core slot
      else match walkInstall quiet g w.addr.toNat k with
      | .ok _ s => s.walkDone core slot
      | .absent f s => if l.atCtx then quiet.walkDone core slot else raise .pageNotPresent (accessCode k f) s
      | .fault c => if l.atCtx then quiet.walkDone core slot else raise c (accessCode k ⟨false, false⟩) quiet
      | .miss s => s

/-! ### Results that land while no group issues (06 R178, R181) -/

/-- RESULT_LANDING: a cycle passes of a slot that waits for its results in flight; those whose count is out land. -/
def execResultLanding (core slot : Nat) (s : State) : Host.Outcome State Fault Refusal :=
  .next <|
    let l := s.slot core slot
    if !s.drains core slot then s
    else
      let (l', ts) := l.endCycle
      let s := (s.setSlot core slot l').tick
      let o : Owner := ⟨core, slot, l.id.recAddr, l.id.seq, l.level⟩
      ts.foldl (fun s t => s.deferTrap o t) s

/-! ### The fault queue's registers (19 R493) -/

/-- A write to HEAD of FLTQPTR (19 R493). -/
def execFltqptrHeadWrite (part : Nat) (value : BitVec 32) (s : State) : Host.Outcome State Fault Refusal :=
  .next (s.setHead part value)
/-- A write to FLTQBASE (19 R493). -/
def execFltqbaseWrite (part : Nat) (value : BitVec 64) (s : State) : Host.Outcome State Fault Refusal :=
  .next (s.setFltq part value)

end Machine
end Sys2Proof
end

