-- ==== Sys2Proof/Machine/March.lean ====
section
/-! DEFINITION. March: placement, dispatch, pre-emption, parking's end and the killing of a launch (18; 02 R31 to R36, R51 to
R58; 13 R385). -/

namespace Sys2Proof
namespace Machine

/-! ### What a core holds (02 R45; 03 R62, R71; 10 R322) -/

/-- The tasks resident on a core. -/
def Core.resident (c : Core) : List (Nat × Slot) := c.slots.filter fun x => x.1 < 4 && x.2.st ≠ .empty

/-- Whether a slot is held for a continuation of a co-resident gang (09 R295). -/
def State.heldSlot (s : State) (c k : Nat) : Bool := (s.die (coreDie c)).recs.any fun r => r.held = some (c, k)

def State.freeSlots (s : State) (c : Nat) : List Nat :=
  (List.range 4).filter fun k => (s.slot c k).st = .empty && !s.heldSlot c k

def State.occupied (s : State) (c : Nat) : Nat := 4 - (s.freeSlots c).length

/-- Whether March may place work of a partition on a core. -/
def State.coreOpen (s : State) (c part : Nat) : Bool :=
  let b := s.block (coreBlock c)
  b.owner = some part && !b.fenced && !(s.core c).fenced && !(s.die (coreDie c)).fenced

/-- The sum of a count over the headers of a core's tasks. -/
def Core.sum (c : Core) (f : Header → Nat) : Nat := c.resident.foldl (fun n x => n + f x.2.id.hdr) 0

/-- The declared registers of more tasks stay within the core's (02 R45). -/
def Core.fitsFiles (c : Core) (hs : List Header) : Bool :=
  let all (f : Header → Nat) : Nat := hs.foldl (fun n h => n + f h) (c.sum f)
  all Header.nw ≤ 8 && all Header.nacc ≤ 4 && all Header.nta ≤ 4 && all Header.nrh ≤ 32

/-- The lowest number that a rule picks. -/
def lowest (l : List Nat) : Option Nat := l.foldl (fun b x => match b with | some y => some (min x y) | none => some x) none

/-- The lowest multiple of 8 KiB at which a region fits (18 R463). -/
def Core.regionBase (c : Core) (size : Nat) : Option Nat :=
  lowest ((0 :: c.regions.map fun r => (r.base + r.size + 8191) / 8192 * 8192).filter fun b =>
    b + size ≤ 8388608 && c.regions.all fun r => b + size ≤ r.base || r.base + r.size ≤ b)

/-- A routine store holds one image at a time (10 R322).  Two tasks run the same image where their partition and the address of
their kernel's header are the same, whatever their launch and context: DESIGN CHOICE, the manual does not say what makes images
the same. -/
def Core.routinesFit (c : Core) (xs : List Launch) : Bool :=
  let here := (c.resident.filter fun y => y.2.id.hdr.routLen ≠ 0).map fun y => (y.2.id.part, y.2.id.kernel)
  let new := (xs.filter fun x => x.hdr.routLen ≠ 0).map fun x => (x.part, x.kernel)
  new.all fun a => (here ++ new).all (· = a)

/-- A core takes more tasks of a launch, each with the launch as its own record gives it (`taskLaunch`), slots apart (18 R463). -/
def State.coreFits (s : State) (c : Nat) (x : Launch) (ys : List Launch) : Bool :=
  let co := s.core c
  s.coreOpen c x.part && co.fitsFiles (ys.map fun y => y.hdr) &&
  ((co.region x.handle).isSome || (co.regionBase x.hdr.scratch).isSome) && co.routinesFit ys

/-- The launch of a record, with the kernel that its record names (02 Table 2-2): where that is another than the launch's, with its
header, but the launch's region and barriers; none where no good header stands there. -/
def taskLaunch (x : Launch) (r : TRec) : Option Launch :=
  match r.hdr with
  | none => some x
  | some none => none
  | some (some h) => some { x with kernel := r.kernel, hdr := { h with scratch := x.hdr.scratch, nbar := x.hdr.nbar } }

/-- The same for placing it: a record whose kernel has no good header goes where the launch's would, to be refused there. -/
def asPlaced (x : Launch) (r : TRec) : Launch := (taskLaunch x r).getD x

/-- The lowest base at which a range lies clear of others (03 R62). -/
def lowestGap (used : List (Nat × Nat)) (n : Nat) : Nat :=
  (lowest ((0 :: used.map fun u => u.1 + u.2).filter fun b => used.all fun u => b + n ≤ u.1 || u.1 + u.2 ≤ b)).getD 0

/-! ### Region slots (13 R385) -/

/-- A region slot as it is bound: INVALID, with CTL and THRESH from its table entry. -/
def newRslot (x : Launch) (r : Nat) (bs : List Byte) : RSlot :=
  let f := recF bs
  let regs (o n : Nat) : List (BitVec 8) := (List.range n).map fun i => BitVec.ofNat 8 (f (o + i) 1)
  ({ part := x.part, kernel := x.kernel, region := r, state := 0, bpc := f 0 4, epc := f 4 4, nin := f 8 1, nout := f 9 1,
     hid := f 0xA 1, inreg := regs 0x18 (f 8 1), outreg := regs 0x28 (f 9 1), batch := 0, lr := 0, samp := 0, thresh := 0,
     weights := [], buffer := [], window := [], exec := 0, subst := 0, ctxs := [x.job], table := bs, gen := 0 } : RSlot).invalidate

/-- A slot for a region: its own, a free one, or one whose launches have all completed. -/
def State.bindRegion (s : State) (b : Nat) (x : Launch) (r : Nat) (bs : List Byte) : Option State :=
  let bl := s.block b
  let mine (y : RSlot) : Bool := y.part = x.part && y.kernel = x.kernel && y.region = r
  if bl.eqx.any fun y => mine y.2 then
    some (s.setBlock b { bl with eqx := bl.eqx.map fun (i, y) => (i, if mine y then { y with ctxs := insertNat x.job y.ctxs } else y) })
  else
    let idle (y : RSlot) : Bool := !s.launches.any fun z => !z.completed && z.part = y.part && z.kernel = y.kernel
    let pick := ((List.range 16).find? fun i => (Sparse.find bl.eqx i).isNone).orElse fun _ =>
      (bl.eqx.find? fun y => idle y.2).map (·.1)
    pick.map fun i => s.setBlock b { bl with eqx := Sparse.put bl.eqx i (newRslot x r bs) }

/-- Slots for every region of a launch's kernel on a block. -/
def State.bindRegions (s : State) (b : Nat) (x : Launch) : Option State :=
  if x.hdr.napx = 0 then some s
  else match s.regionTable x.part x.job x.kernel x.hdr with
    | none => none
    | some t => (t.zipIdx).foldl (fun o (bs, r) => o.bind fun s => s.bindRegion b x r bs) (some s)

/-! ### Where a task can go (18 R462 to R465) -/

/-- Inserts by a key, before the first greater one. -/
def insertKey (key : Nat → Nat) (x : Nat) : List Nat → List Nat
  | [] => [x]
  | y :: r => if key x < key y then x :: y :: r else y :: insertKey key x r
def sortKey (key : Nat → Nat) (l : List Nat) : List Nat := l.foldr (insertKey key) []

/-- The first core of the preferred pair on a die (18 R462). -/
def State.prefCore (s : State) (d : Nat) (x : Launch) (aff : Word) : Option Nat :=
  if x.noaff then none
  else match s.pairOf x.part x.job aff with
    | some (e, b, p) => if e = d then some ((16 * d + b) * 8 + 2 * p) else none
    | none => none

/-- The cores of a die in the order of R463: the preferred pair, the rest of its block, the other cores. -/
def State.coreOrder (s : State) (d : Nat) (pref : Option Nat) : List Nat :=
  let all := (List.range 128).map (· + 128 * d)
  let near (c : Nat) : Nat := s.occupied c * 1024 + c
  let block (c : Nat) : Nat := (List.range 8).foldl (fun n i => n + s.occupied (c / 8 * 8 + i)) 0
  let far (c : Nat) : Nat := block c * 8192 + near c
  match pref with
  | none => sortKey far all
  | some p =>
    let b := all.filter fun c => c / 8 = p / 8
    sortKey near (b.filter fun c => c / 2 = p / 2) ++ sortKey near (b.filter fun c => c / 2 ≠ p / 2) ++
      sortKey far (all.filter fun c => c / 8 ≠ p / 8)

/-- Whether a core is reserved for other work (18 R465). -/
def State.reserved (s : State) (d seq c : Nat) : Bool :=
  match (s.die d).reserve with
  | some (q, .block b) => q ≠ seq && coreBlock c = b
  | some (q, .core x) => q ≠ seq && c = x
  | none => false

/-- The block on which the gang of a task that is no member of a co-resident gang is fixed (18 R464). -/
def State.fixedBlock (s : State) (d : Nat) (r : TRec) : Option Nat :=
  if !r.member then none
  else ((s.die d).gangBlock.find? fun g => g.1 = (r.handle, (s.gangOf r.part r.handle r.coord).1)).map (·.2)

/-- The records of a gang. -/
def State.gangRecs (s : State) (d : Nat) (r : TRec) : List TRec :=
  let g := (s.gangOf r.part r.handle r.coord).1
  (s.die d).recs.filter fun y => y.member && y.part = r.part && y.handle = r.handle && (s.gangOf y.part y.handle y.coord).1 = g

def memberNo (r : TRec) : Nat := r.coord.toNat % 32

/-- The first core of the preferred pair of a gang's task 0 (02 R51): by its record's AFFINITY as it stands, and by the descriptor's
where task 0 has ended. -/
def State.gangPref (s : State) (d : Nat) (x : Launch) (r : TRec) : Option Nat :=
  s.prefCore d x (match (s.gangRecs d r).find? fun y => memberNo y = 0 with
    | some y => (s.takeCopy y).affinity
    | none => x.affBase + BitVec.ofNat 64 (s.gangOf r.part r.handle r.coord).1 * x.affG)

/-- The cores for a task in its order of preference (18 R463, R464). -/
def State.taskCores (s : State) (d : Nat) (x : Launch) (r : TRec) : List Nat :=
  let pref := s.prefCore d x r.affinity
  let inBlock (b : Nat) : List Nat :=
    (s.coreOrder d (match pref with | some p => if p / 8 = b then pref else none | none => none)).filter fun c => c / 8 = b
  match s.fixedBlock d r with
  | some b => inBlock b
  | none =>
    let home := if r.member then s.gangPref d x r else none
    (match home with | some p => inBlock (p / 8) | none => []) ++ s.coreOrder d pref

/-- Whether a core can take back the routines of a context in a frame: its WMs run none, and its sparsity queues are empty (10
R325). -/
def Core.takesRoutines (c : Core) (r : TRec) : Bool :=
  r.cell.isNone || r.side.order.isEmpty ||
    (c.sq.all (fun q => q.2.isEmpty) && r.side.order.all fun x =>
      let w : Wm := Sparse.get {} c.wms (x.1 / 2)
      w.run.isNone && w.pend.isNone)

/-- The slot in which a task of a co-resident gang finds its continuation's place, or the first free slot of the first core that
takes it, with its region slots bound. -/
def State.placeFor (s : State) (d : Nat) (x : Launch) (r : TRec) : Option (Nat × Nat × State) :=
  let y := asPlaced x r
  match r.held with
  | some (c, k) =>
    if s.coreFits c x [y] && !s.reserved d r.seq c then (s.bindRegions (coreBlock c) y).map fun s => (c, k, s) else none
  | none =>
    (s.taskCores d x r).findSome? fun c =>
      match s.freeSlots c with
      | k :: _ =>
        if s.coreFits c x [y] && (s.core c).takesRoutines r && !s.reserved d r.seq c then (s.bindRegions (coreBlock c) y).map fun s => (c, k, s)
        else none
      | [] => none

/-! ### Dispatch (02 R31 to R34; 17 R451) -/

/-- Names in LIVE slots are well formed, aligned, declared, and none repeats (02 R30, R31). -/
def namesOk (h : Header) (bs : List Byte) : Bool :=
  let slots := (List.range 16).filter (recLive bs)
  let heads := slots.filter fun i => !recCovered bs i
  let declared (r : RegRef) : Bool := match r with
    | .s i => i < h.ns | .q i => i < h.nq | .v _ i => i < h.nv | .vq _ i => i < h.nvq | _ => false
  let whole (i : Nat) : Bool := i % 8 = 0 && (List.range 8).all fun j => recLive bs (i + j) && (j = 0 || recName bs (i + j) = 0)
  heads.all (fun i => match nameReg (recName bs i) with
    | some (r, n) => declared r && (n = 1 || whole i)
    | none => false) &&
  decide ((heads.map (recName bs)).eraseDups.length = heads.length)

/-- The checks of a record at its dispatch (02 R31). -/
def recordOk (h : Header) (bs : List Byte) : Bool := recVer bs = 1 && recState bs < 8 && namesOk h bs

/-- A record of March ends in ERROR without a slot. -/
def State.failRec (s : State) (d : Nat) (r : TRec) (err : Nat) : State :=
  let ctx := s.jobOf r.part r.handle
  let s := if r.st = .pending then s.marchWrite r.part ctx r.addr.toNat (bytesOfNat 8 (recHdr r.handle r.prio 7 r.cont))
    else s.exactRec r .error
  let s := match r.cell with | some i => s.freeCellOf d r.part i | none => s
  let x := s.die d
  let s := s.setDie d { x with recs := x.recs.filter fun y => y.seq ≠ r.seq }
  let s := (s.launchErr r.part r.handle err).updLaunch r.part r.handle fun x => { x with live := x.live - 1 }
  s.memberGone r.part r.handle r.coord r.member false

/-- The launch's region on a core, zeroed and EMPTY where March allocates it now (03 R71). -/
def State.giveRegion (s : State) (c : Nat) (x : Launch) : State :=
  let co := s.core c
  if (co.region x.handle).isSome then s
  else match co.regionBase x.hdr.scratch with
    | none => s
    | some b =>
      s.setCore c { co with scr := Sparse.clear co.scr b x.hdr.scratch, lines := Sparse.clear co.lines (b / 128) (x.hdr.scratch / 128),
                            regions := co.regions ++ [⟨x.handle, b, x.hdr.scratch⟩] }

/-- Who the task of a record is, with ranges of the per-core files that no task on the core has (03 R62). -/
def State.newId (s : State) (c : Nat) (x : Launch) (r : TRec) : TaskId :=
  let ids := ((s.core c).slots.filter fun y => y.2.st ≠ .empty).map fun y => y.2.id
  { recAddr := r.addr, kernel := x.kernel, part := r.part, handle := r.handle, coord := r.coord, affinity := r.affinity,
    prio := r.prio, member := r.member, w0 := lowestGap (ids.map fun i => (i.w0, i.hdr.nw)) x.hdr.nw,
    acc0 := lowestGap (ids.map fun i => (i.acc0, i.hdr.nacc)) x.hdr.nacc,
    ta0 := lowestGap (ids.map fun i => (i.ta0, i.hdr.nta)) x.hdr.nta,
    rh0 := lowestGap (ids.map fun i => (i.rh0, i.hdr.nrh)) x.hdr.nrh, seq := r.seq, hdr := x.hdr }

/-- The ranges of a task read zero, its tiles as WCLR leaves them (02 R33). -/
def State.clearRanges (s : State) (c : Nat) (i : TaskId) : State :=
  let co := s.core c
  s.setCore c { co with w := Sparse.clear co.w (96 * i.w0) (96 * i.hdr.nw), acc := Sparse.clear co.acc (192 * i.acc0) (192 * i.hdr.nacc),
                        ta := Sparse.clear co.ta i.ta0 i.hdr.nta, rh := Sparse.clear co.rh i.rh0 i.hdr.nrh }

/-- The context of a first dispatch (02 R33, R34). -/
def freshSlot (id : TaskId) (r : TRec) : Slot :=
  let f := recF r.copy
  let l : Slot :=
    { st := .running, id := id, codeBase := id.kernel + 128, pc := BitVec.ofNat 32 (f 0x20 4),
      tb := { fpc := BitVec.ofNat 32 (f 0x38 4) &&& fpcMask }, csr := { ctxstat := if r.cont then csMoved else 0 } }
  if r.cont then
    (liveRegs r.copy).foldl (fun l (i, x) =>
      match x with
      | .v cm _ | .vq cm _ =>
        writeRef l .t 0xFFFF (placeVec ((clusters cm).headD 0 + 1) (BitVec.ofNat 512 (f (0x80 + 8 * i) 64))) x
      | _ => writeRef l .t 0xFFFF (BitVec.ofNat 4096 (f (0x80 + 8 * i) 8)) x) l
  else l.wrS .t 1 (BitVec.ofNat 64 (f 0x28 8))

/-- A task at level T goes on in its slot: a held trap is raised, or the buffered group is issued again, or issue continues
(17 R446). -/
def State.goOn (s : State) (c k : Nat) : State :=
  let l := s.slot c k
  if l.level ≠ .t then s
  else
    let old := s.cur
    let s := { s with cur := (c, k) }
    let s := match l.csr.unhold with
      | some (t, csr) => (s.setMe { l with csr := csr }).takeTrap t .f l.pc
      | none => s.setMe (l.resumeAt l.pc)
    { s with cur := old }

/-- The frame of a record, where it can be read and passes the checks of R451. -/
def State.frameOf (s : State) (d : Nat) (r : TRec) (i : Nat) : Option Mem :=
  let a := cellAddr ((s.die d).march r.part) i
  let ctx := s.jobOf r.part r.handle
  match s.marchRead r.part ctx a 4096 with
  | none => none
  | some hb =>
    let head := Memory.write [] 0 hb
    let p := getF head 2 2
    if getF head 0 2 ≠ 1 || 2 ^ 11 ≤ p || p % 4 ≠ 3 || getF head 4 4 ≠ frameSize p then none
    else (s.marchRead r.part ctx a (frameSize p)).map fun bs => Memory.write [] 0 bs

/-- The record is in a slot from now on. -/
def State.seat (s : State) (d : Nat) (r : TRec) (c k : Nat) (st : TState) : State :=
  s.updRec d r.seq fun y => { y with st := st, place := some (c, k), cell := none, held := none, wait := none, side := {},
                                     inSram := false, dispAt := s.cycle }

/-- A record that is READY, or WAITING with its gang, takes a slot: its frame is restored, or its record is checked and its
first context made; a refused one goes to ERROR. -/
def State.dispatchTo (s : State) (d : Nat) (launch : Launch) (r : TRec) (c k : Nat) : State :=
  let x := asPlaced launch r
  match r.cell with
  | some i =>
    let s := s.marchLook r.part launch.job (cellAddr ((s.die d).march r.part) i) 458752
    (match s.frameOf d r i with
    | none => s.failRec d r 0
    | some m =>
      let s := s.giveRegion c x
      let id := s.newId c x r
      let s := (s.clearRanges c id).setSlot c k { st := r.st, id := id, codeBase := x.kernel + 128, wait := r.wait }
      let s := restoreFrame s c k m (some r.side)
      let st := if r.st = .waiting then .waiting else .running
      let s := (s.setSlot c k { s.slot c k with st := st, notBefore := s.cycle + 8 }).freeCellOf d r.part i
      let s := (s.seat d r c k st).bindRecords c r.part r.handle x.job x.hdr.scratch r.coord
      if st = .running then s.goOn c k else s)
  | none =>
    if (taskLaunch launch r).isNone || !recordOk x.hdr r.copy then s.failRec d r 1
    else
      let s := s.giveRegion c x
      let id := s.newId c x r
      let s := (s.clearRanges c id).setSlot c k { freshSlot id r with notBefore := s.cycle + 8 }
      (s.seat d r c k .running).bindRecords c r.part r.handle x.job x.hdr.scratch r.coord

/-! ### Gangs (02 R52 to R54; 18 R464, R472) -/

/-- A co-resident gang that is out of its slots can be dispatched: every member is READY or WAITING; a continuation that is not
readied counts as WAITING (09 R295; 18 R472). -/
def gangReady (rs : List TRec) : Bool :=
  rs.all fun r => r.place.isNone && (r.st = .ready || (r.st = .waiting && r.cell.isSome) || (r.st = .pending && r.cont))

/-- The member by which the gang stands in the queue: task 0, or the lowest number of those that have not ended (02 R54). -/
def gangLead (rs : List TRec) : Option TRec :=
  rs.foldl (fun b r => match b with
    | some y => if memberNo r < memberNo y then some r else b | none => some r) none

/-- The barriers that stand on a block. -/
def Block.barriers (b : Block) : Nat := b.gangs.foldl (fun n g => if g.away then n else n + g.nbar) 0

/-- Slots for the members of a gang on a block, member t on core t mod 8. -/
def State.gangSlots (s : State) (d b seq : Nat) (x : Launch) (rs : List TRec) : Option (List (TRec × Nat × Nat)) :=
  let on (i : Nat) : List TRec := rs.filter fun r => memberNo r % 8 = i
  let core (i : Nat) : Option (List (TRec × Nat × Nat)) :=
    let c := 8 * b + i
    let ms := on i
    let ks := s.freeSlots c
    if ms.isEmpty then some []
    else if s.coreFits c x (ms.map (asPlaced x)) && ms.length ≤ ks.length && ms.all (s.core c).takesRoutines && !s.reserved d seq c
      then some ((ms.zip ks).map fun (r, k) => (r, c, k)) else none
  if 16 < (s.block b).barriers + x.hdr.nbar then none
  else (List.range 8).foldl (fun o i => o.bind fun l => (core i).map fun m => l ++ m) (some [])

/-- The block of a whole gang: that of task 0's preferred pair, else the lowest on which all of it fits (18 R464). -/
def State.gangPlace (s : State) (d : Nat) (x : Launch) (lead : TRec) (rs : List TRec) :
    Option (Nat × List (TRec × Nat × Nat) × State) :=
  let home := s.gangPref d x lead
  let bs := (match home with | some p => [p / 8] | none => []) ++ (List.range 16).map (· + 16 * d)
  bs.findSome? fun b =>
    match s.gangSlots d b lead.seq x rs with
    | some l => (rs.foldl (fun o r => o.bind fun s => s.bindRegions b (asPlaced x r)) (some s)).map fun s => (b, l, s)
    | none => none

/-- The gang's barriers stand on a block: made new, or brought back (09 R297). -/
def State.seatGang (s : State) (b : Nat) (x : Launch) (lead : TRec) (rs : List TRec) : State :=
  let g := (s.gangOf lead.part lead.handle lead.coord).1
  let old := s.gangHome lead.part lead.handle g
  let s := match old with
    | some (b', _) =>
      let bl := s.block b'
      s.setBlock b' { bl with gangs := bl.gangs.filter fun y => !(y.part = lead.part && y.handle = lead.handle && y.index = g) }
    | none => s
  let lost := (List.range x.gangSz).filter fun m => !rs.any fun r => memberNo r = m
  let new : Gang := match old with
    | some (_, y) => { y with away := false }
    | none => { part := lead.part, handle := lead.handle, index := g, size := x.gangSz, nbar := x.hdr.nbar, done := [], bars := [], lost := lost }
  let bl := s.block b
  s.setBlock b { bl with gangs := bl.gangs ++ [new] }

/-- A gang is dispatched whole. -/
def State.dispatchGang (s : State) (d b : Nat) (x : Launch) (lead : TRec) (l : List (TRec × Nat × Nat)) : State :=
  let s := s.seatGang b x lead (l.map (·.1))
  l.foldl (fun s (r, c, k) =>
    if r.st = .pending then s.updRec d r.seq fun y => { y with held := some (c, k) } else s.dispatchTo d x r c k) s

/-! ### The order of the work (18 R459, R460) -/

/-- A unit of work: a record, or a co-resident gang by its lead. -/
structure Work where
  lead : TRec
  gang : Bool
  deriving DecidableEq, Repr

/-- The READY work of a die: records in their slots that have not landed, records to be placed, and gangs that are ready whole. -/
def State.works (s : State) (d : Nat) : List Work :=
  (s.die d).recs.filterMap fun r =>
    match r.place with
    | some (c, k) => if r.st ≠ .ready || (s.slot c k).pre.any fun p => p.landed then none else some ⟨r, false⟩
    | none =>
      if s.coresident r.part r.handle r.member && r.held.isNone then
        let rs := s.gangRecs d r
        if gangReady rs && gangLead rs = some r && (rs.any fun y => y.st = .ready || y.cell.isSome) then some ⟨r, true⟩ else none
      else if r.st = .ready then some ⟨r, false⟩ else none

/-- Effective priority descending, arrival ascending, record address ascending (18 R460). -/
def State.before (s : State) (a b : Work) : Bool :=
  let p := s.effPrio a.lead
  let q := s.effPrio b.lead
  let t := s.arrivedAt a.lead
  let u := s.arrivedAt b.lead
  q < p || (p = q && (t < u || (t = u && a.lead.addr.toNat < b.lead.addr.toNat)))

def State.insertWork (s : State) (x : Work) : List Work → List Work
  | [] => [x]
  | y :: r => if s.before x y then x :: y :: r else y :: s.insertWork x r

def State.workOrder (s : State) (d : Nat) : List Work := (s.works d).foldr s.insertWork []

/-- Dispatches a unit of work if it can be placed. -/
def State.tryWork (s : State) (d : Nat) (w : Work) : Option State :=
  let r := w.lead
  let done (s : State) : State :=
    let x := s.die d
    if x.reserve.any fun y => y.1 = r.seq then s.setDie d { x with reserve := none } else s
  match r.place, s.launch? r.part r.handle with
  | some (c, k), x =>
    if s.reserved d r.seq c then none
    else
      let s := s.setSlot c k { s.slot c k with st := .running, notBefore := s.cycle + 8 }
      let s := s.updRec d r.seq fun y => { y with st := .running, inSram := false, dispAt := s.cycle }
      let s := match x with
        | some x => s.bindRecords c r.part r.handle x.job x.hdr.scratch r.coord
        | none => s
      some ((done s).goOn c k)
  | none, none => none
  | none, some x =>
    if w.gang then
      (s.gangPlace d x r (s.gangRecs d r)).map fun (b, l, s) => done (s.dispatchGang d b x r l)
    else
      (s.placeFor d x r).map fun (c, k, s) =>
        let y := s.die d
        let g := (s.gangOf r.part r.handle r.coord).1
        let s := if r.member && !s.coresident r.part r.handle r.member && (s.fixedBlock d r).isNone then
            s.setDie d { y with gangBlock := y.gangBlock ++ [((r.handle, g), coreBlock c)] } else s
        done (s.dispatchTo d x r c k)

/-- The target reserved for work that is first and cannot be placed (18 R465). -/
def State.target (s : State) (d : Nat) (w : Work) : Option Target :=
  let r := w.lead
  match s.launch? r.part r.handle with
  | none => none
  | some x =>
    if w.gang then some (.block (match s.gangPref d x r with | some p => p / 8 | none => 16 * d))
    else match r.held with
      | some (c, _) => some (.core c)
      | none =>
        let y := asPlaced x r
        ((s.taskCores d x r).find? fun c => s.coreFits c x [y] && (s.bindRegions (coreBlock c) y).isSome).map Target.core

/-! ### Pre-emption and moving out (18 R467, R469 to R472) -/

/-- The slots that hold the members of a co-resident gang. -/
def State.gangSeats (s : State) (d : Nat) (r : TRec) : List (TRec × Nat × Nat) :=
  (s.gangRecs d r).filterMap fun y => y.place.map fun (c, k) => (y, c, k)

/-- One slot's request: it counts from now while the slot is at level T and a cell is free; a member that is WAITING or PARKED
counts as landed (18 R470, R472). -/
def State.requestSlot (s : State) (c k : Nat) : State :=
  let l := s.slot c k
  if l.pre.isSome then s
  else
    let cell := (freeCell ((s.die (coreDie c)).march l.id.part)).isSome
    let p : PreReq := { count := 0, since := s.cycle, counting := l.level = .t && cell,
                        landed := l.level = .t && (l.st = .waiting || l.st = .parked) }
    s.setSlot c k { l with pre := some p }

/-- A pre-emption request on the task of a record (18 R469): every member of a co-resident gang. -/
def State.request (s : State) (d : Nat) (r : TRec) : State :=
  match r.place with
  | none => s
  | some (c, k) =>
    if r.st = .running || r.st = .ready then
      if s.coresident r.part r.handle r.member then (s.gangSeats d r).foldl (fun s (_, c, k) => s.requestSlot c k) s
      else s.requestSlot c k
    else s

/-- The resident records of a die that a rule picks, with their slots. -/
def State.residents (s : State) (d : Nat) (p : TRec → Slot → Bool) : List (TRec × Nat × Nat) :=
  (s.die d).recs.filterMap fun r => match r.place with
    | some (c, k) => if p r (s.slot c k) then some (r, c, k) else none
    | none => none

/-- The WAITING task that has waited longest among those that may be moved out (18 R467, R473). -/
def State.longestWait (s : State) (d part : Nat) : Option (Nat × Nat) :=
  if ((s.die d).march part).monovfcnt.toNat < (s.ovfUsed d part).length + 512 then none
  else
    let ws := s.residents d fun r l => r.part = part && r.st = .waiting && l.level = .t && l.wait.isSome &&
      !s.coresident r.part r.handle r.member
    (ws.foldl (fun (b : Option (Nat × Nat × Nat)) (_, c, k) =>
      if !s.settled c k then b
      else
        let t := match (s.slot c k).wait with | some w => w.since | none => 0
        match b with
        | some (_, _, u) => if t < u then some (c, k, t) else b
        | none => some (c, k, t)) none).map fun x => (x.1, x.2.1)

/-- The task that March pre-empts for work of an effective priority: of lowest PRIO, the most recently dispatched among equals
(18 R469). -/
def State.victim (s : State) (d part eff : Nat) : Option TRec :=
  let delta := ((s.die d).march part).pdelta.toNat
  if delta = 0 then none
  else
    ((s.residents d fun r l => r.part = part && (r.st = .running || r.st = .ready) && l.level = .t && l.pre.isNone &&
      r.prio + delta ≤ eff).foldl (fun (b : Option TRec) (r, _, _) =>
        match b with
        | some y => if r.prio < y.prio || (r.prio = y.prio && y.dispAt < r.dispAt) then some r else b
        | none => some r) none)

/-- March makes room for work that is first and cannot be placed (18 R467): it moves out a WAITING task, or requests a
pre-emption. -/
def State.makeRoom (s : State) (d : Nat) (w : Work) : State :=
  let part := w.lead.part
  match (s.longestWait d part).bind fun (c, k) => s.moveOut c k .waiting with
  | some s => s
  | none =>
    match s.victim d part (s.effPrio w.lead) with
    | some r => s.request d r
    | none => s

/-- One decision of a die: the first unit of work that can be placed is dispatched; for one that is first and cannot, a target is
reserved and room is made, and it is tried again before the work behind it. -/
def State.dieDecision (s : State) (die : Nat) : State :=
  let x := s.die die
  match s.workOrder die with
  | [] => if x.reserve.isSome then s.setDie die { x with reserve := none } else s
  | w :: rest =>
    let s := if x.reserve.any fun y => y.1 ≠ w.lead.seq then s.setDie die { x with reserve := none } else s
    match s.tryWork die w with
    | some s => s
    | none =>
      let s := match s.target die w with
        | some t => s.setDie die { s.die die with reserve := some (w.lead.seq, t) }
        | none => s
      let s := s.makeRoom die w
      ((w :: rest).findSome? fun v => s.tryWork die v).getD s

/-- DISPATCH_DECISION: at most one for each die and cycle (18 R461, R465, R467). -/
def execDispatchDecision (die : Nat) (s : State) : Host.Outcome State Fault Refusal :=
  .next <|
    if s.cycle < (s.die die).decided then s
    else
      let t := s.dieDecision die
      if t = s then s else t.setDie die { t.die die with decided := s.cycle + 1 }

/-- READY_RECORD_REFILL: a record that was written back comes back into the SRAM when space frees, the first of its queue
(18 R459). -/
def execReadyRecordRefill (die : Nat) (s : State) : Host.Outcome State Fault Refusal :=
  .next <|
    let rs := (s.die die).recs.filter fun r => r.st = .ready
    if 65536 ≤ (rs.filter fun r => r.inSram).length then s
    else match ((rs.filter fun r => !r.inSram).map fun r => (⟨r, false⟩ : Work)).foldr s.insertWork [] with
      | [] => s
      | w :: _ => s.updRec die w.lead.seq fun r => { r with inSram := true }

/-- PRIORITY_AGING: W of a READY record has reached a multiple of 2^20 that raises its level: it arrives there (18 R460). -/
def execPriorityAging (die : Nat) (rec : Nat) (s : State) : Host.Outcome State Fault Refusal :=
  .next <|
    match (s.die die).recs.find? fun r => r.seq = rec with
    | some r =>
      if r.st = .ready && r.arrival < s.arrivedAt r then s.updRec die rec fun r => { r with arrival := s.arrivedAt r } else s
    | none => s

/-- The registers of a die for a partition. -/
def State.updMarch (s : State) (d part : Nat) (f : MarchRegs → MarchRegs) : State :=
  s.setDie d ((s.die d).setMarch part (f ((s.die d).march part)))

/-- The record of a partition at an address on a die. -/
def State.dieRec (s : State) (d part : Nat) (a : Word) : Option TRec :=
  (s.die d).recs.find? fun r => r.addr = a && r.part = part

/-- PREEMPT (18 R469): the task is RUNNING or READY in its slot.  The register lies in the partition's control region, and `port` is the
function that writes it (21 R525). -/
def execPreempt (die part : Nat) (rec : BitVec 64) (s : State) (port : Nat := 0) : Host.Outcome State Fault Refusal :=
  .next <| s.regionWrite port part fun s =>
    let s := s.updMarch die part fun r => { r with preempt := rec }
    match s.dieRec die part rec with
    | some r => s.request die r
    | none => s

/-- PREEMPT_WINDOW_EXPIRY (18 R471): the window has passed without a point, and the task is at a group boundary: it is frozen. -/
def execPreemptWindowExpiry (core slot : Nat) (s : State) : Host.Outcome State Fault Refusal :=
  .next <|
    let l := s.slot core slot
    let edge := match l.grp with | none => true | some g => g.reissue && !g.checked
    match l.pre with
    | some p =>
      let win := ((s.die (coreDie core)).march l.id.part).pwin.toNat
      if !p.counting || p.landed || l.level ≠ .t || !edge || p.now s.cycle < win || !(l.st = .running || l.st = .ready) then s
      else if s.coresident l.id.part l.id.handle l.id.member || !s.settled core slot then
        (s.setSlot core slot { l with pre := some { p with landed := true } }).slotState core slot .ready
      else (s.moveOut core slot .ready).getD s
    | none => s

/-- A member of a gang goes to its frame (18 R472): that of a PARKED one takes the place of its copy. -/
def State.memberOut (s : State) (d : Nat) (r : TRec) (c k : Nat) : Option State :=
  let s := match r.cell with
    | some i => (s.freeCellOf d r.part i).updRec d r.seq fun y => { y with cell := none }
    | none => s
  s.moveOut c k r.st

/-- GANG_FRAME_WRITE (18 R472): every member has landed, is frozen, WAITING or PARKED: all frames are written and all slots freed
in the same step. -/
def execGangFrameWrite (die : Nat) (launch gang : Nat) (s : State) : Host.Outcome State Fault Refusal :=
  .next <|
    match (s.die die).recs.find? fun r =>
        r.member && r.handle = launch && (s.gangOf r.part r.handle r.coord).1 = gang && r.place.isSome with
    | none => s
    | some r =>
      let seats := s.gangSeats die r
      let asked := seats.any fun (_, c, k) => (s.slot c k).pre.isSome
      let still := seats.all fun (y, c, k) =>
        (s.slot c k).level = .t && (y.st = .waiting || y.st = .parked || (s.slot c k).pre.any fun p => p.landed)
      if !asked || !still || !s.coresident r.part r.handle r.member then s
      else
        let out := seats.foldl (fun o (y, c, k) => o.bind fun s => s.memberOut die y c k) (some s)
        match out with
        | none => s
        | some s =>
          let s := (s.gangRecs die r).foldl (fun s y => s.updRec die y.seq fun z =>
            if y.st = .ready then { z with held := none } else { z with held := none, since := s.cycle, arrival := s.cycle }) s
          (match s.gangHome r.part r.handle gang with
          | some (b, g) => s.setBlock b ((s.block b).updGang r.part r.handle gang fun _ => { g with away := true })
          | none => s)

/-- Whether a fault record of a task is held back, which it waits for (19 R493). -/
def State.taskRecordHeld (s : State) (part : Nat) (a : Word) : Bool :=
  (s.part part).held.any fun r => let f (o n : Nat) : Nat := natOfBytes ((r.bytes.drop o).take n)
    f 8 8 = a.toNat && f 0x14 1 = 0

/-- RESUME (18 R468): a PARKED task becomes READY, and EVTCNT rises; one whose fault record is held back stays waiting (19 R493). -/
def execResume (die part : Nat) (rec : BitVec 64) (s : State) (port : Nat := 0) : Host.Outcome State Fault Refusal :=
  .next <| s.regionWrite port part fun s =>
    let s := s.updMarch die part fun r => { r with resume := rec }
    match s.dieRec die part rec with
    | some r =>
      if r.st ≠ .parked || s.taskRecordHeld part rec then s
      else
        let s := match r.place, r.cell with
          | some (c, k), some i => ((s.freeCellOf die part i).updRec die r.seq fun y => { y with cell := none }).setSlot c k
              { s.slot c k with st := .ready, parks := false }
          | some (c, k), none => s.setSlot c k { s.slot c k with st := .ready, parks := false }
          | none, _ => s
        (s.readyRec die r.seq).raiseEvt die part
    | none => s

/-- Every record of a launch on a die goes to ERROR; tasks in slots end as HALT ends them; frames are freed (18 R475). -/
def State.killOn (s : State) (d part handle : Nat) : State :=
  let rs := (s.die d).recs.filter fun r => r.part = part && r.handle = handle
  let s := rs.foldl (fun s r =>
    let s := match r.place, r.cell with | some _, some i => s.freeCellOf d part i | _, _ => s
    match r.place with
    | some (c, k) => s.failTask c k
    | none => s.failRec d r 1) s
  s.updLaunch part handle fun x => { x with killed := insertNat d x.killed }

/-- LAUNCHKILL (18 R475). -/
def execLaunchkill (die part : Nat) (handle : BitVec 64) (s : State) (port : Nat := 0) : Host.Outcome State Fault Refusal :=
  .next <| s.regionWrite port part fun s =>
    let s := s.updMarch die part fun r => { r with launchkill := handle.setWidth 16 }
    s.killOn die part (handle.toNat % 65536)

end Machine
end Sys2Proof
end

