-- ==== Sys2Proof/Machine/Registers.lean ====
section
/-! DEFINITION. Resources that change owner (22 R549), the end of a partition's launches, and writes of registers through the
control plane (00 R6; 18 R476; 20 R522; 21 R525 to R529, R537; 22 R551). -/

namespace Sys2Proof
namespace Machine

/-! ### Zeroing (22 R549; 00 R7) -/

/-- A core as its resources are zeroed: scratchpad, line states, routine store, format tables, scale memories, sparsity queues,
register files and TLB.  Its fence, and the counts by which replies are known, stay. -/
def Core.zeroed (c : Core) : Core :=
  { resetCycle := c.resetCycle, fenced := c.fenced, halted := c.halted, nextCopy := c.nextCopy, nextRemote := c.nextRemote }

/-- A block with its cores, mailbox, counters, barriers and Equinox slots zeroed. -/
def State.zeroBlock (s : State) (b : Nat) : State :=
  let x := s.block b
  let s := s.setBlock b { owner := x.owner, fenced := x.fenced, august := x.august, nextQ := x.nextQ }
  (List.range 8).foldl (fun s i => s.setCore (8 * b + i) (s.core (8 * b + i)).zeroed) s

/-- A memory unit with zeros, and its extent. -/
def State.zeroUnit (s : State) (u : Nat) : State :=
  { s.zeroHbm (u * 2 ^ 30) (2 ^ 30) with host := { s.host with exts := Sparse.del s.host.exts u } }

/-- A partition's share of each Solstice. -/
def State.zeroShares (s : State) (part : Nat) : State :=
  let p := s.part part
  (List.range 8).foldl (fun s d =>
    let x := s.die d
    s.setDie d { x with sync := Sparse.clear x.sync (p.shareBase.getD d 0) (p.shareSize.getD d 0) }) s

/-- No translation of a partition is held any more. -/
def State.dropTlb (s : State) (part : Nat) : State :=
  { s with cores := s.cores.map fun (i, c) => (i, { c with tlb := c.tlb.filter fun e => e.part ≠ part }),
           dies := s.dies.map fun (i, d) => (i, { d with l2tlb := d.l2tlb.filter (fun e => e.part ≠ part),
                                                         wcache := d.wcache.filter fun e => e.part ≠ part }),
           host := { s.host with via := s.host.via.filter fun e => e.part ≠ part } }

/-- A die's Solstice SRAM and March registers. -/
def State.zeroDie (s : State) (d : Nat) : State :=
  let x := s.die d
  s.setDie d { x with sync := [], l2tlb := [], wcache := [], misses := [], regs := [], reserve := none, gangBlock := [] }

/-! ### Nothing in flight names a resource -/

/-- A core on which nothing runs. -/
def Core.quiet (c : Core) : Bool :=
  (c.slots.all fun x => 4 ≤ x.1 || x.2.st = .empty) && c.copies.isEmpty && c.acks = 0 && c.loading = 0 &&
  c.wms.all fun w => w.2.run.isNone && w.2.pend.isNone

/-- A block's egress has nothing to send. -/
def Block.quiet (b : Block) : Bool :=
  b.augQ.isEmpty && b.augSurplus.isEmpty && b.mbxSurplus.isEmpty && b.fired.isEmpty && b.mailbox.all fun e => match e with | .hw _ => false | .sw _ _ => true

/-- No word that is arriving has been let into a place that a rule picks. -/
def State.noArrival (s : State) (p : SegEnt → Bool) : Bool :=
  s.fab.rx.all fun x => x.2.cur.isEmpty || (match x.2.ent with | some e => !p e | none => true)

/-- No operation in flight names a core. -/
def State.coreQuiet (s : State) (c : Nat) : Bool :=
  (s.core c).quiet && s.noArrival (fun e => !e.hbm && e.tcore = c) &&
  s.sf.all fun x => match x.2.bound with | some (k, _, _) => k ≠ c || x.2.ended | none => true

/-- No operation in flight names a block or its cores. -/
def State.blockQuiet (s : State) (b : Nat) : Bool := (s.block b).quiet && (List.range 8).all fun i => s.coreQuiet (8 * b + i)

/-- No engine, port or base die of a partition is at work on memory. -/
def State.unitsQuiet (s : State) (part : Nat) : Bool :=
  s.noArrival (fun e => e.hbm && e.part = part) && (s.sf.all fun x => x.2.part ≠ part || !x.2.runs) &&
  s.blocks.all fun (b, x) => x.owner ≠ some part ||
    (x.quiet && (List.range 8).all fun i => let c := s.core (8 * b + i); c.copies.isEmpty && c.acks = 0 && c.loading = 0)

/-- No monitor watches a place in a memory unit. -/
def State.unwatched (s : State) (u : Nat) : Bool :=
  let there (w : Option Wait) : Bool := match w with
    | some x => (match x.loc with | .hbm a | .ext a => a / 2 ^ 30 = u | _ => false)
    | none => false
  (s.cores.all fun c => c.2.slots.all fun l => !there l.2.wait) && s.dies.all fun d => d.2.recs.all fun r => !there r.wait

/-- No operation in flight names a resource. -/
def State.quiet (s : State) : FenceUnit → Bool
  | .core c => s.coreQuiet c
  | .block b => s.blockQuiet b
  | .die d => (s.die d).recs.isEmpty && (List.range 16).all fun i => s.blockQuiet (16 * d + i)
  | .link l => (s.link l).pkts.isEmpty
  | .unit u => (match s.unitOwner u with | some p => s.unitsQuiet p | none => true) && (s.ext u).recalls.isEmpty && s.unwatched u

/-! ### Fences and the four steps of R549 -/

/-- The task of a slot goes to ERROR. -/
def State.dropTask (s : State) (c k : Nat) : State := if (s.slot c k).st = .empty then s else s.endTask c k .error

/-- Sets or lifts a fence. -/
def State.setFence (s : State) (on : Bool) : FenceUnit → State
  | .core c => s.setCore c { s.core c with fenced := on }
  | .block b => s.setBlock b { s.block b with fenced := on }
  | .die d => s.setDie d { s.die d with fenced := on }
  | .link l =>
    let x := s.link l
    let all := List.range (2 * x.ports.length)
    if on then s.fenceLink l
    else s.setLink l { (x.retrain s.cycle) with fenced := false, failures := 0, lanes := all, rxLanes := all }
  | .unit u =>
    { s with fw := { s.fw with unitFenced := if on then insertNat u s.fw.unitFenced else s.fw.unitFenced.filter (· ≠ u) } }

/-- A fence that an error, the boot sequence or a FENCE request sets: it stays until a FENCE request lifts it (22 R559). -/
def State.fence (s : State) (u : FenceUnit) : State :=
  let t := s.setFence true u
  if t.fw.kept.contains u then t else { t with fw := { t.fw with kept := t.fw.kept ++ [u] } }

/-- The tasks of a fenced core, block or die, and the records of a fenced die, go to ERROR (02 Table 2-1). -/
def State.fenceTasks (s : State) : FenceUnit → State
  | .core c => (List.range 4).foldl (fun s k => s.dropTask c k) s
  | .block b => (List.range 32).foldl (fun s i => s.dropTask (8 * b + i / 4) (i % 4)) s
  | .die d => (s.die d).recs.foldl (fun s r => match r.place with
      | some (c, k) => s.dropTask c k
      | none => s.failRec d r 0) s
  | _ => s

/-- Zeroes a resource. -/
def State.zero (s : State) : FenceUnit → State
  | .core c => s.setCore c (s.core c).zeroed
  | .block b => s.zeroBlock b
  | .die d => s.zeroDie d
  | .link _ => s
  | .unit u => s.zeroUnit u

/-- The owner of a block or unit. -/
def State.ownerOf (s : State) : FenceUnit → Option Nat
  | .block b => (s.block b).owner
  | .unit u => s.unitOwner u
  | _ => none

/-- A block or unit goes to the free pool. -/
def State.disown (s : State) : FenceUnit → State
  | .block b => s.setBlock b { s.block b with owner := none }
  | .unit u => (match s.unitOwner u with
    | some p => s.setPart p { s.part p with units := (s.part p).units.filter (· ≠ u) }
    | none => s)
  | _ => s

/-- A resource leaves its fence, to the free pool or not: fenced now, zeroed when it is quiet (22 R549). -/
def State.leave (s : State) (free : Bool) (u : FenceUnit) : State :=
  let s := match u with | .link _ => s | _ => s.setFence true u
  { s with fw := { s.fw with leaving := s.fw.leaving ++ [(u, free)] } }

/-- The fence that R549 set ends, but for one that an error, the boot sequence or a FENCE request has set and no FENCE request lifts (22
R559). -/
def State.unfence (s : State) (u : FenceUnit) : State :=
  if s.fw.kept.contains u && !s.fw.lifting.contains u then s
  else
    let t := s.setFence false u
    { t with fw := { t.fw with kept := t.fw.kept.filter (· ≠ u), lifting := t.fw.lifting.filter (· ≠ u) } }

/-- Steps 3 and 4 of R549 for one resource that is quiet. -/
def State.leaveOne (s : State) (x : FenceUnit × Bool) : State :=
  if s.quiet x.1 && s.fw.leaving.contains x then
    let s := match s.ownerOf x.1 with | some p => s.dropTlb p | none => s
    let s := (s.zero x.1).unfence x.1
    let s := if x.2 then s.disown x.1 else s
    { s with fw := { s.fw with leaving := s.fw.leaving.filter (· ≠ x) } }
  else s

/-- A queue interface of a partition is zeroed with it. -/
def State.zeroQifs (s : State) (part : Nat) : State :=
  { s with host := { s.host with qifs := s.host.qifs.filter fun x => qifPart x.2 ≠ part } }

/-- What else a partition owns: shares, flag window, queue interfaces, its registers, and the records of its launches. -/
def State.zeroPart (s : State) (part : Nat) : State :=
  let s := ((s.zeroShares part).dropTlb part).zeroQifs part
  { s with dies := s.dies.map fun (i, d) => (i, { d with regs := Sparse.del d.regs part }),
           sf := s.sf.filter fun x => x.2.part ≠ part,
           launches := s.launches.filter fun x => x.part ≠ part }

/-- A partition that is stopped keeps what ASSIGN gave it; one that is removed is gone. -/
def State.endPart (s : State) (part : Nat) (removed : Bool) : State :=
  let s := s.zeroPart part
  let p := s.part part
  if removed then { s with parts := Sparse.del s.parts part }
  else s.setPart part { port := p.port, units := p.units, shareBase := p.shareBase, shareSize := p.shareSize, errBase := p.errBase,
                        errCnt := p.errCnt, keyDigest := p.keyDigest, incarn := p.incarn, vf := p.vf, key := p.key }

/-- A launch of a partition is still in progress. -/
def State.inProgress (s : State) (part : Nat) : Bool := s.launches.any fun x => x.part = part && !x.completed

/-- Every launch of a partition ends, on every die (18 R475). -/
def State.killPart (s : State) (part : Nat) : State :=
  let hs := (s.launches.filter fun x => x.part = part && !x.completed).map (·.handle)
  hs.foldl (fun s h => ((List.range 8).foldl (fun s d => s.killOn d part h) s).tryComplete h) s

/-- The launches of an interface that a write to a frozen table has moved to ERROR end (22 R551). -/
def State.killFrozen (s : State) : State :=
  (s.parts.filter fun p => p.2.tdi = .error && s.inProgress p.1).foldl (fun s p => s.killPart p.1) s

/-- What R549 has fenced goes on as soon as it can. -/
def State.freeLeaving (s : State) : State :=
  if s.fw.leaving.isEmpty && s.fw.ending.isEmpty then s
  else
    let s := s.fw.ending.foldl (fun s (p, _) =>
      ((s.launches.filter fun x => x.part = p && !x.completed).map (·.handle)).foldl State.tryComplete s) s
    let wait (s : State) (u : FenceUnit) : Bool := match s.ownerOf u with
      | some p => s.fw.ending.any (fun e => e.1 = p) && s.inProgress p
      | none => false
    let s := s.fw.leaving.foldl (fun s x => if wait s x.1 then s else s.leaveOne x) s
    s.fw.ending.foldl (fun s (p, r) =>
      if s.inProgress p || (s.fw.leaving.any fun x => s.ownerOf x.1 = some p) then s
      else if r && (s.blocks.any fun b => b.2.owner = some p) then s
      else
        let s := s.endPart p r
        { s with fw := { s.fw with ending := s.fw.ending.filter fun e => e.1 ≠ p } }) s

/-- Every block and unit of a partition leaves, and with them what else it owns. -/
def State.stopPart (s : State) (part : Nat) (removed : Bool) : State :=
  let s := { s with intake := s.intake.filter fun i => i.part ≠ part, fw := { s.fw with ending := s.fw.ending ++ [(part, removed)] } }
  let s := s.killPart part
  let bs := (s.blocks.filter fun x => x.2.owner = some part).map (·.1)
  let s := (bs.filter fun b => !s.fw.leaving.any fun x => x.1 = .block b).foldl (fun s b => s.leave removed (.block b)) s
  let us := (s.part part).units.filter fun u => !s.fw.leaving.any fun x => x.1 = .unit u
  (us.foldl (fun s u => s.leave removed (.unit u)) s).freeLeaving

/-! ### Frozen configuration (22 R551) -/

def Partition.frozen (p : Partition) : Bool := p.tdi ≠ .unlocked

/-- The interface goes to ERROR: the partition's launches end as LAUNCHKILL ends them; its queue interfaces drop packets and its
DMA stops from now on. -/
def State.tdiError (s : State) (part : Nat) : State :=
  if (s.part part).tdi = .error then s else (s.setPart part { s.part part with tdi := .error }).killPart part

/-- A write that would change a frozen item of partitions is dropped and moves them to ERROR; any other is made. -/
def State.frozenWrite (s : State) (ps : List Nat) (changes : Bool) (f : State → State) : State :=
  let ps := ps.filter fun p => (s.part p).frozen
  if changes && !ps.isEmpty then ps.foldl State.tdiError s else f s

/-! ### REGISTER_WRITE -/

/-- Bits of a value (00 R6): reserved and read-only bits of a register take no write. -/
def bits (x : Word) (hi lo : Nat) : Word := BitVec.ofNat 64 (fld x.toNat hi lo * 2 ^ lo)

/-- A March register (18 Table 18-1). -/
def MarchRegs.write (r : MarchRegs) (ofs : Nat) (x : Word) : MarchRegs :=
  match ofs with
  | 0x00 => { r with pwin := x.setWidth 32 }
  | 0x08 => { r with pdelta := x.setWidth 7 }
  | 0x28 => { r with framebase := x.extractLsb' 16 48 }
  | 0x30 => { r with framecnt := x.setWidth 16 }
  | 0x38 => { r with monovfbase := x.extractLsb' 5 59, ovfSet := true }
  | 0x40 => { r with monovfcnt := x.setWidth 32 }
  | _ => r

/-- A March register of a die as it reads (18 R476, Table 18-1). -/
def State.readMarch (s : State) (d part ofs : Nat) : Word :=
  let r := (s.die d).march part
  let rs := (s.die d).recs.filter fun x => x.part = part
  let count (p : TRec → Bool) : Nat := (rs.filter p).length
  match ofs with
  | 0x00 => r.pwin.setWidth 64
  | 0x08 => r.pdelta.setWidth 64
  | 0x10 => r.preempt
  | 0x18 => r.resume
  | 0x20 => r.launchkill.setWidth 64
  | 0x28 => r.framebase.setWidth 64 <<< 16
  | 0x30 => r.framecnt.setWidth 64
  | 0x38 => r.monovfbase.setWidth 64 <<< 5
  | 0x40 => r.monovfcnt.setWidth 64
  | 0x48 => r.monspill
  | 0x50 => BitVec.ofNat 64 (count (fun x => x.st = .ready && !x.inSram) * 2 ^ 32 + count fun x => x.st = .ready && x.inSram)
  | 0x58 => BitVec.ofNat 64 (count (fun x => x.st = .parked) * 2 ^ 32 + r.cells.length)
  | _ => 0

/-- A write of word w of an extent's entry: in FREE, or to revoke an ACTIVE one (21 R537).  PART is always the owner of the unit that the
extent is (22 R546): DESIGN CHOICE, it is taken from there whatever the write says, and a write for a unit that nobody owns is dropped. -/
def State.writeExtent (s : State) (x w : Nat) (v : Word) : State :=
  let e := s.ext x
  let f (hi lo : Nat) : Nat := fld v.toNat hi lo
  if e.state = 0 then
    match w with
    | 0 =>
      (match s.unitOwner x with
      | some p => if f 7 0 = 0 || f 7 0 = 1 || f 7 0 = 4 then
          s.setExt x { e with state := f 7 0, mode := f 15 8, part := p, hosts := v.extractLsb' 32 32 } else s
      | none => s)
    | 1 => s.setExt x { e with drainUs := v.setWidth 32, recallUs := v.extractLsb' 32 32 }
    | 2 => s.setExt x { e with sparex := f 15 0 }
    | _ => s
  else if w = 0 && e.state = 1 && f 7 0 = 2 then s.revoke x
  else s

/-- A register without behaviour of its own takes a write. -/
def State.writeReg (s : State) (reg : HostReg) (v : Word) : State :=
  match reg with
  | .march d p o => s.updMarch d p fun r => r.write o.toNat v
  | .qcfg p q =>
    let x := s.qif (8 * p + q)
    let new := bits v 27 16 ||| bits v 4 4 ||| bits v 2 0
    s.frozenWrite [qifPart x, fld new.toNat 2 0].eraseDups (decide (x.qcfg ≠ new)) fun s => s.setQif (8 * p + q) { x with qcfg := new }
  | .pasidTab p q i =>
    let x := s.qif (8 * p + q)
    let new := bits v 31 30 ||| bits v 19 0
    s.frozenWrite [qifPart x] (decide (Sparse.get 0 x.pasid i ≠ new)) fun s =>
      s.setQif (8 * p + q) { x with pasid := Sparse.set 0 x.pasid i new }
  | .hostMap h => { s with host := { s.host with hostMap := Sparse.set 0 s.host.hostMap h v } }
  | .jobBase =>
    let new := bits v 55 15
    s.frozenWrite (List.range 8) (decide (s.fab.jobBase ≠ new)) fun s => { s with fab := { s.fab with jobBase := new } }
  | .timeCtl => { s with fab := { s.fab with timeCtl := bits v 17 17 ||| bits v 15 0 } }
  | .extentWord x w => s.writeExtent x w v
  | .record p stack r w => s.writeSf p stack r w v
  | .msixEntry p vec w =>
    if Config.msixVectors p ≤ vec then s
    else
      let i := 4096 * p + vec
      let e := Sparse.get (0, 0) s.host.msixTab i
      { s with host := { s.host with msixTab := Sparse.set (0, 0) s.host.msixTab i (if w = 0 then (v, e.2) else (e.1, v.setWidth 32)) } }

/-- REGISTER_WRITE (00 R6), through a function of a port: the registers of a partition's control region through one that reaches it; the
others through a physical function, queue interfaces and interrupt vectors through the one whose they are.  The vectors are no registers of
the control plane (21 R525, R526). -/
def execRegisterWrite (port : Nat) (reg : HostReg) (value : BitVec 64) (s : State) : Host.Outcome State Fault Refusal :=
  .next <|
    let write (s : State) : State := (s.writeReg reg value).settle
    match reg with
    | .march _ p _ | .record p _ _ _ => s.regionWrite port p write
    | .msixEntry p _ _ => if port = p then write s else s
    | .qcfg p _ | .pasidTab p _ _ => if port = p then s.cpWrite p write else s
    | _ => if port < 2 then s.cpWrite port write else s

end Machine
end Sys2Proof
end

