-- ==== Sys2Proof/Machine/Firmware.lean ====
section
/-! DEFINITION. Firmware's mailbox, the TDISP interface of a partition, and debug policies (22 R547 to R551, R555, R556, R559,
R561). -/

namespace Sys2Proof
namespace Machine

/-! ### The mailbox (22 R547) -/

/-- Bytes that the manual leaves open: n words of them. -/
def State.freeBytes (s : State) (n : Nat) : List Byte × State :=
  ((List.range n).flatMap fun i => bytesOfNat 8 (Config.freeWord (s.freeCtr + i)).toNat, { s with freeCtr := s.freeCtr + n })

/-- Unit numbers, as bytes. -/
def numBytes (l : List Nat) : List Byte := l.flatMap (bytesOfNat 8)

/-- What STATUS returns: the partition map with each partition's blocks and units, the fences of cores, blocks, dies, links and units, and
the firmware's version (22 Table 22-1). -/
def State.statusData (s : State) : List Byte :=
  s.parts.flatMap (fun p => numBytes (p.1 :: (s.blocks.filter fun b => b.2.owner = some p.1).map (·.1)) ++ numBytes p.2.units) ++
    numBytes ((s.cores.filter fun c => c.2.fenced).map (·.1)) ++ numBytes ((s.blocks.filter fun b => b.2.fenced).map (·.1)) ++
    numBytes ((s.dies.filter fun d => d.2.fenced).map (·.1)) ++ numBytes ((s.fab.links.filter fun l => l.2.fenced).map (·.1)) ++
    numBytes s.fw.unitFenced ++ bytesOfNat 4 (match s.fw.running with | some i => i.secVersion | none => 0)

/-- The reply of 256 bytes, whose layout is not given, with its status, and its signal (22 R547). -/
def State.fwReply (s : State) (x : Serving) : State :=
  let bs := Config.fwReplyBytes x.code x.refused (if x.code = 8 && !x.refused then s.statusData else [])
  ({ s with fw := { s.fw with reply := (bs ++ List.replicate 256 0).take 256, status := (x.code, x.refused) } } : State).signal x.part

/-- Whether a request is still being served: resources that it names have not left their fence, or its partition has not ended. -/
def State.busyWith (s : State) (x : Serving) : Bool :=
  x.units.any (fun u => s.fw.leaving.any fun y => y.1 = u) || (x.ends && s.fw.ending.any fun e => e.1 = x.part)

/-- Firmware answers a request as soon as it has served it. -/
def State.answer (s : State) (x : Serving) : State :=
  if s.busyWith x then { s with fw := { s.fw with serving := some x } }
  else ({ s with fw := { s.fw with serving := none } } : State).fwReply x

/-- The request that is being served is answered when it can be. -/
def State.answerServed (s : State) : State := match s.fw.serving with | some x => s.answer x | none => s

/-- A request to firmware through the control plane, from the end of the boot sequence on: one that is written while another is being
served is dropped and counted, and one that firmware refuses has no effect and is told so (22 R547). -/
def State.mailbox (s : State) (port : Nat) (x : Serving) (ok : Bool) (f : State → State) : State :=
  s.cpWrite port fun s =>
    if s.fw.boot < 6 then s
    else if s.fw.serving.isSome then { s with host := { s.host with cpdrop := s.host.cpdrop + 1 } }
    else if ok then (f s).answer x
    else s.answer { part := x.part, code := x.code, refused := true }

def maskBlocks (m : BitVec 128) : List Nat := (List.range 128).filter fun b => m.getLsbD b
def namedUnits (blocks : BitVec 128) (units : List Nat) : List FenceUnit := (maskBlocks blocks).map .block ++ units.map .unit

/-- Nobody owns any of them, and none is on its way to the free pool. -/
def State.allFree (s : State) (us : List FenceUnit) : Bool :=
  us.all fun u => (s.ownerOf u).isNone && !s.fw.leaving.any fun x => x.1 = u

/-- A partition that a request may name: it exists, is neither locked nor in RUN, and is not on its way out. -/
def State.nameable (s : State) (part : Nat) : Bool :=
  (Sparse.find s.parts part).isSome && (s.part part).tdi ≠ .locked && (s.part part).tdi ≠ .run &&
  !s.fw.ending.any fun e => e.1 = part

/-- Blocks and units become a partition's, zeroed (22 R549). -/
def State.own (s : State) (part : Nat) (us : List FenceUnit) : State :=
  us.foldl (fun s u =>
    let s := s.zero u
    match u with
    | .block b => s.setBlock b { s.block b with owner := some part }
    | .unit x => s.setPart part { s.part part with units := insertNat x (s.part part).units }
    | _ => s) s

/-- Whether firmware grants an ASSIGN. -/
def State.assignOk (s : State) (q : AssignReq) : Bool :=
  q.reservedZero && q.part < 8 && (Sparse.find s.parts q.part).isNone && s.allFree (namedUnits q.blocks q.units) && q.units.all (· < 1024)

/-- ASSIGN: a new partition with its resources, its incarnation one higher, its debug policy zero, and a key of its own (22 R547 to R549,
R555). -/
def State.assignPart (s : State) (port : Nat) (q : AssignReq) : State :=
  let n := Sparse.get 0 s.fw.incarn q.part + 1
  let p : Partition :=
    { port := port, shareBase := q.shareBase.map BitVec.toNat, shareSize := q.shareSize.map BitVec.toNat, errBase := q.errBase,
      errCnt := q.errCnt, keyDigest := q.keyDigest, incarn := n,
      vf := Config.virtualFn q.part n.toNat % 64, key := Config.randomKey s.freeCtr }
  let s := { s.setPart q.part p with freeCtr := s.freeCtr + 1, fw := { s.fw with incarn := Sparse.set 0 s.fw.incarn q.part n } }
  ((s.zeroShares q.part).dropTlb q.part).own q.part (namedUnits q.blocks q.units)

/-- ASSIGN. -/
def execAssign (port : Nat) (req : AssignReq) (s : State) : Host.Outcome State Fault Refusal :=
  .next <| s.mailbox port { part := req.part, code := 1 } (s.assignOk req) fun s => s.assignPart port req

/-- GROW: free blocks and units join a partition. -/
def execGrow (port part : Nat) (blocks : BitVec 128) (units : List Nat) (s : State) (zero : Bool := true) : Host.Outcome State Fault Refusal :=
  .next <|
    let us := namedUnits blocks units
    s.mailbox port { part := part, code := 2 } (zero && s.nameable part && s.allFree us && units.all (· < 1024)) fun s => s.own part us

/-- SHRINK: blocks and units of a partition return to the free pool (22 R549). -/
def execShrink (port part : Nat) (blocks : BitVec 128) (units : List Nat) (s : State) (zero : Bool := true) : Host.Outcome State Fault Refusal :=
  .next <|
    let us := namedUnits blocks units
    s.mailbox port { part := part, code := 3, units := us }
      (zero && s.nameable part && us.all fun u => s.ownerOf u = some part && !s.fw.leaving.any fun x => x.1 = u) fun s =>
      (us.foldl (fun s u => s.leave true u) s).freeLeaving

/-- REMOVE: every launch of the partition ends, and all that it owns returns to the free pool. -/
def execRemove (port part : Nat) (s : State) (zero : Bool := true) : Host.Outcome State Fault Refusal :=
  .next <| s.mailbox port { part := part, code := 4, ends := true } (zero && s.nameable part) fun s => s.stopPart part true

/-! ### Debug policies (22 R556) -/

/-- The 128 bytes of a policy whose shape is right. -/
def policyBytes (p : PolicyBlob) : List Byte :=
  bytesOfNat 4 0x4C4F5044 ++ bytesOfNat 2 1 ++ bytesOfNat 1 p.part ++ bytesOfNat 1 0 ++ bytesOfNat 4 p.incarn.toNat ++
    bytesOfNat 4 p.bits.toNat ++ p.pubKey.take 97 ++ List.replicate 15 0

/-- A policy of the tenant, for this partition and this incarnation. -/
def State.policyOk (s : State) (part : Nat) (p : PolicyBlob) : Bool :=
  let x := s.part part
  p.shape && p.part = part && p.pubKey.length = 97 && p.signature.length = 96 && (p.bits &&& ~~~(0x3E : BitVec 32)) = 0 &&
  Config.sha384 p.pubKey = x.keyDigest && p.incarn = x.incarn &&
  Config.ecdsaVerify p.pubKey (Config.sha384 (policyBytes p)) p.signature

/-- DEBUGPOL: the policy is in force, and the digest of its blob, its 128 bytes with the signature, is kept for the measurements (22 R554,
R556). -/
def execDebugpol (port part : Nat) (policy : PolicyBlob) (s : State) (zero : Bool := true) : Host.Outcome State Fault Refusal :=
  .next <| s.mailbox port { part := part, code := 5 } (zero && s.nameable part && s.policyOk part policy) fun s =>
    s.setPart part { s.part part with
      dbgPol := (policy.incarn.setWidth 64 <<< 32) ||| (policy.bits.setWidth 64 &&& 0x3E) ||| 1,
      policy := some (Config.sha384 (policyBytes policy ++ policy.signature)) }

/-- What the control plane reads of a scratchpad of a partition: zeros while its policy keeps them closed (22 R555, Table 22-2). -/
def State.readScratch (s : State) (core a n : Nat) : List Byte :=
  match (s.block (coreBlock core)).owner with
  | some p => if (s.part p).dbgPol.getLsbD 0 && (s.part p).dbgPol.getLsbD 4 then Memory.read (s.core core).scr a n else List.replicate n 0
  | none => List.replicate n 0

/-- What the control plane reads of the frame of a task of a partition: zeros while its policy keeps it closed (22 R555, Table 22-2). -/
def State.readFrameOf (s : State) (part addr n : Nat) : List Byte :=
  if (s.part part).dbgPol.getLsbD 0 && (s.part part).dbgPol.getLsbD 5 then
    (match s.marchRead part 0 addr n with | some bs => bs | none => List.replicate n 0)
  else List.replicate n 0

/-- Whether instruction trace of a partition may be captured (22 R555, Table 22-2). -/
def State.traceOpen (s : State) (part : Nat) : Bool := (s.part part).dbgPol.getLsbD 0 && (s.part part).dbgPol.getLsbD 3

/-! ### Images (22 R561) -/

/-- What an image's signature signs: the header's other fields, the digest of the body among them. -/
def imageHeader (i : FwImage) : List Byte :=
  bytesOfNat 4 i.magic.toNat ++ bytesOfNat 4 i.format.toNat ++ bytesOfNat 4 i.secVersion ++ bytesOfNat 1 (if i.raiseMin then 1 else 0) ++
    bytesOfNat 8 i.body.length ++ bytesOfNat 48 i.bodyDigest.toNat

/-- An image's bytes: its header of 256 bytes with its signature, and its body (22 R554, R561). -/
def imageBytes (i : FwImage) : List Byte := padTo 256 (imageHeader i ++ i.signature) ++ i.body

/-- An image passes its checks against a minimum of the security version, which is a field of 4 bytes. -/
def imageOk (min : Nat) (i : FwImage) : Bool :=
  i.magic = 0x57464E4B && i.secVersion < 2 ^ 32 && i.bodyDigest = Config.sha384 i.body &&
  Config.ecdsaVerify Config.fwPublicKey (Config.sha384 (imageHeader i)) i.signature && min ≤ i.secVersion

/-- IMAGE: the image in module flash; the running one is unchanged until the next reset. -/
def execImageReq (port : Nat) (image : FwImage) (s : State) (zero : Bool := true) : Host.Outcome State Fault Refusal :=
  .next <| s.mailbox port { part := 0, code := 6 } (zero && imageOk s.fw.minVersion image) fun s =>
    { s with fw := { s.fw with flash := some image } }

/-! ### Fences and status -/

def State.isFenced (s : State) : FenceUnit → Bool
  | .core c => (s.core c).fenced
  | .block b => (s.block b).fenced
  | .die d => (s.die d).fenced
  | .link l => (s.link l).fenced
  | .unit u => s.fw.unitFenced.contains u

/-- A FENCE request that lifts: the fence ends after zeroing, with that of R549 where the resource is on its way already (22 R559). -/
def State.liftFence (s : State) (u : FenceUnit) : State :=
  let t := if s.fw.kept.contains u then { s with fw := { s.fw with lifting := s.fw.lifting ++ [u] } } else s
  if t.fw.leaving.any (fun x => x.1 = u) || !t.isFenced u then t else (t.leave false u).freeLeaving

/-- FENCE: a fence, which ends the tasks there (02 Table 2-1), or its end after zeroing (22 R559). -/
def execFwFence (port : Nat) (unit : FenceUnit) (lift : Bool) (s : State) (zero : Bool := true) : Host.Outcome State Fault Refusal :=
  .next <| s.mailbox port { part := 0, code := 7, units := if lift then [unit] else [] } zero fun s =>
    if lift then s.liftFence unit
    else if s.fw.kept.contains unit || (s.isFenced unit && !s.fw.leaving.any fun x => x.1 = unit) then s
    else ((s.fence unit).fenceTasks unit).settle

/-- STATUS. -/
def execFwStatus (port : Nat) (s : State) (zero : Bool := true) : Host.Outcome State Fault Refusal :=
  .next <| s.mailbox port { part := 0, code := 8 } zero id

/-! ### The TDISP interface (22 R550, R551) -/

/-- The units that hold second-stage tables: of a table, and of those that its entries name. -/
def State.tableUnits (s : State) : Nat → Nat → List Nat
  | 0, _ => []
  | fuel + 1, t =>
    let n := if fuel = 3 then 16 else 4096
    let next := if fuel = 0 then [] else (List.range n).flatMap fun i =>
      let e := s.rdEntry (t + 16 * i)
      if e % 2 = 1 && fld e 1 1 = 0 then s.tableUnits fuel (fld e 55 16 * 2 ^ 16) else []
    insertNat (t / 2 ^ 30) (next.foldl (fun l u => insertNat u l) [])

/-- An interface that TDISP messages may name. -/
def State.interface (s : State) (part : Nat) : Bool :=
  s.fw.boot = 6 && (Sparse.find s.parts part).isSome && !s.fw.ending.any fun e => e.1 = part

/-- Where bytes at an intermediate address of a partition lie in HBM, cut at the 64 KiB of a leaf. -/
def State.interRuns (s : State) (part a n : Nat) : List (Nat × Nat) :=
  (List.range (n / 2 ^ 16 + 2)).filterMap fun i =>
    let lo := max a ((a / 2 ^ 16 + i) * 2 ^ 16)
    let hi := min (a + n) ((a / 2 ^ 16 + i + 1) * 2 ^ 16)
    if hi ≤ lo then none else match interAddr s part lo with
      | .ok q => some (q, hi - lo)
      | .error _ => none

/-- The tables of a partition that a lock freezes: its VALID entries of the job directory, their segment tables of 256 entries, and its
context table (22 R551). -/
def State.frozenTables (s : State) (part : Nat) : List (Nat × Nat) :=
  let p := s.part part
  let dir := fld s.fab.jobBase.toNat 55 15 * 2 ^ 15
  ((List.range 1024).flatMap fun i =>
    let a := dir + 32 * i
    if s.rdHbm (a + 3) 1 % 2 = 1 && s.rdHbm (a + 2) 1 = part then (a, 32) :: s.interRuns part (s.rdHbm (a + 8) 8) 8192 else []) ++
  s.interRuns part (fld p.ptBase.toNat 55 12 * 2 ^ 12) (16 * fld p.ptCtl.toNat 31 16)

/-- The selective IDE streams of a port: one for each of its partitions that is locked or in RUN (22 R550). -/
def State.ideStreams (s : State) (port : Nat) : Nat :=
  (s.parts.filter fun p => p.2.port = port && (p.2.tdi = .locked || p.2.tdi = .run)).length

/-- LOCK_INTERFACE: from CONFIG_UNLOCKED to CONFIG_LOCKED, where its port has one of its 8 IDE streams free; the second stage is in force
from now on. -/
def execLockInterface (part : Nat) (s : State) : Host.Outcome State Fault Refusal :=
  .next <|
    let p := s.part part
    if s.interface part && p.tdi = .unlocked && s.ideStreams p.port < 8 then
      let root := Config.stage2Base part p.incarn.toNat
      let s := (s.setPart part { p with tdi := .locked, stage2 := some root, s2Units := s.tableUnits 4 root,
                                        ideKey := Config.ideKey part p.incarn.toNat }).dropTlb part
      s.setPart part { s.part part with tables := s.frozenTables part }
    else s

/-- START_INTERFACE: from CONFIG_LOCKED to RUN. -/
def execStartInterface (part : Nat) (s : State) : Host.Outcome State Fault Refusal :=
  .next <|
    let p := s.part part
    if s.interface part && p.tdi = .locked then s.setPart part { p with tdi := .run } else s

/-- STOP_INTERFACE: back to CONFIG_UNLOCKED, every resource zeroed under R549. -/
def execStopInterface (part : Nat) (s : State) : Host.Outcome State Fault Refusal :=
  .next <| if s.interface part && (s.part part).tdi ≠ .unlocked then s.stopPart part false else s

/-- GET_DEVICE_INTERFACE_STATE. -/
def execGetDeviceInterfaceState (part : Nat) (s : State) : Host.Outcome State Fault Refusal :=
  .next <| if s.interface part then { s with fw := { s.fw with tdiStates := s.fw.tdiStates ++ [(s.part part).tdi] } } else s

/-- The configuration that the lock freezes. -/
def State.ifaceConf (s : State) (part : Nat) : List Byte :=
  let p := s.part part
  let words := numBytes
  words ((s.blocks.filter fun x => x.2.owner = some part).map (·.1)) ++ words p.units ++ words p.shareBase ++ words p.shareSize ++
    ((s.host.qifs.filter fun x => qifPart x.2 = part).flatMap fun x => words (x.1 :: x.2.qcfg.toNat :: x.2.pasid.map fun y => y.2.toNat)) ++
    words [s.fab.jobBase.toNat, p.ptBase.toNat, p.ptCtl.toNat, p.stage2.getD 0] ++
    (s.frozenTables part).flatMap fun r => Memory.read s.hbm r.1 r.2

/-- The interface report of a partition. -/
def State.report (s : State) (part : Nat) : List Byte := Config.reportBytes (s.ifaceConf part)

/-- GET_DEVICE_INTERFACE_REPORT. -/
def execGetDeviceInterfaceReport (part : Nat) (s : State) : Host.Outcome State Fault Refusal :=
  .next <| if s.interface part then { s with fw := { s.fw with tdiReply := s.report part } } else s

end Machine
end Sys2Proof
end

