-- ==== Sys2Proof/Machine/Bringup.lean ====
section
/-! DEFINITION. Errors and their containment, attestation, the clock governor, and the boot sequence (22 R552 to R562). -/

namespace Sys2Proof
namespace Machine

/-! ### Errors (22 R557 to R559) -/

/-- The partitions that own a block of a die. -/
def State.diePartitions (s : State) (d : Nat) : List Nat :=
  ((s.blocks.filter fun x => x.1 / 16 = d).filterMap fun x => x.2.owner).eraseDups

/-- Where an event falls: UNIT, LOC, ADDR and the partitions whose log takes the record (22 Table 22-5). -/
def State.errPlace (s : State) : ErrUnit → Nat × Nat × Word × List (Option Nat)
  | .scratchLine c l => (0, c, BitVec.ofNat 64 (128 * l), [(s.block (coreBlock c)).owner])
  | .hbmLine l => (0, l / 2 ^ 24, BitVec.ofNat 64 (64 * l), [s.unitOwner (l / 2 ^ 24)])
  | .slot c _ => (1, c, 0, [(s.block (coreBlock c)).owner])
  | .coreShared c => (2, c, 0, [(s.block (coreBlock c)).owner])
  | .blockUnit b => (3, 8 * b, 0, [(s.block b).owner])
  | .dieSram d => (4, d, 0, if (s.diePartitions d).isEmpty then [none] else (s.diePartitions d).map some)
  | .link l => (5, l, 0, [none])
  | .memUnit u => (6, u, 0, [s.unitOwner u])

/-- CODE of an event: ECC of a line; of any other the manual does not say whether it is ECC or parity. -/
def State.errCode (s : State) : ErrUnit → Nat × State
  | .scratchLine _ _ | .hbmLine _ => (1, s)
  | _ => let (x, s) := s.free; (1 + x.toNat % 2, s)

/-- The error records of an event. -/
def State.errorEvent (s : State) (u : ErrUnit) (sev : Nat) : State :=
  let (unit, loc, addr, ps) := s.errPlace u
  let (code, s) := s.errCode u
  ps.foldl (fun s p => s.errRecord p unit sev code loc addr) s

/-- What an uncorrected error does, and the SEV of its record (22 Table 22-4). -/
def State.contain (s : State) : ErrUnit → Nat × State
  | .scratchLine c l => (1, s.setLine c l lnPoison)
  | .hbmLine l => (1, { s with hbmPoison := insertNat l s.hbmPoison })
  | .slot c k => (1, s.dropTask c k)
  | .coreShared c => (2, (s.fence (.core c)).fenceTasks (.core c))
  | .blockUnit b => (2, (s.fence (.block b)).fenceTasks (.block b))
  | .dieSram d => (2, (s.fence (.die d)).fenceTasks (.die d))
  | .link l => (2, s.fence (.link l))
  | .memUnit u =>
    let e := s.ext u
    let hs := e.recalls.filterMap fun r => r.req.map (·.1)
    let s := (s.fence (.unit u)).setExt u { e with recalls := e.recalls.map fun r => { r with req := none } }
    (2, hs.foldl (fun s h => s.reply (.unmapped h)) s)

/-- UNCORRECTED_ERROR: contained at the narrowest unit, with its records; a fenced link's is written with the fence (20 R509). -/
def execUncorrectedError (unit : ErrUnit) (s : State) : Host.Outcome State Fault Refusal :=
  .next <|
    let (sev, s) := s.contain unit
    let s := match unit with | .link _ => s | _ => s.errorEvent unit sev
    s.settle

/-- CORRECTED_ERROR: counted, and recorded; no state that a program can see changes. -/
def execCorrectedError (unit : ErrUnit) (s : State) : Host.Outcome State Fault Refusal :=
  .next (({ s with fw := { s.fw with corrected := s.fw.corrected + 1 } } : State).errorEvent unit 0)

/-- PATROL_SCRUB: a line is read and what can be corrected is, which no program sees; poison stays (22 R557, R567). -/
def execPatrolScrub (_ : ErrUnit) (s : State) : Host.Outcome State Fault Refusal := .next s

/-! ### Attestation (22 R552 to R554) -/

/-- The measurement of the running image, whole (22 Table 22-3). -/
def State.imageDigest (s : State) : BitVec 384 := match s.fw.running with | some i => Config.sha384 (imageBytes i) | none => 0

/-- The device identity key, from the fused secret. -/
def identityKey : BitVec 384 := Config.derive (Config.fusedSecret.setWidth 384) 0

/-- The alias key: from the device identity key and the measurement of the running image. -/
def State.aliasKey (s : State) : BitVec 384 := Config.derive identityKey s.imageDigest

/-- The alias key certificate: what the device identity key signs at each boot (22 R552). -/
def State.aliasCert (s : State) : BitVec 768 := Config.ecdsaSign identityKey (Config.sha384 (Config.ecdsaPublic s.aliasKey))

/-- A measurement block (22 Table 22-3). -/
def State.measurement (s : State) (i : Nat) : BitVec 384 :=
  match i with
  | 1 => Config.romDigest
  | 2 => s.imageDigest
  | 3 => Config.sha384 (bytesOfNat 4 (match s.fw.running with | some x => x.secVersion | none => 0) ++ bytesOfNat 4 s.fw.minVersion)
  | 4 => Config.sha384 (s.fab.routes.flatMap (fun x => bytesOfNat 8 x.1 ++ x.2.flatMap (bytesOfNat 8)) ++ bytesOfNat 2 s.fab.chip.toNat)
  | _ =>
    let p := i - 16
    let x := s.part p
    let policy := bytesOfNat 48 (match x.policy with | some d => d.toNat | none => 0)
    if 16 ≤ i && i < 24 && (Sparse.find s.parts p).isSome then Config.sha384 (s.report p ++ bytesOfNat 4 x.incarn.toNat ++ policy) else 0

/-- The exchange with one requester. -/
def State.spdmOf (s : State) (ses : Nat) : Spdm := Sparse.get {} s.fw.spdm ses

/-- One message of a session: the responder's answer is that of the SPDM standard to the transcript, signed with the alias key, and within
a session sent under AES-256-GCM; `f` moves the exchange on, with the digest of its transcript, where `ok`. -/
def State.spdmAnswers (s : State) (ses code : Nat) (msg : BitVec 384) (ok : Spdm → Bool) (f : BitVec 384 → Spdm → Spdm)
    (more : List (BitVec 384)) : State :=
  if s.fw.boot < 6 then s
  else
    let x := s.spdmOf ses
    let t := Config.sha384 (bytesOfNat 48 x.transcript.toNat ++ bytesOfNat 48 msg.toNat)
    let answer := Config.spdmAnswer code t :: (if ok x then more else [])
    let bytes := answer.flatMap fun a => bytesOfNat 48 a.toNat
    let t' := Config.sha384 (bytesOfNat 48 t.toNat ++ bytes)
    let y := if ok x then f t' x else x
    let y := { y with
      transcript := t', reply := answer, signature := Config.ecdsaSign s.aliasKey t',
      coded := if x.session then Config.gcmStream x.key 0 x.ctr bytes else [], ctr := if x.session then x.ctr + 1 else 0 }
    { s with fw := { s.fw with spdm := Sparse.set {} s.fw.spdm ses y } }

/-- The same as an instruction's outcome. -/
def State.spdmMessage (s : State) (ses code : Nat) (msg : BitVec 384) (ok : Spdm → Bool) (f : BitVec 384 → Spdm → Spdm)
    (more : List (BitVec 384)) : Host.Outcome State Fault Refusal := .next (s.spdmAnswers ses code msg ok f more)

/-- GET_VERSION: the exchange begins anew. -/
def execGetVersion (ses : Nat) (msg : BitVec 384) (s : State) : Host.Outcome State Fault Refusal :=
  s.spdmMessage ses 0x84 msg (fun _ => true) (fun _ _ => { version := true }) []
/-- GET_CAPABILITIES. -/
def execGetCapabilities (ses : Nat) (msg : BitVec 384) (s : State) : Host.Outcome State Fault Refusal :=
  s.spdmMessage ses 0xE1 msg (·.version) (fun _ x => { x with caps := true }) []
/-- NEGOTIATE_ALGORITHMS. -/
def execNegotiateAlgorithms (ses : Nat) (msg : BitVec 384) (s : State) : Host.Outcome State Fault Refusal :=
  s.spdmMessage ses 0xE3 msg (·.caps) (fun _ x => { x with algs := true }) []
/-- GET_DIGESTS: the digest of the chain. -/
def execGetDigests (ses : Nat) (msg : BitVec 384) (s : State) : Host.Outcome State Fault Refusal :=
  s.spdmMessage ses 0x81 msg (·.algs) (fun _ x => { x with digests := true })
    [Config.sha384 (Config.mfrCert ++ bytesOfNat 96 s.fw.cert.toNat)]
/-- GET_CERTIFICATE: the chain, the manufacturing certificate by its digest and the alias key certificate of this boot (22 R552). -/
def execGetCertificate (ses : Nat) (msg : BitVec 384) (s : State) : Host.Outcome State Fault Refusal :=
  s.spdmMessage ses 0x82 msg (·.algs) (fun _ x => { x with cert := true })
    [Config.sha384 Config.mfrCert, s.fw.cert.extractLsb' 384 384, s.fw.cert.extractLsb' 0 384]
/-- CHALLENGE. -/
def execChallenge (ses : Nat) (msg : BitVec 384) (s : State) : Host.Outcome State Fault Refusal :=
  s.spdmMessage ses 0x83 msg (·.algs) (fun _ x => { x with challenged := true }) []
/-- GET_MEASUREMENTS: the block of an index. -/
def execGetMeasurements (ses index : Nat) (msg : BitVec 384) (s : State) : Host.Outcome State Fault Refusal :=
  s.spdmMessage ses 0xE0 msg (·.algs) (fun _ x => x) [s.measurement index]
/-- KEY_EXCHANGE: the session's key follows from the transcript. -/
def execKeyExchange (ses : Nat) (msg : BitVec 384) (s : State) : Host.Outcome State Fault Refusal :=
  s.spdmMessage ses 0xE4 msg (·.algs) (fun t x => { x with keyed := true, key := Config.sessionKey t }) []
/-- FINISH: the session is established. -/
def execFinish (ses : Nat) (msg : BitVec 384) (s : State) : Host.Outcome State Fault Refusal :=
  s.spdmMessage ses 0xE5 msg (·.keyed) (fun _ x => { x with session := true }) []
/-- KEY_UPDATE: within a session a new link key enters the inactive bank of a direction, or, where no link is named, the session has a new
key (20 R510, 22 R553). -/
def execKeyUpdate (link : Nat) (tx : Bool) (key : BitVec 256) (salt : BitVec 32) (s : State) (ses : Nat := 0) : Host.Outcome State Fault Refusal :=
  .next <|
    let msg := Config.sha384 (bytesOfNat 4 link ++ [if tx then 1 else 0] ++ bytesOfNat 32 key.toNat ++ bytesOfNat 4 salt.toNat)
    let named := (Sparse.find s.fab.links link).isSome
    let t := s.spdmAnswers ses 0xE9 msg (·.session) (fun d x => if named then x else { x with key := Config.sessionKey d }) []
    if named && (s.spdmOf ses).session && 6 ≤ s.fw.boot then t.installKey link tx key salt else t
/-- HEARTBEAT. -/
def execHeartbeat (ses : Nat) (msg : BitVec 384) (s : State) : Host.Outcome State Fault Refusal :=
  s.spdmMessage ses 0xE8 msg (·.session) (fun _ x => x) []
/-- END_SESSION. -/
def execEndSession (ses : Nat) (msg : BitVec 384) (s : State) : Host.Outcome State Fault Refusal :=
  s.spdmMessage ses 0xEC msg (·.session) (fun _ x => { x with keyed := false, session := false, key := 0 }) []

/-! ### The clock governor (22 R562) -/

/-- CCLK changes; pod time, which does not depend on it, is set down first. -/
def State.setClock (s : State) (mhz : Nat) : State :=
  let s := s.podMark
  { s with fw := { s.fw with cclk := mhz } }

/-- GOVERNOR_LOWER: module power (in W) has passed 3.6 kW or a junction (in °C) 105 °C: one step of 25 MHz down. -/
def execGovernorLower (power junction : Nat) (s : State) : Host.Outcome State Fault Refusal :=
  .next <| if 3600 < power || 105 < junction then s.setClock (max 425 (s.fw.cclk - 25)) else s

/-- GOVERNOR_RAISE: both have fallen below their limits: one step up. -/
def execGovernorRaise (power junction : Nat) (s : State) : Host.Outcome State Fault Refusal :=
  .next <| if power < 3600 && junction < 105 then s.setClock (min 850 (s.fw.cclk + 25)) else s

/-- THERMAL_SHUTDOWN: a junction above 115 °C stops the device. -/
def execThermalShutdown (junction : Nat) (s : State) : Host.Outcome State Fault Refusal :=
  .next <| if 115 < junction then { s with fw := { s.fw with shutdown := true } } else s

/-! ### Bring-up (22 R560, R561) -/

/-- A unit that fails its training or self-test is fenced and recorded (22 Table 22-6 step 3). -/
def State.testUnit (s : State) (ok : Bool) (f : FenceUnit) (u : ErrUnit) : State :=
  if ok then s else (s.fence f).errorEvent u 2

/-- Step 4 for one block: its lowest core that passed is its August core; with none it is fenced. -/
def State.appoint (s : State) (boot b : Nat) : State :=
  match (List.range 8).find? fun k => Config.coreTest boot (8 * b + k) with
  | some k => s.setBlock b { s.block b with august := k }
  | none => s.fence (.block b)

/-- Steps 3 and 4: dies, HBM stacks with their 64 memory units each, cores, August cores. -/
def State.selfTests (s : State) (boot : Nat) : State :=
  let s := (List.range 8).foldl (fun s d => s.testUnit (Config.dieTest boot d) (.die d) (.dieSram d)) s
  let s := (List.range 1024).foldl (fun s u => s.testUnit (Config.stackTest boot (u / 64)) (.unit u) (.memUnit u)) s
  let s := (List.range 1024).foldl (fun s c => s.testUnit (Config.coreTest boot c) (.core c) (.coreShared c)) s
  (List.range 128).foldl (fun s b => s.appoint boot b) s

/-- A link as training leaves it, on the working lanes of its two per port (20 R503), with the keys that SPDM installs: without keys it stays down, without a lane it is fenced. -/
def bootLink (boot i : Nat) (ports : List Nat) : Link :=
  let keys (rx : Bool) : SMap KeyBank := match Config.linkKey boot i rx with | some (k, salt) => [(0, ⟨k, salt, 0⟩)] | none => []
  let tx := Link.physical { ports := ports } (Config.linkLanes boot (2 * i))
  let rx := Link.physical { ports := ports } (Config.linkLanes boot (2 * i + 1))
  { ports := ports, lanes := tx, rxLanes := rx, up := !tx.isEmpty && !rx.isEmpty && !(keys false).isEmpty && !(keys true).isEmpty,
    fenced := tx.isEmpty || rx.isEmpty, txKeys := keys false, rxKeys := keys true }

/-- The links toward a chip: of a chip of the group first the local link that leads to it, then those that the cabling names (20 R501,
R502, R513). -/
def routeTo (links : SMap Link) (here chip : Nat) (paths : List Nat) : List Nat :=
  match (memberIndex here chip).bind fun j => links.find? fun x => x.2.ports.all portLocal && (localLeads x.2.ports).contains j with
  | some x => x.1 :: paths.filter (· ≠ x.1)
  | none => paths

/-- Steps 5 and 6: links by their lowest port, none with a port that another has, the pod chip number, the paths toward other chips, the
time tree. -/
def Fabric.train (f : Fabric) (boot now : Nat) : Fabric :=
  let links : SMap Link := (List.range 128).foldl (fun (ls : SMap Link) i =>
    let ports := Config.linkPorts boot i
    if bondable ports && ports.head? = some i && ports.all (fun p => !ls.any fun l => l.2.ports.contains p)
      then ls ++ [(i, bootLink boot i ports)] else ls) []
  { f with
    trained := true, chip := Config.podChip boot,
    timeCtl := bits (Config.timeTree boot).1 17 17 ||| bits (Config.timeTree boot).1 15 0,
    podTime := (Config.timeTree boot).2, podAt := now, slew := 0,
    links := links,
    routes := (List.range 2048).filterMap fun c =>
      match routeTo links (Config.podChip boot).toNat c (Config.linkPaths boot c) with | [] => none | ls => some (c, ls) }

/-- The links that training has fenced are recorded (20 R509). -/
def State.recordFenced (s : State) : State :=
  (s.fab.links.filter fun l => l.2.fenced).foldl (fun s l =>
    let (x, s) := s.free
    s.errRecord none 5 2 (x.toNat % 65536) l.1 0) s

/-- Steps 3 to 6 with an image that has passed its checks; the responder opens, with the alias key certificate of this boot.  Firmware
raises the fused minimum where the image asks for it.  Each boot has a number of its own, taken from the count of free values. -/
def State.bringUp (s : State) (i : FwImage) : State :=
  let boot := s.freeCtr
  let v := s.fw.minVersion
  let t := ({ s with freeCtr := boot + 1 } : State).selfTests boot
  let t := ({ t with fw := { t.fw with running := some i, waitsImage := false, boot := 6,
                                       minVersion := if i.raiseMin then max v i.secVersion else v },
                     fab := t.fab.train boot t.cycle } : State).recordFenced
  { t with fw := { t.fw with cert := t.aliasCert } }

/-- Steps 1 and 2: the ROM checks the image in module flash, or its loader waits for one. -/
def State.boot (s : State) : State :=
  match s.fw.flash with
  | some i => if imageOk s.fw.minVersion i then s.bringUp i else { s with fw := { s.fw with boot := 1, waitsImage := true } }
  | none => { s with fw := { s.fw with boot := 1, waitsImage := true } }

/-- What outlives a reset: fuses, module flash, the incarnations, host memory, and the count of free values. -/
def State.afterReset (s : State) : State :=
  { State.reset with
    freeCtr := s.freeCtr, host := { mem := s.host.mem, memPoison := s.host.memPoison },
    fw := { flash := s.fw.flash, minVersion := s.fw.minVersion, incarn := s.fw.incarn } }

/-- RESET: the boot sequence; after a thermal stop firmware writes an error record, whose fields are not given (22 R562). -/
def execResetDev (s : State) : Host.Outcome State Fault Refusal :=
  .next <|
    let t := s.afterReset.boot
    if s.fw.shutdown then
      let (bs, t) := t.freeBytes 4
      { t with fw := { t.fw with log := t.fw.log ++ [bs] } }
    else t

/-- RECOVERY_IMAGE_LOAD: the ROM's loader takes an image through a host port, or refuses it and keeps waiting. -/
def execRecoveryImageLoad (_port : Nat) (image : FwImage) (s : State) : Host.Outcome State Fault Refusal :=
  .next <| if s.fw.waitsImage && imageOk s.fw.minVersion image then s.bringUp image else s

end Machine
end Sys2Proof
end

