-- ==== Sys2Proof/Machine/Control.lean ====
section
/-! DEFINITION. Control words: branches, jumps and calls (07 R218, R219), hardware loops (07 R222 to R227), the repeat prefix
(06 R191, R192) and the user trap (07 R231). -/

namespace Sys2Proof
namespace Machine

/-- Issue continues at a target after the group. -/
def State.branchTo (s : State) (t : BitVec 32) : State := s.setMe (s.me.setGroup fun g => { g with target := some t })

/-- The bubble that follows the group, whether the word is taken or not (07 R219). -/
def State.withBubble (s : State) : State := s.setMe (s.me.setGroup fun g => { g with bubble := true })

/-- BR (07 R218): the target is the branch word's own PC plus the offset. -/
def execBr (h : Hdr) (f : FmtB) (s : State) : Host.Outcome State Fault Refusal :=
  runPlain h s.withBubble fun s => .ok (s.branchTo (s.me.wpc + f.ofs))

/-- JMP (07 R218). -/
def execJmp (h : Hdr) (f : FmtRR) (s : State) : Host.Outcome State Fault Refusal :=
  runPlain h s.withBubble fun s => .ok (s.branchTo ((readSpec s.me f.a).setWidth 32))

/-- CALL (07 R218): the link is the PC after the group's last word. -/
def execCall (h : Hdr) (f : FmtRR) (s : State) : Host.Outcome State Fault Refusal :=
  runWord h s.withBubble
    (fun s =>
      let l := s.me
      .ok ((s.setMe (l.scalarResult 1 (dstRef f.dst) (l.group.seqPc.setWidth 64) 0)).branchTo ((readSpec l f.a).setWidth 32)))
    (fun s => s.setMe (s.me.nullResult 1 (dstRef f.dst)))

/-- The performance counters count a return, while the partition's debug policy opens profiling (07 R218; 22 R555, Table 22-2). -/
def State.countReturn (s : State) : State :=
  let p := s.part s.me.id.part
  if p.dbgPol.getLsbD 0 && p.dbgPol.getLsbD 2 then s.setPart s.me.id.part { p with returns := p.returns + 1 } else s

/-- RET behaves as JMP does, and counts as a return (07 R218). -/
def execRet (h : Hdr) (f : FmtRR) (s : State) : Host.Outcome State Fault Refusal :=
  runPlain h s.withBubble fun s => .ok (s.countReturn.branchTo ((readSpec s.me f.a).setWidth 32))

/-- The end E of LOOP's body (07 R222). -/
def loopEnd (l : Slot) (f : FmtL) : BitVec 32 := l.group.seqPc + f.body.setWidth 32 - 1

/-- LOOP (07 R222): a frame is pushed, or the body is passed over when N is zero or the word is nullified. -/
def execLoopI (h : Hdr) (f : FmtL) (s : State) : Host.Outcome State Fault Refusal :=
  runWord h s
    (fun s =>
      let l := s.me
      let n := (readSpec l f.count).setWidth 32
      if n = 0 then .ok (s.branchTo (loopEnd l f + 1))
      else .ok (s.setMe (l.setGroup fun g => { g with push := some ⟨g.seqPc, loopEnd l f, n, 0⟩ })))
    (fun s => s.branchTo (loopEnd s.me f + 1))

/-- BRKL (07 R227): the innermost frame is popped and issue continues at its E + 1. -/
def execBrkl (h : Hdr) (s : State) : Host.Outcome State Fault Refusal :=
  runPlain h s.withBubble fun s =>
    let l := s.me
    match l.bank.loops.getLast? with
    | some f => .ok (s.setMe (l.setGroup fun g => { g with brkl := true, target := some (f.e + 1) }))
    | none => .ok s

/-- RPT (06 R191, R193): the target is issued COUNT times; after a trap between repeats, or inside one, the RPTREM repeats
that are left. -/
def execRpt (h : Hdr) (f : FmtP) (s : State) : Host.Outcome State Fault Refusal :=
  runPlain h s fun s =>
    let l := s.me
    let count := f.countM1.toNat + 1
    let rem := if l.rptResume then l.csr.rptrem.toNat else 0
    let m := if rem = 0 then 0 else count - rem
    let l := if l.rptResume then { l with rptResume := false, csr := { l.csr with rptrem := 0 } } else l
    .ok (s.setMe (l.setGroup fun g => { g with rptCount := count, rptM := m, rptStep := f.step }))

/-- TRAP (07 R231): a user trap at the end of the group's cycle, unless another word of the group faults. -/
def execTrap (h : Hdr) (f : FmtRR) (s : State) : Host.Outcome State Fault Refusal :=
  runPlain h s fun s =>
    let l := s.me
    let t : Trap := ⟨.user (f.aux.extractLsb' 0 6), readSpec l f.a, l.wpc⟩
    .ok (s.setMe (l.setGroup fun g => { g with user := some t, userBit := 1 <<< g.idx }))

end Machine
end Sys2Proof
end

