-- ==== Sys2Proof/Machine/FloatWords.lean ====
section
/-! DEFINITION. Scalar floating-point words (07 R213 to R217). -/

namespace Sys2Proof
namespace Machine

/-- A float operand's pattern: an immediate is the exact value of its integer (06 R166, 07 R213). -/
def readF (l : Slot) (f : FFmt) (x : BitVec 9) : Nat :=
  if isImm x then floatImm f (specImm x) else (readSpec l x).toNat % 2 ^ f.w

/-- A float S word (07 R213 to R215): the result stands in the low bits of DST, zero above. -/
def runFp (o : FpOp) (lat : Nat) (h : Hdr) (f : FmtRR) (s : State) : Host.Outcome State Fault Refusal :=
  runScalar h s lat (dstRef f.dst) fun l =>
    let t := fmtTy f.ty
    let (x, fl) := (fctx l.fpcNow).op t o (readF l t f.a) (readF l t f.b) (readF l t f.c)
    (BitVec.ofNat 64 x, fl)

/-- x + y (07 Table 7-5). -/
def execFadd (h : Hdr) (f : FmtRR) (s : State) : Host.Outcome State Fault Refusal := runFp .add 4 h f s

/-- x − y (07 Table 7-5). -/
def execFaddSub (h : Hdr) (f : FmtRR) (s : State) : Host.Outcome State Fault Refusal := runFp .sub 4 h f s

/-- x × y (07 Table 7-5). -/
def execFmul (h : Hdr) (f : FmtRR) (s : State) : Host.Outcome State Fault Refusal := runFp .mul 4 h f s

/-- x × y + z (07 Table 7-5). -/
def execFma (h : Hdr) (f : FmtRR) (s : State) : Host.Outcome State Fault Refusal := runFp .fma 4 h f s

/-- x × y − z (07 Table 7-5). -/
def execFmaFms (h : Hdr) (f : FmtRR) (s : State) : Host.Outcome State Fault Refusal := runFp .fms 4 h f s

/-- z − x × y (07 Table 7-5). -/
def execFmaFnma (h : Hdr) (f : FmtRR) (s : State) : Host.Outcome State Fault Refusal := runFp .fnma 4 h f s

/-- x ÷ y (07 Table 7-5). -/
def execFdiv (h : Hdr) (f : FmtRR) (s : State) : Host.Outcome State Fault Refusal := runFp .div 12 h f s

/-- √x (07 Table 7-5). -/
def execFdivSqrt (h : Hdr) (f : FmtRR) (s : State) : Host.Outcome State Fault Refusal := runFp .sqrt 12 h f s

/-- the smaller (07 R215). -/
def execFmin (h : Hdr) (f : FmtRR) (s : State) : Host.Outcome State Fault Refusal := runFp .min 4 h f s

/-- the larger (07 R215). -/
def execFmax (h : Hdr) (f : FmtRR) (s : State) : Host.Outcome State Fault Refusal := runFp .max 4 h f s

/-- FCMP.cc writes predicate p(DST[2:0]) (07 R216). -/
def execFcmp (h : Hdr) (cc : Cc) (f : FmtRR) (s : State) : Host.Outcome State Fault Refusal :=
  runScalar h s 4 (.p f.dst.toNat) fun l =>
    let t := fmtTy f.ty
    let (x, fl) := (fctx l.fpcNow).cmp t cc (readF l t f.a) (readF l t f.b)
    (if x then 1 else 0, fl)

/-- FCVT (07 R217): an integer result is widened to 64 bits. -/
def execFcvt (h : Hdr) (f : FmtRR) (s : State) : Host.Outcome State Fault Refusal :=
  runScalar h s 4 (dstRef f.dst) fun l =>
    let src := f.aux.extractLsb' 0 4
    let x := if tyIsFloat src then readF l (fmtTy src) f.a else (readSpec l f.a).toNat
    let (y, fl) := (fctx l.fpcNow).convert f.ty src (f.aux.extractLsb' 4 3) x
    (if tyIsFloat f.ty then BitVec.ofNat 64 y
     else if WellFormed.tySigned f.ty then BitVec.ofInt 64 (sintNat (WellFormed.tyWidth f.ty) y) else BitVec.ofNat 64 y, fl)

end Machine
end Sys2Proof
end

