-- ==== Sys2Proof/Machine/Scalar.lean ====
section
/-! DEFINITION. Scalar integer words: arithmetic, logic, compares, bit operations, moves and predicate logic (07 R203 to R212),
and NOP (06 R194). -/

namespace Sys2Proof
namespace Machine

/-- Whether a TYPE code is signed (07 R203). -/
def tySgn (t : BitVec 4) : Bool := WellFormed.tySigned t

/-- Val: the low w bits as TYPE reads them (07 R203). -/
def tyVal (t : BitVec 4) (x : Nat) : Int :=
  let w := WellFormed.tyWidth t
  if tySgn t then sintNat w x else ((x % 2 ^ w : Nat) : Int)

/-- Ext64: a w-bit pattern widened by TYPE (07 R203). -/
def ext64 (t : BitVec 4) (w x : Nat) : Word :=
  if tySgn t then BitVec.ofInt 64 (sintNat w x) else BitVec.ofNat 64 (x % 2 ^ w)

/-- Ext64(Trunc(w, res)) (07 R203). -/
def tyRes (t : BitVec 4) (r : Int) : Word :=
  let w := WellFormed.tyWidth t
  ext64 t w (truncInt w r)

/-- TYPE of a word in either form. -/
def rriTy : RRI → BitVec 4
  | .rr f => f.ty
  | .ri f => f.ty

/-- The operands a and b of an integer word (07 R203). -/
def intOperands (l : Slot) (f : RRI) : Int × Int :=
  match f with
  | .rr f => (tyVal f.ty (readSpec l f.a).toNat, tyVal f.ty (readSpec l f.b).toNat)
  | .ri f => (tyVal f.ty (readSpec l f.a).toNat, tyVal f.ty (ext64 f.ty 32 f.imm.toNat).toNat)

/-- The integer operations (07 Table 7-2). -/
inductive IntOp where
  | add | sub | mul | mulHi | div | rem | and | or | xor | andn | shl | shr | sra | rot | min | max
  deriving DecidableEq, Repr

/-- Op(a, b) on a width (07 Table 7-2). -/
def intOp (o : IntOp) (w : Nat) (a b : Int) : Int :=
  let pa := truncInt w a
  let pb := truncInt w b
  let n := pb % w
  match o with
  | .add => a + b
  | .sub => a - b
  | .mul => a * b
  | .mulHi => a * b / (2 : Int) ^ w
  | .div => if b = 0 then -1 else Int.tdiv a b
  | .rem => if b = 0 then a else a - b * Int.tdiv a b
  | .and => ((pa &&& pb : Nat) : Int)
  | .or => ((pa ||| pb : Nat) : Int)
  | .xor => ((pa ^^^ pb : Nat) : Int)
  | .andn => ((pa &&& (pb ^^^ (2 ^ w - 1)) : Nat) : Int)
  | .shl => a * (2 : Int) ^ n
  | .shr => ((pa / 2 ^ n : Nat) : Int)
  | .sra => sintNat w pa / (2 : Int) ^ n
  | .rot => ((pa * 2 ^ n + pa / 2 ^ (w - n) : Nat) : Int)
  | .min => if a ≤ b then a else b
  | .max => if a ≤ b then b else a

/-- The value that an integer word writes (07 R203). -/
def intValue (o : IntOp) (f : RRI) (l : Slot) : Word :=
  let (a, b) := intOperands l f
  tyRes (rriTy f) (intOp o (WellFormed.tyWidth (rriTy f)) a b)

/-- An integer S word (07 R203): latency 1, no flag. -/
def runInt (o : IntOp) (h : Hdr) (f : RRI) (s : State) : Host.Outcome State Fault Refusal :=
  runScalar h s 1 (dstRef (rriDst f)) fun l => (intValue o f l, 0)

/-- NOP takes its place in the group and has no other effect (06 R194, 07 R232). -/
def execNop (h : Hdr) (s : State) : Host.Outcome State Fault Refusal := runPlain h s fun s => .ok s

/-- a + b (07 Table 7-2). -/
def execAdd (h : Hdr) (f : RRI) (s : State) : Host.Outcome State Fault Refusal := runInt .add h f s

/-- a - b (07 Table 7-2). -/
def execSub (h : Hdr) (f : RRI) (s : State) : Host.Outcome State Fault Refusal := runInt .sub h f s

/-- a × b (07 Table 7-2). -/
def execMul (h : Hdr) (f : RRI) (s : State) : Host.Outcome State Fault Refusal := runInt .mul h f s

/-- the high half of a × b (07 Table 7-2). -/
def execMulHi (h : Hdr) (f : RRI) (s : State) : Host.Outcome State Fault Refusal := runInt .mulHi h f s

/-- the quotient rounded toward zero, −1 for a zero divisor (07 Table 7-2). -/
def execDivI (h : Hdr) (f : RRI) (s : State) : Host.Outcome State Fault Refusal := runInt .div h f s

/-- the remainder, a for a zero divisor (07 Table 7-2). -/
def execDivRem (h : Hdr) (f : RRI) (s : State) : Host.Outcome State Fault Refusal := runInt .rem h f s

/-- bitwise AND (07 Table 7-2). -/
def execAndI (h : Hdr) (f : RRI) (s : State) : Host.Outcome State Fault Refusal := runInt .and h f s

/-- bitwise OR (07 Table 7-2). -/
def execOrI (h : Hdr) (f : RRI) (s : State) : Host.Outcome State Fault Refusal := runInt .or h f s

/-- bitwise exclusive OR (07 Table 7-2). -/
def execXorI (h : Hdr) (f : RRI) (s : State) : Host.Outcome State Fault Refusal := runInt .xor h f s

/-- a AND NOT b (07 Table 7-2). -/
def execAndn (h : Hdr) (f : RRI) (s : State) : Host.Outcome State Fault Refusal := runInt .andn h f s

/-- shift left (07 Table 7-2). -/
def execShl (h : Hdr) (f : RRI) (s : State) : Host.Outcome State Fault Refusal := runInt .shl h f s

/-- logical shift right (07 Table 7-2). -/
def execShr (h : Hdr) (f : RRI) (s : State) : Host.Outcome State Fault Refusal := runInt .shr h f s

/-- arithmetic shift right (07 Table 7-2). -/
def execSra (h : Hdr) (f : RRI) (s : State) : Host.Outcome State Fault Refusal := runInt .sra h f s

/-- rotation left (07 Table 7-2). -/
def execRot (h : Hdr) (f : RRI) (s : State) : Host.Outcome State Fault Refusal := runInt .rot h f s

/-- the smaller (07 Table 7-2). -/
def execMinI (h : Hdr) (f : RRI) (s : State) : Host.Outcome State Fault Refusal := runInt .min h f s

/-- the larger (07 Table 7-2). -/
def execMaxI (h : Hdr) (f : RRI) (s : State) : Host.Outcome State Fault Refusal := runInt .max h f s

/-- CMP.cc writes predicate p(DST[2:0]) (07 R211). -/
def execCmp (h : Hdr) (cc : Cc) (f : RRI) (s : State) : Host.Outcome State Fault Refusal :=
  runScalar h s 1 (.p (rriDst f).toNat) fun l =>
    let (a, b) := intOperands l f
    (if ccHolds cc a b then 1 else 0, 0)

/-- SEL: A when pk is true, else B, all 64 bits (07 R208). -/
def execSel (h : Hdr) (f : FmtRR) (s : State) : Host.Outcome State Fault Refusal :=
  runScalar h s 1 (dstRef f.dst) fun l =>
    (if l.rdP l.level (f.aux.extractLsb' 0 3).toNat then readSpec l f.a else readSpec l f.b, 0)

/-- MOVI: the immediate, or a loop index plus the immediate (07 R206). -/
def execMovi (h : Hdr) (f : FmtRI) (s : State) : Host.Outcome State Fault Refusal :=
  runScalar h s 1 (dstRef f.dst) fun l =>
    let w := WellFormed.tyWidth f.ty
    let v : Int := if f.modLow = 0 then ((ext64 f.ty 32 f.imm.toNat).toNat : Int)
      else ((l.loopIndex (f.modLow.toNat - 1)).toNat : Int) + f.imm.toInt
    (ext64 f.ty w (truncInt w v), 0)

/-- MOVHI: IMM32 above the low half of A (07 R207). -/
def execMovhi (h : Hdr) (f : FmtRI) (s : State) : Host.Outcome State Fault Refusal :=
  runScalar h s 1 (dstRef f.dst) fun l => (f.imm ++ (readSpec l f.a).extractLsb' 0 32, 0)

/-- LEA: A plus a scaled offset (07 R209). -/
def execLea (h : Hdr) (f : RRI) (s : State) : Host.Outcome State Fault Refusal :=
  runScalar h s 1 (dstRef (rriDst f)) fun l =>
    match f with
    | .rr f => (readSpec l f.a + (readSpec l f.b <<< (f.aux.extractLsb' 0 2).toNat), 0)
    | .ri f => (readSpec l f.a + ((f.imm.signExtend 64) <<< (f.modLow.extractLsb' 0 2).toNat), 0)

/-! ### BITS (07 R204, R205) -/

/-- The zero bits above the highest one bit of a w-bit pattern. -/
def clz (w x : Nat) : Nat := w - (if x % 2 ^ w = 0 then 0 else Nat.log2 (x % 2 ^ w) + 1)
/-- The zero bits below the lowest one bit. -/
def ctz (w x : Nat) : Nat := ((List.range w).takeWhile fun i => !x.testBit i).length
def popc (w x : Nat) : Nat := ((List.range w).filter fun i => x.testBit i).length
def brev (w x : Nat) : Nat := (List.range w).foldl (fun n i => if x.testBit i then n + 2 ^ (w - 1 - i) else n) 0

/-- pos and the effective length of BFX and BFI (07 R205). -/
def bitField (w : Nat) (c : Word) : Nat × Nat :=
  let pos := (c.extractLsb' 0 7).toNat
  let len := (c.extractLsb' 8 7).toNat
  (pos, if w ≤ pos then 0 else min len (w - pos))

/-- A BITS word: `f` gives res from the slot and the w-bit pattern of A (07 R204). -/
def runBits (h : Hdr) (f : FmtRR) (s : State) (g : Slot → Nat → Nat → Int) : Host.Outcome State Fault Refusal :=
  runScalar h s 1 (dstRef f.dst) fun l =>
    let w := WellFormed.tyWidth f.ty
    (tyRes f.ty (g l w ((readSpec l f.a).toNat % 2 ^ w)), 0)

/-- Leading zeros (07 Table 7-3). -/
def execBitsClz (h : Hdr) (f : FmtRR) (s : State) : Host.Outcome State Fault Refusal := runBits h f s fun _ w x => (clz w x : Int)
/-- Trailing zeros (07 Table 7-3). -/
def execBitsCtz (h : Hdr) (f : FmtRR) (s : State) : Host.Outcome State Fault Refusal := runBits h f s fun _ w x => (ctz w x : Int)
/-- One bits (07 Table 7-3). -/
def execBitsPopc (h : Hdr) (f : FmtRR) (s : State) : Host.Outcome State Fault Refusal := runBits h f s fun _ w x => (popc w x : Int)
/-- Bit reversal (07 Table 7-3). -/
def execBitsBrev (h : Hdr) (f : FmtRR) (s : State) : Host.Outcome State Fault Refusal := runBits h f s fun _ w x => (brev w x : Int)
/-- Absolute value (07 Table 7-3). -/
def execBitsAbs (h : Hdr) (f : FmtRR) (s : State) : Host.Outcome State Fault Refusal :=
  runBits h f s fun _ w x => ((sintNat w x).natAbs : Int)
/-- Negation (07 Table 7-3). -/
def execBitsNeg (h : Hdr) (f : FmtRR) (s : State) : Host.Outcome State Fault Refusal := runBits h f s fun _ w x => -(sintNat w x)

/-- Field extraction (07 R205). -/
def execBitsBfx (h : Hdr) (f : FmtRR) (s : State) : Host.Outcome State Fault Refusal :=
  runBits h f s fun l w x =>
    let (pos, n) := bitField w (readSpec l f.c)
    let y := x / 2 ^ pos % 2 ^ n
    if tySgn f.ty then sintNat n y else (y : Int)

/-- Field insertion (07 R205). -/
def execBitsBfi (h : Hdr) (f : FmtRR) (s : State) : Host.Outcome State Fault Refusal :=
  runBits h f s fun l w x =>
    let (pos, n) := bitField w (readSpec l f.c)
    let v := (readSpec l f.b).toNat % 2 ^ n
    ((x - x / 2 ^ pos % 2 ^ n * 2 ^ pos + v * 2 ^ pos : Nat) : Int)

/-! ### PLOG (07 R212) -/

/-- The function of Table 7-4 on predicates, complemented as AUX says. -/
def runPlog (h : Hdr) (f : FmtRR) (s : State) (op : Bool → Bool → Bool) : Host.Outcome State Fault Refusal :=
  runScalar h s 1 (.p f.dst.toNat) fun l =>
    let x := l.rdP l.level (f.a.extractLsb' 0 3).toNat != f.aux.getLsbD 0
    let y := l.rdP l.level (f.b.extractLsb' 0 3).toNat != f.aux.getLsbD 1
    (if op x y then 1 else 0, 0)

/-- x AND y (07 Table 7-4). -/
def execPlogAnd (h : Hdr) (f : FmtRR) (s : State) : Host.Outcome State Fault Refusal := runPlog h f s fun x y => x && y
/-- x OR y (07 Table 7-4). -/
def execPlogOr (h : Hdr) (f : FmtRR) (s : State) : Host.Outcome State Fault Refusal := runPlog h f s fun x y => x || y
/-- x XOR y (07 Table 7-4). -/
def execPlogXor (h : Hdr) (f : FmtRR) (s : State) : Host.Outcome State Fault Refusal := runPlog h f s fun x y => x != y
/-- x AND NOT y (07 Table 7-4). -/
def execPlogAndn (h : Hdr) (f : FmtRR) (s : State) : Host.Outcome State Fault Refusal := runPlog h f s fun x y => x && !y

end Machine
end Sys2Proof
end

