-- ==== Sys2Proof/Machine/Vector.lean ====
section
/-! DEFINITION. Lane-cluster words (08 R233 to R256). -/

namespace Sys2Proof
namespace Machine

/-! ### Elements (08 R233 to R235) -/

/-- Element e of width w of a vector value (08 Table 8-A). -/
def elemOf (w : Nat) (v : Vec) (e : Nat) : Nat := bitsAt v.toNat (w * e) w

/-- A vector value from its elements of width w. -/
def packVec (w : Nat) (f : Nat → Nat) : Vec := BitVec.ofNat 512 (packElems w ((List.range (512 / w)).map f))

/-- Whether any lane of an element of width w is enabled. -/
def elemOn (w : Nat) (m : BitVec 16) (e : Nat) : Bool :=
  if w = 64 then m.getLsbD (2 * e) || m.getLsbD (2 * e + 1) else m.getLsbD (w * e / 32)

/-- Element e of a vector operand as TYPE reads it; an immediate is the same element everywhere (06 R166, 08 R234). -/
def vElem (l : Slot) (t : BitVec 4) (c : Nat) (x : BitVec 9) (e : Nat) : Nat :=
  let w := WellFormed.tyWidth t
  if isImm x then (if tyIsFloat t then floatImm (fmtTy t) (specImm x) else truncInt w (specImm x))
  else elemOf w (readVSpec l c x) e

/-- The flags of the elements that have an enabled lane (08 R235). -/
def joinFlags (w : Nat) (m : BitVec 16) (rs : List (Nat × Fl)) : Fl :=
  (rs.zipIdx).foldl (fun fl (r, e) => if elemOn w m e then fl ||| r.2 else fl) 0

/-- A V word that computes each element of width w of its destination; `g` takes the slot, the cluster and the element. -/
def runElems (h : Hdr) (s : State) (lat w : Nat) (f : FmtRR) (g : Slot → Nat → Nat → Nat × Fl) :
    Host.Outcome State Fault Refusal :=
  runVector h s lat f.cmask f.dst fun l c m =>
    let rs := (List.range (512 / w)).map (g l c)
    (BitVec.ofNat 512 (packElems w (rs.map (·.1))), joinFlags w m rs)

/-- A V word that computes each lane. -/
def runLanes (h : Hdr) (s : State) (f : FmtRR) (g : Slot → Nat → Nat → Lane) : Host.Outcome State Fault Refusal :=
  runVector h s 2 f.cmask f.dst fun l c _ => (vecOfLanes (g l c), 0)

/-- A V word that writes a lane mask: `g` gives bit i, from the slot, the cluster and the lane; it makes no last-result entry
(08 R235, R239). -/
def runMask (h : Hdr) (s : State) (lat : Nat) (f : FmtRR) (g : Slot → Nat → BitVec 16 → (Nat → Bool) × Fl) :
    Host.Outcome State Fault Refusal :=
  .next <| finishWord <| State.markPerf <|
    let l := s.me
    let l' := (clusters f.cmask).foldl (fun l' c =>
      let m := l.laneMask h c
      let (b, fl) := g l c m
      let x := (List.range 16).foldl (fun n i => if b i then n + 2 ^ i else n) 0
      l'.launch ⟨c + 1, .vp c f.dst.toNat, lat, BitVec.ofNat 512 x, m, none, fl, fpcEn l.fpcNow, l.wpc⟩) l
    s.setMe { l' with vIssued := true }

/-! ### Integer lanes (08 R238) -/

/-- An integer V word: Op on each element; AUX[0] saturates VADD, VSUB and VMAD. -/
def runVInt (o : IntOp) (sat : Bool) (h : Hdr) (f : FmtRR) (s : State) : Host.Outcome State Fault Refusal :=
  let w := WellFormed.tyWidth f.ty
  runElems h s 2 w f fun l c e =>
    let r := intOp o w (tyVal f.ty (vElem l f.ty c f.a e)) (tyVal f.ty (vElem l f.ty c f.b e))
    (truncInt w (if sat && f.aux.getLsbD 0 then clampInt (tyMin f.ty) (tyMax f.ty) r else r), 0)

/-- a + b, saturating when AUX[0] is set (08 R238). -/
def execVadd (h : Hdr) (f : FmtRR) (s : State) : Host.Outcome State Fault Refusal := runVInt .add true h f s

/-- a − b, saturating when AUX[0] is set (08 R238). -/
def execVsub (h : Hdr) (f : FmtRR) (s : State) : Host.Outcome State Fault Refusal := runVInt .sub true h f s

/-- a × b (08 R238). -/
def execVmul (h : Hdr) (f : FmtRR) (s : State) : Host.Outcome State Fault Refusal := runVInt .mul false h f s

/-- the high half of a × b (08 R238). -/
def execVmulHi (h : Hdr) (f : FmtRR) (s : State) : Host.Outcome State Fault Refusal := runVInt .mulHi false h f s

/-- a × b + z, saturating when AUX[0] is set (08 R238). -/
def execVmad (h : Hdr) (f : FmtRR) (s : State) : Host.Outcome State Fault Refusal :=
  let w := WellFormed.tyWidth f.ty
  runElems h s 2 w f fun l c e =>
    let r := tyVal f.ty (vElem l f.ty c f.a e) * tyVal f.ty (vElem l f.ty c f.b e) + tyVal f.ty (vElem l f.ty c f.c e)
    (truncInt w (if f.aux.getLsbD 0 then clampInt (tyMin f.ty) (tyMax f.ty) r else r), 0)

/-- bitwise AND (08 R238). -/
def execVlogAnd (h : Hdr) (f : FmtRR) (s : State) : Host.Outcome State Fault Refusal := runVInt .and false h f s

/-- bitwise OR (08 R238). -/
def execVlogOr (h : Hdr) (f : FmtRR) (s : State) : Host.Outcome State Fault Refusal := runVInt .or false h f s

/-- bitwise exclusive OR (08 R238). -/
def execVlogXor (h : Hdr) (f : FmtRR) (s : State) : Host.Outcome State Fault Refusal := runVInt .xor false h f s

/-- a AND NOT b (08 R238). -/
def execVlogAndn (h : Hdr) (f : FmtRR) (s : State) : Host.Outcome State Fault Refusal := runVInt .andn false h f s

/-- shift left (08 R238). -/
def execVshShl (h : Hdr) (f : FmtRR) (s : State) : Host.Outcome State Fault Refusal := runVInt .shl false h f s

/-- logical shift right (08 R238). -/
def execVshShr (h : Hdr) (f : FmtRR) (s : State) : Host.Outcome State Fault Refusal := runVInt .shr false h f s

/-- arithmetic shift right (08 R238). -/
def execVshSra (h : Hdr) (f : FmtRR) (s : State) : Host.Outcome State Fault Refusal := runVInt .sra false h f s

/-- rotation left (08 R238). -/
def execVshRot (h : Hdr) (f : FmtRR) (s : State) : Host.Outcome State Fault Refusal := runVInt .rot false h f s

/-- the smaller (08 R238). -/
def execVmin (h : Hdr) (f : FmtRR) (s : State) : Host.Outcome State Fault Refusal := runVInt .min false h f s

/-- the larger (08 R238). -/
def execVmax (h : Hdr) (f : FmtRR) (s : State) : Host.Outcome State Fault Refusal := runVInt .max false h f s

/-! ### Compares, selects and lane masks (08 R239 to R242) -/

/-- The element that a lane belongs to. -/
def laneElem (w i : Nat) : Nat := 32 * i / w

/-- VCMP.cc (08 R239). -/
def execVcmp (h : Hdr) (cc : Cc) (f : FmtRR) (s : State) : Host.Outcome State Fault Refusal :=
  let w := WellFormed.tyWidth f.ty
  runMask h s 2 f fun l c _ =>
    (fun i =>
      let e := laneElem w i
      ccHolds cc (tyVal f.ty (vElem l f.ty c f.a e)) (tyVal f.ty (vElem l f.ty c f.b e)), 0)

/-- VFCMP.cc (08 R239, 07 R216). -/
def execVfcmp (h : Hdr) (cc : Cc) (f : FmtRR) (s : State) : Host.Outcome State Fault Refusal :=
  let w := WellFormed.tyWidth f.ty
  runMask h s 4 f fun l c m =>
    let r (e : Nat) := (fctx l.fpcNow).cmp (fmtTy f.ty) cc (vElem l f.ty c f.a e) (vElem l f.ty c f.b e)
    (fun i => (r (laneElem w i)).1,
     (List.range (512 / w)).foldl (fun fl e => if elemOn w m e then fl ||| (r e).2 else fl) 0)

/-- VSEL (08 R240): the selecting mask is read at issue, apart from the lane mask. -/
def execVsel (h : Hdr) (f : FmtRR) (s : State) : Host.Outcome State Fault Refusal :=
  runLanes h s f fun l c i =>
    if (l.rdVp c (f.aux.extractLsb' 0 3).toNat).getLsbD i then lane (readVSpec l c f.a) i else lane (readVSpec l c f.b) i

/-- A lane mask that an operand names, complemented where a bit of AUX is set. -/
def vpOf (l : Slot) (c : Nat) (x : BitVec 9) (neg : Bool) : BitVec 16 :=
  let m := l.rdVp c (x.extractLsb' 0 3).toNat
  if neg then ~~~m else m

/-- A function of Table 7-4 on lane masks (08 R241). -/
def runVplog (h : Hdr) (f : FmtRR) (s : State) (op : Bool → Bool → Bool) : Host.Outcome State Fault Refusal :=
  runMask h s 2 f fun l c _ =>
    (fun i => op ((vpOf l c f.a (f.aux.getLsbD 0)).getLsbD i) ((vpOf l c f.b (f.aux.getLsbD 1)).getLsbD i), 0)

/-- x AND y (08 R241). -/
def execVplogAnd (h : Hdr) (f : FmtRR) (s : State) : Host.Outcome State Fault Refusal := runVplog h f s fun x y => x && y

/-- x OR y (08 R241). -/
def execVplogOr (h : Hdr) (f : FmtRR) (s : State) : Host.Outcome State Fault Refusal := runVplog h f s fun x y => x || y

/-- x XOR y (08 R241). -/
def execVplogXor (h : Hdr) (f : FmtRR) (s : State) : Host.Outcome State Fault Refusal := runVplog h f s fun x y => x != y

/-- x AND NOT y (08 R241). -/
def execVplogAndn (h : Hdr) (f : FmtRR) (s : State) : Host.Outcome State Fault Refusal := runVplog h f s fun x y => x && !y

/-- VPCNT (08 R242): the one bits of a lane mask, or those below the lane. -/
def execVpcnt (h : Hdr) (f : FmtRR) (s : State) : Host.Outcome State Fault Refusal :=
  runLanes h s f fun l c i =>
    let m := vpOf l c f.a (f.aux.getLsbD 0)
    BitVec.ofNat 32 (((List.range 16).filter fun j => m.getLsbD j && (!f.aux.getLsbD 1 || j < i)).length)

/-! ### Floating-point lanes (08 R243, R244) -/

/-- A float V word (08 R243). -/
def runVFp (o : FpOp) (h : Hdr) (f : FmtRR) (s : State) : Host.Outcome State Fault Refusal :=
  runElems h s 4 (WellFormed.tyWidth f.ty) f fun l c e =>
    (fctx l.fpcNow).op (fmtTy f.ty) o (vElem l f.ty c f.a e) (vElem l f.ty c f.b e) (vElem l f.ty c f.c e)

/-- x + y in each lane (08 R243). -/
def execVfadd (h : Hdr) (f : FmtRR) (s : State) : Host.Outcome State Fault Refusal := runVFp .add h f s

/-- x − y in each lane (08 R243). -/
def execVfaddSub (h : Hdr) (f : FmtRR) (s : State) : Host.Outcome State Fault Refusal := runVFp .sub h f s

/-- x × y in each lane (08 R243). -/
def execVfmul (h : Hdr) (f : FmtRR) (s : State) : Host.Outcome State Fault Refusal := runVFp .mul h f s

/-- x × y + z in each lane (08 R243). -/
def execVfma (h : Hdr) (f : FmtRR) (s : State) : Host.Outcome State Fault Refusal := runVFp .fma h f s

/-- x × y − z in each lane (08 R243). -/
def execVfmaFms (h : Hdr) (f : FmtRR) (s : State) : Host.Outcome State Fault Refusal := runVFp .fms h f s

/-- z − x × y in each lane (08 R243). -/
def execVfmaFnma (h : Hdr) (f : FmtRR) (s : State) : Host.Outcome State Fault Refusal := runVFp .fnma h f s

/-- the smaller in each lane (08 R243). -/
def execVfmin (h : Hdr) (f : FmtRR) (s : State) : Host.Outcome State Fault Refusal := runVFp .min h f s

/-- the larger in each lane (08 R243). -/
def execVfmax (h : Hdr) (f : FmtRR) (s : State) : Host.Outcome State Fault Refusal := runVFp .max h f s

/-- VSF.fn (08 R244). -/
def runVsf (o : SfOp) (h : Hdr) (f : FmtRR) (s : State) : Host.Outcome State Fault Refusal :=
  runElems h s 8 32 f fun l c e => (fctx l.fpcNow).sf o (vElem l 4 c f.a e)

/-- 1 ÷ x (08 Table 8-2). -/
def execVsfRcp (h : Hdr) (f : FmtRR) (s : State) : Host.Outcome State Fault Refusal := runVsf .rcp h f s

/-- 1 ÷ √x (08 Table 8-2). -/
def execVsfRsqrt (h : Hdr) (f : FmtRR) (s : State) : Host.Outcome State Fault Refusal := runVsf .rsqrt h f s

/-- 2^x (08 Table 8-2). -/
def execVsfExp2 (h : Hdr) (f : FmtRR) (s : State) : Host.Outcome State Fault Refusal := runVsf .exp2 h f s

/-- log2 x (08 Table 8-2). -/
def execVsfLog2 (h : Hdr) (f : FmtRR) (s : State) : Host.Outcome State Fault Refusal := runVsf .log2 h f s

/-- sin x (08 Table 8-2). -/
def execVsfSin (h : Hdr) (f : FmtRR) (s : State) : Host.Outcome State Fault Refusal := runVsf .sin h f s

/-- cos x (08 Table 8-2). -/
def execVsfCos (h : Hdr) (f : FmtRR) (s : State) : Host.Outcome State Fault Refusal := runVsf .cos h f s

/-- tanh x (08 Table 8-2). -/
def execVsfTanh (h : Hdr) (f : FmtRR) (s : State) : Host.Outcome State Fault Refusal := runVsf .tanh h f s

/-- 1 ÷ (1 + e^−x) (08 Table 8-2). -/
def execVsfSigm (h : Hdr) (f : FmtRR) (s : State) : Host.Outcome State Fault Refusal := runVsf .sigm h f s

/-! ### Conversions (08 R245 to R249) -/

/-- VCVT (08 R245). -/
def execVcvt (h : Hdr) (f : FmtRR) (s : State) : Host.Outcome State Fault Refusal :=
  let src := f.aux.extractLsb' 0 4
  let ws := WellFormed.tyWidth src
  let wd := WellFormed.tyWidth f.ty
  let n := 512 / max ws wd
  let p := (f.aux.extractLsb' 7 2).toNat
  runElems h s 4 wd f fun l c j =>
    let conv (e : Nat) := (fctx l.fpcNow).convert f.ty src (f.aux.extractLsb' 4 3) (vElem l src c f.a e)
    if wd < ws then (if p * n ≤ j && j < p * n + n then conv (j - p * n) else (0, 0))
    else if ws < wd then conv (p * n + j)
    else conv j

/-- What VCVT.BS makes for a pair of clusters: the registers of the even and of the odd one, and the flags of each. -/
structure BsPair where
  even : Vec
  odd : Vec
  flEven : Fl
  flOdd : Fl
  deriving DecidableEq, Repr

/-- Whether the pair of an even cluster performs: bit 0 of its lane mask (08 R246). -/
def bsOn (l : Slot) (h : Hdr) (c : Nat) : Bool := (l.laneMask h (c / 2 * 2)).getLsbD 0

/-- Element e of a pair of clusters, an f32 value: lanes 0 to 15 of the even one, then of the odd one; an immediate is its exact value
(06 R166). -/
def bsLane (l : Slot) (c : Nat) (x : BitVec 9) (e : Nat) : Nat := vElem l 4 (c + e / 16) x (e % 16)

/-- The flags of 32 elements by cluster.  DESIGN CHOICE: the manual does not say which lane enables the flags of a packed element: its
source lane, e mod 16 of cluster 2m + e div 16, does (08 R247). -/
def bsFlags (l : Slot) (h : Hdr) (c : Nat) (fs : List Fl) : Fl × Fl :=
  let half (k : Nat) := ((fs.drop (16 * k)).take 16).zipIdx.foldl (fun a (x, i) =>
    if (l.laneMask h (c + k)).getLsbD i then a ||| x else a) 0
  (half 0, half 1)

/-- A performing VCVT.BS: its pairs' results, or FORMAT before any destination changes (08 R249).  DESIGN CHOICE: the manual does not say
whether a performing pair is written whole or lane by lane: each cluster is written under its own lane mask (08 R246). -/
def runBs (h : Hdr) (f : FmtRR) (s : State) (bad : Slot → Nat → Bool) (g : Slot → Nat → BsPair) :
    Host.Outcome State Fault Refusal :=
  let l := s.me
  if (clusters f.cmask).any fun c => c % 2 = 0 && bsOn l h c && bad l c
    then .next <| finishWord <| s.noteTrap .format 0
  else
    .next <| finishWord <| State.markPerf <|
      let l' := (clusters f.cmask).foldl (fun l' c =>
        if bsOn l h c then
          let r := g l (c / 2 * 2)
          if c % 2 = 0 then l'.vectorResult 4 c (vdstRef (1 <<< c) f.dst) (l.laneMask h c) r.even r.flEven
          else l'.vectorResult 4 c (vdstRef (1 <<< c) f.dst) (l.laneMask h c) r.odd r.flOdd
        else l'.vectorResult 4 c (vdstRef (1 <<< c) f.dst) 0 0 0) l
      s.setMe { l' with vIssued := true }

/-- The format code of VCVT.BS. -/
def bsCode (f : FmtRR) : Nat := (f.aux.extractLsb' 0 5).toNat

/-- VCVT.BS, pack (08 R247). -/
def execVcvtBsPack (h : Hdr) (f : FmtRR) (s : State) : Host.Outcome State Fault Refusal :=
  let code := bsCode f
  let w := ((fmtCode code).getD fmtE5m2).w
  let given := !f.aux.getLsbD 6
  let entry (l : Slot) (c : Nat) := (lane (readVSpec l (c + 1) f.b) 0).toNat
  runBs h f s (fun l c => given && code = 9 && xvBad (entry l c / 256 % 256)) fun l c =>
    let k := fctx l.fpcNow
    let raw := (List.range 32).map (bsLane l c f.a)
    let vs := raw.map (k.read fmtF32)
    let sn := raw.map fun x => if fmtF32.snan x then Fl.nv else 0
    let (e, xv, bad) := if given then
        (entry l c % 256, (if code = 9 then entry l c / 256 % 256 else 0), decide (entry l c % 256 = 0xFF))
      else blockScale code vs
    let rs := if bad then vs.map fun _ => (0, Fl.nv) else vs.map (packElem code k.rm k.sat e xv)
    let fl := bsFlags l h c ((rs.map (·.2)).zipWith (· ||| ·) sn)
    let bits := packElems w (rs.map (·.1))
    { even := BitVec.ofNat 512 bits, odd := BitVec.ofNat 512 (e + 256 * xv),
      flEven := fl.1 ||| if bad then Fl.nv else 0, flOdd := fl.2 }

/-- VCVT.BS, unpack (08 R248). -/
def execVcvtBsUnpack (h : Hdr) (f : FmtRR) (s : State) : Host.Outcome State Fault Refusal :=
  let code := bsCode f
  let t := (fmtCode code).getD fmtE5m2
  let entry (l : Slot) (c : Nat) := (lane (readVSpec l (c + 1) f.a) 0).toNat
  runBs h f s (fun l c => code = 9 && xvBad (entry l c / 256 % 256)) fun l c =>
    let k := fctx l.fpcNow
    let bits := (readVSpec l c f.a).toNat
    let e := entry l c % 256
    let xv := entry l c / 256 % 256
    let rs := (List.range 32).map fun i =>
      let x := bitsAt bits (t.w * i) t.w
      if e = 0xFF then (fmtF32.nan, 0)
      else
        let (y, fl) := k.done fmtF32 ((elemValue code xv x).scale ((e : Int) - 127))
        (y, fl ||| if t.snan x then Fl.nv else 0)
    let fl := bsFlags l h c (rs.map (·.2))
    { even := vecOfLanes fun i => BitVec.ofNat 32 (rs.getD i (0, 0)).1,
      odd := vecOfLanes fun i => BitVec.ofNat 32 (rs.getD (16 + i) (0, 0)).1,
      flEven := fl.1, flOdd := fl.2 }

/-! ### Permutes and reductions (08 R250, R251; 04 R126) -/

/-- VSHUF (08 R250). -/
def execVshuf (h : Hdr) (f : FmtRR) (s : State) : Host.Outcome State Fault Refusal :=
  runLanes h s f fun l c i =>
    let j := lane (readVSpec l c f.b) i
    if j.getLsbD 4 then 0 else lane (readVSpec l c f.a) (j.extractLsb' 0 4).toNat

/-- The tree of R126: elements i and i + h join for h = n/2, …, 1; an absent one leaves the other as it is.  DESIGN CHOICE: a float
element that meets none but absent ones passes as its bits, neither canonicalised, flagged nor flushed: R126's 'x exactly' is taken
over R93 and R109 (08 R251). -/
def redTree {α : Type} (op : α → α → α × Fl) : Nat → Fl → List (Option α) → Option α × Fl
  | 0, fl, xs => (xs.headD none, fl)
  | k + 1, fl, xs =>
    let hf := 2 ^ k
    let rs := (xs.take hf).zipWith (fun (x y : Option α) =>
      match x, y with
      | some a, some b => let (r, f) := op a b; (some r, f)
      | some a, none => (some a, 0)
      | none, y => (y, 0)) (xs.drop hf)
    redTree op k (rs.foldl (fun a r => a ||| r.2) fl) (rs.map (·.1))

/-- The elements of A that are present, by the mask bit of the lowest lane (08 R251). -/
def redElems (l : Slot) (f : FmtRR) (c : Nat) (m : BitVec 16) : List (Option Nat) :=
  let w := WellFormed.tyWidth f.ty
  (List.range (512 / w)).map fun e => if m.getLsbD (w * e / 32) then some (vElem l f.ty c f.a e) else none

/-- A VRED word: the integer operation, the float one, and the identities of a cluster with no element. -/
def runVred (h : Hdr) (f : FmtRR) (s : State) (iop : Int → Int → Int) (fop : FpOp) (iid : Int) (fid : Nat) :
    Host.Outcome State Fault Refusal :=
  let w := WellFormed.tyWidth f.ty
  let depth := if w = 64 then 3 else 4
  runVector h s 4 f.cmask f.dst fun l c m =>
    let xs := redElems l f c m
    let (r, fl) := if tyIsFloat f.ty then
        let (r, fl) := redTree (fun a b => (fctx l.fpcNow).op (fmtTy f.ty) fop a b 0) depth 0 xs
        (r.getD fid, fl)
      else
        let (r, _) := redTree (fun a b => (iop a b, 0)) depth 0 (xs.map fun x => x.map (tyVal f.ty))
        let v := r.getD iid
        (truncInt w (if f.aux.getLsbD 0 then clampInt (tyMin f.ty) (tyMax f.ty) v else v), 0)
    (packVec w fun _ => r, fl)

/-- The sum of the enabled elements (08 R251). -/
def execVredAdd (h : Hdr) (f : FmtRR) (s : State) : Host.Outcome State Fault Refusal :=
  runVred h f s (· + ·) .add 0 0
/-- The least of the enabled elements (08 R251). -/
def execVredMin (h : Hdr) (f : FmtRR) (s : State) : Host.Outcome State Fault Refusal :=
  runVred h f s min .min (tyMax f.ty) (fmtTy f.ty).infCode
/-- The greatest of the enabled elements (08 R251). -/
def execVredMax (h : Hdr) (f : FmtRR) (s : State) : Host.Outcome State Fault Refusal :=
  runVred h f s max .max (tyMin f.ty) ((fmtTy f.ty).signBit true + (fmtTy f.ty).infCode)

/-! ### Between clusters and the scalar unit (08 R252 to R256) -/

/-- VXCP (08 R252). -/
def execVxcp (h : Hdr) (f : FmtRR) (s : State) : Host.Outcome State Fault Refusal :=
  runVector h s 2 f.cmask f.dst fun l c _ =>
    let k := (f.aux.extractLsb' 0 3).toNat
    (readVSpec l (if f.aux.getLsbD 3 then k else (c + k) % 8) f.a, 0)

/-- VSPLAT (08 R253). -/
def execVsplat (h : Hdr) (f : FmtRR) (s : State) : Host.Outcome State Fault Refusal :=
  let w := WellFormed.tyWidth f.ty
  runElems h s 2 w f fun l _ _ =>
    (if tyIsFloat f.ty then readF l (fmtTy f.ty) f.a else (readSpec l f.a).toNat % 2 ^ w, 0)

/-- VEXT (08 R254): to the scalar unit; enabled by the mask bit of the element's lowest lane. -/
def execVext (h : Hdr) (f : FmtRR) (s : State) : Host.Outcome State Fault Refusal :=
  .next <| finishWord <| State.markPerf <|
    let l := s.me
    let w := WellFormed.tyWidth f.ty
    let c := (clusters f.cmask).headD 0
    let e := (readSpec l f.b).toNat % (512 / w)
    let x := vElem l f.ty c f.a e
    let v : Word := if WellFormed.tySigned f.ty then BitVec.ofInt 64 (sintNat w x) else BitVec.ofNat 64 x
    let l' := if (l.laneMask h c).getLsbD (w * e / 32) then l.scalarResult 2 (dstRef f.dst) v 0 else l.nullResult 2 (dstRef f.dst)
    s.setMe { l' with vIssued := true }

/-- VIOTA (08 R255). -/
def execViota (h : Hdr) (f : FmtRR) (s : State) : Host.Outcome State Fault Refusal :=
  let w := WellFormed.tyWidth f.ty
  runElems h s 2 w f fun l c e =>
    (truncInt w ((readSpec l f.a).toInt + (if f.aux.getLsbD 0 then c * (512 / w) else 0 : Nat) + e), 0)

/-- The mixing function of VRNG (08 R256). -/
def rngMix (ctr key : Nat) : Nat :=
  let x := (ctr ^^^ key) % 65536
  let x := (x * 109 + 90) % 65536
  x ^^^ (x / 128)

/-- VRNG (08 R256). -/
def execVrng (h : Hdr) (f : FmtRR) (s : State) : Host.Outcome State Fault Refusal :=
  runLanes h s f fun l c i => BitVec.ofNat 32 (rngMix (lane (readVSpec l c f.a) i).toNat (readSpec l f.b).toNat)

end Machine
end Sys2Proof
end

