-- ==== Sys2Proof/Machine/Dispatch.lean ====
section
/-! DEFINITION. One arm per instruction: its meaning. -/

namespace Sys2Proof
namespace Machine

/-- What an instruction does. -/
def exec (i : Instr) (s : State) : Host.Outcome State Fault Refusal :=
  match i with
  | .nop h => Sys2Proof.Machine.execNop h s
  | .add h f => Sys2Proof.Machine.execAdd h f s
  | .sub h f => Sys2Proof.Machine.execSub h f s
  | .mul h f => Sys2Proof.Machine.execMul h f s
  | .mulHi h f => Sys2Proof.Machine.execMulHi h f s
  | .divI h f => Sys2Proof.Machine.execDivI h f s
  | .divRem h f => Sys2Proof.Machine.execDivRem h f s
  | .andI h f => Sys2Proof.Machine.execAndI h f s
  | .orI h f => Sys2Proof.Machine.execOrI h f s
  | .xorI h f => Sys2Proof.Machine.execXorI h f s
  | .andn h f => Sys2Proof.Machine.execAndn h f s
  | .shl h f => Sys2Proof.Machine.execShl h f s
  | .shr h f => Sys2Proof.Machine.execShr h f s
  | .sra h f => Sys2Proof.Machine.execSra h f s
  | .rot h f => Sys2Proof.Machine.execRot h f s
  | .minI h f => Sys2Proof.Machine.execMinI h f s
  | .maxI h f => Sys2Proof.Machine.execMaxI h f s
  | .cmp h cc f => Sys2Proof.Machine.execCmp h cc f s
  | .sel h f => Sys2Proof.Machine.execSel h f s
  | .movi h f => Sys2Proof.Machine.execMovi h f s
  | .movhi h f => Sys2Proof.Machine.execMovhi h f s
  | .lea h f => Sys2Proof.Machine.execLea h f s
  | .bitsClz h f => Sys2Proof.Machine.execBitsClz h f s
  | .bitsCtz h f => Sys2Proof.Machine.execBitsCtz h f s
  | .bitsPopc h f => Sys2Proof.Machine.execBitsPopc h f s
  | .bitsBrev h f => Sys2Proof.Machine.execBitsBrev h f s
  | .bitsBfx h f => Sys2Proof.Machine.execBitsBfx h f s
  | .bitsBfi h f => Sys2Proof.Machine.execBitsBfi h f s
  | .bitsAbs h f => Sys2Proof.Machine.execBitsAbs h f s
  | .bitsNeg h f => Sys2Proof.Machine.execBitsNeg h f s
  | .plogAnd h f => Sys2Proof.Machine.execPlogAnd h f s
  | .plogOr h f => Sys2Proof.Machine.execPlogOr h f s
  | .plogXor h f => Sys2Proof.Machine.execPlogXor h f s
  | .plogAndn h f => Sys2Proof.Machine.execPlogAndn h f s
  | .fadd h f => Sys2Proof.Machine.execFadd h f s
  | .faddSub h f => Sys2Proof.Machine.execFaddSub h f s
  | .fmul h f => Sys2Proof.Machine.execFmul h f s
  | .fma h f => Sys2Proof.Machine.execFma h f s
  | .fmaFms h f => Sys2Proof.Machine.execFmaFms h f s
  | .fmaFnma h f => Sys2Proof.Machine.execFmaFnma h f s
  | .fdiv h f => Sys2Proof.Machine.execFdiv h f s
  | .fdivSqrt h f => Sys2Proof.Machine.execFdivSqrt h f s
  | .fmin h f => Sys2Proof.Machine.execFmin h f s
  | .fmax h f => Sys2Proof.Machine.execFmax h f s
  | .fcmp h cc f => Sys2Proof.Machine.execFcmp h cc f s
  | .fcvt h f => Sys2Proof.Machine.execFcvt h f s
  | .br h f => Sys2Proof.Machine.execBr h f s
  | .jmp h f => Sys2Proof.Machine.execJmp h f s
  | .call h f => Sys2Proof.Machine.execCall h f s
  | .ret h f => Sys2Proof.Machine.execRet h f s
  | .loopI h f => Sys2Proof.Machine.execLoopI h f s
  | .brkl h => Sys2Proof.Machine.execBrkl h s
  | .rpt h f => Sys2Proof.Machine.execRpt h f s
  | .trap h f => Sys2Proof.Machine.execTrap h f s
  | .resultLanding core slot => Sys2Proof.Machine.execResultLanding core slot s
  | .vadd h f => Sys2Proof.Machine.execVadd h f s
  | .vsub h f => Sys2Proof.Machine.execVsub h f s
  | .vmul h f => Sys2Proof.Machine.execVmul h f s
  | .vmulHi h f => Sys2Proof.Machine.execVmulHi h f s
  | .vmad h f => Sys2Proof.Machine.execVmad h f s
  | .vlogAnd h f => Sys2Proof.Machine.execVlogAnd h f s
  | .vlogOr h f => Sys2Proof.Machine.execVlogOr h f s
  | .vlogXor h f => Sys2Proof.Machine.execVlogXor h f s
  | .vlogAndn h f => Sys2Proof.Machine.execVlogAndn h f s
  | .vshShl h f => Sys2Proof.Machine.execVshShl h f s
  | .vshShr h f => Sys2Proof.Machine.execVshShr h f s
  | .vshSra h f => Sys2Proof.Machine.execVshSra h f s
  | .vshRot h f => Sys2Proof.Machine.execVshRot h f s
  | .vmin h f => Sys2Proof.Machine.execVmin h f s
  | .vmax h f => Sys2Proof.Machine.execVmax h f s
  | .vcmp h cc f => Sys2Proof.Machine.execVcmp h cc f s
  | .vsel h f => Sys2Proof.Machine.execVsel h f s
  | .vfadd h f => Sys2Proof.Machine.execVfadd h f s
  | .vfaddSub h f => Sys2Proof.Machine.execVfaddSub h f s
  | .vfmul h f => Sys2Proof.Machine.execVfmul h f s
  | .vfma h f => Sys2Proof.Machine.execVfma h f s
  | .vfmaFms h f => Sys2Proof.Machine.execVfmaFms h f s
  | .vfmaFnma h f => Sys2Proof.Machine.execVfmaFnma h f s
  | .vfmin h f => Sys2Proof.Machine.execVfmin h f s
  | .vfmax h f => Sys2Proof.Machine.execVfmax h f s
  | .vfcmp h cc f => Sys2Proof.Machine.execVfcmp h cc f s
  | .vsfRcp h f => Sys2Proof.Machine.execVsfRcp h f s
  | .vsfRsqrt h f => Sys2Proof.Machine.execVsfRsqrt h f s
  | .vsfExp2 h f => Sys2Proof.Machine.execVsfExp2 h f s
  | .vsfLog2 h f => Sys2Proof.Machine.execVsfLog2 h f s
  | .vsfSin h f => Sys2Proof.Machine.execVsfSin h f s
  | .vsfCos h f => Sys2Proof.Machine.execVsfCos h f s
  | .vsfTanh h f => Sys2Proof.Machine.execVsfTanh h f s
  | .vsfSigm h f => Sys2Proof.Machine.execVsfSigm h f s
  | .vcvt h f => Sys2Proof.Machine.execVcvt h f s
  | .vcvtBsPack h f => Sys2Proof.Machine.execVcvtBsPack h f s
  | .vcvtBsUnpack h f => Sys2Proof.Machine.execVcvtBsUnpack h f s
  | .vshuf h f => Sys2Proof.Machine.execVshuf h f s
  | .vredAdd h f => Sys2Proof.Machine.execVredAdd h f s
  | .vredMin h f => Sys2Proof.Machine.execVredMin h f s
  | .vredMax h f => Sys2Proof.Machine.execVredMax h f s
  | .vxcp h f => Sys2Proof.Machine.execVxcp h f s
  | .vsplat h f => Sys2Proof.Machine.execVsplat h f s
  | .vext h f => Sys2Proof.Machine.execVext h f s
  | .viota h f => Sys2Proof.Machine.execViota h f s
  | .vrng h f => Sys2Proof.Machine.execVrng h f s
  | .vplogAnd h f => Sys2Proof.Machine.execVplogAnd h f s
  | .vplogOr h f => Sys2Proof.Machine.execVplogOr h f s
  | .vplogXor h f => Sys2Proof.Machine.execVplogXor h f s
  | .vplogAndn h f => Sys2Proof.Machine.execVplogAndn h f s
  | .vpcnt h f => Sys2Proof.Machine.execVpcnt h f s
  | .ld h f => Sys2Proof.Machine.execLd h f s
  | .loadReturn core slot tag => Sys2Proof.Machine.execLoadReturn core slot tag s
  | .st h f => Sys2Proof.Machine.execSt h f s
  | .ldv h f => Sys2Proof.Machine.execLdv h f s
  | .stv h f => Sys2Proof.Machine.execStv h f s
  | .vgath h f => Sys2Proof.Machine.execVgath h f s
  | .vscat h f => Sys2Proof.Machine.execVscat h f s
  | .atomAdd h f => Sys2Proof.Machine.execAtomAdd h f s
  | .atomAnd h f => Sys2Proof.Machine.execAtomAnd h f s
  | .atomOr h f => Sys2Proof.Machine.execAtomOr h f s
  | .atomXor h f => Sys2Proof.Machine.execAtomXor h f s
  | .atomMin h f => Sys2Proof.Machine.execAtomMin h f s
  | .atomMax h f => Sys2Proof.Machine.execAtomMax h f s
  | .atomSwap h f => Sys2Proof.Machine.execAtomSwap h f s
  | .atomCas h f => Sys2Proof.Machine.execAtomCas h f s
  | .atomFadd h f => Sys2Proof.Machine.execAtomFadd h f s
  | .atomBfadd h f => Sys2Proof.Machine.execAtomBfadd h f s
  | .fence h f => Sys2Proof.Machine.execFence h f s
  | .flagI h f => Sys2Proof.Machine.execFlag h f s
  | .waitf h f => Sys2Proof.Machine.execWaitf h f s
  | .waitfT h f => Sys2Proof.Machine.execWaitfT h f s
  | .waitTimeout core slot => Sys2Proof.Machine.execWaitTimeout core slot s
  | .monitorScan die => Sys2Proof.Machine.execMonitorScan die s
  | .cflushWb h f => Sys2Proof.Machine.execCflushWb h f s
  | .cflushInv h f => Sys2Proof.Machine.execCflushInv h f s
  | .cflushWbinv h f => Sys2Proof.Machine.execCflushWbinv h f s
  | .pref h f => Sys2Proof.Machine.execPref h f s
  | .cpy h f => Sys2Proof.Machine.execCpy h f s
  | .cpyScale h f => Sys2Proof.Machine.execCpyScale h f s
  | .copyIntakeDispatch core => Sys2Proof.Machine.execCopyIntakeDispatch core s
  | .copyLineFill core cmd => Sys2Proof.Machine.execCopyLineFill core cmd s
  | .cpyCompletion core cmd => Sys2Proof.Machine.execCpyCompletion core cmd s
  | .ringBind h f => Sys2Proof.Machine.execRingBind h f s
  | .ringGet h f => Sys2Proof.Machine.execRingGet h f s
  | .ringCommit h f => Sys2Proof.Machine.execRingCommit h f s
  | .ringEos h f => Sys2Proof.Machine.execRingEos h f s
  | .ringFree h f => Sys2Proof.Machine.execRingFree h f s
  | .ringStat h f => Sys2Proof.Machine.execRingStat h f s
  | .spawn h f => Sys2Proof.Machine.execSpawn h f s
  | .spawnL h f => Sys2Proof.Machine.execSpawnL h f s
  | .depAdd h f => Sys2Proof.Machine.execDepAdd h f s
  | .depSignal h f => Sys2Proof.Machine.execDepSignal h f s
  | .suspSuspend h f => Sys2Proof.Machine.execSuspSuspend h f s
  | .suspYield h f => Sys2Proof.Machine.execSuspYield h f s
  | .suspFinish h f => Sys2Proof.Machine.execSuspFinish h f s
  | .barArrive h f => Sys2Proof.Machine.execBarArrive h f s
  | .barWait h f => Sys2Proof.Machine.execBarWait h f s
  | .barBoth h f => Sys2Proof.Machine.execBarBoth h f s
  | .getcCoord h f => Sys2Proof.Machine.execGetcCoord h f s
  | .getcShape h f => Sys2Proof.Machine.execGetcShape h f s
  | .getcLaunch h f => Sys2Proof.Machine.execGetcLaunch h f s
  | .getcCore h f => Sys2Proof.Machine.execGetcCore h f s
  | .rput h f => Sys2Proof.Machine.execRput h f s
  | .rputSig h f => Sys2Proof.Machine.execRputSig h f s
  | .rcopy h f => Sys2Proof.Machine.execRcopy h f s
  | .rcopySig h f => Sys2Proof.Machine.execRcopySig h f s
  | .rsem h f => Sys2Proof.Machine.execRsem h f s
  | .rred h f => Sys2Proof.Machine.execRred h f s
  | .mcred h f => Sys2Proof.Machine.execMcred h f s
  | .qpost h f => Sys2Proof.Machine.execQpost h f s
  | .qpostEntryFire block entry => Sys2Proof.Machine.execQpostEntryFire block entry s
  | .qpostTimedFire block entry => Sys2Proof.Machine.execQpostTimedFire block entry s
  | .mbxPost h f => Sys2Proof.Machine.execMbxPost h f s
  | .mbxTake h f => Sys2Proof.Machine.execMbxTake h f s
  | .mbxStatus h f => Sys2Proof.Machine.execMbxStatus h f s
  | .mbxPostnb h f => Sys2Proof.Machine.execMbxPostnb h f s
  | .rack h f => Sys2Proof.Machine.execRack h f s
  | .egressAccept block src => Sys2Proof.Machine.execEgressAccept block src s
  | .wcfg h f => Sys2Proof.Machine.execWcfg h f s
  | .wcfgEg h f => Sys2Proof.Machine.execWcfgEg h f s
  | .pack h f => Sys2Proof.Machine.execPack h f s
  | .packRev h f => Sys2Proof.Machine.execPackRev h f s
  | .packLimb h f => Sys2Proof.Machine.execPackLimb h f s
  | .wmulConv h f => Sys2Proof.Machine.execWmulConv h f s
  | .wmulCorr h f => Sys2Proof.Machine.execWmulCorr h f s
  | .wmulLimb h f => Sys2Proof.Machine.execWmulLimb h f s
  | .wmulOuter h f => Sys2Proof.Machine.execWmulOuter h f s
  | .wmulOuterSp h f => Sys2Proof.Machine.execWmulOuterSp h f s
  | .wmacConv h f => Sys2Proof.Machine.execWmacConv h f s
  | .wmacCorr h f => Sys2Proof.Machine.execWmacCorr h f s
  | .wmacLimb h f => Sys2Proof.Machine.execWmacLimb h f s
  | .wmacOuter h f => Sys2Proof.Machine.execWmacOuter h f s
  | .wmacOuterSp h f => Sys2Proof.Machine.execWmacOuterSp h f s
  | .streamFetch core wm port => Sys2Proof.Machine.execStreamFetch core wm port s
  | .extrDigm h f => Sys2Proof.Machine.execExtrDigm h f s
  | .extrDigs h f => Sys2Proof.Machine.execExtrDigs h f s
  | .extrLimb h f => Sys2Proof.Machine.execExtrLimb h f s
  | .extrTile h f => Sys2Proof.Machine.execExtrTile h f s
  | .extrTileClr h f => Sys2Proof.Machine.execExtrTileClr h f s
  | .wclr h f => Sys2Proof.Machine.execWclr h f s
  | .wmov h f => Sys2Proof.Machine.execWmov h f s
  | .sbindA h f => Sys2Proof.Machine.execSbindA h f s
  | .sbindB h f => Sys2Proof.Machine.execSbindB h f s
  | .sbindUnbind h f => Sys2Proof.Machine.execSbindUnbind h f s
  | .mcall h f => Sys2Proof.Machine.execMcall h f s
  | .routineStart core wm => Sys2Proof.Machine.execRoutineStart core wm s
  | .routineCompletion core wm => Sys2Proof.Machine.execRoutineCompletion core wm s
  | .mpld h f => Sys2Proof.Machine.execMpld h f s
  | .mldr h f => Sys2Proof.Machine.execMldr h f s
  | .mldrEntries h f => Sys2Proof.Machine.execMldrEntries h f s
  | .ftld h f => Sys2Proof.Machine.execFtld h f s
  | .scld h f => Sys2Proof.Machine.execScld h f s
  | .scldRd h f => Sys2Proof.Machine.execScldRd h f s
  | .metaqPush h f => Sys2Proof.Machine.execMetaqPush h f s
  | .metaqClear h f => Sys2Proof.Machine.execMetaqClear h f s
  | .wstat h f => Sys2Proof.Machine.execWstat h f s
  | .wstatClr h f => Sys2Proof.Machine.execWstatClr h f s
  | .mloop h f => Sys2Proof.Machine.execMloop h f s
  | .mjmp h f => Sys2Proof.Machine.execMjmp h f s
  | .mret h f => Sys2Proof.Machine.execMret h f s
  | .apxb h f => Sys2Proof.Machine.execApxb h f s
  | .apxe h f => Sys2Proof.Machine.execApxe h f s
  | .apxc h f => Sys2Proof.Machine.execApxc h f s
  | .apxsRd h f => Sys2Proof.Machine.execApxsRd h f s
  | .apxsWr h f => Sys2Proof.Machine.execApxsWr h f s
  | .apxsInv h f => Sys2Proof.Machine.execApxsInv h f s
  | .equinoxBatchUpdate block rslot => Sys2Proof.Machine.execEquinoxBatchUpdate block rslot s
  | .csrRd h f => Sys2Proof.Machine.execCsrRd h f s
  | .csrWr h f => Sys2Proof.Machine.execCsrWr h f s
  | .csrSet h f => Sys2Proof.Machine.execCsrSet h f s
  | .csrClr h f => Sys2Proof.Machine.execCsrClr h f s
  | .rft h => Sys2Proof.Machine.execRft h s
  | .tlbiAll h f => Sys2Proof.Machine.execTlbiAll h f s
  | .tlbiAddr h f => Sys2Proof.Machine.execTlbiAddr h f s
  | .tlbiCtx h f => Sys2Proof.Machine.execTlbiCtx h f s
  | .ctxSave h f => Sys2Proof.Machine.execCtxSave h f s
  | .ctxRestore h f => Sys2Proof.Machine.execCtxRestore h f s
  | .wfe h => Sys2Proof.Machine.execWfe h s
  | .wfeTimeout core slot => Sys2Proof.Machine.execWfeTimeout core slot s
  | .halt h => Sys2Proof.Machine.execHalt h s
  | .pageWalkComplete core slot => Sys2Proof.Machine.execPageWalkComplete core slot s
  | .launchIntake => Sys2Proof.Machine.execLaunchIntake s
  | .launchCompletion handle => Sys2Proof.Machine.execLaunchCompletion handle s
  | .dispatchDecision die => Sys2Proof.Machine.execDispatchDecision die s
  | .readyRecordRefill die => Sys2Proof.Machine.execReadyRecordRefill die s
  | .priorityAging die rec => Sys2Proof.Machine.execPriorityAging die rec s
  | .preempt die part rec port => Sys2Proof.Machine.execPreempt die part rec s port
  | .preemptWindowExpiry core slot => Sys2Proof.Machine.execPreemptWindowExpiry core slot s
  | .gangFrameWrite die launch gang => Sys2Proof.Machine.execGangFrameWrite die launch gang s
  | .resume die part rec port => Sys2Proof.Machine.execResume die part rec s port
  | .launchkill die part handle port => Sys2Proof.Machine.execLaunchkill die part handle s port
  | .registerWrite port reg value => Sys2Proof.Machine.execRegisterWrite port reg value s
  | .springFill stack rec => Sys2Proof.Machine.execSpringFill stack rec s
  | .fallDrain stack rec => Sys2Proof.Machine.execFallDrain stack rec s
  | .flitReceive link flit => Sys2Proof.Machine.execFlitReceive link flit s
  | .nakFlit link seq => Sys2Proof.Machine.execNakFlit link seq s
  | .keydone link => Sys2Proof.Machine.execKeydone link s
  | .laneFailure link lane rx => Sys2Proof.Machine.execLaneFailure link lane s rx
  | .retrainTimeout link => Sys2Proof.Machine.execRetrainTimeout link s
  | .putPkt pkt => Sys2Proof.Machine.execPutPkt pkt s
  | .redPkt pkt => Sys2Proof.Machine.execRedPkt pkt s
  | .semPkt pkt => Sys2Proof.Machine.execSemPkt pkt s
  | .mcredContribution pkt => Sys2Proof.Machine.execMcredContribution pkt s
  | .mcredRoundTimeout job group => Sys2Proof.Machine.execMcredRoundTimeout job group s
  | .mcdata pkt => Sys2Proof.Machine.execMcdata pkt s
  | .readPkt pkt => Sys2Proof.Machine.execReadPkt pkt s
  | .atomic pkt => Sys2Proof.Machine.execAtomic pkt s
  | .respPkt pkt => Sys2Proof.Machine.execRespPkt pkt s
  | .ackPkt pkt => Sys2Proof.Machine.execAckPkt pkt s
  | .timeSyncExchange t1 t2 t3 t4 => Sys2Proof.Machine.execTimeSyncExchange t1 t2 t3 t4 s
  | .cpsem port value other => Sys2Proof.Machine.execCpsem port value other s
  | .hostLinkDown port => Sys2Proof.Machine.execHostLinkDown port s
  | .evtdoor port part => Sys2Proof.Machine.execEvtdoor port part s
  | .qerrClear port q => Sys2Proof.Machine.execQerrClear port q s
  | .fltqptrHeadWrite part value => Sys2Proof.Machine.execFltqptrHeadWrite part value s
  | .fltqbaseWrite part value => Sys2Proof.Machine.execFltqbaseWrite part value s
  | .launchReq port q pkt => Sys2Proof.Machine.execLaunchReq port q pkt s
  | .depsig port q pkt => Sys2Proof.Machine.execDepsig port q pkt s
  | .flagadd port q pkt => Sys2Proof.Machine.execFlagadd port q pkt s
  | .packetNop port q pkt => Sys2Proof.Machine.execPacketNop port q pkt s
  | .atsInvalidation port pasid page => Sys2Proof.Machine.execAtsInvalidation port pasid page s
  | .hostFlagAccess host part ofs kind => Sys2Proof.Machine.execHostFlagAccess host part ofs kind s
  | .hostExtentAccess host ext line kind => Sys2Proof.Machine.execHostExtentAccess host ext line kind s
  | .snapviewPin host ext => Sys2Proof.Machine.execSnapviewPin host ext s
  | .snapviewUnpin host ext => Sys2Proof.Machine.execSnapviewUnpin host ext s
  | .extentRevoke port ext => Sys2Proof.Machine.execExtentRevoke port ext s
  | .drainTimeout ext => Sys2Proof.Machine.execDrainTimeout ext s
  | .recallTimeout ext line => Sys2Proof.Machine.execRecallTimeout ext line s
  | .extentZeroing ext => Sys2Proof.Machine.execExtentZeroing ext s
  | .assign port req => Sys2Proof.Machine.execAssign port req s
  | .grow port part blocks units zero => Sys2Proof.Machine.execGrow port part blocks units s zero
  | .shrink port part blocks units zero => Sys2Proof.Machine.execShrink port part blocks units s zero
  | .remove port part zero => Sys2Proof.Machine.execRemove port part s zero
  | .debugpol port part policy zero => Sys2Proof.Machine.execDebugpol port part policy s zero
  | .imageReq port image zero => Sys2Proof.Machine.execImageReq port image s zero
  | .fwFence port unit lift zero => Sys2Proof.Machine.execFwFence port unit lift s zero
  | .fwStatus port zero => Sys2Proof.Machine.execFwStatus port s zero
  | .lockInterface part => Sys2Proof.Machine.execLockInterface part s
  | .stopInterface part => Sys2Proof.Machine.execStopInterface part s
  | .startInterface part => Sys2Proof.Machine.execStartInterface part s
  | .getDeviceInterfaceState part => Sys2Proof.Machine.execGetDeviceInterfaceState part s
  | .getDeviceInterfaceReport part => Sys2Proof.Machine.execGetDeviceInterfaceReport part s
  | .getVersion ses msg => Sys2Proof.Machine.execGetVersion ses msg s
  | .getCapabilities ses msg => Sys2Proof.Machine.execGetCapabilities ses msg s
  | .negotiateAlgorithms ses msg => Sys2Proof.Machine.execNegotiateAlgorithms ses msg s
  | .getDigests ses msg => Sys2Proof.Machine.execGetDigests ses msg s
  | .getCertificate ses msg => Sys2Proof.Machine.execGetCertificate ses msg s
  | .challenge ses msg => Sys2Proof.Machine.execChallenge ses msg s
  | .getMeasurements ses index msg => Sys2Proof.Machine.execGetMeasurements ses index msg s
  | .keyExchange ses msg => Sys2Proof.Machine.execKeyExchange ses msg s
  | .finish ses msg => Sys2Proof.Machine.execFinish ses msg s
  | .keyUpdate link tx key salt ses => Sys2Proof.Machine.execKeyUpdate link tx key salt s ses
  | .heartbeat ses msg => Sys2Proof.Machine.execHeartbeat ses msg s
  | .endSession ses msg => Sys2Proof.Machine.execEndSession ses msg s
  | .resetDev => Sys2Proof.Machine.execResetDev s
  | .recoveryImageLoad port image => Sys2Proof.Machine.execRecoveryImageLoad port image s
  | .governorLower power junction => Sys2Proof.Machine.execGovernorLower power junction s
  | .governorRaise power junction => Sys2Proof.Machine.execGovernorRaise power junction s
  | .thermalShutdown junction => Sys2Proof.Machine.execThermalShutdown junction s
  | .patrolScrub unit => Sys2Proof.Machine.execPatrolScrub unit s
  | .correctedError unit => Sys2Proof.Machine.execCorrectedError unit s
  | .uncorrectedError unit => Sys2Proof.Machine.execUncorrectedError unit s
  | .retrainingComplete link lanes ports rxLanes => Sys2Proof.Machine.execRetrainingComplete link lanes s ports rxLanes
  | .recallResponse ext line host dirty => Sys2Proof.Machine.execRecallResponse ext line host dirty s

end Machine
end Sys2Proof
end

