-- ==== Sys2Proof/Machine/Held.lean ====
section
/-! DEFINITION. Issue: what holds a group (06 R176), the opening of a group from its fetch to its first word, and what a held slot
or an idle device goes on with. -/

namespace Sys2Proof
namespace Machine

/-! ### What holds a group from issue (06 R176) -/

/-- The scope of a word that is a release or a fence, or whose engine acquires (05 R136, R137, R141, R145, R147, R148; 12 R375; 17 R453);
of QPOST the entry says it. -/
def orderScope : Instr → Option (BitVec 3)
  | .fence _ f => some f.scope
  | .st _ f | .stv _ f => if f.ord = 2 then some f.scope else none
  | .vscat _ f => if f.ord = 2 then some f.scope else none
  | .flagI _ f => if f.ord = 2 then some f.scope else none
  | .atomAdd _ f | .atomAnd _ f | .atomOr _ f | .atomXor _ f | .atomMin _ f | .atomMax _ f | .atomSwap _ f | .atomCas _ f
  | .atomFadd _ f | .atomBfadd _ f => if 2 ≤ f.ord.toNat then some f.scope else none
  | .depAdd _ f | .depSignal _ f => some f.scope
  | .spawn _ _ | .spawnL _ _ | .suspSuspend _ _ | .tlbiAll _ _ | .tlbiAddr _ _ | .tlbiCtx _ _ => some 3
  | .cpy _ f | .cpyScale _ f => if f.acq = 1 then some f.scope else none
  | .mcall _ f => if f.acq = 1 then some f.scope else none
  | .rput _ f | .rputSig _ f | .rcopy _ f | .rcopySig _ f | .rsem _ f | .rred _ f | .mcred _ f =>
    if f.acq = 1 then some f.scope else none
  | .ringCommit _ _ | .ringEos _ _ => some 2
  | .barArrive _ _ | .barBoth _ _ | .mbxPost _ _ | .mbxPostnb _ _ => some 1
  | _ => none

/-- The scope that the entry of a QPOST acquires at, so that the word is a release there (05 R141; 12 Table 12-5). -/
def State.qpostScope (s : State) : Instr → Option (BitVec 3)
  | .qpost _ f =>
    match s.access .load (readSpec s.me f.a).toNat 64 64 false with
    | .ok segs s => let bs := readSegs s segs
        if qeAcq bs then some (BitVec.ofNat 3 (qeF bs 3 1)) else none
    | _ => none
  | _ => none

/-- The scope at which a word orders what its task has done before it. -/
def State.ordersAt (s : State) (i : Instr) : Option (BitVec 3) := (orderScope i).orElse fun _ => s.qpostScope i

/-- Whether a word waits for its core's remote words: a release or fence at chip scope or wider (05 R156), and a RACK that says so (12
R377). -/
def State.waitsAcks (s : State) (i : Instr) : Bool :=
  (match s.ordersAt i with | some x => 3 ≤ x.toNat | none => false) || match i with | .rack _ f => f.imm.getLsbD 0 | _ => false

/-- Whether results of the slot's bank are in flight. -/
def Slot.inFlight (l : Slot) : Bool := !l.bank.inflight.isEmpty || l.bank.tags.any fun x => !x.2.isEmpty

/-- The slot with the turn at word j of its group. -/
def Slot.atWord (l : Slot) (j : Nat) : Slot := l.setGroup fun g => { g with idx := j }

/-- A direct OUTER step whose stream line is EMPTY (10 R317). -/
def State.lineHeld (s : State) (i : Instr) : Bool :=
  match i with
  | .wmulOuter _ f | .wmacOuter _ f => s.outerHeld (s.me.eng f.wu.toNat) f false
  | .wmulOuterSp _ f | .wmacOuterSp _ f => s.outerHeld (s.me.eng f.wu.toNat) f true
  | _ => false

/-- Whether word j is held, where it is enabled. -/
def State.wordHeld (s : State) (x : Nat × Instr) : Bool :=
  let l := s.me.atWord x.1
  let on : Bool := match hdrOf x.2 with | some h => l.enabled h | none => false
  on && ((s.myCore.acks ≠ 0 && s.waitsAcks x.2) || s.tlbiHeld x.2 || (l.peerReads && (s.ordersAt x.2).isSome) || (waitsResults x.2 && l.inFlight) ||
    s.lineHeld x.2)

/-- What stands in and behind a block's mailbox and August queue. -/
def State.queues (s : State) : Nat × Nat :=
  let b := s.block (coreBlock s.cur.1)
  (b.queued false, b.queued true)

/-- A word adds to a queue that has no free entry: it is held instead (12 R362, R363, R375).  A word that sends more than its queue has
entries free issues as there is one: its other words follow as entries come free. -/
def overfull (before after : Nat × Nat) : Bool :=
  let grew (x y : Nat) : Bool := x < y && mailboxSize ≤ x
  grew before.1 after.1 || grew before.2 after.2

/-- The words that a group's issue performs with every repeat's registers (06 R191). -/
def repeats (ws : List IWord) (is : List Instr) : List Instr :=
  match is.head?.bind rptOf, ws[1]? with
  | some (n, step), some w => (List.range n).filterMap fun m =>
      (stepWord w step m).bind fun w => match decodeWord w with | .ok i => some i | .error _ => none
  | _, _ => []

/-! ### Opening a group -/

/-- What the slot that issues comes to: a word runs, after the words in `ws` have been looked at for a full queue; the slot has
taken a trap or gone on otherwise; or it is held. -/
inductive Opened where
  | run (i : Instr) (ws : List (Nat × Instr)) (s : State)
  | went (s : State)
  | held (s : State)

/-- A group trap (17 R441): the group does not issue. -/
def State.groupTrap (s : State) (c : Cause) (info : Word) (pc : BitVec 32) : State := s.takeTrap ⟨c, info, pc⟩ .g s.me.pc

/-- A level-T group with an enabled word of the side-effect class spoils the open region (13 R387). -/
def State.sideEffects (s : State) (ws : List (Nat × Instr)) : State :=
  let l := s.me
  if l.level = .t && apxOpen l && ws.any (fun x => sideEffect x.2 && match hdrOf x.2 with | some h => (l.atWord x.1).enabled h | none => false)
    then s.spoilRegion else s

/-- Whether enabled words, each with its index in the group, read the pending destinations of busy tags. -/
def Slot.readsStale (l : Slot) (xs : List (Nat × Instr)) : Bool :=
  xs.any fun x => l.reads x.2 (consOf x.2) && (l.atWord x.1).acts x.2

/-- Words that issue consume their tags, or read tokens: the scale entries behind them are visible from then on, also in
the core on which the copy ran (09 R283). -/
def State.consume (s : State) (xs : List (Nat × Instr)) : State :=
  let q := s.me.id.seq
  let p (d : ScaleDue) : Bool := d.seq = q && xs.any fun x =>
    (d.tag ≠ 0 && consOf x.2 = d.tag) || (uses x.2).any fun u => match u with | .rd r => d.dst.meets r | _ => false
  if s.cores.any fun x => x.2.scaleDue.any p then { s with cores := s.cores.map fun x => (x.1, x.2.takeScales p) } else s

/-- STALE is set in the cycle in progress (06 R185, 17 R437). -/
def State.setStale (s : State) (on : Bool) : State :=
  if on then s.setMe ((s.me.setCtx csStale).setGroup fun g => { g with ctxSet := g.ctxSet ||| csStale }) else s

/-- The group issues: STALE, RPT's captures, tokens consumed, side effects. -/
def State.issueGroup (s : State) (ws : List IWord) (is : List Instr) : State :=
  let l := s.me
  let stale := is.any fun i => l.reads i (consOf i) && l.acts i
  let caps : SMap Capture := match is.head?.bind rptOf, is[1]? with
    | some _, some i => [(1, l.rptCapture i)]
    | _, _ => []
  let g : Group :=
    { pc := l.pc, words := ws, checked := true, ctx0 := some l.csr.ctxstat, ctxSet := if stale then csStale else 0, caps := caps }
  let s := s.setMe { (if stale then l.setCtx csStale else l) with grp := some g, fetch := none }
  let xs := is.zipIdx.map fun x => (x.2, x.1)
  (s.consume xs).sideEffects xs

/-- The first run of a word on another chip that its fetch does not have: its address in the task, and the run. -/
def missingRun (f : PeerFetch) : Nat → List Seg → Option (Nat × Seg)
  | _, [] => none
  | a, g :: r =>
    if isPeer g && (List.range g.len).any (fun i => (Sparse.find f.got (a + i)).isNone) then some (a, g) else missingRun f (a + g.len) r

/-- The fetch of a word on a page of another chip: one read at a time goes there as there is a free entry for it, and the group is held
until its words are there (12 R362; 19 R490). -/
def State.askFetch (s : State) (a : Nat) (segs : List Seg) : State :=
  let l := s.me
  let f := l.peerFetch (l.code.1 + BitVec.ofNat 64 (10 * l.pc.toNat)).toNat
  if f.seq.isSome || s.queueFull s.cur.1 then s
  else match missingRun f a segs with
    | some (va, g) =>
      (match g.loc with
      | .peer chip q =>
        let w := { RemoteWord.blank s opRead with
          a := BitVec.ofNat 64 (podAddr chip q), b := BitVec.ofNat 64 g.len, c := BitVec.ofNat 64 va, reply := 6, via := s.viaPage va }
        (s.setMe { l with fetch := some { f with seq := some s.myCore.nextRemote } }).sendRemote w
      | _ => s)
    | none => s

/-- A group at the PC is opened: fetched, checked, held or issued. -/
def State.openGroup (s : State) : Opened :=
  match fetchGroup s with
  | .ask a segs s => .held (s.askFetch a segs)
  | .walk a s =>
    let l := s.me
    .held (s.setMe { l with walk := some ⟨BitVec.ofNat 64 a, true, false, false, l.pc, s.cycle⟩ })
  | .fault c info pc s => .went (s.groupTrap c info (BitVec.ofNat 32 pc))
  | .ok ws s =>
    let l := s.me
    match checkGroup l ws l.pc with
    | .error (c, info, j) => .went (s.groupTrap c info (l.pc + BitVec.ofNat 32 j))
    | .ok is =>
      let xs := is.zipIdx.map fun x => (x.2, x.1)
      if (is ++ repeats ws is).any (fun i => l.tagStall i || l.acqHeld i) || xs.any s.wordHeld then .held s
      else match firstBad is.length fun j => l.loopDepth (is.getD j (.nop ⟨true, 0, 0, 0⟩)) with
        | some j => .went (s.groupTrap .loopDepth 0 (l.pc + BitVec.ofNat 32 j))
        | none =>
          match is with
          | [] => .held s
          | i :: _ => .run i xs (s.issueGroup ws is)

/-- A group that is issued again: held as at its first issue. -/
def State.reopen (s : State) (g : Group) : Opened :=
  let l := s.me
  let xs := g.leftWords
  if xs.any (fun x => l.tagStall x.2 || l.acqHeld x.2) || xs.any s.wordHeld then .held s
  else match xs with
    | [] => .held s
    | (j, i) :: _ =>
      let l := l.setGroup fun g => { g with idx := j, checked := true, ctx0 := some l.csr.ctxstat }
      .run i xs ((((s.setMe l).setStale (l.readsStale xs)).consume xs).sideEffects xs)

/-- The word whose turn it is in a group that issues: of an RPT group's target, its repeat (06 R191). -/
def Group.word (g : Group) : Option Instr :=
  let w := g.words.getD g.idx 0
  match (if g.rptCount ≠ 0 && g.idx = 1 then stepWord w g.rptStep g.rptM else some w) with
  | some w => (match decodeWord w with | .ok i => some i | .error _ => none)
  | none => none

/-- Whether a slot can issue: not within 8 cycles of its dispatch (18 R461). -/
def State.runnable (s : State) (c k : Nat) : Bool :=
  (s.slot c k).st = .running && (s.slot c k).notBefore ≤ s.cycle && !(s.core c).halted

/-- A request whose window has passed freezes the task at a group boundary (18 R471). -/
def State.windowOver (s : State) : Bool :=
  let l := s.me
  match l.pre with
  | some p => l.level = .t && p.counting && !p.landed &&
      ((s.die (coreDie s.cur.1)).march l.id.part).pwin.toNat ≤ p.now s.cycle
  | none => false

/-- The freeze; a task that has nowhere to go goes on until a frame cell is free (18 R466). -/
def State.freeze (s : State) : Option State :=
  let l := s.me
  if s.windowOver && (s.coresident l.id.part l.id.handle l.id.member || s.hasCell s.cur.1 l.id.part) then
    match execPreemptWindowExpiry s.cur.1 s.cur.2 s with | .next t => if t = s then none else some t | _ => none
  else none

/-- Whether a group is between repeats of an RPT, the next of which has not issued. -/
def Group.betweenRepeats (g : Group) : Bool := g.checked && g.rptM ≠ 0 && g.idx = 1 && !g.reissue

/-- Between repeats the slot goes back to its RPT group, with the repeats that have not issued in RPTREM (06 R193). -/
def Slot.cutRepeats (l : Slot) : Slot :=
  match l.grp with
  | some g => { l with grp := none, pc := g.pc, rptResume := true,
                       csr := { l.csr with rptrem := BitVec.ofNat 7 (g.rptCount - g.rptM) } }
  | none => l

/-- A repeat issues: the target's tag consume was read before the first repeat (06 R192), so its own pending destinations count. -/
def State.openRepeat (s : State) (i : Instr) : Opened :=
  match (s.setMe s.me.cutRepeats).freeze with
  | some t => .went t
  | none =>
    if s.wordHeld (1, i) || s.me.acqHeld i then .held s else .run i [(1, i)] (s.setStale (s.me.reads i 0 && s.me.acts i))

/-- The slot that issues: at a group boundary it opens or reopens a group; within a group the next word runs; between repeats the
next repeat. -/
def State.openSlot (s : State) : Opened :=
  let l := s.me
  if l.walk.isSome then .held s
  else match l.grp with
    | none => match s.freeze with | some t => .went t | none => s.openGroup
    | some g =>
      if g.checked then
        match g.word with
        | none => .held s
        | some i => if g.betweenRepeats then s.openRepeat i else .run i [(g.idx, i)] s
      else match (if l.rpl.valid then s.freeze else none) with | some t => .went t | none => s.reopen g

/-! ### What goes on meanwhile -/

/-- What another agent does next: a device event, or a word of the routine in a sequencer. -/
abbrev Chore := (State → Host.Outcome State Fault Refusal) ⊕ (Nat × Nat)

/-- What a tag's result waits for. -/
def tagTurns (c k t : Nat) (r : TagRes) : List Chore :=
  match r.op with
  | .value _ _ => [.inl (execLoadReturn c k t)]
  | .copy id => [.inl (execCopyIntakeDispatch c), .inl (execCopyLineFill c id), .inl (execCpyCompletion c id)]
  | .routine u => [.inl (execRoutineStart c u), .inr (c, u), .inl (execStreamFetch c u 0), .inl (execStreamFetch c u 1),
                   .inl (execRoutineCompletion c u)]
  | _ => []

/-- The egress of a block. -/
def egressTurns (b : Nat) : List Chore :=
  [.inl (execEgressAccept b .august), .inl (execEgressAccept b .mailbox), .inl (execEgressAccept b .fired)]

/-- What a held slot waits for. -/
def State.slotTurns (s : State) (c k : Nat) : List Chore :=
  let l := s.slot c k
  (if l.walk.isSome then [.inl (execPageWalkComplete c k)] else []) ++
  ((l.bank.tags ++ l.tb.tags).flatMap fun x => x.2.flatMap (tagTurns c k x.1)) ++ egressTurns (coreBlock c) ++
  (if s.drains c k then [.inl (execResultLanding c k)] else [])

/-- What a core goes on with beside its slots. -/
def Core.turns (x : Core) (c : Nat) : List Chore :=
  (x.slots.flatMap fun y =>
    (if y.2.walk.isSome then [.inl (execPageWalkComplete c y.1)] else []) ++
    ((y.2.bank.tags ++ y.2.tb.tags).flatMap fun z => z.2.flatMap (tagTurns c y.1 z.1)) ++
    [.inl (execWaitTimeout c y.1), .inl (execWfeTimeout c y.1)] ++
    (if y.2.pre.isSome then [.inl (execPreemptWindowExpiry c y.1)] else [])) ++
  [.inl (execCopyIntakeDispatch c)] ++
  (x.copies.flatMap fun y => [.inl (execCopyLineFill c y.1), .inl (execCpyCompletion c y.1)]) ++
  (x.wms.flatMap fun y => [.inl (execRoutineStart c y.1), .inr (c, y.1), .inl (execStreamFetch c y.1 0),
    .inl (execStreamFetch c y.1 1), .inl (execRoutineCompletion c y.1)])

/-- What the device goes on with beside the slots: launches, March, engines, egress, Spring and Fall, extents. -/
def State.idleTurns (s : State) : List Chore :=
  [.inl execLaunchIntake] ++
  (s.dies.flatMap fun x => [.inl (execDispatchDecision x.1), .inl (execReadyRecordRefill x.1)] ++
    (x.2.recs.filterMap fun r => if r.member then some (.inl (execGangFrameWrite x.1 r.handle (s.gangOf r.part r.handle r.coord).1)) else none)) ++
  (s.cores.flatMap fun x => x.2.turns x.1) ++
  (s.blocks.flatMap fun x => egressTurns x.1 ++
    (x.2.qtab.flatMap fun y => [.inl (execQpostEntryFire x.1 y.1), .inl (execQpostTimedFire x.1 y.1)]) ++
    (x.2.eqx.map fun y => .inl (execEquinoxBatchUpdate x.1 y.1))) ++
  (s.launches.map fun x => .inl (execLaunchCompletion x.handle)) ++
  (s.sf.flatMap fun x => [.inl (execSpringFill (x.1 / 256) (x.1 % 256)), .inl (execFallDrain (x.1 / 256) (x.1 % 256))]) ++
  (s.fab.links.filterMap fun x => if x.2.retraining then some (.inl (execRetrainTimeout x.1)) else none) ++
  (s.host.exts.flatMap fun x => .inl (execDrainTimeout x.1) :: .inl (execExtentZeroing x.1) ::
    x.2.recalls.map fun r => .inl (execRecallTimeout x.1 r.line))

/-- The slots that can issue. -/
def State.runners (s : State) : List (Nat × Nat) :=
  s.cores.flatMap fun x => x.2.slots.filterMap fun y => if y.1 < 4 && s.runnable x.1 y.1 then some (x.1, y.1) else none

/-- The next slot in turn that can issue. -/
def State.nextRunner (s : State) : Option (Nat × Nat) :=
  let rs := s.runners
  (rs.find? fun x => s.cur.1 < x.1 || (s.cur.1 = x.1 && s.cur.2 < x.2)).orElse fun _ => rs.head?

/-- Another slot has the turn. -/
def State.rotate (s : State) : State := match s.nextRunner with | some x => { s with cur := x } | none => s

/-- The requests that waited for a frame cell begin to count as one is free, wherever their targets stand (18 R470). -/
def State.startCounts (s : State) : State :=
  let due (c : Nat) (l : Slot) : Bool := match l.pre with
    | some p => !p.counting && !p.landed && l.level = .t && s.hasCell c l.id.part
    | none => false
  if !s.cores.any (fun x => x.2.slots.any fun y => due x.1 y.2) then s
  else { s with cores := s.cores.map fun (c, x) => (c, { x with slots := x.slots.map fun (k, l) =>
      (k, if due c l then { l with pre := l.pre.map fun (p : PreReq) => p.go s.cycle } else l) }) }

/-- After every step: a scan that is due, frames that waited for loads, then waits and watches are tested against what it wrote
(09 R275; 12 R381; 17 R451; 18 R470, R474), what R549 moves goes on, firmware answers the request that it has served (22 R547), words
enter queues that have room (12 R362), writes their pages (21 R542), an interface in ERROR loses its launches (22 R551), and the links
send what they can (20 R504). -/
def State.after (s : State) : State :=
  s.refillQueues.snapRetry.killFrozen.scans.settleSlots.retest.testWatches.startCounts.freeLeaving.answerServed.trackParent.flushLinks

/-- Whether an instruction is a word of a program. -/
def isWord (i : Instr) : Bool := (hdrOf i).isSome

end Machine
end Sys2Proof
end

