-- ==== Sys2Proof/Machine/Turns.lean ====
section
/-! DEFINITION. Turns: what the agenda's next party does, and by default the boot sequence, the slot that issues, and what goes on
while a slot is held or none issues (00 R14; 06 R176, R186). -/

namespace Sys2Proof
namespace Machine

/-- A word of the routine in a sequencer, on behalf of its task. -/
def routineTurn (c u : Nat) (s : State) : Host.Outcome State Fault Refusal :=
  match s.running c u with
  | none => .next s
  | some r =>
    if r.done then .next s
    else
      let t := { s with inRoutine := some (c, u), cur := (r.own.core, r.own.slot) }
      match (match t.routineWord r with | .ok i => exec i t | .error x => .next (t.routineFault c u x)) with
      | .next t => .next { t with inRoutine := none, cur := s.cur }
      | o => o

/-- What a chore makes of the machine, if it changes anything. -/
def chore (s : State) (x : Chore) : Option State :=
  match (match x with | .inl f => f s | .inr (c, u) => routineTurn c u s) with
  | .next t => if t = s then none else some t
  | _ => none

/-- Whether a word of a group would take a queue beyond its entries (12 R362, R375). -/
def queueHeld (ws : List (Nat × Instr)) (s t : State) : Bool :=
  (mailboxSize ≤ s.queues.1 || mailboxSize ≤ s.queues.2) && ws.any fun x =>
    match exec x.2 (t.setMe (t.me.atWord x.1)) with
    | .next u => overfull s.queues u.queues
    | _ => false

/-- A held slot: what it waits for goes on, or another slot has the turn. -/
def waitTurn (s : State) : Host.Outcome State Fault Refusal :=
  match (s.slotTurns s.cur.1 s.cur.2 ++ if s.runners = [s.cur] then s.idleTurns else []).findSome? (chore s) with
  | some t => .next t
  | none => .next s.rotate.tick

/-- What the slot that issues does, its next word by `run`. -/
def issueBy (run : Instr → State → Host.Outcome State Fault Refusal) (s : State) : Host.Outcome State Fault Refusal :=
  match s.openSlot with
  | .went t => .next t
  | .held t => waitTurn t
  | .run i ws t => if queueHeld ws s t then waitTurn s else run i t

/-! ### The true code of a region (13 R394) -/

/-- A slot runs, on a copy of the machine, until its region closes, the handlers of its traps among its code (13 R395); none where it does
not come to that in its slot. -/
def runRegion : Nat → State → Option State
  | 0, _ => none
  | fuel + 1, s =>
    if s.me.st ≠ .running then none
    else if !apxOpen s.me then some s
    else match issueBy exec s with
      | .next t => runRegion fuel { t with cur := s.cur }
      | _ => none

/-- Every result in flight lands. -/
def landFlight : Nat → Slot → Slot
  | 0, l => l
  | fuel + 1, l => if l.bank.inflight.isEmpty then l else landFlight fuel l.endCycle.1

/-- What the registers hold after the true code of the region that an APXB opens: it runs on a copy of the machine as if the region
were observed, for 2^32 turns at most; none where the task parks, ends or waits beyond that, after which the registers keep the values at
APXB that the rule allows them. -/
def State.trueCode (s : State) (h : Hdr) (f : FmtE) : Option Truth :=
  let t := match s.apxEntry.rslotOf (apxField f) with | some (i, r) => s.apxEntry.setRslot i { r with state := 1 } | none => s
  (match exec (.apxb h f) t with | .next u => runRegion 4294967296 u | _ => none).map fun (u : State) =>
    let l := landFlight 64 u.me.landAll.1
    ⟨l.tb, l.files, l.mp, u.myCore.w, u.myCore.acc, u.myCore.ta⟩

/-- The machine with what the next word needs to know: of an APXB that a network stands in for, its true code. -/
def foresee (i : Instr) (s : State) : State :=
  match i with
  | .apxb h f => if s.me.enabled h && (s.substitutes f).isSome then s.setMe { s.me with truth := s.trueCode h f } else s
  | _ => s

/-- The slot that issues: a word of its group. -/
def issueTurn (s : State) : Host.Outcome State Fault Refusal := issueBy (fun i t => exec i (foresee i t)) s

/-- What an agent beside the slots goes on with, if any can: the agents take turns by the cycle. -/
def State.nextChore (s : State) : Option State :=
  let l := s.idleTurns
  (l.rotate (s.cycle % (l.length + 1))).findSome? (chore s)

/-- No slot issues: another agent goes on, or a cycle passes. -/
def idleTurn (s : State) : Host.Outcome State Fault Refusal :=
  match s.nextChore with
  | some t => .next t
  | none => .next s.tick

/-- Whether another agent has the turn in this cycle before a slot issues a group: once in each cycle, so that READY work is dispatched
and engines go on however the slots' tasks run (02 R58). -/
def State.choreDue (s : State) : Bool := s.chored ≤ s.cycle && s.me.grp.isNone

/-- A turn of the agenda.  An event is a device event of units that exist; a word of a program runs
by its slot's turn only. -/
def runTurn (s : State) : Turn → Host.Outcome State Fault Refusal
  | .issue c k => if s.runnable c k then issueTurn { s with cur := (c, k) } else .next s
  | .routine c u => routineTurn c u s
  | .idle => .next s.tick
  | .event i => if isWord i || !wellFormed i then .next s else exec i s

/-- The turn where the agenda names none: the boot sequence, another agent once in each cycle, the slot whose turn it is, the next that can
issue, or no slot. -/
def defaultTurn (s : State) : Host.Outcome State Fault Refusal :=
  if s.fw.boot < 6 && !s.fw.waitsImage then .next s.boot
  else match (if s.choreDue then s.nextChore else none) with
  | some t => .next { t with chored := s.cycle + 1 }
  | none =>
  if s.runnable s.cur.1 s.cur.2 then issueTurn s
  else match s.nextRunner with
    | some x => issueTurn { s with cur := x }
    | none => idleTurn s

/-- Whether the agenda names a RESET next, which alone a stopped device takes (22 R562). -/
def State.resetNext (s : State) : Bool := match s.agenda with | .event .resetDev :: _ => true | _ => false

/-- What a turn does, before the waits are tested. -/
def turn (s : State) : Host.Outcome State Fault Refusal :=
  match s.agenda with
  | t :: rest => runTurn { s with agenda := rest } t
  | [] => defaultTurn s

end Machine
end Sys2Proof
end

