-- ==== Sys2Proof/Machine/Step.lean ====
section
/-! DEFINITION. One step of the package: a turn, and the waits that it ends; and the placing of an instruction where the next step
fetches it. -/

namespace Sys2Proof
namespace Machine

/-- One step.  A junction above 115 °C has stopped the device; the next boot follows a reset (22 R562). -/
def step (s : State) : Host.Outcome State Fault Refusal :=
  if s.fw.shutdown && !s.resetNext then .fault .deviceStopped
  else match turn s with
    | .next t => .next t.after
    | o => o

/-! ### Placing an instruction -/

/-- A header that declares every register. -/
def fullHeader : Header :=
  { entry := 0, codeLen := 1048576, ns := 128, nq := 16, nv := 64, nvq := 8, nw := 8, nacc := 4, nta := 4, nrh := 32, nbar := 16,
    stages := 1, scratch := 1048576, routines := 0, routLen := 0, napx := 16, apxTab := 0, data := 0, dataLen := 0 }

/-- The identity translation of the first 256 MiB, with every right. -/
def identityEntry : TlbEntry :=
  { part := 0, ctx := 0, base := 0, bits := 28, target := 0, aperture := 0, rap := true, r := true, w := true, x := true,
    hostOwn := false, dirty := true, peer := 0, eperm := 0xFFFFFFFF, leafAddr := 0 }

/-- The word with S = 1 and nothing else: NOP. -/
def lastNop : IWord := 1 <<< 79

/-- A launch of partition 0 that has loaded the program; `launchOf` is what launch intake keeps of it. -/
def launchOf : Launch :=
  { part := 0, handle := 0, job := 0, noaff := true, cplMsi := false, gangSz := 1, gangs := 1, chips := 1, stages := 1, kernel := 0x10000,
    hdr := fullHeader, affBase := 0, affG := 0, cplFlag := 0, cplStat := 0, errcnt := 0, live := 1, killed := [], port := none, vec := 0,
    completed := false }

/-- The task's identity in the slot. -/
def taskOf : TaskId := { kernel := 0x10000, hdr := fullHeader }

/-- `s` with an instruction as the next that core 0's slot 0 issues: a partition that owns block 0 and memory unit 0, a launch of
it, and its task RUNNING at a group that holds the word; a privileged word's task is at level S, and a sequencing word stands in
the routine store. -/
def State.withFetchWord (s : State) (nbits w : Nat) : State :=
  let x : IWord := BitVec.ofNat 80 (w % 2 ^ nbits)
  let i := decodeTableWord nbits w
  let sys : Bool := match i with | some i => cls i == .sys | none => false
  let mseq := mseqWord x
  let code := bytesOfWord x ++ if x.getLsbD 79 then [] else bytesOfWord lastNop
  let slot : Slot :=
    { s.slot 0 0 with st := .running, id := taskOf, level := if sys then .s else .t, pc := 0, codeBase := 0x10080, hBase := 0x10080,
                      hLen := 1048576, grp := none, wait := none, wfe := none, walk := none, pre := none, rpl := {}, parks := false, notBefore := 0 }
  let run : Routine :=
    { own := ⟨0, 0, 0, 0, .t⟩, rpc := 0, entry := 0, tag := 0, token := .none, wmcfg := 0, fpc := 0, steps := 0, callPc := 0,
      kcap := List.replicate 6 0, mloops := [], mp := List.replicate 8 0, acq := false, rel := false, scope := 0, done := false,
      order := 0, added := [] }
  let c := s.core 0
  let c := { c with regions := [⟨0, 0, 1048576⟩], tlb := identityEntry :: c.tlb, fenced := false, halted := false }
  let c := if mseq then { c with store := Sparse.put c.store 0 x, wms := Sparse.put c.wms 0 { (Sparse.get {} c.wms 0 : Wm) with run := some run } }
    else c
  let s := { s with parts := Sparse.put s.parts 0 { s.part 0 with units := [0] },
                    blocks := Sparse.put s.blocks 0 { s.block 0 with owner := some 0 },
                    launches := [launchOf], hbm := Memory.write s.hbm 0x10080 code, cur := (0, 0), inRoutine := none,
                    agenda := [if mseq then .routine 0 0 else .issue 0 0],
                    fw := { s.fw with boot := 6, shutdown := false } }
  s.setCore 0 { c with slots := Sparse.put c.slots 0 slot }

end Machine
end Sys2Proof
end

