-- ==== Sys2Proof/Safety.lean ====
section
/-! DEFINITION. The words in which the statements speak: how a word ends, what a step leaves alone, what a group does when it
closes, and the canonical form of the memories. -/

namespace Sys2Proof
namespace Safety
open Machine

/-! ### How a word ends -/

/-- The word has performed; its group goes on with the next word or closes. -/
def did (s : State) : Host.Outcome State Fault Refusal := .next (finishWord s.markPerf)

/-- The word has raised a precise trap and has not performed (17 R442). -/
def faulted (c : Cause) (info : Word) (s : State) : Host.Outcome State Fault Refusal := .next (finishWord (s.noteTrap c info))

/-- The word waits for a walk and has not performed (17 R439). -/
def walked (a : Nat) (k : Acc) (s : State) : Host.Outcome State Fault Refusal := .next (finishWord (s.noteWalk a k))

/-- The issuing slot with a scalar result of latency `lat` put in flight (06 R178). -/
def result (s : State) (lat : Nat) (dst : RegRef) (v : Word) (fl : Fl) : State := s.setMe (s.me.scalarResult lat dst v fl)

/-- What a word comes to, as `runWord` ends it. -/
def ended : WRes → Host.Outcome State Fault Refusal
  | .ok s => did s
  | .trap c i s => faulted c i s
  | .walk a k s => walked a k s

/-! ### What is left alone -/

/-- The byte at a place. -/
def byteAt (s : State) (l : Loc) : Byte := (readSeg s ⟨l, 1⟩).headD 0

/-- Nothing has changed but the slot that issues and the clock; every byte of every memory reads as before. -/
def Kept (s t : State) : Prop :=
  t = { s with cores := t.cores, cycle := t.cycle } ∧ (∀ c, c ≠ s.cur.1 → t.core c = s.core c) ∧
  t.myCore = { s.myCore with slots := t.myCore.slots } ∧ (∀ k, k ≠ s.cur.2 → t.slot s.cur.1 k = s.slot s.cur.1 k) ∧
  ∀ l, byteAt t l = byteAt s l

/-- Every register of a slot but one reads the same at a level; so do FPC, the loops, the tags, the CSRs and the level. -/
def SlotKept (l m : Slot) (v : Level) (dst : RegRef) : Prop :=
  (∀ i, dst ≠ .s i → m.rdS v i = l.rdS v i) ∧ (∀ i, dst ≠ .q i → m.rdQ i = l.rdQ i) ∧ (∀ i, dst ≠ .p i → m.rdP v i = l.rdP v i) ∧
  (∀ c i, m.rdV c i = l.rdV c i) ∧ (∀ c i, m.rdVq c i = l.rdVq c i) ∧ (∀ c i, m.rdVp c i = l.rdVp c i) ∧
  (m.bankOf v).fpc = (l.bankOf v).fpc ∧ (m.bankOf v).loops = (l.bankOf v).loops ∧ (m.bankOf v).tags = (l.bankOf v).tags ∧
  m.csr = l.csr ∧ m.level = l.level ∧ m.st = l.st

/-! ### A group that closes -/

/-- The slot after its group's cycle: results whose time is up have landed, issue goes on at the group's target or in sequence,
and the bubble of a control transfer has passed (06 R178; 07 R219). -/
def closeOf (l : Slot) : Slot :=
  let g := l.group
  let m := { l.endCycle.1 with pc := g.target.getD g.seqPc, grp := none, walk := none }
  if g.bubble then m.endCycle.1 else m

/-- The cycles that a group takes (07 R219). -/
def cyclesOf (g : Group) : Nat := if g.bubble then 2 else 1

/-- A group at its last word, all others performed, with nothing that ends it otherwise than in sequence or at a branch
target: no trap, walk, user trap, pushed or broken loop, repeat, deferred trap, CSR write, loop closure, point of pre-emption or wait. -/
def Closing (l : Slot) : Prop :=
  ∃ g, l.grp = some g ∧ g.words.length = g.idx + 1 ∧ g.trap = none ∧ g.walks = false ∧ g.user = none ∧ g.push = none ∧
    g.brkl = false ∧ g.rptCount = 0 ∧ g.fin = .next ∧ g.defer = [] ∧ g.csrs = [] ∧ g.reissue = false ∧
    g.point = false ∧
    l.endCycle.2 = [] ∧ (g.bubble = true → l.endCycle.1.endCycle.2 = []) ∧
    (g.target = none → ∀ f ∈ l.bank.loops.getLast?, f.e ≠ g.seqPc - 1) ∧ l.wait = none ∧ l.wfe = none

/-- The group has closed: the slot is as `closeOf` says, the clock has gone on, nothing else has changed. -/
def Closed (s t : State) : Prop := Kept s t ∧ t.cycle = s.cycle + cyclesOf s.me.group ∧ t.me = closeOf s.me

/-- A scalar word of latency 1 alone in its group has run to the end: its destination holds the value, its last-result entry is
made, issue goes on after the group one cycle later, and everything else is as it was. -/
def ScalarDone (s t : State) (dst : RegRef) (v : Word) : Prop :=
  Kept s t ∧ t.cycle = s.cycle + 1 ∧ t.me.pc = s.me.group.seqPc ∧ t.me.grp = none ∧
  readRef t.me t.me.level dst = (readRef (writeRef s.me s.me.level 0xFFFF (v.setWidth 4096) dst) s.me.level dst) ∧
  (t.me.bankOf s.me.level).ds = (match dst with
    | .s _ | .q _ => (v :: (s.me.bankOf s.me.level).ds).take 8
    | _ => (s.me.bankOf s.me.level).ds) ∧
  SlotKept s.me t.me s.me.level dst

/-! ### Memories -/

/-- HBM, host memory, the scratchpads, the sync memories and the flag windows keep their canonical form. -/
def memoriesWf (s : State) : Bool :=
  Memory.wf s.hbm && Memory.wf s.host.mem && (s.cores.all fun c => Memory.wf c.2.scr) && (s.dies.all fun d => Memory.wf d.2.sync) &&
  s.parts.all fun p => Memory.wf p.2.flagRam

end Safety
end Sys2Proof
end

