-- ==== Sys2Proof/Certificates/Slice0/Obligations.lean ====
section
/-! DEFINITION. The statements for the provers: encoding and issue, registers, scalar and vector words, memory, engines, the
privileged state, and the device's events. -/

namespace Sys2Proof
open Machine Safety

/-! ### Encoding and issue -/

/-- Words that the manual prints decode to the instructions it prints them for (06 to 14 worked encodings). -/
def Claims.DecodeSampleWords : Prop :=
  decodeTableWord 80 0x81000003026140000200 = some (.add ⟨true, 0, 0, 0⟩ (.rr ⟨3, 4, 0x185, 0, 0, 1, 0⟩)) ∧
  decodeTableWord 80 0x9C0000C1800100000000 = some (.loopI ⟨true, 0, 0, 0⟩ ⟨0x183, 2⟩) ∧
  decodeTableWord 80 0xAB00000400808061E800 = some (.vfma ⟨true, 0, 0, 0⟩ ⟨4, 1, 2, 3, 0x0F, 4, 0⟩) ∧
  decodeTableWord 80 0xC0020004024000041000 = some (.ld ⟨true, 0, 1, 0⟩ ⟨8, 9, 0x10, 2, 0, 0, 0, 0⟩) ∧
  decodeTableWord 80 0xCC000200000000000600 = some (.ringCommit ⟨true, 0, 0, 0⟩ ⟨0, 0, 0, 0, 3, 0, 0, 0⟩) ∧
  decodeTableWord 80 0xE3000020000100100000 = some (.wmulCorr ⟨true, 0, 0, 0⟩ ⟨0x20, 0, 1, 0, 1, 0, 0, 0, 0, 0, 0⟩) ∧
  decodeTableWord 80 0xD80001020140C0700000 = some (.rputSig ⟨true, 0, 0, 0⟩ ⟨4, 5, 6, 7, 0, 0, 0, 0, 0⟩) ∧
  decodeTableWord 80 0x9A1000FFFFFFF8000000 = some (.br ⟨true, 1, 0, 0⟩ ⟨0xFFFFFFF8⟩) ∧
  decodeTableWord 80 0xF5000000000000000000 = some (.rft ⟨true, 0, 0, 0⟩) ∧
  decodeTableWord 80 0 = some (.nop ⟨false, 0, 0, 0⟩)

/-- Every well-formed word of a program has an encoding, and that word decodes to the instruction with every operand. -/
def Claims.EncodedWordDecodes : Prop :=
  ∀ i : Instr, wellFormed i = true → isWord i = true → ∃ w, encode i = some w ∧ decodeWord w = .ok i

/-- A word that decodes to an instruction is that instruction's one encoding: no bit of it is dropped. -/
def Claims.DecodedWordEncodes : Prop :=
  ∀ (w : IWord) (i : Instr), decodeWord w = .ok i → wellFormed i = true ∧ isWord i = true ∧ encode i = some w

/-- The word at the program counter runs: where its ten bytes, read through the translation of a fetch (and, on another chip's page,
there already), are a word with S = 1 that decodes to `i`, nothing holds or refuses its group and no other agent has this turn, the step
is `i` in the opened group, and then what follows every step; `foresee` changes the state before an APXB that a network stands in for
alone, and there only the note of what its true code would give.  That other agents have one turn in a cycle, before the slots, is the
model's choice (log 6). -/
def Claims.StepRunsFetchedWord : Prop :=
  ∀ (s t : State) (segs : List Seg) (bs : List Byte) (w : IWord) (i : Instr),
    s.fw.shutdown = false → s.agenda = [] → s.fw.boot = 6 → s.runnable s.cur.1 s.cur.2 = true →
    (s.choreDue = true → s.nextChore = none) → s.me.pre = none → s.me.walk = none → s.me.grp = none → s.me.pc.toNat < s.me.code.2 →
    resolve s (s.myAgent 0) .exec (s.me.code.1 + BitVec.ofNat 64 (10 * s.me.pc.toNat)).toNat 10 = .ok segs s →
    poisonAt s (s.me.code.1 + BitVec.ofNat 64 (10 * s.me.pc.toNat)).toNat segs = none →
    fetched s.me (s.me.code.1 + BitVec.ofNat 64 (10 * s.me.pc.toNat)).toNat (s.me.code.1 + BitVec.ofNat 64 (10 * s.me.pc.toNat)).toNat
      segs s = .ok bs → wordOfBytes bs = w → w.getLsbD 79 = true → decodeWord w = .ok i → checkGroup s.me [w] s.me.pc = .ok [i] →
    s.me.tagStall i = false → s.me.acqHeld i = false → s.wordHeld (0, i) = false → s.me.loopDepth i = false →
    queueHeld [(0, i)] s (s.issueGroup [w] [i]) = false → exec i (foresee i (s.issueGroup [w] [i])) = .next t →
      step s = .next t.after

/-- The next word of an open group runs: the step is that word's instruction, and then what follows every step, where it takes no queue
beyond its entries (12 R362, R363). -/
def Claims.StepRunsNextWord : Prop :=
  ∀ (s t : State) (g : Group) (i : Instr),
    s.fw.shutdown = false → s.agenda = [] → s.fw.boot = 6 → s.runnable s.cur.1 s.cur.2 = true →
    s.me.pre = none → s.me.walk = none → s.me.grp = some g → g.checked = true → g.rptM = 0 → g.word = some i →
    queueHeld [(g.idx, i)] s s = false → exec i (foresee i s) = .next t → step s = .next t.after

/-- A word that its level may not run does not run: its group traps PRIV.  At level T these are the system words but for CSR words
of the registers that T reaches; at level S the V and E words and the words that suspend a task (17 R433). -/
def Claims.PrivilegedWordsTrap : Prop :=
  (∀ (l : Slot) (w : IWord) (pc : BitVec 32) (i : Instr), w.getLsbD 79 = true → decodeWord w = .ok i → privBad l.level i = true →
    mseqWord w = false → groupBad [i] 0 = false → ((uses i).any fun u => u.over l.id.hdr l.level) = false →
    ((uses i).findSome? fun u => match u with | .bar b => if l.id.hdr.nbar ≤ b then some b else none | _ => none) = none →
    checkGroup l [w] pc = .error (.priv, 0, 0) ∧
      ∀ s : State, s.me = l → s.me.pc = pc → fetchGroup s = .ok [w] s → s.openGroup = .went (s.groupTrap .priv 0 pc)) ∧
  (∀ (h : Hdr) (c : FmtC) (f : FmtRR), (∀ i ∈ [Instr.csrRd h c, .csrWr h c, .csrSet h c, .csrClr h c],
      privBad .t i = decide (8 ≤ c.csrn.toNat) ∧ privBad .s i = false) ∧
    ∀ i ∈ [Instr.rft h, .halt h, .wfe h, .tlbiAll h f, .tlbiAddr h f, .tlbiCtx h f, .ctxSave h f, .ctxRestore h f],
      privBad .t i = true ∧ privBad .s i = false) ∧
  (∀ i : Instr, (cls i = .v ∨ cls i = .e) → privBad .s i = true ∧ privBad .t i = false) ∧
  ∀ (h : Hdr) (f : FmtT), ∀ i ∈ [Instr.waitf h f, .waitfT h f, .barArrive h f, .barWait h f, .barBoth h f, .suspSuspend h f, .suspYield h f,
      .suspFinish h f, .ringGet h f, .mbxTake h f], privBad .s i = true ∧ privBad .t i = false

/-- After a word that is not the last of its group, the next that has not performed has the turn; nothing else changes (06 R176). -/
def Claims.GroupGoesOn : Prop :=
  ∀ (s : State) (g : Group) (i : Nat), s.me.grp = some g → g.after = some i →
    Kept s (finishWord s) ∧ (finishWord s).cycle = s.cycle ∧ (finishWord s).me = { s.me with grp := some { g with idx := i } }

/-- After a group's last word the group closes: results land, issue goes on in sequence or at the branch target, one cycle passes
and a bubble follows a control transfer (06 R178; 07 R219). -/
def Claims.GroupCloses : Prop := ∀ s : State, Closing s.me → Closed s (finishWord s)

/-- A fixed-latency result lands at the end of the L-th issue cycle and not before; until then nothing of the slot changes but
the count (06 R178). -/
def Claims.ResultLandsInTime : Prop :=
  ∀ (l : Slot) (x : Landing) (n : Nat), l.bank.inflight = [x] → x.left = n + 1 →
    (∀ m, m ≤ n → (fun l => (Slot.endCycle l).1)^[m] l = l.setBank { l.bank with inflight := [{ x with left := n + 1 - m }] }) ∧
    (fun l => (Slot.endCycle l).1)^[n + 1] l = (l.setBank { l.bank with inflight := [] }).land l.level x

/-- RESULT_LANDING: where the group at which a slot stands waits for results in flight alone, a cycle passes and what is due lands;
elsewhere it changes nothing (06 R178, R180, R181).  That the cycles of this hold count for the landing is the model's choice (the log
entry on it). -/
def Claims.ResultLanding : Prop :=
  ∀ (s : State) (c k : Nat),
    (s.drains c k = true → (s.slot c k).endCycle.2 = [] →
      exec (.resultLanding c k) s = .next (s.setSlot c k (s.slot c k).endCycle.1).tick) ∧
    (s.drains c k = false → exec (.resultLanding c k) s = .next s)

/-- The look ahead before a word changes nothing, but before an enabled APXB that a network stands in for, where it notes what the true
code would give (13 R394). -/
def Claims.LookAhead : Prop :=
  ∀ (s : State) (i : Instr),
    ((∀ h f, i = .apxb h f → (s.me.enabled h && (s.substitutes f).isSome) = false) → foresee i s = s) ∧
    ∃ x, foresee i s = s.setMe { s.me with truth := x } ∨ foresee i s = s

/-! ### Registers -/

/-- A register reads what was written to it; s0, p0 and vp0 read as the manual hard-wires them and discard writes; every other
register of the file is as it was (03 R61). -/
def Claims.RegisterReadAfterWrite : Prop :=
  ∀ (l : Slot) (v : Level) (i j c d : Nat) (x : Word) (b : Bool) (y : Vec) (m : BitVec 16),
    (l.wrS v i x).rdS v j = (if j = i ∧ i ≠ 0 then x else l.rdS v j) ∧ (l.wrQ i x).rdQ j = (if j = i then x else l.rdQ j) ∧
    (i < 8 → (l.wrP v i b).rdP v j = if j = i ∧ i ≠ 0 then b else l.rdP v j) ∧
    (i < 64 → j < 64 → (l.wrV c i y).rdV d j = if d = c ∧ j = i then y else l.rdV d j) ∧
    (i < 8 → j < 8 → (l.wrVq c i y).rdVq d j = if d = c ∧ j = i then y else l.rdVq d j) ∧
    (i < 8 → j < 8 → (l.wrVp c i m).rdVp d j = if d = c ∧ j = i ∧ i ≠ 0 then m else l.rdVp d j) ∧
    l.rdS v 0 = 0 ∧ l.rdP v 0 = true ∧ l.rdVp c 0 = 0xFFFF

/-- The machine after reset: every memory reads zero, every slot is EMPTY with FPC at its initial value, no partition or launch
exists and boot has yet to begin (00 R7, 22 R560).  That memories and registers without a stated reset value hold zero is
the model's choice (log entries 1 and 3). -/
def Claims.ResetState : Prop :=
  (∀ l, byteAt State.reset l = 0) ∧ (∀ c k, State.reset.slot c k = {}) ∧ (({} : Slot).st = .empty ∧ ({} : Slot).tb.fpc = 0x10) ∧
  State.reset.parts = [] ∧ State.reset.launches = [] ∧ State.reset.fw.boot = 0 ∧ State.reset.fw.shutdown = false ∧
  State.reset.fw.cclk = 850 ∧ memoriesWf State.reset = true

/-- PR: a word outside the V class is enabled when pk is true and bit 71 is 0, or pk is false and bit 71 is 1 (06 R188).  A repeat of RPT
and a word that is issued again go by what was captured for them: their enable, lane masks and FPC (06 R192, 17 R445). -/
def Claims.EnabledRule : Prop :=
  (∀ (l : Slot) (h : Hdr), l.capture = none →
    (l.enabled h = true ↔ (l.rdP l.level (h.pr.extractLsb' 0 3).toNat = true ∧ h.pr.getLsbD 3 = false) ∨
      (l.rdP l.level (h.pr.extractLsb' 0 3).toNat = false ∧ h.pr.getLsbD 3 = true)) ∧
    (h.pr = 0 → l.enabled h = true) ∧ (h.pr = 8 → l.enabled h = false)) ∧
  (∀ (l : Slot) (h : Hdr) (x : Capture), l.capture = some x →
    l.enabled h = x.en ∧ (∀ c, l.laneMask h c = Sparse.get 0 x.masks c) ∧ l.fpcNow = x.fpc) ∧
  ∀ (l : Slot) (g : Group) (i : Nat) (w : Instr), i < g.words.length → g.perf.getLsbD i = false →
    decodeWord (g.words.getD i 0) = .ok w →
    (∀ x, Sparse.find g.caps i = some x → ∃ y, Sparse.find (l.captures g) i = some y ∧ y.en = x.en ∧ y.fpc = x.fpc ∧ y.masks = x.masks ∧
      (g.reissue = true → y = x)) ∧
    (Sparse.find g.caps i = none → ∃ y, Sparse.find (l.captures g) i = some y ∧ y.fpc = l.bank.fpc ∧ y.ds = l.bank.ds ∧ y.dv = l.files.dv ∧
      (∀ h, hdrOf w = some h → y.en = Slot.enabled { l with grp := none } h ∧
        (cls w = .v → ∀ c, c < 8 → Sparse.get 0 y.masks c = Slot.laneMask { l with grp := none } h c)))

/-! ### Scalar words -/

/-- What the integer operations compute on w-bit values, as bit vectors (07 Table 7-2): `sgn` is whether TYPE is signed. -/
def intRef (sgn : Bool) {w : Nat} (a b : BitVec w) : IntOp → BitVec w
  | .add => a + b
  | .sub => a - b
  | .mul => a * b
  | .mulHi => if sgn then ((a.signExtend (2 * w) * b.signExtend (2 * w)) >>> w).setWidth w
      else ((a.setWidth (2 * w) * b.setWidth (2 * w)) >>> w).setWidth w
  | .div => if b = 0 then BitVec.allOnes w else if sgn then a.sdiv b else a / b
  | .rem => if b = 0 then a else if sgn then a.srem b else a % b
  | .and => a &&& b
  | .or => a ||| b
  | .xor => a ^^^ b
  | .andn => a &&& ~~~b
  | .shl => a <<< (b.toNat % w)
  | .shr => a >>> (b.toNat % w)
  | .sra => a.sshiftRight (b.toNat % w)
  | .rot => a.rotateLeft (b.toNat % w)
  | .min => if sgn then (if a.sle b then a else b) else (if a.ule b then a else b)
  | .max => if sgn then (if a.sle b then b else a) else (if a.ule b then b else a)

/-- The value of an integer word is that of the w-bit operation on the low bits of its operands, widened by TYPE (07 R203). -/
def Claims.IntegerResults : Prop :=
  ∀ (o : IntOp) (t : BitVec 4) (x y : Word), WellFormed.tyInt t = true →
    tyRes t (intOp o (WellFormed.tyWidth t) (tyVal t x.toNat) (tyVal t y.toNat)) =
      if tySgn t then (intRef true (x.setWidth (WellFormed.tyWidth t)) (y.setWidth (WellFormed.tyWidth t)) o).signExtend 64
      else (intRef false (x.setWidth (WellFormed.tyWidth t)) (y.setWidth (WellFormed.tyWidth t)) o).setWidth 64

/-- CLZ, CTZ, POPC and BREV count and reverse the bits of the w-bit pattern (07 Table 7-3). -/
def Claims.BitCounts : Prop :=
  ∀ (w : Nat) (x : BitVec w),
    clz w x.toNat ≤ w ∧ (∀ i, w - clz w x.toNat ≤ i → x.getLsbD i = false) ∧
    (clz w x.toNat < w → x.getLsbD (w - 1 - clz w x.toNat) = true) ∧
    ctz w x.toNat ≤ w ∧ (∀ i, i < ctz w x.toNat → x.getLsbD i = false) ∧ (ctz w x.toNat < w → x.getLsbD (ctz w x.toNat) = true) ∧
    popc w x.toNat = ((List.range w).filter fun i => x.getLsbD i).length ∧
    ∀ i, i < w → (brev w x.toNat).testBit i = x.getLsbD (w - 1 - i)

/-- The operands of an integer word: ReadSpec of both specifiers in the RR form, IMM32 widened by TYPE in the RI form (07 R203). -/
def intArgs (l : Slot) : RRI → Word × Word
  | .rr f => (readSpec l f.a, readSpec l f.b)
  | .ri f => (readSpec l f.a, if tySgn f.ty then f.imm.signExtend 64 else f.imm.setWidth 64)

/-- The sixteen integer words complete: each puts the value of its operation in flight with latency 1 toward DST, raising no flag
(07 R203, Table 7-2). -/
def Claims.IntegerWords : Prop :=
  ∀ p ∈ [(Instr.add, IntOp.add), (Instr.sub, .sub), (Instr.mul, .mul), (Instr.mulHi, .mulHi), (Instr.divI, .div), (Instr.divRem, .rem),
      (Instr.andI, .and), (Instr.orI, .or), (Instr.xorI, .xor), (Instr.andn, .andn), (Instr.shl, .shl), (Instr.shr, .shr),
      (Instr.sra, .sra), (Instr.rot, .rot), (Instr.minI, .min), (Instr.maxI, .max)],
    ∀ (h : Hdr) (f : RRI) (s : State), s.me.enabled h = true → WellFormed.tyInt (rriTy f) = true →
      exec (p.1 h f) s = did (result s 1 (dstRef (rriDst f))
        (tyRes (rriTy f) (intOp p.2 (WellFormed.tyWidth (rriTy f)) (tyVal (rriTy f) (intArgs s.me f).1.toNat)
          (tyVal (rriTy f) (intArgs s.me f).2.toNat))) 0)

/-- CMP.cc writes to the predicate of DST whether a cc b holds, signed or unsigned as TYPE gives (07 R211). -/
def Claims.CompareWords : Prop :=
  ∀ (h : Hdr) (cc : Cc) (f : RRI) (s : State), s.me.enabled h = true → WellFormed.tyInt (rriTy f) = true →
    exec (.cmp h cc f) s = did (result s 1 (.p (rriDst f).toNat)
      (if ccHolds cc (tyVal (rriTy f) (intArgs s.me f).1.toNat) (tyVal (rriTy f) (intArgs s.me f).2.toNat) then 1 else 0) 0)

/-- SEL writes all 64 bits of A when pk is true, and of B otherwise; its PR still enables or nullifies the whole word; AUX[8:3]
and C are zero in a well-formed one (07 R208). -/
def Claims.SelectWord : Prop :=
  ∀ (h : Hdr) (f : FmtRR) (s : State),
    (s.me.enabled h = true → s.me.rdP s.me.level (f.aux.extractLsb' 0 3).toNat = true →
      exec (.sel h f) s = did (result s 1 (dstRef f.dst) (readSpec s.me f.a) 0)) ∧
    (s.me.enabled h = true → s.me.rdP s.me.level (f.aux.extractLsb' 0 3).toNat = false →
      exec (.sel h f) s = did (result s 1 (dstRef f.dst) (readSpec s.me f.b) 0)) ∧
    (s.me.enabled h = false → exec (.sel h f) s = did (s.setMe (s.me.nullResult 1 (dstRef f.dst)))) ∧
    (wellFormed (.sel h f) = true → f.aux.extractLsb' 3 6 = 0 ∧ f.c = 0)

/-- MOVHI writes IMM32 above the low half of A; TYPE is 0001 or 0011, and the two act alike (07 R207). -/
def Claims.MoveHighWord : Prop :=
  ∀ (h : Hdr) (f : FmtRI) (s : State),
    (s.me.enabled h = true → exec (.movhi h f) s = did (result s 1 (dstRef f.dst) (f.imm ++ (readSpec s.me f.a).extractLsb' 0 32) 0)) ∧
    (wellFormed (.movhi h f) = true → f.ty = 1 ∨ f.ty = 3)

/-- MOVI writes the immediate, or a loop index plus the immediate, cut to TYPE's width and widened (07 R206); LEA writes A plus a
scaled offset in 64 bits (07 R209). -/
def Claims.MoveAndAddressWords : Prop :=
  ∀ (h : Hdr) (s : State), s.me.enabled h = true →
    (∀ f : FmtRI, f.modLow = 0 → exec (.movi h f) s = did (result s 1 (dstRef f.dst)
      (ext64 f.ty (WellFormed.tyWidth f.ty) (ext64 f.ty 32 f.imm.toNat).toNat) 0)) ∧
    (∀ f : FmtRI, f.modLow ≠ 0 → exec (.movi h f) s = did (result s 1 (dstRef f.dst)
      (tyRes f.ty ((s.me.loopIndex (f.modLow.toNat - 1)).toNat + f.imm.toInt)) 0)) ∧
    (∀ f : FmtRR, exec (.lea h (.rr f)) s = did (result s 1 (dstRef f.dst)
      (readSpec s.me f.a + (readSpec s.me f.b) <<< (f.aux.extractLsb' 0 2).toNat) 0)) ∧
    ∀ f : FmtRI, exec (.lea h (.ri f)) s = did (result s 1 (dstRef f.dst)
      (readSpec s.me f.a + (f.imm.signExtend 64) <<< (f.modLow.extractLsb' 0 2).toNat) 0)

/-- The BITS words complete with the counts, the reversal, the absolute value, the negation, and the field extracted or inserted,
each cut to TYPE's width and widened (07 R204, R205). -/
def Claims.BitsWords : Prop :=
  ∀ (h : Hdr) (f : FmtRR) (s : State), s.me.enabled h = true →
    let w := WellFormed.tyWidth f.ty
    let x := (readSpec s.me f.a).toNat % 2 ^ w
    let field := bitField w (readSpec s.me f.c)
    (∀ p ∈ [(Instr.bitsClz, (clz w x : Int)), (Instr.bitsCtz, (ctz w x : Int)), (Instr.bitsPopc, (popc w x : Int)),
        (Instr.bitsBrev, (brev w x : Int)), (Instr.bitsAbs, ((sintNat w x).natAbs : Int)), (Instr.bitsNeg, -(sintNat w x)),
        (Instr.bitsBfx, if tySgn f.ty then sintNat field.2 (x / 2 ^ field.1 % 2 ^ field.2)
          else ((x / 2 ^ field.1 % 2 ^ field.2 : Nat) : Int)),
        (Instr.bitsBfi, ((x - x / 2 ^ field.1 % 2 ^ field.2 * 2 ^ field.1 +
          (readSpec s.me f.b).toNat % 2 ^ field.2 * 2 ^ field.1 : Nat) : Int))],
      exec (p.1 h f) s = did (result s 1 (dstRef f.dst) (tyRes f.ty p.2) 0)) ∧
    field.1 = (readSpec s.me f.c).toNat % 128 ∧
    field.2 = if w ≤ field.1 then 0 else min ((readSpec s.me f.c).toNat / 256 % 128) (w - field.1)

/-- PLOG.op writes the function of Table 7-4 of pi and pj, each complemented where its AUX bit is set (07 R212). -/
def Claims.PredicateWords : Prop :=
  ∀ (h : Hdr) (f : FmtRR) (s : State), s.me.enabled h = true →
    let x := s.me.rdP s.me.level (f.a.extractLsb' 0 3).toNat != f.aux.getLsbD 0
    let y := s.me.rdP s.me.level (f.b.extractLsb' 0 3).toNat != f.aux.getLsbD 1
    ∀ p ∈ [(Instr.plogAnd, x && y), (Instr.plogOr, x || y), (Instr.plogXor, x ^^ y), (Instr.plogAndn, x && !y)],
      exec (p.1 h f) s = did (result s 1 (.p f.dst.toNat) (if p.2 then 1 else 0) 0)

/-- A word of latency 1 of the scalar unit, with the register that it writes. -/
def scalarWords (h : Hdr) (f : FmtRR) (r : RRI) (m : FmtRI) (cc : Cc) : List (Instr × RegRef) :=
  ([Instr.add h r, .sub h r, .mul h r, .mulHi h r, .divI h r, .divRem h r, .andI h r, .orI h r, .xorI h r, .andn h r, .shl h r,
    .shr h r, .sra h r, .rot h r, .minI h r, .maxI h r, .lea h r].map fun i => (i, dstRef (rriDst r))) ++
  ([Instr.movi h m, .movhi h m].map fun i => (i, dstRef m.dst)) ++
  ([Instr.sel h f, .bitsClz h f, .bitsCtz h f, .bitsPopc h f, .bitsBrev h f, .bitsBfx h f, .bitsBfi h f, .bitsAbs h f,
    .bitsNeg h f].map fun i => (i, dstRef f.dst)) ++
  ([Instr.plogAnd h f, .plogOr h f, .plogXor h f, .plogAndn h f].map fun i => (i, .p f.dst.toNat)) ++ [(.cmp h cc r, .p (rriDst r).toNat)]

/-- Alone in its group, with nothing in flight, a scalar word of latency 1 changes its destination, the last-result file and the
program counter and nothing else: no other register, no flag, no status, no byte of memory; an enabled word writes one value,
and a nullified one none (06 R178, R190; 03 R64, R65). -/
def Claims.ScalarWordsLand : Prop :=
  ∀ (s : State) (h : Hdr) (f : FmtRR) (r : RRI) (m : FmtRI) (cc : Cc), Closing s.me → s.me.bank.inflight = [] →
    s.me.group.target = none → s.me.group.bubble = false → s.me.enabled h = true →
    ∀ p ∈ scalarWords h f r m cc, ∃ t v, exec p.1 s = .next t ∧ ScalarDone s t p.2 v

/-- A nullified scalar word of fixed latency writes no register and raises no flag; where its destination is a register it makes a
last-result entry of what the destination holds (06 R190; 03 R65). -/
def Claims.NullifiedWords : Prop :=
  ∀ (s : State) (h : Hdr) (f : FmtRR) (r : RRI) (m : FmtRI) (cc : Cc), s.me.enabled h = false →
    ∀ p ∈ scalarWords h f r m cc, exec p.1 s = did (s.setMe (s.me.nullResult 1 p.2)) ∧
      ∀ x ∈ (s.me.nullResult 1 p.2).bank.inflight.drop s.me.bank.inflight.length, x.dst = .none ∧ x.flags = 0 ∧
        x.entry = some (readRef s.me s.me.level p.2)

/-- The value of a float operand (07 R213). -/
def fargs (s : State) (f : FmtRR) : Nat × Nat × Nat :=
  (readF s.me (fmtTy f.ty) f.a, readF s.me (fmtTy f.ty) f.b, readF s.me (fmtTy f.ty) f.c)

/-- The float words complete with the value and the flags of their operation under the captured FPC: FADD, FMUL, FMA, FMIN, FMAX,
FCMP and FCVT with latency 4, division and root with latency 12 (07 R214 to R217; 06 Table 6-7). -/
def Claims.FloatWords : Prop :=
  ∀ (h : Hdr) (f : FmtRR) (s : State), s.me.enabled h = true →
    let k := fctx s.me.fpcNow
    let x := fargs s f
    let src := f.aux.extractLsb' 0 4
    let y := k.convert f.ty src (f.aux.extractLsb' 4 3)
      (if tyIsFloat src then readF s.me (fmtTy src) f.a else (readSpec s.me f.a).toNat)
    (∀ p ∈ [(Instr.fadd, FpOp.add, 4), (Instr.faddSub, .sub, 4), (Instr.fmul, .mul, 4), (Instr.fma, .fma, 4), (Instr.fmaFms, .fms, 4),
        (Instr.fmaFnma, .fnma, 4), (Instr.fdiv, .div, 12), (Instr.fdivSqrt, .sqrt, 12), (Instr.fmin, .min, 4), (Instr.fmax, .max, 4)],
      exec (p.1 h f) s = did (result s p.2.2 (dstRef f.dst) (BitVec.ofNat 64 (k.op (fmtTy f.ty) p.2.1 x.1 x.2.1 x.2.2).1)
        (k.op (fmtTy f.ty) p.2.1 x.1 x.2.1 x.2.2).2)) ∧
    (∀ cc, exec (.fcmp h cc f) s = did (result s 4 (.p f.dst.toNat)
      (if (k.cmp (fmtTy f.ty) cc x.1 x.2.1).1 then 1 else 0) (k.cmp (fmtTy f.ty) cc x.1 x.2.1).2)) ∧
    (tyIsFloat f.ty = true → exec (.fcvt h f) s = did (result s 4 (dstRef f.dst) (BitVec.ofNat 64 y.1) y.2)) ∧
    (WellFormed.tyInt f.ty = true → exec (.fcvt h f) s = did (result s 4 (dstRef f.dst) (ext64 f.ty (WellFormed.tyWidth f.ty) y.1) y.2))

/-- A code of any format that stands for a finite value other than zero rounds to itself, in every rounding mode and with no flag
(04 R94, R112). -/
def Claims.FloatRepresentable : Prop :=
  ∀ f ∈ [fmtF64, fmtF32, fmtF16, fmtBf16, fmtE5m2, fmtE4m3, fmtE3m2, fmtE2m3, fmtE2m1],
    ∀ (x : Nat) (rm : RMode) (sat neg : Bool) (m : Nat) (e : Int), x < 2 ^ f.w → f.value x = .fin neg m e → m ≠ 0 →
      f.round rm sat (f.value x) = (x, 0)

/-- Every NaN that a float word produces is the canonical quiet NaN of its format, and a signalling NaN operand raises NV
(04 R93). -/
def Claims.FloatNaNs : Prop :=
  ∀ f ∈ [fmtF64, fmtF32, fmtF16, fmtBf16], ∀ (k : FCtx) (o : FpOp) (a b c : Nat),
    (f.value (k.op f o a b c).1 = .nan → (k.op f o a b c).1 = f.nan) ∧ (f.snan a = true → (k.op f o a b c).2.getLsbD 4 = true) ∧
    (f.snan b = true → o ≠ .sqrt → (k.op f o a b c).2.getLsbD 4 = true) ∧
    (f.snan c = true → o ∈ [FpOp.fma, .fms, .fnma] → (k.op f o a b c).2.getLsbD 4 = true)

/-! ### Control words and traps -/

/-- NOP has no effect but to take its place in the group (06 R194; 07 R232). -/
def Claims.NopWord : Prop := ∀ (h : Hdr) (s : State), exec (.nop h) s = did s

/-- BR goes to its own PC plus the offset, JMP and RET to the low 32 bits of A, and CALL there with the link in DST; each brings one
bubble, also where it is nullified (07 R218, R219), and then CALL makes the last-result entry of a nullified word (06 R190).  RET counts
as a return where DBGPOL lets its partition count. -/
def Claims.BranchWords : Prop :=
  ∀ (h : Hdr) (b : FmtB) (f : FmtRR) (s : State),
    (s.me.enabled h = true →
      exec (.br h b) s = did (s.withBubble.branchTo (s.me.wpc + b.ofs)) ∧
      exec (.jmp h f) s = did (s.withBubble.branchTo ((readSpec s.me f.a).setWidth 32)) ∧
      exec (.ret h f) s = did (s.withBubble.countReturn.branchTo ((readSpec s.me f.a).setWidth 32)) ∧
      exec (.call h f) s = did ((result s.withBubble 1 (dstRef f.dst) (s.me.group.seqPc.setWidth 64) 0).branchTo
        ((readSpec s.me f.a).setWidth 32))) ∧
    (s.me.enabled h = false → ∀ i ∈ [Instr.br h b, .jmp h f, .ret h f], exec i s = did s.withBubble) ∧
    (s.me.enabled h = false → exec (.call h f) s = did (s.withBubble.setMe (s.withBubble.me.nullResult 1 (dstRef f.dst)))) ∧
    s.countReturn = (let p := s.part s.me.id.part
      if p.dbgPol.getLsbD 0 = true ∧ p.dbgPol.getLsbD 2 = true then s.setPart s.me.id.part { p with returns := p.returns + 1 } else s)

/-- Alone in its group a branch that is enabled ends at its target two cycles later, one that is nullified ends in sequence two cycles
later; neither changes a register, a flag, a loop frame or a byte of memory (07 R218, R219), but that a CALL writes its link, and makes a
last-result entry of the link or, nullified, of what its destination holds; RET that is enabled counts as a return. -/
def Claims.BranchesLand : Prop :=
  ∀ (h : Hdr) (b : FmtB) (f : FmtRR) (s : State), Closing s.me → s.me.bank.inflight = [] → s.me.group.target = none →
    (∀ p ∈ [(Instr.br h b, s.me.wpc + b.ofs, s), (.jmp h f, (readSpec s.me f.a).setWidth 32, s),
        (.ret h f, (readSpec s.me f.a).setWidth 32, if s.me.enabled h then s.countReturn else s)],
      ∃ t, exec p.1 s = .next t ∧ Kept p.2.2 t ∧ (∀ l, byteAt t l = byteAt s l) ∧ t.cycle = s.cycle + 2 ∧
        t.me = { s.me with pc := (if s.me.enabled h then p.2.1 else s.me.group.seqPc), grp := none, walk := none }) ∧
    ∃ t, exec (.call h f) s = .next t ∧ Kept s t ∧ t.cycle = s.cycle + 2 ∧ t.me.grp = none ∧ t.me.walk = none ∧
      (s.me.enabled h = true → t.me.pc = (readSpec s.me f.a).setWidth 32 ∧ SlotKept s.me t.me s.me.level (dstRef f.dst) ∧
        readRef t.me s.me.level (dstRef f.dst) =
          readRef (writeRef s.me s.me.level 0xFFFF (s.me.group.seqPc.setWidth 4096) (dstRef f.dst)) s.me.level (dstRef f.dst) ∧
        (t.me.bankOf s.me.level).ds = (s.me.group.seqPc.setWidth 64 :: (s.me.bankOf s.me.level).ds).take 8) ∧
      (s.me.enabled h = false → t.me.pc = s.me.group.seqPc ∧ SlotKept s.me t.me s.me.level .none ∧
        (t.me.bankOf s.me.level).ds =
          ((readRef s.me s.me.level (dstRef f.dst)).setWidth 64 :: (s.me.bankOf s.me.level).ds).take 8)

/-- LOOP pushes the frame S0, E, N, 0 when it is enabled and N is not zero, and goes on at E + 1 otherwise; BRKL goes on after the
innermost frame, which it pops (07 R222, R227). -/
def Claims.LoopWords : Prop :=
  ∀ (h : Hdr) (f : FmtL) (s : State),
    let n : BitVec 32 := (readSpec s.me f.count).setWidth 32
    let s0 := s.me.group.seqPc
    let e := s0 + f.body.setWidth 32 - 1
    (s.me.enabled h = true → n ≠ 0 →
      exec (.loopI h f) s = did (s.setMe (s.me.setGroup fun g => { g with push := some ⟨s0, e, n, 0⟩ }))) ∧
    ((s.me.enabled h = false ∨ n = 0) → exec (.loopI h f) s = did (s.branchTo (e + 1))) ∧
    (∀ x, s.me.enabled h = true → s.me.bank.loops.getLast? = some x →
      exec (.brkl h) s = did (s.withBubble.setMe (s.withBubble.me.setGroup fun g => { g with brkl := true, target := some (x.e + 1) }))) ∧
    (s.me.enabled h = false → exec (.brkl h) s = did s.withBubble)

/-- A loop of N iterations closes N times: after m < N closures its index is m, and the N-th removes its frame and goes on after its
end (07 R224). -/
def Claims.LoopRunsNTimes : Prop :=
  ∀ (f : LoopFrame) (rest : List LoopFrame) (nxt : BitVec 32), f.k = 0 → (∀ g ∈ rest.head?, g.e ≠ f.e) →
    (∀ m, m < f.n.toNat → (fun l => (closeLoops f.e nxt false l).1)^[m] (f :: rest) = { f with k := BitVec.ofNat 32 m } :: rest) ∧
    (∀ m, m + 1 < f.n.toNat →
      closeLoops f.e nxt false ({ f with k := BitVec.ofNat 32 m } :: rest) =
        ({ f with k := BitVec.ofNat 32 (m + 1) } :: rest, f.s0, true)) ∧
    (0 < f.n.toNat → closeLoops f.e nxt false ({ f with k := BitVec.ofNat 32 (f.n.toNat - 1) } :: rest) = (rest, f.e + 1, true))

/-- RPT sets up COUNT repeats of its group's target with its STEP; where the task resumes inside one, the repeats that RPTREM
says are left (06 R191, R193). -/
def Claims.RepeatWord : Prop :=
  ∀ (h : Hdr) (f : FmtP) (s : State), s.me.enabled h = true →
    (s.me.rptResume = false → exec (.rpt h f) s =
      did (s.setMe (s.me.setGroup fun g => { g with rptCount := f.countM1.toNat + 1, rptM := 0, rptStep := f.step }))) ∧
    (s.me.rptResume = true → s.me.csr.rptrem ≠ 0 → exec (.rpt h f) s =
      did (s.setMe (({ s.me with rptResume := false, csr := { s.me.csr with rptrem := 0 } } : Slot).setGroup fun g =>
        { g with rptCount := f.countM1.toNat + 1, rptM := f.countM1.toNat + 1 - s.me.csr.rptrem.toNat, rptStep := f.step })))

/-- TRAP sets a user trap of cause 0x40 + AUX[5:0] with A as its information; a nullified one has no effect (07 R231). -/
def Claims.UserTrapWord : Prop :=
  ∀ (h : Hdr) (f : FmtRR) (s : State),
    (s.me.enabled h = true → exec (.trap h f) s = did (s.setMe (s.me.setGroup fun g =>
      { g with user := some ⟨.user (f.aux.extractLsb' 0 6), readSpec s.me f.a, s.me.wpc⟩, userBit := 1 <<< g.idx }))) ∧
    (s.me.enabled h = false → exec (.trap h f) s = did s) ∧
    (Cause.user (f.aux.extractLsb' 0 6)).code = 0x40 + (f.aux.extractLsb' 0 6).setWidth 8

/-- Taking a trap at level T with a usable handler: the trap registers hold the kind, cause, information, word and return PC; the
slot is at level S with a fresh bank at the handler's entry; the task's own bank and registers stand (17 R432, R441). -/
def Claims.TrapEntry : Prop :=
  ∀ (s : State) (t : Trap) (k : TKind) (tpc : BitVec 32) (hd : Header), s.me.level ≠ .s → t.cause ≠ .pageNotPresent →
    t.cause ≠ .ownership →
    s.handler s.me.id.part (s.jobOf s.me.id.part s.me.id.handle) = some hd →
    Kept s (s.takeTrap t k tpc) ∧ (s.takeTrap t k tpc).cycle = s.cycle ∧
    (s.takeTrap t k tpc).me =
      { s.me with
        level := .s, sb := {}, pc := hd.entry, grp := none, walk := none, rptResume := false,
        hBase := (s.part s.me.id.part).trapVec + 128, hLen := hd.codeLen,
        pre := s.me.pre.map fun p => p.stop s.cycle,
        csr := { s.me.csr with trapDefer := k = .f, trapCause := t.cause.code, trapInfo := t.info, trapWpc := t.wpc, trapPc := tpc } }

/-- A trap raised at level S ends the task in ERROR (17 R434): the partition's error record has the cause and TRAPWPC, and its signal is
sent; the launch's error count is one higher; the record in memory has the state ERROR, March holds it no more, and the slot is free.
The record's UNIT, SEV and CODE, and where it holds the cause, are the model's choice (log 27). -/
def Claims.DoubleTrap : Prop :=
  ∀ (s : State) (t : Trap) (k : TKind) (tpc : BitVec 32), s.me.level = .s →
    let p := s.me.id.part
    let pa := s.part p
    let info := (t.wpc.setWidth 64 <<< 32) ||| t.cause.code.setWidth 64
    let bs := errBytes s 1 1 6 s.cur.1 (if pa.dbgPol &&& 3 = 3 then info else 0)
    let u := s.errRecord (some p) 1 1 6 s.cur.1 info
    let v := u.launchErr p s.me.id.handle 1
    let e := s.takeTrap t k tpc
    (pa.errCnt = 0 → u = s.signal p) ∧
    (∀ q, pa.errCnt ≠ 0 → interAddr s p (pa.errBase.toNat + 32 * (pa.errIdx % pa.errCnt.toNat)) = .ok q →
      s.unitOwner (q / 2 ^ 30) = some p → s.unitFrozen (q / 2 ^ 30) = false → s.frozenBy q bs = [] →
      Memory.read u.hbm q 32 = bs ∧ (u.part p).errIdx = pa.errIdx + 1 ∧
      u = ((s.wrHbm q bs).setPart p { pa with errIdx := pa.errIdx + 1 }).signal p) ∧
    v.launches = s.launches.map (fun x => if x.part = p ∧ x.handle = s.me.id.handle then
      { x with errcnt := min 0xFFFFFFFF (x.errcnt + 1) } else x) ∧
    e = v.endTask s.cur.1 s.cur.2 .error ∧ (e.slot s.cur.1 s.cur.2).st = .empty ∧
    ∀ d r, s.slotRec s.cur.1 s.cur.2 = some (d, r) →
      (∀ y ∈ (e.die d).recs, y.seq ≠ r.seq) ∧
      e.hbm = (let w := v.leaveRoutines s.cur.1 s.cur.2
        (w.marchWrite r.part (w.jobOf r.part r.handle) r.addr.toNat
          (bytesOfNat 8 (recHdr r.handle r.prio TState.error.code r.cont) ++ bytesOfNat 4 0)).hbm) ∧
      recHdr r.handle r.prio TState.error.code r.cont % 16 = 7

/-- RFT with no trap held and no group to issue again ends the handler: the slot is at level T at TRAPPC, its task's bank as it
left it, with the handler's results of the registers that both share still to land (17 R432, R446; log 163).  That a pre-emption
request counts on only where a frame cell is free is the model's choice (18 R470, log 87). -/
def Claims.ReturnFromTrap : Prop :=
  ∀ (s : State), s.me.csr.unhold = none → s.me.rpl.valid = false → s.me.csr.rptrem = 0 → s.me.wait = none → s.me.ends = .next →
    Kept s s.rftReturn ∧ s.rftReturn.cycle = s.cycle ∧
    s.rftReturn.me = { s.me.handOver with
      level := .t, pre := s.me.pre.map (fun p => if s.hasCell s.cur.1 s.me.id.part then p.go s.cycle else p),
      grp := none, pc := s.me.csr.trapPc, rptResume := false } ∧
    (s.me.sb.inflight = [] → s.me.sb.tags = [] → s.me.handOver = { s.me with sb := { s.me.sb with inflight := [], tags := [] } })

/-- A buffered group is issued again from its first word that has not performed, with the words that have performed left out
(17 R446). -/
def Claims.ReplayedGroup : Prop :=
  ∀ (l : Slot) (pc : BitVec 32) (j : Nat) (w : IWord) (r : List (Nat × IWord)), l.rpl.valid = true → l.rpl.left = (j, w) :: r →
    ∃ g, (l.resumeAt pc).grp = some g ∧ g.idx = j ∧ g.perf = l.rpl.perf ∧ g.words = l.rpl.words ∧ g.reissue = true ∧
      (l.resumeAt pc).pc = l.rpl.leadPc ∧ g.checked = false

/-! ### Vector words -/

/-- A V word's results put in flight: in each cluster of its mask a value and flags, with the lanes of the word's lane mask
(06 R189; 08 R235). -/
def vectorOut (h : Hdr) (s : State) (lat : Nat) (f : FmtRR) (val : Nat → BitVec 16 → Vec × Fl) : State :=
  s.setMe { (clusters f.cmask).foldl (fun l c => l.vectorResult lat c (vdstRef (1 <<< c) f.dst) (s.me.laneMask h c)
    (val c (s.me.laneMask h c)).1 (val c (s.me.laneMask h c)).2) s.me with vIssued := true }

/-- A vector value from its elements, with the flags of those that have an enabled lane. -/
def elements (w : Nat) (g : Nat → Nat × Fl) (m : BitVec 16) : Vec × Fl :=
  (packVec w fun e => (g e).1, joinFlags w m ((List.range (512 / w)).map g))

/-- A V word that writes lane masks put in flight: bit i of each cluster's mask, and flags (08 R239). -/
def maskOut (h : Hdr) (s : State) (lat : Nat) (f : FmtRR) (bit : Nat → Nat → Bool) (fl : Nat → BitVec 16 → Fl) : State :=
  s.setMe { (clusters f.cmask).foldl (fun l c => l.launch ⟨c + 1, .vp c f.dst.toNat, lat,
    BitVec.ofNat 512 ((List.range 16).foldl (fun n i => if bit c i then n + 2 ^ i else n) 0), s.me.laneMask h c, none,
    fl c (s.me.laneMask h c), fpcEn s.me.fpcNow, s.me.wpc⟩) s.me with vIssued := true }

/-- Elements of 8 to 64 bits pack into a register and read back in place (08 R233, Table 8-A; 04 R91). -/
def Claims.VectorElements : Prop :=
  ∀ w ∈ [8, 16, 32, 64], ∀ (g : Nat → Nat) (e : Nat), e < 512 / w → elemOf w (packVec w g) e = g e % 2 ^ w

/-- A vector result lands in the enabled lanes of its destination in its cluster, and its flags join FPC; no other lane, vector or
scalar register, predicate or lane mask changes (06 R189; 04 R108; 08 R235). -/
def Claims.VectorLandingFrame : Prop :=
  ∀ (l : Slot) (v : Level) (x : Landing) (c i : Nat), c < 8 → i < 64 → x.unit = c + 1 → x.dst = .v (1 <<< c) i →
    let m := l.land v x
    (∀ d j n, d < 8 → j < 64 → n < 16 →
      lane (m.rdV d j) n = if d = c ∧ j = i ∧ x.mask.getLsbD n then lane x.val n else lane (l.rdV d j) n) ∧
    (∀ j, m.rdS v j = l.rdS v j) ∧ (∀ j, m.rdQ j = l.rdQ j) ∧ (∀ j, m.rdP v j = l.rdP v j) ∧ (∀ d j, m.rdVq d j = l.rdVq d j) ∧
    (∀ d j, m.rdVp d j = l.rdVp d j) ∧ (m.bankOf v).fpc = (l.bankOf v).fpc ||| (x.flags.setWidth 32 <<< 8) ∧
    m.csr = l.csr ∧ m.level = l.level ∧ m.pc = l.pc

/-- The integer V words complete: each element is that of the integer operation at TYPE's width, VADD, VSUB and VMAD saturating
where AUX[0] is set, with latency 2 (08 R238). -/
def Claims.VectorIntegerWords : Prop :=
  ∀ (h : Hdr) (f : FmtRR) (s : State),
    let w := WellFormed.tyWidth f.ty
    let x (c e : Nat) : Int := tyVal f.ty (vElem s.me f.ty c f.a e)
    let y (c e : Nat) : Int := tyVal f.ty (vElem s.me f.ty c f.b e)
    let z (c e : Nat) : Int := tyVal f.ty (vElem s.me f.ty c f.c e)
    let sat (r : Int) : Int := if f.aux.getLsbD 0 then clampInt (tyMin f.ty) (tyMax f.ty) r else r
    (∀ p ∈ [(Instr.vmul, IntOp.mul), (Instr.vmulHi, .mulHi), (Instr.vlogAnd, .and), (Instr.vlogOr, .or), (Instr.vlogXor, .xor),
        (Instr.vlogAndn, .andn), (Instr.vshShl, .shl), (Instr.vshShr, .shr), (Instr.vshSra, .sra), (Instr.vshRot, .rot),
        (Instr.vmin, .min), (Instr.vmax, .max)],
      exec (p.1 h f) s = did (vectorOut h s 2 f fun c => elements w fun e => (truncInt w (intOp p.2 w (x c e) (y c e)), 0))) ∧
    exec (.vadd h f) s = did (vectorOut h s 2 f fun c => elements w fun e => (truncInt w (sat (x c e + y c e)), 0)) ∧
    exec (.vsub h f) s = did (vectorOut h s 2 f fun c => elements w fun e => (truncInt w (sat (x c e - y c e)), 0)) ∧
    exec (.vmad h f) s = did (vectorOut h s 2 f fun c => elements w fun e => (truncInt w (sat (x c e * y c e + z c e)), 0))

/-- VCMP, VFCMP and VPLOG write a lane mask: bit i from the element that lane i belongs to, or from bits i of two masks; VSEL takes
each lane from A or B as bit i of its selecting mask says, and VPCNT counts bits (08 R239 to R242). -/
def Claims.VectorMaskWords : Prop :=
  ∀ (h : Hdr) (cc : Cc) (f : FmtRR) (s : State),
    let w := WellFormed.tyWidth f.ty
    let m (c : Nat) (x : BitVec 9) (n : Bool) (i : Nat) : Bool := (vpOf s.me c x n).getLsbD i
    let cmp (c e : Nat) := (fctx s.me.fpcNow).cmp (fmtTy f.ty) cc (vElem s.me f.ty c f.a e) (vElem s.me f.ty c f.b e)
    exec (.vcmp h cc f) s = did (maskOut h s 2 f (fun c i =>
      ccHolds cc (tyVal f.ty (vElem s.me f.ty c f.a (32 * i / w))) (tyVal f.ty (vElem s.me f.ty c f.b (32 * i / w)))) fun _ _ => 0) ∧
    exec (.vfcmp h cc f) s = did (maskOut h s 4 f (fun c i => (cmp c (32 * i / w)).1) fun c en =>
      (List.range (512 / w)).foldl (fun fl e => if elemOn w en e then fl ||| (cmp c e).2 else fl) 0) ∧
    (∀ p ∈ [(Instr.vplogAnd, fun x y => x && y), (Instr.vplogOr, fun x y => x || y), (Instr.vplogXor, fun x y => x != y),
        (Instr.vplogAndn, fun x y => x && !y)],
      exec (p.1 h f) s = did (maskOut h s 2 f (fun c i => p.2 (m c f.a (f.aux.getLsbD 0) i) (m c f.b (f.aux.getLsbD 1) i))
        fun _ _ => 0)) ∧
    exec (.vsel h f) s = did (vectorOut h s 2 f fun c _ => (vecOfLanes fun i =>
      if (s.me.rdVp c (f.aux.extractLsb' 0 3).toNat).getLsbD i then lane (readVSpec s.me c f.a) i
      else lane (readVSpec s.me c f.b) i, 0)) ∧
    exec (.vpcnt h f) s = did (vectorOut h s 2 f fun c _ => (vecOfLanes fun i => BitVec.ofNat 32
      (((List.range 16).filter fun j => m c f.a (f.aux.getLsbD 0) j && (!f.aux.getLsbD 1 || j < i)).length), 0))

/-- The float V words complete with the operation of each element under the captured FPC, VSF in 8 cycles and the others in 4
(08 R243, R244; 06 Table 6-7). -/
def Claims.VectorFloatWords : Prop :=
  ∀ (h : Hdr) (f : FmtRR) (s : State),
    let w := WellFormed.tyWidth f.ty
    let k := fctx s.me.fpcNow
    let x (r : BitVec 9) (c e : Nat) : Nat := vElem s.me f.ty c r e
    (∀ p ∈ [(Instr.vfadd, FpOp.add), (Instr.vfaddSub, .sub), (Instr.vfmul, .mul), (Instr.vfma, .fma), (Instr.vfmaFms, .fms),
        (Instr.vfmaFnma, .fnma), (Instr.vfmin, .min), (Instr.vfmax, .max)],
      exec (p.1 h f) s = did (vectorOut h s 4 f fun c => elements w fun e =>
        k.op (fmtTy f.ty) p.2 (x f.a c e) (x f.b c e) (x f.c c e))) ∧
    ∀ p ∈ [(Instr.vsfRcp, SfOp.rcp), (Instr.vsfRsqrt, .rsqrt), (Instr.vsfExp2, .exp2), (Instr.vsfLog2, .log2), (Instr.vsfSin, .sin),
        (Instr.vsfCos, .cos), (Instr.vsfTanh, .tanh), (Instr.vsfSigm, .sigm)],
      exec (p.1 h f) s = did (vectorOut h s 8 f fun c => elements 32 fun e => k.sf p.2 (vElem s.me 4 c f.a e))

/-- VCVT converts each element, a narrowing one into the part that AUX[8:7] names with zeros elsewhere, a widening one from that
part (08 R245). -/
def Claims.VectorConversions : Prop :=
  ∀ (h : Hdr) (f : FmtRR) (s : State),
    let src := f.aux.extractLsb' 0 4
    let ws := WellFormed.tyWidth src
    let wd := WellFormed.tyWidth f.ty
    let p := (f.aux.extractLsb' 7 2).toNat
    let cv (c e : Nat) : Nat × Fl := (fctx s.me.fpcNow).convert f.ty src (f.aux.extractLsb' 4 3) (vElem s.me src c f.a e)
    (wd = ws → exec (.vcvt h f) s = did (vectorOut h s 4 f fun c => elements wd (cv c))) ∧
    (ws < wd → exec (.vcvt h f) s = did (vectorOut h s 4 f fun c => elements wd fun e => cv c (p * (512 / wd) + e))) ∧
    (wd < ws → exec (.vcvt h f) s = did (vectorOut h s 4 f fun c => elements wd fun e =>
      if p * (512 / ws) ≤ e ∧ e < p * (512 / ws) + 512 / ws then cv c (e - p * (512 / ws)) else (0, 0)))

/-- VCVT.BS converts each pair of clusters that performs: packing takes 32 f32 elements to codes under a scale that it computes or is
given, unpacking takes them back; each element's flags are raised where its lane is enabled, NV also by a packed block of a NaN or an
infinity; a pair that does not perform writes no lane and makes its last-result entries; an hf4 scale entry whose XV is not legal traps
FORMAT (08 R246 to R249).  That a performing pair is written under each cluster's own lane mask (log 142), that a packed element's source
lane enables its flags (log 141), and XV 0 of such a block (log 179) are the model's choice. -/
def Claims.BlockScaleWords : Prop :=
  ∀ (h : Hdr) (f : FmtRR) (s : State),
    let k := fctx s.me.fpcNow
    let code := bsCode f
    let fmt := (fmtCode code).getD fmtE5m2
    let raw (c : Nat) := (List.range 32).map (bsLane s.me (c / 2 * 2) f.a)
    let entry (x : BitVec 9) (c : Nat) : Nat := (lane (readVSpec s.me (c / 2 * 2 + 1) x) 0).toNat
    let xv (x : BitVec 9) (c : Nat) : Nat := entry x c / 256 % 256
    let scale (c : Nat) : Nat × Nat × Bool :=
      if f.aux.getLsbD 6 then blockScale code ((raw c).map (k.read fmtF32))
      else (entry f.b c % 256, (if code = 9 then xv f.b c else 0), decide (entry f.b c % 256 = 0xFF))
    let illegal (x : BitVec 9) : Bool := (clusters f.cmask).any fun c => c % 2 = 0 && bsOn s.me h c && xvBad (xv x c)
    let out (val : Nat → Vec) (fl : Nat → Fl) : State := s.setMe { (clusters f.cmask).foldl (fun l c =>
      if bsOn s.me h c then l.vectorResult 4 c (vdstRef (1 <<< c) f.dst) (s.me.laneMask h c) (val c) (fl c)
      else l.vectorResult 4 c (vdstRef (1 <<< c) f.dst) 0 0 0) s.me with vIssued := true }
    let flags (c : Nat) (g : Nat → Fl) : Fl := (List.range 16).foldl (fun a i =>
      if (s.me.laneMask h c).getLsbD i then a ||| g (i + c % 2 * 16) else a) 0
    let unpacked (c e : Nat) : Nat × Fl :=
      let x := bitsAt (readVSpec s.me (c / 2 * 2) f.a).toNat (fmt.w * e) fmt.w
      let y := k.done fmtF32 ((elemValue code (xv f.a c) x).scale ((entry f.a c % 256 : Nat) - 127))
      if entry f.a c % 256 = 0xFF then (fmtF32.nan, 0) else (y.1, y.2 ||| if fmt.snan x then Fl.nv else 0)
    ((code = 9 → f.aux.getLsbD 6 = true ∨ illegal f.b = false) → exec (.vcvtBsPack h f) s = did (out (fun c =>
      if c % 2 = 0 then BitVec.ofNat 512 (packElems fmt.w (if (scale c).2.2 then (raw c).map fun _ => 0
          else (raw c).map fun x => (packElem code k.rm k.sat (scale c).1 (scale c).2.1 (k.read fmtF32 x)).1))
      else BitVec.ofNat 512 ((scale c).1 + 256 * (scale c).2.1)) fun c =>
        flags c (fun e => (if (scale c).2.2 then Fl.nv
          else (packElem code k.rm k.sat (scale c).1 (scale c).2.1 (k.read fmtF32 ((raw c).getD e 0))).2) |||
            (if fmtF32.snan ((raw c).getD e 0) then Fl.nv else 0)) ||| (if (scale c).2.2 ∧ c % 2 = 0 then Fl.nv else 0))) ∧
    (code = 9 → f.aux.getLsbD 6 = false → illegal f.b = true → exec (.vcvtBsPack h f) s = faulted .format 0 s) ∧
    ((code = 9 → illegal f.a = false) → exec (.vcvtBsUnpack h f) s = did (out (fun c => vecOfLanes fun i =>
      BitVec.ofNat 32 (unpacked c (i + c % 2 * 16)).1) fun c => flags c fun e => (unpacked c e).2)) ∧
    (code = 9 → illegal f.a = true → exec (.vcvtBsUnpack h f) s = faulted .format 0 s)

/-- VSHUF, VXCP, VSPLAT, VIOTA and VRNG put their lanes or elements in flight with latency 2 (08 R250, R252, R253, R255, R256). -/
def Claims.PermuteWords : Prop :=
  ∀ (h : Hdr) (f : FmtRR) (s : State),
    let w := WellFormed.tyWidth f.ty
    exec (.vshuf h f) s = did (vectorOut h s 2 f fun c _ => (vecOfLanes fun i =>
      let j := (lane (readVSpec s.me c f.b) i).toNat
      if j.testBit 4 then 0 else lane (readVSpec s.me c f.a) (j % 16), 0)) ∧
    exec (.vxcp h f) s = did (vectorOut h s 2 f fun c _ =>
      (readVSpec s.me (if f.aux.getLsbD 3 then (f.aux.extractLsb' 0 3).toNat else (c + (f.aux.extractLsb' 0 3).toNat) % 8) f.a, 0)) ∧
    exec (.vsplat h f) s = did (vectorOut h s 2 f fun _ => elements w fun _ =>
      (if tyIsFloat f.ty then readF s.me (fmtTy f.ty) f.a else (readSpec s.me f.a).toNat % 2 ^ w, 0)) ∧
    exec (.viota h f) s = did (vectorOut h s 2 f fun c => elements w fun e =>
      (truncInt w ((readSpec s.me f.a).toInt + (if f.aux.getLsbD 0 then c * (512 / w) else 0 : Nat) + e), 0)) ∧
    exec (.vrng h f) s = did (vectorOut h s 2 f fun c _ => (vecOfLanes fun i =>
      BitVec.ofNat 32 (rngMix (lane (readVSpec s.me c f.a) i).toNat (readSpec s.me f.b).toNat), 0))

/-- VEXT writes element e of its cluster, widened by TYPE, to a scalar register where the element's lowest lane is enabled, and elsewhere
makes its scalar last-result entry with the old value (08 R254);
VRED joins the enabled elements in the tree of 04 R126 and puts the result in every element (08 R251). -/
def Claims.ReductionWords : Prop :=
  ∀ (h : Hdr) (f : FmtRR) (s : State),
    let w := WellFormed.tyWidth f.ty
    let c := (clusters f.cmask).headD 0
    let e := (readSpec s.me f.b).toNat % (512 / w)
    let x := vElem s.me f.ty c f.a e
    ((s.me.laneMask h c).getLsbD (w * e / 32) = true →
      exec (.vext h f) s = did (s.setMe { s.me.scalarResult 2 (dstRef f.dst)
        (if WellFormed.tySigned f.ty then BitVec.ofInt 64 (sintNat w x) else BitVec.ofNat 64 x) 0 with vIssued := true })) ∧
    ((s.me.laneMask h c).getLsbD (w * e / 32) = false →
      exec (.vext h f) s = did (s.setMe { s.me.nullResult 2 (dstRef f.dst) with vIssued := true })) ∧
    (tyIsFloat f.ty = false →
      let d := if w = 64 then 3 else 4
      let red (op : Int → Int → Int) (z : Int) (c : Nat) (m : BitVec 16) : Vec × Fl :=
        let r := ((redTree (fun a b => (op a b, 0)) d 0 ((redElems s.me f c m).map fun x => x.map (tyVal f.ty))).1).getD z
        (packVec w fun _ => truncInt w (if f.aux.getLsbD 0 then clampInt (tyMin f.ty) (tyMax f.ty) r else r), 0)
      exec (.vredAdd h f) s = did (vectorOut h s 4 f (red (· + ·) 0)) ∧
      exec (.vredMin h f) s = did (vectorOut h s 4 f (red min (tyMax f.ty))) ∧
      exec (.vredMax h f) s = did (vectorOut h s 4 f (red max (tyMin f.ty)))) ∧
    (tyIsFloat f.ty = true →
      let d := if w = 64 then 3 else 4
      let red (op : FpOp) (z : Nat) (c : Nat) (m : BitVec 16) : Vec × Fl :=
        let r := redTree (fun a b => (fctx s.me.fpcNow).op (fmtTy f.ty) op a b 0) d 0 (redElems s.me f c m)
        (packVec w fun _ => r.1.getD z, r.2)
      exec (.vredAdd h f) s = did (vectorOut h s 4 f (red .add 0)) ∧
      exec (.vredMin h f) s = did (vectorOut h s 4 f (red .min (fmtTy f.ty).infCode)) ∧
      exec (.vredMax h f) s = did (vectorOut h s 4 f (red .max ((fmtTy f.ty).signBit true + (fmtTy f.ty).infCode))))

/-- The tree of a reduction over present elements is their sum, whatever elements are absent (04 R126; 08 R251). -/
def Claims.ReductionSums : Prop :=
  ∀ (d : Nat) (xs : List (Option Int)), xs.length = 2 ^ d →
    ((redTree (fun a b => (a + b, (0 : Fl))) d 0 xs).1).getD 0 = (xs.map fun x => x.getD 0).sum

/-! ### Memory words -/

/-- Whether a run of bytes is memory of this chip that software reaches as plain bytes. -/
def plainSeg (g : Seg) : Bool :=
  match g.loc with
  | .scr _ _ | .sync _ _ | .flag _ _ | .ctr _ _ | .hbm _ => true
  | _ => false

/-- The bytes that a place names, as a space and an offset: HBM through an extent is the same HBM. -/
def inRun (l : Loc) (g : Seg) : Bool :=
  (locKey l).1 = (locKey g.loc).1 && (locKey g.loc).2 ≤ (locKey l).2 && (locKey l).2 < (locKey g.loc).2 + g.len

/-- Bytes stored to memory of this chip read back as stored, and every byte outside the run reads as before (03 R68 to R74).  A write
that would change a frozen table of a partition changes no byte and moves its interface to ERROR (22 R551, R563). -/
def Claims.MemoryReadAfterWrite : Prop :=
  ∀ (s : State) (g : Seg) (bs : List Byte), plainSeg g = true → bs.length = g.len →
    ((∀ a, g.loc = .hbm a → s.unitFrozen (a / 2 ^ 30) = false ∧ s.frozenBy a bs = []) → readSeg (writeSeg s g bs) g = bs) ∧
    (∀ l, inRun l g = false → byteAt (writeSeg s g bs) l = byteAt s l) ∧
    ∀ a p, g.loc = .hbm a → s.unitFrozen (a / 2 ^ 30) = false → p ∈ s.frozenBy a bs →
      (writeSeg s g bs).hbm = s.hbm ∧ ((writeSeg s g bs).part p).tdi = .error

/-- Every write keeps the canonical form of every memory. -/
def Claims.MemoryFormKept : Prop :=
  ∀ (s : State) (segs : List Seg) (bs : List Byte), memoriesWf s = true → memoriesWf (writeSegs s segs bs) = true

/-- A local-window access of a task lies in its launch's region on its core, byte a at the region's base plus its offset; bytes
beyond SCRATCH are out of range (03 R71, R72, R82). -/
def Claims.LocalWindow : Prop :=
  ∀ (s : State) (k : Acc) (o n align : Nat) (v : Bool) (r : Region), 0 < n → o + n ≤ 0x800000 →
    (0xFF00000000000000 + o) % align = 0 → s.myCore.region s.me.id.handle = some r →
    (o + n ≤ s.me.id.hdr.scratch →
      s.access k (0xFF00000000000000 + o) n align v = .ok [⟨.scr s.cur.1 (r.base + o), n⟩] s) ∧
    (s.me.id.hdr.scratch ≤ o → s.access k (0xFF00000000000000 + o) n align v = .ok [⟨.oor, n⟩] s)

/-- An access whose first byte lies in no window traps ADDR_UNMAPPED, after the alignment check: such are the 12 MiB behind each die's
4 MiB of sync memory, what lies between the block counters and the local window, and every address beyond a window's last and
before the next; an access that leaves its window traps WINDOW_STRADDLE (03 R69, R75, R76). -/
def Claims.WindowFaults : Prop :=
  (∀ (s : State) (k : Acc) (a n align : Nat) (v : Bool), 0 < n → a % align = 0 →
    (winOf a = none → s.access k a n align v = .trap .addrUnmapped a s) ∧
    (∀ w o, winOf a = some (w, o) → (∀ o', winOf (a + n - 1) ≠ some (w, o')) → s.access k a n align v = .trap .windowStraddle a s)) ∧
  (∀ d o, d < 8 → 0x400000 ≤ o → o < 0x1000000 → winOf (0xFD00000000000000 + d * 0x1000000 + o) = none) ∧
  ∀ p ∈ [(0x0100000000000000, 0xF000000000000000), (0xF800000000000000, 0xFC00000000000000), (0xFC00000000010000, 0xFD00000000000000),
      (0xFD00000008000000, 0xFE00000000000000), (0xFE00000004000200, 0xFF00000000000000), (0xFF00000000800000, 0x10000000000000000)],
    ∀ a, p.1 ≤ a → a < p.2 → winOf a = none

/-- A load, store or atomic at an address that is not a multiple of its size, and a vector access at one that is not a multiple of
four, traps MISALIGN with the address before anything else and performs nothing (03 R75; 09 R261 to R263, R267). -/
def Claims.AlignmentFaults : Prop :=
  ∀ (h : Hdr) (f : FmtM) (g : FmtAT) (s : State), s.me.enabled h = true →
    (addrM s.me f % sizeBytes f.size ≠ 0 → ∀ i ∈ [Instr.ld h f, .st h f],
      exec i s = faulted .misalign (BitVec.ofNat 64 (addrM s.me f)) s) ∧
    (addrM s.me f % 4 ≠ 0 → ∀ i ∈ [Instr.ldv h f, .stv h f], exec i s = faulted .misalign (BitVec.ofNat 64 (addrM s.me f)) s) ∧
    ((readSpec s.me g.a).toNat % sizeBytes g.size ≠ 0 →
      ∀ i ∈ [Instr.atomAdd h g, .atomAnd h g, .atomOr h g, .atomXor h g, .atomMin h g, .atomMax h g, .atomSwap h g, .atomCas h g,
        .atomFadd h g, .atomBfadd h g], exec i s = faulted .misalign (readSpec s.me g.a) s)

/-- LD and LDV complete: the bytes at the address wait under the word's tag for their destination, LD's zero-extended to 64 bits
(09 R261, R263). -/
def Claims.LoadWords : Prop :=
  ∀ (h : Hdr) (f : FmtM) (s s' : State) (segs : List Seg), s.me.enabled h = true → segs.all plainSeg = true →
    poisonAt s' (addrM s.me f) segs = none →
    (s.access .load (addrM s.me f) (sizeBytes f.size) (sizeBytes f.size) false = .ok segs s' →
      exec (.ld h f) s = did (s'.await (hdrTag h) (dstRef (xDst f.x)) (.value
        (patchImage (regImage s'.me s'.me.level (dstRef (xDst f.x))) 0 (padTo 8 (readSegs s' segs))) none))) ∧
    (s.access .load (addrM s.me f) (sizeBytes f.size) 4 true = .ok segs s' →
      let dst := vdstRef (vecClusters f) (xDst f.x)
      exec (.ldv h f) s = did (s'.await (hdrTag h) dst (.value
        (patchImage (regImage s'.me s'.me.level dst) (if f.size = 4 then 64 * f.cl.toNat else 0) (padTo 4 (readSegs s' segs))) none)))

/-- LOAD_RETURN: the oldest value of a tag lands in its destination and retires it; a poisoned one leaves its destination, retires
the tag and raises DATA_POISON with its address (09 R261; 06 R182; 17 R440).  That a load reads its bytes at issue is the model's choice
(log 16). -/
def Claims.LoadReturns : Prop :=
  ∀ (s : State) (c k tag : Nat) (r : TagRes) (rest : List TagRes),
    Sparse.find ((s.slot c k).bankOf (s.slot c k).level).tags tag = some (r :: rest) →
    (∀ x, r.op = .value x none → exec (.loadReturn c k tag) s = .next (s.setSlot c k
      ((writeRef (s.slot c k) (s.slot c k).level 0xFFFF x r.dst).retire (s.slot c k).level tag (· == r)))) ∧
    (∀ x a, r.op = .value x (some a) → exec (.loadReturn c k tag) s = .next
      ((s.setSlot c k ((s.slot c k).retire (s.slot c k).level tag (· == r))).deferTrap
        ⟨c, k, (s.slot c k).id.recAddr, (s.slot c k).id.seq, (s.slot c k).level⟩ ⟨.dataPoison, a, r.wpc⟩))

/-- ST and STV complete: the low bytes of X, or 64 bytes of each cluster's X, are at the address, lowest byte first
(09 R262, R263; 00 R5). -/
def Claims.StoreWords : Prop :=
  ∀ (h : Hdr) (f : FmtM) (s s' : State) (segs : List Seg), s.me.enabled h = true → segs.all plainSeg = true →
    (s.access .store (addrM s.me f) (sizeBytes f.size) (sizeBytes f.size) false = .ok segs s' →
      exec (.st h f) s = did (writeSegs s' segs (bytesOfNat (sizeBytes f.size) (readSpec s.me f.x).toNat))) ∧
    (f.size = 4 ∨ f.size = 5 → s.access .store (addrM s.me f) (sizeBytes f.size) 4 true = .ok segs s' →
      exec (.stv h f) s = did (writeSegs s' segs
        ((clusters (vecClusters f)).flatMap fun c => bytesOfNat 64 (readVSpec s.me c f.x).toNat)))

/-- A byte that the translation of a store may change beside what it stores: of a table's leaf that its first write marks DIRTY (19
R487), and of a line of the flag window whose copy comes back from its host (21 R536). -/
def markedByte (s : State) : Loc → Bool
  | .hbm a | .ext a => (s.myCore.tlb ++ (s.die (coreDie s.cur.1)).l2tlb).any fun e =>
      !e.dirty && e.leaves.any fun x => decide (x ≤ a) && decide (a < x + 8)
  | .flag p o => (s.part p).flagMod.contains (o / 64)
  | _ => false

/-- What a store to some runs leaves alone: every byte outside them that its translation does not mark, every slot with its registers
and flags, all else of every core, and the clock. -/
def StoreKept (s t : State) (segs : List Seg) : Prop :=
  (∀ l, segs.all (fun g => !inRun l g) = true → markedByte s l = false → byteAt t l = byteAt s l) ∧
  (∀ c k, t.slot c k = s.slot c k) ∧ (∀ c, t.core c = { s.core c with scr := (t.core c).scr, tlb := (t.core c).tlb }) ∧ t.cycle = s.cycle

/-- ST, STV and VSCAT to memory of this chip change no byte outside the runs of their addresses but what their translation marks, no
register and no flag of any slot, and nothing else of a core (09 R262, R263, R266). -/
def Claims.StoreFrame : Prop :=
  ∀ (h : Hdr) (f : FmtM) (g : FmtG) (s s' : State) (segs : List Seg) (ps : List Piece), s.me.enabled h = true →
    (segs.all plainSeg = true → s.access .store (addrM s.me f) (sizeBytes f.size) (sizeBytes f.size) false = .ok segs s' →
      ∃ t, exec (.st h f) s = did t ∧ StoreKept s t segs) ∧
    (segs.all plainSeg = true → f.size = 4 ∨ f.size = 5 → s.access .store (addrM s.me f) (sizeBytes f.size) 4 true = .ok segs s' →
      ∃ t, exec (.stv h f) s = did t ∧ StoreKept s t segs) ∧
    ((ps.all fun p => p.runs.all plainSeg) = true →
      gatherCheck .store (2 ^ g.size.toNat) (gatherAddrs s.me g) s [] = .ok (ps, s') →
      ∃ t, exec (.vscat h g) s = did t ∧ StoreKept s t (ps.flatMap fun p => p.runs))

/-- VGATH and VSCAT check every element, cluster by cluster and lane by lane, before any performs; the gathered lanes wait under the
tag, and the scattered ones are stored in that order (09 R265, R266). -/
def Claims.GatherScatterWords : Prop :=
  ∀ (h : Hdr) (f : FmtG) (s s' : State) (ps : List Piece), s.me.enabled h = true →
    (gatherCheck .load (2 ^ f.size.toNat) (gatherAddrs s.me f) s [] = .ok (ps, s') →
      exec (.vgath h f) s = did (s'.loadPieces (hdrTag h) (vdstRef f.cmask (xDst f.x)) (f.ord.getLsbD 0)
        ps)) ∧
    (gatherCheck .store (2 ^ f.size.toNat) (gatherAddrs s.me f) s [] = .ok (ps, s') →
      exec (.vscat h f) s = did (ps.foldl (fun t p => (t.noteRange p.addr p.runs).writeOwns p.runs
        (bytesOfNat (2 ^ f.size.toNat) (lane (readVSpec s.me (p.pos / 64) f.x) (p.pos % 64 / 4)).toNat)) s')) ∧
    (∀ c x t, gatherCheck .load (2 ^ f.size.toNat) (gatherAddrs s.me f) s [] = .error (.trap c x t) →
      exec (.vgath h f) s = faulted c x t) ∧
    (∀ c x t, gatherCheck .store (2 ^ f.size.toNat) (gatherAddrs s.me f) s [] = .error (.trap c x t) →
      exec (.vscat h f) s = faulted c x t)

/-- The ten atomics complete: the old value waits under the word's tag and the new value stands in memory (09 R267, R268). -/
def Claims.AtomicWords : Prop :=
  ∀ p ∈ [(Instr.atomAdd, AtomOp.add), (Instr.atomAnd, .and), (Instr.atomOr, .or), (Instr.atomXor, .xor), (Instr.atomMin, .min),
      (Instr.atomMax, .max), (Instr.atomSwap, .swap), (Instr.atomCas, .cas), (Instr.atomFadd, .fadd), (Instr.atomBfadd, .bfadd)],
    ∀ (h : Hdr) (f : FmtAT) (s s' : State) (segs : List Seg), s.me.enabled h = true → segs.all plainSeg = true →
      s.access .atomic (readSpec s.me f.a).toNat (sizeBytes f.size) (sizeBytes f.size) false = .ok segs s' →
      ((inScratch segs || inLocal (readSpec s.me f.a).toNat) && !p.2.bank) = false → (inCounter segs && decide (8 ≤ p.2.code)) = false →
      poisonAt s' (readSpec s.me f.a).toNat segs = none →
      let old := natOfBytes (readSegs s' segs)
      let new := p.2.apply (sizeBytes f.size) old (readSpec s.me f.b).toNat (readSpec s.me f.c).toNat
      exec (p.1 h f) s = did ((writeSegs s' segs (bytesOfNat (sizeBytes f.size) new)).await (hdrTag h) (dstRef f.dst)
        (.value (BitVec.ofNat 4096 old) none))

/-- The new values of the integer atomics, on 32-bit and 64-bit words (09 Table 9-3). -/
def Claims.AtomicResults : Prop :=
  ∀ n ∈ [4, 8], ∀ (x y z : BitVec (8 * n)),
    AtomOp.add.apply n x.toNat y.toNat z.toNat = (x + y).toNat ∧ AtomOp.and.apply n x.toNat y.toNat z.toNat = (x &&& y).toNat ∧
    AtomOp.or.apply n x.toNat y.toNat z.toNat = (x ||| y).toNat ∧ AtomOp.xor.apply n x.toNat y.toNat z.toNat = (x ^^^ y).toNat ∧
    AtomOp.min.apply n x.toNat y.toNat z.toNat = (if x.sle y then x else y).toNat ∧
    AtomOp.max.apply n x.toNat y.toNat z.toNat = (if x.sle y then y else x).toNat ∧
    AtomOp.swap.apply n x.toNat y.toNat z.toNat = y.toNat ∧ AtomOp.cas.apply n x.toNat y.toNat z.toNat = (if x = z then y else x).toNat

/-- PREF has no effect that any agent can read; FENCE below chip scope writes zero, and at chip scope or wider the refusals counted,
which begin anew (09 R270, R272; 05 R157); CFLUSH.WB puts the task's posted bytes of the run in host memory, CFLUSH.INV drops its
read buffer there, CFLUSH.WBINV does both (09 R271; 05 R161). -/
def Claims.FenceFlushPrefetchWords : Prop :=
  ∀ (h : Hdr) (f : FmtM) (s : State), s.me.enabled h = true →
    exec (.pref h f) s = did s ∧
    (f.scope.toNat < 3 → exec (.fence h f) s = did (s.landNow (dstRef (xDst f.x)) 0)) ∧
    (3 ≤ f.scope.toNat →
      let word : Word := (s.me.refused.setWidth 64 <<< 32) ||| s.me.first.setWidth 64
      let read := s.landNow (dstRef (xDst f.x)) word
      let zero := read.setMe { read.me with refused := 0, first := 0 }
      (dstRef (xDst f.x) ≠ .s 0 ∨ s.me.refused = 0 → exec (.fence h f) s = did zero) ∧
      (dstRef (xDst f.x) = .s 0 → s.me.refused ≠ 0 → exec (.fence h f) s = did (zero.setMe (zero.me.setGroup fun g =>
        { g with defer := g.defer ++ [⟨.remoteError, word, s.me.wpc⟩] })))) ∧
    (∀ a, winOf (addrM s.me f) = some (.global, a) → (readSpec s.me f.x).toNat % 2 ^ 32 ≠ 0 →
      let n := (readSpec s.me f.x).toNat % 2 ^ 32
      let lo := addrM s.me f / 128 * 128
      let len := min ((addrM s.me f + n + 127) / 128 * 128) (2 ^ 56) - lo
      let runs := hostRuns s s.me.id.part (s.jobOf s.me.id.part s.me.id.handle) (len / 2 ^ 16 + 2) lo len
      ((s.host.posted ≠ [] ∨ Sparse.get [] s.host.rdBufs s.me.id.seq ≠ []) →
        exec (.cflushWb h f) s = did (runs.foldl (fun s (b, m) => s.writeBack s.cur.1 s.cur.2 b m) s) ∧
        exec (.cflushInv h f) s = did (runs.foldl (fun s (b, m) => s.dropReads s.cur.1 s.cur.2 b m) s) ∧
        exec (.cflushWbinv h f) s = did (runs.foldl (fun s (b, m) =>
          (s.writeBack s.cur.1 s.cur.2 b m).dropReads (s.writeBack s.cur.1 s.cur.2 b m).cur.1
            (s.writeBack s.cur.1 s.cur.2 b m).cur.2 b m) s)))

/-- FLAG adds B to the 64-bit word at an aligned address of the local, block or counter window, and traps PERM in the other windows
(09 R273). -/
def Claims.FlagWord : Prop :=
  ∀ (h : Hdr) (f : FmtAT) (s s' : State) (segs : List Seg) (w : Win) (o : Nat), s.me.enabled h = true →
    (readSpec s.me f.a).toNat % 8 = 0 → checkWin (readSpec s.me f.a).toNat 8 = .ok (w, o) →
    ((w = .loc ∨ (∃ j, w = .block j) ∨ w = .ctrs) → segs.all plainSeg = true →
      s.access .store (readSpec s.me f.a).toNat 8 8 false = .ok segs s' →
      exec (.flagI h f) s = did (writeSegs s' segs (bytesOfNat 8
        ((natOfBytes (readSegs s' segs) % 2 ^ 64 + (readSpec s.me f.b).toNat) % 2 ^ 64)))) ∧
    ((w = .global ∨ w = .flag ∨ (∃ d, w = .sync d) ∨ ∃ x y, w = .pod x y) →
      exec (.flagI h f) s = faulted .perm (readSpec s.me f.a) s)

/-- WAITF and WAITF.T end at once with status 0 where the relation holds at issue; WAITF.T with a limit of 0 ends with TIMEOUT; else
the task waits, with the limit's cycle as its deadline (09 R274 to R277); a poisoned word traps DATA_POISON (03 R79, 22 R567). -/
def Claims.WaitWords : Prop :=
  ∀ (h : Hdr) (f : FmtT) (s s' : State) (g : Seg), s.me.enabled h = true → plainSeg g = true →
    s.access .load (readSpec s.me f.a).toNat 8 8 false = .ok [g] s' →
    let x := BitVec.ofNat 64 (natOfBytes (readSeg s' ⟨g.loc, 8⟩))
    let v := readSpec s.me f.b
    let rel := f.imm.extractLsb' 0 2
    let limit := (readSpec s.me f.c).toNat % 2 ^ 32
    let waits (k : WaitKind) (d : Option Nat) : State :=
      (s'.startWait k (BitVec.ofNat 64 (readSpec s.me f.a).toNat) v rel g.loc d (hdrTag h)).await (hdrTag h) (dstRef f.dst) .wait
    let bad := poisonAt s' (readSpec s.me f.a).toNat [g]
    (bad = none → waitHolds rel x v = true → ∀ i ∈ [Instr.waitf h f, .waitfT h f], exec i s = did (s'.landNow (dstRef f.dst) 0)) ∧
    (bad = none → waitHolds rel x v = false → exec (.waitf h f) s = did (waits .waitf none)) ∧
    (bad = none → waitHolds rel x v = false → limit = 0 → exec (.waitfT h f) s = did (s'.landNow (dstRef f.dst) 1)) ∧
    (bad = none → waitHolds rel x v = false → limit ≠ 0 → exec (.waitfT h f) s = did (waits .waitfT (some (s'.cycle + limit)))) ∧
    (∀ y, bad = some y → ∀ i ∈ [Instr.waitf h f, .waitfT h f], exec i s = faulted .dataPoison (BitVec.ofNat 64 y) s') ∧
    (rel = 0 → (waitHolds rel x v = true ↔ v.toNat ≤ x.toNat)) ∧ (rel = 1 → (waitHolds rel x v = true ↔ x = v)) ∧
    (rel = 2 → (waitHolds rel x v = true ↔ x ≠ v))

/-- WAIT_TIMEOUT ends a wait whose limit has passed: with TIMEOUT where its condition does not hold, and always where its monitor
stands outside the table and no scan of its die is due; a scan that is due comes first; a monitor scan at its phase tests a die's spilled
and deferred monitors, then moves them; WFE ends at its limit (09 R277, R278; 17 R454; 18 R474). -/
def Claims.WaitEvents : Prop :=
  ∀ (s : State) (c k : Nat) (w : Wait) (d : Nat),
    ((s.slot c k).wait = some w → w.kind = .waitfT → w.deadline = some d → d ≤ s.cycle → w.place = .table →
      s.testWait (.slot c k) w = none →
      exec (.waitTimeout c k) s = .next (s.endWait (.slot c k) w (some 5))) ∧
    ((s.slot c k).wait = some w → w.kind = .waitfT → w.deadline = some d → d ≤ s.cycle → w.place = .overflow ∨ w.place = .deferred →
      (s.scanDue (coreDie c) = false → exec (.waitTimeout c k) s = .next (s.endWait (.slot c k) w (some 7))) ∧
      (s.scanDue (coreDie c) = true → exec (.waitTimeout c k) s = .next (s.scan (coreDie c)))) ∧
    (s.cycle % 4096 = Config.scanPhase d % 4096 →
      ∃ t, exec (.monitorScan d) s = .next t ∧ t = (let m := (s.testWaits fun x => x == d).moveMonitors d
        m.setDie d { m.die d with scanned := m.cycle + 1 })) ∧
    (∀ e, (s.slot c k).wfe = some (e, d) → d ≤ s.cycle → exec (.wfeTimeout c k) s = .next (s.endWfe c k))

/-- No step of the machine breaks the canonical form of a memory, whatever state it starts from: HBM, host memory, the scratchpads,
the sync memories and the flag windows. -/
def Claims.StepKeepsMemories : Prop :=
  ∀ s t : State, memoriesWf s = true → step s = .next t → memoriesWf t = true

/-! ### Copies, rings and tasks -/

/-- CPY and CPY.SCALE complete: a command with the word's operands is in an engine with a free place, or in the intake behind those
that wait there, and its token waits under the word's tag; a misplaced record or target traps first (09 R279 to R282).  The order of
those traps is the model's choice (log 174). -/
def Claims.CopyWords : Prop :=
  ∀ (h : Hdr) (f : FmtT) (s : State), s.me.enabled h = true →
    let d := (readSpec s.me f.a).toNat
    let src := (readSpec s.me f.b).toNat
    let t := (readSpec s.me f.c).toNat
    (t % 64 = 0 → (f.imm ≠ 0 → d % 128 = 0 ∧ inLocal d = true) →
      exec (.cpy h f) s = did (s.startCopy f (hdrTag h) false d src t f.imm.toNat)) ∧
    (t % 64 ≠ 0 → exec (.cpy h f) s = faulted .misalign (readSpec s.me f.c) s) ∧
    (t % 64 = 0 → f.imm ≠ 0 → d % 128 ≠ 0 → exec (.cpy h f) s = faulted .misalign (readSpec s.me f.a) s) ∧
    (t % 64 = 0 → f.imm ≠ 0 → d % 128 = 0 → inLocal d = false → exec (.cpy h f) s = faulted .perm (readSpec s.me f.a) s) ∧
    (src % 32 = 0 → exec (.cpyScale h f) s = did (s.startCopy f (hdrTag h) true 0 src d 0)) ∧
    (src % 32 ≠ 0 → exec (.cpyScale h f) s = faulted .misalign (readSpec s.me f.b) s) ∧
    ∃ x, Sparse.find (s.startCopy f (hdrTag h) false d src t f.imm.toNat).myCore.copies s.myCore.nextCopy = some x ∧
      x.d.toNat = d ∧ x.s.toNat = src ∧ x.t.toNat = t ∧ x.lines = f.imm.toNat ∧ x.pos = 0 ∧ x.finished = false ∧
      ((∀ y ∈ s.myCore.copies, y.2.engine.isSome = true) → x.engine = s.myCore.freeEngine)

/-- A waiting command passes to a free place; an engine's step is kept with its command; and a finished command leaves its engine,
writes its token, bytes done above the code, and retires its tag, once its writes to peer chips are acknowledged and, for a release
at chip scope or wider, every remote word of the core (09 R279, R281, R283; 05 R142, R143, R156).  How an engine reaches pages of peer
chips is the model's choice (log 52). -/
def Claims.CopyEvents : Prop :=
  ∀ (s : State) (c id : Nat) (x : CopyCmd),
    (∀ e, ((s.core c).copies.find? fun y => y.2.engine.isNone) = some (id, x) → (s.core c).freeEngine = some e →
      exec (.copyIntakeDispatch c) s =
        .next (s.setCore c { s.core c with copies := Sparse.put (s.core c).copies id { x with engine := some e } })) ∧
    (Sparse.find (s.core c).copies id = some x → x.engine.isSome = true → x.finished = false →
      exec (.copyLineFill c id) s = .next ((copyStep s c id x).2.2.setCopy c id (copyStep s c id x).2.1)) ∧
    (Sparse.find (s.core c).copies id = some x → x.engine.isSome = true → x.finished = true →
      (0 < x.outs ∨ (x.rel = true ∧ 3 ≤ x.scope.toNat ∧ (s.core c).acks ≠ 0) →
        exec (.cpyCompletion c id) s = .next (s.setCopy c id x)) ∧
      (x.outs = 0 → (x.rel = false ∨ x.scope.toNat < 3 ∨ (s.core c).acks = 0) →
        exec (.cpyCompletion c id) s = .next (s.endCopy c id x)) ∧
      (x.due = [] → s.endCopy c id x = (s.setCore c { s.core c with copies := Sparse.del (s.core c).copies id }).complete x.own x.tag
        (fun r => r.op == .copy id)
        (some ((BitVec.ofNat 64 (min x.doneN 0xFFFFFFFF * 2 ^ 32 + x.code.toNat)).setWidth 4096))))

/-- The ring words complete: BIND writes the handle, GET the slot word of a slot in the state it waits for, COMMIT, EOS and FREE set
the slot's lines and raise INDEX, and STAT gives the handle with the slot's state; a GET of a slot in another state waits, with its
handle as what it waits for (how a frame holds that is the model's choice, log 166).  BIND of a range that is misaligned, too long or of
no role traps MISALIGN; through a handle that is unbound or of the wrong role GET, COMMIT, EOS and FREE trap PERM, and through one whose
stream has ended STREAM_EOS_MISUSE; a word that traps leaves the handle as it is (09 R286 to R291; 03 R87 to R89). -/
def Claims.RingWords : Prop :=
  ∀ (h : Hdr) (f : FmtT) (s : State), s.me.enabled h = true →
    let x := s.ring f
    let st := s.ringStates x
    let no : Word := BitVec.ofNat 64 (f.imm.extractLsb' 0 5).toNat
    let a := (readSpec s.me f.a).toNat
    let g := (readSpec s.me f.b).toNat
    let idx := (readSpec s.me f.c).toNat % 2 ^ 32
    (a % 128 = 0 → g % 16 ≤ 12 → fld g 11 10 ≠ 3 → g < 2 ^ 12 → a + 2 ^ (g % 16) * (fld g 9 4 + 1) * 128 ≤ s.me.id.hdr.scratch →
      exec (.ringBind h f) s = did (s.setRing f (BitVec.ofNat 64
        (idx * 2 ^ 32 + a / 128 * 2 ^ 16 + g % 16 * 2 ^ 12 + fld g 9 4 * 2 ^ 6 + fld g 11 10 * 2 ^ 4 + 1)))) ∧
    ((a % 128 ≠ 0 ∨ 12 < g % 16 ∨ fld g 11 10 = 3 ∨ 2 ^ 12 ≤ g ∨ s.me.id.hdr.scratch < a + 2 ^ (g % 16) * (fld g 9 4 + 1) * 128) →
      exec (.ringBind h f) s = faulted .misalign (readSpec s.me f.a) s) ∧
    (rhBound x = true → rhRole x < 2 → rhEos x = false → ringHolds x st = true →
      exec (.ringGet h f) s = did (s.landNow (dstRef f.dst) (slotWord x st))) ∧
    (rhBound x = true → rhRole x < 2 → rhEos x = false → ringHolds x st = false →
      exec (.ringGet h f) s = did ((s.startWait .ringGet x x 0 (.scr s.cur.1 (128 * s.regionLine (rhFirst x))) none (hdrTag h)).await
        (hdrTag h) (dstRef f.dst) .wait)) ∧
    (rhBound x = true → rhRole x = 0 → rhEos x = false →
      exec (.ringCommit h f) s = did
        ((s.setSlotLines x (fun y => y == lnEmpty || y == lnFull) lnFull).setRing f (rhNext x)) ∧
      exec (.ringEos h f) s = did
        ((s.setSlotLines x (fun y => y == lnEmpty || y == lnFull) lnEos).setRing f (rhEnd (rhNext x)))) ∧
    (rhBound x = true → rhRole x = 1 → rhEos x = false →
      exec (.ringFree h f) s = did
        ((s.setSlotLines x (fun _ => true) lnEmpty).setRing f (if eosSlot st then rhEnd (rhNext x) else rhNext x))) ∧
    exec (.ringStat h f) s =
      did (s.landNow (dstRef f.dst) (if rhBound x then x ||| (statCode st <<< 1) else x &&& ~~~(6 : Word))) ∧
    ((rhBound x = false ∨ 2 ≤ rhRole x) → exec (.ringGet h f) s = faulted .perm no s) ∧
    ((rhBound x = false ∨ rhRole x ≠ 0) → ∀ i ∈ [Instr.ringCommit h f, .ringEos h f], exec i s = faulted .perm no s) ∧
    ((rhBound x = false ∨ rhRole x ≠ 1) → exec (.ringFree h f) s = faulted .perm no s) ∧
    (rhBound x = true → rhEos x = true →
      (rhRole x < 2 → exec (.ringGet h f) s = faulted .streamEosMisuse no s) ∧
      (rhRole x = 0 → ∀ i ∈ [Instr.ringCommit h f, .ringEos h f], exec i s = faulted .streamEosMisuse no s) ∧
      (rhRole x = 1 → exec (.ringFree h f) s = faulted .streamEosMisuse no s))

/-- A handle's INDEX rises by one modulo 2^32 and every other field stands; after 2^32 rises it is as it was (03 R87). -/
def Claims.RingIndexWraps : Prop :=
  ∀ h : Word, rhIndex (rhNext h) = (rhIndex h + 1) % 2 ^ 32 ∧ (rhNext h).setWidth 32 = h.setWidth 32 ∧
    ∀ n, rhIndex (rhNext^[n] h) = (rhIndex h + n) % 2 ^ 32

/-- The words that make and signal tasks complete: SPAWN of a free record writes it, its reserved bytes zero, and gives it to March,
READY where its counter is zero; SPAWN of a record that is not EMPTY or of another version raises the launch's error count only;
SPAWN.L queues the descriptor; DEP changes the counter at the record; SPAWN and DEP of a poisoned record trap DATA_POISON (09 R292 to
R294; 02 R27, R37 to R39; 22 R567).  Which of a record's fields SPAWN leaves alone is the model's choice (log 126). -/
def Claims.SpawnWords : Prop :=
  ∀ (h : Hdr) (f : FmtT) (s s' : State) (segs : List Seg), s.me.enabled h = true →
    let id := s.me.id
    let a := (readSpec s.me f.a).toNat
    let held := s'.recAt id.part (s'.jobOf id.part id.handle) (BitVec.ofNat 64 a)
    let bs := readSegs s' segs
    (s.recordAccess a 256 256 .atomic = .ok segs s' →
      (∀ y, poisonAt s' a segs = some y → exec (.spawn h f) s = faulted .dataPoison (BitVec.ofNat 64 y) s') ∧
      (poisonAt s' a segs = none → held.isSome = true ∨ recState bs ≠ 0 ∨ recVer bs ≠ 1 → exec (.spawn h f) s = did (s'.launchErr id.part id.handle 1)) ∧
      (poisonAt s' a segs = none → held = none → recState bs = 0 → recVer bs = 1 →
        let prio := fld (recF bs 0 8) 10 4
        let dep := recF bs 8 4
        let aff : Word := BitVec.ofNat 64 (recF bs 0x10 8)
        let named := putField (putField (putField (putField bs 0 8 (recHdr id.handle prio (if dep = 0 then 2 else 1) false))
          0xC 2 0) 0x18 8 id.kernel.toNat) 0x24 4 id.coord.toNat
        let out := putField (putField (putField named 0xE 2 0) 0x3C 4 0) 0x60 32 0
        exec (.spawn h f) s = did ((writeSegs s' segs out).addRec ((writeSegs s' segs out).dieFor id.part id.handle aff) id.part id.handle
          (BitVec.ofNat 64 a) prio id.coord aff id.kernel false false none dep)) ∧
      let bad := poisonAt s' a (segs.map fun g => { g with len := min 16 g.len })
      (bad = none → exec (.depAdd h f) s =
        did (s'.depOp id.part (s'.jobOf id.part id.handle) id.handle a (some ((readSpec s.me f.b).toNat % 2 ^ 32)))) ∧
      (bad = none → exec (.depSignal h f) s = did (s'.depOp id.part (s'.jobOf id.part id.handle) id.handle a none)) ∧
      ∀ y, bad = some y → ∀ i ∈ [Instr.depAdd h f, .depSignal h f], exec i s = faulted .dataPoison (BitVec.ofNat 64 y) s') ∧
    (s.recordAccess a 128 128 .load = .ok segs s' →
      ∃ x : Intake, exec (.spawnL h f) s = did { s' with intake := s'.intake ++ [x] } ∧ x.part = id.part ∧ x.addr.toNat = a ∧
        x.core = some s'.cur.1)

/-- SPAWN, SPAWN.L, DEP and SUSP.SUSPEND of a record trap MISALIGN where it is not aligned, to 128 bytes for SPAWN.L and to 256 for
the others, else PERM where it lies in a window other than the global one, else as the access of its page does (09 R292 to R295).  R292 and, by its
rules, R295 name that PERM; that SPAWN.L and DEP trap it too is the model's choice (log 134). -/
def Claims.RecordFaults : Prop :=
  ∀ (h : Hdr) (f : FmtT) (s : State), s.me.enabled h = true →
    let a := (readSpec s.me f.a).toNat
    ∀ i ∈ [Instr.spawn h f, .depAdd h f, .depSignal h f, .suspSuspend h f, .spawnL h f],
      let n := if i = .spawnL h f then 128 else 256
      (a % n ≠ 0 → exec i s = faulted .misalign (readSpec s.me f.a) s) ∧
      (∀ w o, a % n = 0 → winOf a = some (w, o) → w ≠ .global → exec i s = faulted .perm (readSpec s.me f.a) s) ∧
      (∀ c x t, s.recordAccess a n n (if i = .spawnL h f then .load else .atomic) = .trap c x t →
        exec i s = faulted c (BitVec.ofNat 64 x) t)

/-- Counter operations on a record: in EMPTY or PENDING an add raises the counter and a signal lowers it by one, and the signal that
takes a PENDING record's counter to zero readies it; a decrement at zero leaves zero, an increment past 0xFFFF_FFFF leaves
0xFFFF_FFFF, an operation on a record that is readied already has no effect on it, and each of these raises the launch's error
count by one and traps nothing (02 R37 to R39; 09 R294).  Whose error count rises is the model's choice (log 56). -/
def Claims.DependenceCounters : Prop :=
  ∀ (s : State) (part ctx handle a : Nat),
    let put (x : Nat) : State := s.marchWrite part ctx (a + 8) (bytesOfNat 4 x)
    (∀ d r, s.recAt part ctx (BitVec.ofNat 64 a) = some (d, r) →
      let n := natOfBytes ((s.marchRead part ctx (a + 8) 4).getD [])
      (r.st = .pending →
        (∀ k, n + k ≤ 0xFFFFFFFF → s.depOp part ctx handle a (some k) = put (n + k)) ∧
        (∀ k, 0xFFFFFFFF < n + k → s.depOp part ctx handle a (some k) = (put 0xFFFFFFFF).launchErr part r.handle 1) ∧
        (1 < n → s.depOp part ctx handle a none = put (n - 1)) ∧
        (n = 1 → s.depOp part ctx handle a none = (put 0).readyRec d r.seq) ∧
        (n = 0 → s.depOp part ctx handle a none = s.launchErr part r.handle 1)) ∧
      (r.st ≠ .pending → ∀ add, s.depOp part ctx handle a add = s.launchErr part r.handle 1)) ∧
    (s.recAt part ctx (BitVec.ofNat 64 a) = none →
      let bs := (s.marchRead part ctx a 16).getD (List.replicate 16 0)
      let n := recF bs 8 4
      (recState bs = 0 →
        (∀ k, n + k ≤ 0xFFFFFFFF → s.depOp part ctx handle a (some k) = put (n + k)) ∧
        (∀ k, 0xFFFFFFFF < n + k → s.depOp part ctx handle a (some k) = (put 0xFFFFFFFF).launchErr part handle 1) ∧
        (n ≠ 0 → s.depOp part ctx handle a none = put (n - 1)) ∧
        (n = 0 → s.depOp part ctx handle a none = s.launchErr part handle 1)) ∧
      (recState bs ≠ 0 → ∀ add, s.depOp part ctx handle a add = s.launchErr part (fld (recF bs 0 8) 31 16) 1)) ∧
    ∀ x, s.launch? part handle = some x →
      ((s.launchErr part handle 1).launch? part handle).map (fun y => y.errcnt) = some (min 0xFFFFFFFF (x.errcnt + 1)) ∧
      s.launchErr part handle 1 = { s with launches := (s.launchErr part handle 1).launches }

/-- SUSP ends the task's stay in its slot with its group: SUSPEND with the record and the resume PC, YIELD and FINISH; when the group
closes the task is READY with its context kept, or DONE and its slot free (09 R295, R296). -/
def Claims.SuspendWords : Prop :=
  ∀ (h : Hdr) (f : FmtT) (s s' : State) (segs : List Seg), s.me.enabled h = true →
    exec (.suspYield h f) s = did (s.setMe (s.me.setGroup fun g => { g with fin := .yield, finBit := 1 <<< g.idx })) ∧
    exec (.suspFinish h f) s = did (s.setMe (s.me.setGroup fun g => { g with fin := .finish, finBit := 1 <<< g.idx })) ∧
    (s.recordAccess (readSpec s.me f.a).toNat 256 256 .atomic = .ok segs s' →
      exec (.suspSuspend h f) s = did (s'.setMe (s'.me.setGroup fun g =>
        { g with fin := .suspend (readSpec s.me f.a) (if f.imm.getLsbD 0 then some ((readSpec s.me f.c).setWidth 32) else none),
                 finBit := 1 <<< g.idx })))

/-- What closing a group with SUSP does: YIELD leaves the task READY in its slot with its whole context; SUSPEND ends the task's stay with
the record named: where March holds that record, or its STATE is not EMPTY, the launch's error count rises and the task is DONE, and
otherwise its slot is free, and the continuation is a record of its die, PENDING until its counter is zero (09 R295, R296; 02 R26, R38).
A request for its slot lands at YIELD, which this leaves out (`s.me.pre`). -/
def Claims.SuspendedGroups : Prop :=
  ∀ (s : State) (g : Group) (point : Bool), g.user = none → s.cur.2 < 4 →
    let t := s.afterGroup g [] [] point
    (g.fin = .yield → s.me.pre = none → (∀ d r, s.slotRec s.cur.1 s.cur.2 = some (d, r) → r.st ≠ .pending ∧
        (s.die d).recs.find? (fun y => y.seq = r.seq) = some r) →
      t.me = { s.me with st := .ready } ∧
      ∀ d r, s.slotRec s.cur.1 s.cur.2 = some (d, r) → ∃ y ∈ (t.die d).recs, y.seq = r.seq ∧ y.st = .ready) ∧
    ∀ a rpc, g.fin = .suspend a rpc →
      let id := s.me.id
      let ctx := s.jobOf id.part id.handle
      let v := s.marchLook id.part ctx a.toNat 256
      let bs := (v.marchRead id.part ctx a.toNat 256).getD (List.replicate 256 0)
      let held := (v.recAt id.part ctx a).isSome
      ((held = true ∨ recState bs ≠ 0) → t = (v.launchErr id.part id.handle 1).endTask s.cur.1 s.cur.2 .done) ∧
      (held = false → recState bs = 0 → t.me = {} ∧
        (recF bs 8 4 ≠ 0 → ∃ y ∈ (t.die (coreDie s.cur.1)).recs, y.addr = a ∧ y.cont = true ∧ y.st = .pending ∧ y.handle = id.handle))

/-- A task whose group ends it is DONE: its slot is empty but for its stream ports, which stand until the next dispatch
(02 R43; 09 R296; 16 R425). -/
def Claims.FinishedTask : Prop :=
  ∀ (s : State) (g : Group), g.user = none → g.fin = .finish → s.cur.2 < 4 → routinesOf s.myCore s.me.id = [] →
    (s.afterGroup g [] [] false).slot s.cur.1 s.cur.2 = { ports := s.me.ports }

/-- The BAR words complete: ARRIVE records the task in the barrier's current phase, or in the next where it is recorded in it already, and
every phase in which all members that are not DONE have arrived is complete; WAIT waits until the phase of the task's latest arrival is
complete, with that phase as what it waits for, and returns at once where it is; BOTH is the one after the other (09 R297). -/
def Claims.BarrierWords : Prop :=
  ∀ (h : Hdr) (f : FmtT) (s : State), s.me.enabled h = true →
    let b := (f.imm.extractLsb' 0 4).toNat
    exec (.barArrive h f) s = did (s.barArrive b) ∧ exec (.barWait h f) s = did (s.barWait b) ∧
    exec (.barBoth h f) s = did ((s.barArrive b).barWait b) ∧
    (s.myGang = none → s.barArrive b = s ∧ s.barWait b = s) ∧
    ∀ k g m, s.myGang = some (k, g, m) →
      let x : Barrier := Sparse.get {} g.bars b
      let live (j : Nat) : Prop := j < g.size ∧ g.done.contains j = false
      (∃ g' : Gang, s.barArrive b = s.setBlock k ((s.block k).updGang g.part g.handle g.index fun _ => g') ∧
        let y : Barrier := Sparse.get {} g'.bars b
        y.arrived = Sparse.put x.arrived m (max (Sparse.get 0 x.arrived m) x.phase + 1) ∧ x.phase ≤ y.phase ∧
        (∀ p, x.phase ≤ p → p < y.phase → ∀ j, live j → p < Sparse.get 0 y.arrived j) ∧
        ((∃ j, live j) → ∃ j, live j ∧ Sparse.get 0 y.arrived j ≤ y.phase)) ∧
      (Sparse.get 0 x.arrived m ≤ x.phase → s.barWait b = s) ∧
      (x.phase < Sparse.get 0 x.arrived m → ∃ w, (s.barWait b).me = { s.me with wait := some w } ∧ w.kind = .bar ∧
        w.addr = BitVec.ofNat 64 b ∧ w.val = BitVec.ofNat 64 (Sparse.get 0 x.arrived m) ∧ w.deadline = none ∧
        s.barWait b = { s with cores := (s.barWait b).cores, dies := (s.barWait b).dies })

/-- A barrier's phase completes exactly when every member that is not DONE has arrived in it, and then all wait for the next
(09 R297; 02 R53). -/
def Claims.BarrierPhases : Prop :=
  ∀ (size : Nat) (done : List Nat) (b : Barrier), (∃ m, m < size ∧ done.contains m = false) →
    (∀ m, m < size → done.contains m = false → Sparse.get 0 b.arrived m ≤ b.phase + 1) →
    (b.advance size done 1).phase =
      if (∀ m, m < size → done.contains m = false → Sparse.get 0 b.arrived m = b.phase + 1) then b.phase + 1 else b.phase

/-- GETC writes what IMM12[1:0] selects: COORD; STAGES, CHIPS, GANGS and GANGSZ; the launch handle and JOB; the core's number
(09 R298). -/
def Claims.GetConstantWords : Prop :=
  ∀ (h : Hdr) (f : FmtT) (s : State) (x : Launch), s.me.enabled h = true → s.launch? s.me.id.part s.me.id.handle = some x →
    exec (.getcCoord h f) s = did (s.landNow (dstRef f.dst) (s.me.id.coord.setWidth 64)) ∧
    exec (.getcShape h f) s = did (s.landNow (dstRef f.dst)
      (BitVec.ofNat 64 (x.stages * 2 ^ 40 + x.chips * 2 ^ 24 + x.gangs * 2 ^ 8 + x.gangSz))) ∧
    exec (.getcLaunch h f) s = did (s.landNow (dstRef f.dst)
      (BitVec.ofNat 64 (s.me.id.handle % 2 ^ 16 * 2 ^ 16 + x.job % 2 ^ 16))) ∧
    exec (.getcCore h f) s = did (s.landNow (dstRef f.dst) (BitVec.ofNat 64 s.cur.1))

/-! ### The fabric -/

/-- The remote words complete: one whose operands pass its checks joins its core's queue toward the egress unit, of 16 entries, behind
which what one word sends beyond them waits, the core's acknowledgement counter rises, and its tag awaits the acknowledgement; one that
fails a check traps first (12 R361 to R373; 05 R155).  That the counter rises at issue, also on the August core, is the model's choice
(log 58), and that surplus is (log 59). -/
def Claims.RemoteWords : Prop :=
  ∀ (h : Hdr) (f : FmtF) (s : State), s.me.enabled h = true →
    let w (op : Nat) : RemoteWord := { RemoteWord.blank s op with
      a := readSpec s.me f.a, b := readSpec s.me f.b, c := readSpec s.me f.c, d := readSpec s.me f.d, fill := f.opt.getLsbD 0,
      eos := f.opt.getLsbD 1, ty := f.ty, acq := f.acq = 1, scope := f.scope, tag := hdrTag h }
    let cut (x : RemoteWord) : RemoteWord := { x with c := x.c &&& 0xFFFFFFFF }
    let sig (b : Bool) (x : RemoteWord) : RemoteWord := { x with sig := b }
    let a := (readSpec s.me f.a).toNat
    (∀ p ∈ [(Instr.rput, askPut f false s.me, cut (w opPut)), (Instr.rputSig, askPut f true s.me, sig true (cut (w opPutSig))),
        (Instr.rcopy, askCopy f false s.me, w opRcopy), (Instr.rcopySig, askCopy f true s.me, sig true (w opRcopySig)),
        (Instr.rsem, { a := a, n := 8, locals := [], odd := if a % 8 ≠ 0 then some a else none },
          { w opSem with data := bytesOfNat 8 (readSpec s.me f.b).toNat }),
        (Instr.rred, askRed f s.me, sig (f.opt.getLsbD 2) (cut (w (if f.opt.getLsbD 2 then opRedSig else opRed)))),
        (Instr.mcred, askMcred f s.me, sig (f.opt.getLsbD 2) (cut (w (if f.opt.getLsbD 2 then opMcredSig else opMcred))))],
      (p.2.1.check = none → exec (p.1 h f) s =
        did (if h.ta = 0 then s.sendRemote p.2.2 else (s.sendRemote p.2.2).await (hdrTag h) .none (.remote s.myCore.nextRemote))) ∧
      ∀ c x, p.2.1.check = some (c, x) → exec (p.1 h f) s = faulted c (BitVec.ofNat 64 x) s) ∧
    ∀ x : RemoteWord, (s.sendRemote x).myCore.acks = s.myCore.acks + 1 ∧
      let y : RemoteWord := { x with seq := s.myCore.nextRemote }
      let bl := s.block (coreBlock s.cur.1)
      let bl' := (s.sendRemote x).block (coreBlock s.cur.1)
      (s.isAugust = true → bl.queued true < 16 → bl' = { bl with augQ := bl.augQ ++ [y] }) ∧
      (s.isAugust = false → bl.queued false < 16 → bl' = { bl with mailbox := bl.mailbox ++ [.hw y] }) ∧
      (s.isAugust = true → 16 ≤ bl.queued true → bl' = { bl with augSurplus := bl.augSurplus ++ [y] }) ∧
      (s.isAugust = false → 16 ≤ bl.queued false → bl' = { bl with mbxSurplus := bl.mbxSurplus ++ [y] })

/-- The mailbox words complete: POST and POSTNB append an entry, POSTNB of a full mailbox writes 0; TAKE on the August core takes the
oldest software entry, and elsewhere traps PERM; STATUS gives the counts; RACK the refusals counted, which begin anew,
and into s0 with a count that is not zero a REMOTE_ERROR falls due (12 R374 to R377; 05 R157; 17 R440).  A POST that finds no free entry
is held before it issues (`queueHeld`), and POSTNB counts what waits behind the mailbox with it. -/
def Claims.MailboxWords : Prop :=
  ∀ (h : Hdr) (f : FmtT) (s : State), s.me.enabled h = true →
    let b := coreBlock s.cur.1
    let m := (s.block b).mailbox
    let posted : State := s.setBlock b { s.block b with
      mailbox := m ++ [.sw (coreInBlock s.cur.1) ((readSpec s.me f.a).setWidth 56)] }
    let word : Word := (s.me.refused.setWidth 64 <<< 32) ||| s.me.first.setWidth 64
    let read := s.landNow (dstRef f.dst) word
    let zero := read.setMe { read.me with refused := 0, first := 0 }
    exec (.mbxPost h f) s = did posted ∧
    ((s.block b).queued false < 16 → exec (.mbxPostnb h f) s = did (posted.landNow (dstRef f.dst) 1)) ∧
    (16 ≤ (s.block b).queued false → exec (.mbxPostnb h f) s = did (s.landNow (dstRef f.dst) 0)) ∧
    (∀ x r, s.isAugust = true → takeSw m = some (x, r) →
      exec (.mbxTake h f) s = did ((s.setBlock b { s.block b with mailbox := r }).landNow (dstRef f.dst) x)) ∧
    (s.isAugust = true → takeSw m = none →
      exec (.mbxTake h f) s = did ((s.startWait .mbxTake 0 0 0 (.ctr b 0) none (hdrTag h)).await (hdrTag h) (dstRef f.dst) .wait)) ∧
    (s.isAugust = false → exec (.mbxTake h f) s = faulted .perm 0 s) ∧
    exec (.mbxStatus h f) s = did (s.landNow (dstRef f.dst)
      (BitVec.ofNat 64 (s.myCore.acks % 2 ^ 32 * 2 ^ 32 + hwCount m * 2 ^ 16 + swCount m * 2 ^ 8 + m.length))) ∧
    (dstRef f.dst ≠ .s 0 ∨ s.me.refused = 0 → exec (.rack h f) s = did zero) ∧
    (dstRef f.dst = .s 0 → s.me.refused ≠ 0 → exec (.rack h f) s = did (zero.setMe (zero.me.setGroup fun g =>
      { g with defer := g.defer ++ [⟨.remoteError, word, s.me.wpc⟩] })))

/-- The mailbox gives its software entries in the order in which they came, and keeps its remote words (12 R363, R376). -/
def Claims.MailboxOrder : Prop :=
  ∀ (m : List MbxEntry) (c : Nat) (p : BitVec 56), (∀ e ∈ m, ∃ w, e = .hw w) →
    ∀ r, takeSw (m ++ .sw c p :: r) = some (BitVec.ofNat 64 (c % 8 * 2 ^ 56 + p.toNat), m ++ r)

/-- QPOST traps PERM on a core that is not its block's August core, then MISALIGN at an address that is no multiple of 64, then PERM at
one outside the local and block windows; on the August core it arms a work entry that keeps its rules while fewer than 64 are armed, and counts a refusal of one that
does not; an armed entry that is ready fires, a timed one at its slot boundary or at once when that is past (12 R378 to R382). -/
def Claims.WorkEntries : Prop :=
  (∀ (h : Hdr) (f : FmtF) (s : State), s.me.enabled h = true →
    let a := (readSpec s.me f.a).toNat
    (s.isAugust = false ∨ (a % 64 = 0 ∧ inLocal a = false) → exec (.qpost h f) s = faulted .perm (readSpec s.me f.a) s) ∧
    (s.isAugust = true → a % 64 ≠ 0 → exec (.qpost h f) s = faulted .misalign (readSpec s.me f.a) s)) ∧
  (∀ (h : Hdr) (f : FmtF) (s s' : State) (segs : List Seg), s.me.enabled h = true → s.isAugust = true →
    let a := (readSpec s.me f.a).toNat
    a % 64 = 0 → inLocal a = true → s.access .load a 64 64 false = .ok segs s' → segs.all plainSeg = true → poisonAt s' a segs = none →
    let bs := readSegs s' segs
    let bl := s'.block (coreBlock s'.cur.1)
    (qeOk bs = false → exec (.qpost h f) s = did (s'.refuse s'.owner 0xC4)) ∧
    (qeOk bs = true → 64 ≤ bl.qtab.length → exec (.qpost h f) s = did (s'.refuse s'.owner 0xC3)) ∧
    (qeOk bs = true → bl.qtab.length < 64 →
      let t := if qeWatch bs ≠ 0 ∧ s'.blockPlace (qeWatch bs) 8 = .oor then s'.setMe (s'.me.noteOor (BitVec.ofNat 64 (qeWatch bs))) else s'
      ∃ q : QEntry, q.bytes = bs ∧ q.sent = false ∧ q.own = s'.owner ∧
        exec (.qpost h f) s = did (t.setBlock (coreBlock s'.cur.1)
          { bl with qtab := Sparse.put bl.qtab bl.nextQ q, nextQ := bl.nextQ + 1 }))) ∧
  ∀ (s : State) (b i : Nat) (q : QEntry) (t : Nat), Sparse.find (s.block b).qtab i = some q → q.ready = some t → q.sent = false →
      s.earlierReady b q = false →
    (qeTimed q.bytes = false →
      exec (.qpostEntryFire b i) s = .next (s.fire b i q false false)) ∧
    (qeTimed q.bytes = true →
      let w := match s.jobEntry q.job with | some j => max 1 j.slotW | none => 1
      let t0 := (qeFire q.bytes + w - 1) / w * w
      t0 ≤ s.podNow.toNat →
        exec (.qpostTimedFire b i) s = .next (s.fire b i q (decide (t0 < t)) (decide (w < s.estNow.toNat))))

/-- EGRESS_ACCEPT: the egress unit sends a put of bytes at hand toward its chip and takes it off its queue; one whose source lies in no
window that an operand may name is refused with 0xC0 (12 R360, R361). -/
def Claims.EgressAccepts : Prop :=
  ∀ (s : State) (b : Nat) (src : EgressSrc) (w : RemoteWord), (s.block b).egressHead src = some w →
    let ps := w.parts
    (ps.all partOk = false → exec (.egressAccept b src) s =
      .next (((s.setBlock b ((s.block b).egressDrop src)).endRemote w 0xC0).settle)) ∧
    (∀ x t chip, ps.all partOk = true → (w.op = opRcopy || w.op = opRcopySig) = false →
      pullSource ps (ps.foldl (fun n x => n + x.2 / 2 ^ 16 + 2) 1) w s = .done x t → t.wordChip x = some chip →
      (x.poison && decide (chip ≠ t.chipNo)) = false → t.mustWait x chip x.pieces.length = false →
      exec (.egressAccept b src) s = .next (((t.setBlock b ((t.block b).egressDrop src)).transmit x chip).settle))

/-- The fabric's packets: each of the operations of Table 20-3 that arrives is taken as it, and what waited at the port is tried again;
MCRED's rounds whose time is over are refused (19 R490; 20 R513 to R520; 12 R373). -/
def Claims.PacketEvents : Prop :=
  (∀ (p : Packet) (s : State), ∀ x ∈ [(Instr.putPkt, (1 : BitVec 8)), (Instr.redPkt, 2), (Instr.semPkt, 3), (Instr.mcredContribution, 4),
      (Instr.mcdata, 5), (Instr.readPkt, 6), (Instr.atomic, 7), (Instr.respPkt, 8), (Instr.ackPkt, 9)],
    exec (x.1 p) s = .next (s.arrives { p with op := x.2 }).settle) ∧
  ∀ (s : State) (job group : Nat) (g : GroupEnt), s.groupEntry job group = some g →
    exec (.mcredRoundTimeout job group) s = .next (s.expireRounds job group g.timeout).settle

/-- A packet that the port has applied already is discarded, one that is early is held, and one whose turn it is is dealt with once and
raises the number expected (20 R514). -/
def Claims.PacketOrder : Prop :=
  ∀ (proc : State → Packet → Got) (s : State) (p : Packet),
    let x := s.rxPair (rxKey p)
    (seqBefore p.pseq x.next = true → State.portTakes proc s p = s) ∧
    (x.held = [] → p.pseq ≠ x.next → seqBefore p.pseq x.next = false →
      State.portTakes proc s p = s.setRx (rxKey p) { x with held := [p] }) ∧
    (∀ t, x.held = [] → p.pseq = x.next →
      proc ((s.setRx (rxKey p) { x with held := [p] }).setRx (rxKey p) { x with next := x.next + 1, held := [] }) p = .done t →
      (t.rxPair (rxKey p)).held = [] → State.portTakes proc s p = t)

/-- An accepted put writes its bytes before its flag rises by one and before its acknowledgement; a refused word writes nothing and is
acknowledged with its code (20 R515; 05 R154).  That a word is decided at its FIRST packet, with what the pages of its span translate to
then, and its flag's place tested at LAST, is the model's choice (log 63). -/
def Claims.WordsApplied : Prop :=
  ∀ (s : State) (p : Packet) (e : SegEnt) (x : RxPair), p.op = pkPut → pktFill p = false →
    (x.ent = none → s.finishCollected [p] x = .done (s.ackWord p s.chipNo (if x.code = 0 then 2 else x.code))) ∧
    (x.ent = some e → x.code ≠ 0 → pktSig p = false → s.finishCollected [p] x = .done (s.ackWord p s.chipNo x.code)) ∧
    (x.ent = some e → x.code = 0 → pktSig p = true →
      (e.limit < p.fofs.toNat + 8 → s.finishCollected [p] x = .done (s.ackWord p s.chipNo 3)) ∧
      (p.fofs.toNat + 8 ≤ e.limit → (e.base + p.fofs.toNat) % 8 ≠ 0 → s.finishCollected [p] x = .done (s.ackWord p s.chipNo 7))) ∧
    (∀ runs s', x.ent = some e → x.code = 0 → pktSig p = false → p.poison = false →
      s.wordRuns (pktAsk p) e x.pages [(p.ofs.toNat, p.data.length)] = .yes runs s' →
      s.finishCollected [p] x = .done ((writeSegs s' runs p.data).ackWord p s'.chipNo 0)) ∧
    (∀ runs flag s' t, x.ent = some e → x.code = 0 → pktSig p = true → p.fofs.toNat + 8 ≤ e.limit →
      (e.base + p.fofs.toNat) % 8 = 0 → p.poison = false →
      s.wordRuns (pktAsk p) e x.pages [(p.ofs.toNat, p.data.length)] = .yes runs s' →
      s'.segXlate { pktAsk p with acc := .atomic } e p.fofs.toNat 8 = .yes flag t → flag ≠ [] →
      let w := writeSegs t runs p.data
      let u := (w.rmw .add flag 8 1 0).2
      s.finishCollected [p] x = .done (u.ackWord p t.chipNo 0)) ∧
    (x.ent = some e → x.code = 0 → p.poison = true → pktSig p = false → s.finishCollected [p] x = .done (s.ackWord p s.chipNo 8))

/-! ### Engine words of a task -/

/-- The words that set an engine up complete: WCFG writes WMCFG, whole or its guard bits, and a value that breaks Table 10-1 traps
FORMAT; MPLD, FTLD and SCLD write an mp register, a format-table entry and eight bytes of the scale memory; SCLD.RD reads them;
WSTAT gives GDIG and the flags and WSTAT.CLR clears flags; SBIND binds a port to a stream handle, and a handle of another role
traps PERM; unbinding clears the port (11 R333, R344 to R346, R349, R350).  TRAPINFO of that PERM is the model's choice (log 38). -/
def Claims.EngineSetWords : Prop :=
  ∀ (h : Hdr) (f : FmtE) (s : State), s.inRoutine = none → s.me.enabled h = true →
    let u := f.wu.toNat
    let l := s.me
    let c := s.myCore
    let w := c.wm u
    let a := readSpec l f.sa
    let eg := (l.cfg u &&& ~~~(0x1FF : BitVec 32)) ||| f.aux.setWidth 32
    let o := l.rdS l.level (engIdx f.ea)
    let x := Sparse.get 0 c.rh (l.id.rh0 + engIdx f.ea)
    let port (k : Nat) (p : Port) : State := s.setMe { l with ports := Sparse.set {} l.ports (2 * u + k) p }
    (cfgOk (a.setWidth 32) = true →
      exec (.wcfg h f) s = did (s.setMe { l with wmcfg := Sparse.set 0x2FDF000C l.wmcfg u (a.setWidth 32) })) ∧
    (cfgOk (a.setWidth 32) = false → exec (.wcfg h f) s = faulted .format 0 s) ∧
    (cfgOk eg = true → exec (.wcfgEg h f) s = did (s.setMe { l with wmcfg := Sparse.set 0x2FDF000C l.wmcfg u eg })) ∧
    (cfgOk eg = false → exec (.wcfgEg h f) s = faulted .format 0 s) ∧
    exec (.mpld h f) s = did (s.setMe { l with mp := Sparse.set 0 l.mp (engIdx f.ed) a }) ∧
    exec (.ftld h f) s = did (s.setMyCore { c with ft := Sparse.set 0 c.ft (f.aux.extractLsb' 0 6).toNat a }) ∧
    (o.toNat < 16384 → o.toNat % 8 = 0 →
      exec (.scld h f) s =
        did (s.setMyCore (c.setWm u { w with scale := Memory.write w.scale o.toNat (bytesOfNat 8 a.toNat) })) ∧
      exec (.scldRd h f) s = did (s.landNow (engRef f.ed) (Memory.word w.scale o.toNat))) ∧
    ((16384 ≤ o.toNat ∨ o.toNat % 8 ≠ 0) →
      exec (.scld h f) s = faulted .format 0 s ∧ exec (.scldRd h f) s = faulted .format 0 s) ∧
    exec (.wstat h f) s = did (s.landNow (engRef f.ed) (BitVec.ofNat 64 (w.gdig.toNat * 2 ^ 32 + w.flags.toNat))) ∧
    exec (.wstatClr h f) s = did (s.setMyCore (c.setWm u { w with flags := w.flags &&& ~~~(a.setWidth 6) })) ∧
    (rhRole x = 2 → rhBound x = true → exec (.sbindA h f) s = did (port 0 { h := x, idx := engIdx f.ea }) ∧
      exec (.sbindB h f) s = did (port 1 { h := x, idx := engIdx f.ea })) ∧
    ((rhRole x ≠ 2 ∨ rhBound x = false) → exec (.sbindA h f) s = faulted .perm (BitVec.ofNat 64 (engIdx f.ea)) s ∧
      exec (.sbindB h f) s = faulted .perm (BitVec.ofNat 64 (engIdx f.ea)) s) ∧
    exec (.sbindUnbind h f) s = did (port (if f.mode.getLsbD 0 then 1 else 0) {})

/-- The words that fill, clear and move engine registers complete: PACK writes all slots of a w register from memory, WCLR zeroes a
register, WMOV copies one, and of an acc tile the sums after its groups have closed; METAQ.PUSH takes the entries that fit and
METAQ.CLEAR empties the queue; PACK and METAQ.PUSH trap where the read does (11 R334, R343, R347). -/
def Claims.EngineMoveWords : Prop :=
  ∀ (h : Hdr) (f : FmtE) (s : State), s.inRoutine = none → s.me.enabled h = true →
    let id := s.me.id
    let c := s.myCore
    let a := (readSpec s.me f.sa).toNat
    let n := (f.aux.extractLsb' 0 7).toNat + 1
    let i := engIdx f.ed
    let j := engIdx f.ea
    let old := Sparse.get [] c.sq j
    let m := min ((f.aux.extractLsb' 0 4).toNat + 1) (16 - old.length)
    (∀ p ∈ [(Instr.pack, false, false), (Instr.packRev, false, true), (Instr.packLimb, true, false)],
      let size := if p.2.1 then 2 else WellFormed.tyWidth f.ty / 8
      let len := if p.2.1 then (12 * n + 7) / 8 else n * size
      (∀ segs, s.padAccess .load a len size = .ok segs → poisonAt s a segs = none →
        let t := s.noteRange a segs
        exec (p.1 h f) s = did (t.setMyCore (t.myCore.setW (t.me.id.w0 + i) (packSlots f.ty p.2.1 p.2.2 n (readSegs s segs))))) ∧
      (∀ segs x, s.padAccess .load a len size = .ok segs → poisonAt s a segs = some x →
        exec (p.1 h f) s = faulted .dataPoison (BitVec.ofNat 64 x) s) ∧
      ∀ e, s.padAccess .load a len size = .error e → exec (p.1 h f) s = faulted e (BitVec.ofNat 64 a) s) ∧
    (engFile f.ed = 0 → exec (.wclr h f) s = did (s.setMyCore { c with w := Sparse.clear c.w (96 * (id.w0 + i)) 96 }) ∧
      exec (.wmov h f) s = did (s.setMyCore (c.setW (id.w0 + i)
        ((List.range 96).map fun k => Sparse.get 0 c.w (96 * (id.w0 + j) + k))))) ∧
    (engFile f.ed = 1 → exec (.wclr h f) s = did (s.setMyCore { c with acc := Sparse.clear c.acc (192 * (id.acc0 + i)) 192 }) ∧
      exec (.wmov h f) s = did (s.setMyCore (c.setLanes (id.acc0 + i)
        ((List.range 192).map fun d => c.lane48 (id.acc0 + j) d)))) ∧
    (engFile f.ed = 2 → exec (.wclr h f) s = did (s.setMyCore { c with ta := Sparse.del c.ta (id.ta0 + i) }) ∧
      let r := (s.tile (id.ta0 + j)).closeRows (List.range 96) 96 s.tileFree
      let t := s.setTile (id.ta0 + j) f.wu.toNat r.1 (wsOfFl r.2)
      exec (.wmov h f) s = did (if i = j then t else t.setTile (id.ta0 + i) f.wu.toNat { s := r.1.s, live := r.1.live } 0)) ∧
    exec (.metaqClear h f) s = did (s.setMyCore { c with sq := Sparse.del c.sq j }) ∧
    (∀ segs, m ≠ 0 → s.padAccess .load a (144 * m) 16 = .ok segs → poisonAt s a segs = none →
      let t := s.noteRange a segs
      let new := (List.range m).map fun k => sqOfBits (bitsAt (natOfBytes (readSegs s segs)) (1152 * k) 1152)
      let sq := Sparse.set [] t.myCore.sq j (old ++ new)
      exec (.metaqPush h f) s = did ((t.setMyCore { t.myCore with sq := sq }).landNow (engRef f.ed) (BitVec.ofNat 64 m))) ∧
    (∀ segs, m = 0 → s.padAccess .load a 1 16 = .ok segs → exec (.metaqPush h f) s = did (s.landNow (engRef f.ed) 0))

/-- The digit words of a task complete: the products land in the accumulator, a saturating configuration clamps and raises GOV, and
a digit outside its field traps GUARD_OVERFLOW otherwise, with nothing written (11 R335; 10 R303, R304). -/
def Claims.DigitWords : Prop :=
  ∀ (h : Hdr) (f : FmtE) (s : State), s.inRoutine = none → s.me.enabled h = true →
    let l := s.me
    ∀ p ∈ [(Instr.wmulConv, DigitMode.conv, false), (Instr.wmulCorr, .corr, false), (Instr.wmulLimb, .limb, false),
        (Instr.wmacConv, .conv, true), (Instr.wmacCorr, .corr, true), (Instr.wmacLimb, .limb, true)],
      let r := digitProduct s.myCore f.wu.toNat p.2.1 p.2.2 (l.cfg f.wu.toNat) (l.id.acc0 + engIdx f.ed) (l.id.w0 + engIdx f.ea)
        (l.id.w0 + engIdx f.eb)
      (∀ c, r = .ok (c, false) → exec (p.1 h f) s = did (s.setMyCore c)) ∧
      (∀ c, r = .ok (c, true) → exec (p.1 h f) s = did ((s.setMyCore c).setMe ((s.setMyCore c).me.setCtx csGov))) ∧
      ∀ e i, r = .error (e, i) → exec (p.1 h f) s = faulted e i s

/-- What a digit product is: where every digit lies in its field of F bits, each lane of the destination holds the digit, added to
what it held for WMAC; every other lane and every w register is as it was; the lowest digit outside faults with its number
(10 R301, R303, R304, R306). -/
def Claims.DigitProducts : Prop :=
  ∀ (c : Core) (u : Nat) (m : DigitMode) (mac : Bool) (cfg : BitVec 32) (ed ea eb : Nat), cfgOk cfg = true → m ≠ .limb →
    let as := c.wElems ea (cfgNa cfg) (cfgE cfg) (cfgAu cfg)
    let bs := c.wElems eb (cfgNb cfg) (cfgE cfg) (cfgBu cfg)
    let t (d : Nat) : Int := (if mac then c.lane48 ed d else 0) + digitOf m as bs d
    let fits (d : Nat) : Prop := minInt (cfgF cfg) ≤ t d ∧ t d ≤ maxInt (cfgF cfg)
    ((∀ d, d < 192 → fits d) → ∃ c', digitProduct c u m mac cfg ed ea eb = .ok (c', false) ∧
      (∀ d, d < 192 → c'.lane48 ed d = t d) ∧ (∀ r d, d < 192 → r ≠ ed → c'.lane48 r d = c.lane48 r d) ∧ c' = { c with acc := c'.acc }) ∧
    (∀ d, d < 192 → ¬ fits d → (∀ k, k < d → fits k) → cfgGsat cfg = false →
      digitProduct c u m mac cfg ed ea eb = .error (.guardOverflow, BitVec.ofNat 64 (d + 256 * u)))

/-- The digits of a convolution are those of the product: read at any base, they multiply (10 R303, R307). -/
def Claims.DigitsMultiply : Prop :=
  ∀ (as bs : List Int) (x : Int), as.length ≤ 96 → bs.length ≤ 96 →
    ((List.range 192).map fun d => digitOf .conv as bs d * x ^ d).sum =
      (as.zipIdx.map fun p => p.1 * x ^ p.2).sum * (bs.zipIdx.map fun p => p.1 * x ^ p.2).sum

/-- The OUTER words of a task complete: where both ports have their bytes, and of a sparse step its queue entry, the step enters the
tile, which WMUL clears first, both ports advance, and the entry is used up; a port that faults, an entry of the format table that
does not suit, and a sparse step of an empty queue trap (11 R336 to R338; 10 R315 to R319).  That port A's fault stands before port B's and
that the ports are ready before an empty queue faults is the model's choice (log 176). -/
def Claims.OuterWords : Prop :=
  ∀ (h : Hdr) (f : FmtE) (s : State), s.inRoutine = none → s.me.enabled h = true →
    let g := s.me.eng f.wu.toNat
    let pa := Sparse.get {} s.me.ports (2 * f.wu.toNat)
    let pb := Sparse.get {} s.me.ports (2 * f.wu.toNat + 1)
    let n := s.me.id.ta0 + engIdx f.ed
    let q := Sparse.get [] s.myCore.sq (engIdx f.eb)
    ∀ p ∈ [(Instr.wmulOuter, true, false), (Instr.wmulOuterSp, true, true), (Instr.wmacOuter, false, false),
        (Instr.wmacOuterSp, false, true)],
      (ftEntry g f s = none → exec (p.1 h f) s = faulted .format 0 s) ∧
      ∀ e, ftEntry g f s = some e →
        (∀ c i, portReady s pa e.aBytes = .fault c i → exec (p.1 h f) s = faulted c i s) ∧
        (∀ c i, (∀ x y, portReady s pa e.aBytes ≠ .fault x y) → portReady s pb (e.bBytes p.2.2) = .fault c i →
          exec (p.1 h f) s = faulted c i s) ∧
        ∀ ka ha oa kb hb ob, portReady s pa e.aBytes = .ready ka ha oa → portReady s pb (e.bBytes p.2.2) = .ready kb hb ob →
          (p.2.2 = true → q = [] → exec (p.1 h f) s = faulted .format 0 s) ∧
          ((p.2.2 = true → q ≠ []) →
            let rows := List.range e.lim
            let t := if p.2.1 then { (s.tile n).wipe rows e.lim with kcount := 0 } else s.tile n
            let ops := stepOps s.myCore f.wu.toNat e (readSpec s.me f.sa) (t.kcount.toNat / e.bs) (if p.2.2 then q.head? else none)
              (portBits s pa ha oa e.aBytes) (portBits s pb hb ob (e.bBytes p.2.2))
            (ops = none → exec (p.1 h f) s = faulted .format 0 s) ∧
            ∀ o, ops = some o →
              let r := outerStep t e o s.tileFree
              let s1 := s.setTile n f.wu.toNat r.1 r.2
              let s2 := if p.2.2 then s1.setMyCore { s1.myCore with sq := Sparse.set [] s1.myCore.sq (engIdx f.eb) q.tail } else s1
              exec (p.1 h f) s =
                did ((s2.portDone (2 * f.wu.toNat) pa ka oa e.aBytes).portDone (2 * f.wu.toNat + 1) pb kb ob (e.bBytes p.2.2)))

/-- The EXTR words of a task complete: DIGS moves a lane, DIGM and LIMB write digits or limbs of the accumulator, TILE closes the rows'
groups up to the entry's limit and writes the rows, and TILE.CLR then wipes them; a control word that Table 11 refuses, and a write that faults, trap
(11 R339 to R342). -/
def Claims.ExtractWords : Prop :=
  ∀ (h : Hdr) (f : FmtE) (s : State), s.inRoutine = none → s.me.enabled h = true →
    let u := f.wu.toNat
    let l := s.me
    let a := (readSpec l f.sa).toNat
    let ctl := l.rdS l.level (engIdx f.eb)
    let isat (b : Bool) (t : State) : State := if b then t.setMyCore (t.myCore.joinWstat u wsIsat) else t
    exec (.extrDigs h f) s =
      did (s.landNow (engRef f.ed) (BitVec.ofInt 64 (s.myCore.lane48 (l.id.acc0 + engIdx f.ea) (f.aux.extractLsb' 0 8).toNat))) ∧
    (digitControl ctl = none → exec (.extrDigm h f) s = faulted .format 0 s ∧ exec (.extrLimb h f) s = faulted .format 0 s) ∧
    (∀ d n, digitControl ctl = some (d, n) →
      let x := s.myCore.digm (l.id.acc0 + engIdx f.ea) d n f.ty
      let y := s.myCore.limbs (l.id.acc0 + engIdx f.ea) d n
      (∀ segs, s.padAccess .store a x.1.length (WellFormed.tyWidth f.ty / 8) = .ok segs →
        exec (.extrDigm h f) s = did (isat x.2 (s.padWrite a segs x.1))) ∧
      (∀ e, s.padAccess .store a x.1.length (WellFormed.tyWidth f.ty / 8) = .error e →
        exec (.extrDigm h f) s = faulted e (BitVec.ofNat 64 a) s) ∧
      (∀ segs, s.padAccess .store a y.1.length 4 = .ok segs → exec (.extrLimb h f) s = did (isat y.2 (s.padWrite a segs y.1))) ∧
      ∀ e, s.padAccess .store a y.1.length 4 = .error e → exec (.extrLimb h f) s = faulted e (BitVec.ofNat 64 a) s) ∧
    (∀ i ∈ [Instr.extrTile h f, .extrTileClr h f],
      (ftEntry (l.eng u) f s = none → exec i s = faulted .format 0 s) ∧
      ∀ e, ftEntry (l.eng u) f s = some e → e.control ctl = none → exec i s = faulted .format 0 s) ∧
    ∀ e row0 nr sr, ftEntry (l.eng u) f s = some e → e.control ctl = some (row0, nr, sr) →
      (∀ c x, tileRuns s (readSpec l f.sa) sr e.rowBytes (List.range nr) = .error (c, x) →
        exec (.extrTile h f) s = faulted c (BitVec.ofNat 64 x) s ∧ exec (.extrTileClr h f) s = faulted c (BitVec.ofNat 64 x) s) ∧
      ∀ runs, tileRuns s (readSpec l f.sa) sr e.rowBytes (List.range nr) = .ok runs →
        let n := l.id.ta0 + engIdx f.ea
        let rows := (List.range nr).map (· + row0)
        let r := (s.tile n).closeRows rows e.lim s.tileFree
        let out := rows.map fun i => e.row r.1 i
        let fl := out.foldl (fun x y => x ||| y.2) (wsOfFl r.2)
        let put (t : State) : State := (runs.zip out).foldl (fun s x => s.padWrite x.1.1 x.1.2 x.2.1) t
        let wiped := r.1.wipe rows e.lim
        exec (.extrTile h f) s = did (put (s.setTile n u r.1 fl)) ∧
        exec (.extrTileClr h f) s = did (put (s.setTile n u (if nr = e.lim then { wiped with kcount := 0 } else wiped) fl))

/-! ### Routines -/

/-- The routine words of a task complete: MLDR fills words of the routine store and MLDR.ENTRIES the entry table from one run of
memory; MCALL gives 1 where a call is pending, 3 where the entry is not valid, and otherwise the routine is pending, or running
where it may start, with what the call captures, and its token waits (11 R348, R351). -/
def Claims.RoutineWords : Prop :=
  ∀ (h : Hdr) (f : FmtE) (s : State), s.inRoutine = none → s.me.enabled h = true →
    let l := s.me
    let c := s.myCore
    let u := f.wu.toNat
    let a := (readSpec l f.sa).toNat
    let ctl := (l.rdS l.level (engIdx f.ea)).toNat
    let first := ctl % 2 ^ 12
    let n := fld ctl 28 16
    let ent := (Sparse.get 0 c.entries (f.aux.extractLsb' 0 8).toNat).toNat
    let loads (i : Instr) (len : Nat) (put : Core → List Byte → Core) : Prop :=
      ∀ w g s', a % 2 = 0 → checkWin a len = .ok w → (w.1 = .global ∨ inLocal a = true) → s.access .load a len 2 true = .ok [g] s' →
        isPeer g = false → poisonAt s' a [g] = none →
        let t := (readOwn (s'.noteRange a [g]) g).2
        exec i s = did (t.setMyCore (put t.myCore (readOwn (s'.noteRange a [g]) g).1))
    (fld ctl 15 12 = 0 → fld ctl 63 29 = 0 → 1 ≤ n → n ≤ 4096 → first + n ≤ 4096 →
      loads (.mldr h f) (10 * n) fun c bs => c.landStore c.nextRemote (10 * first) bs) ∧
    ((fld ctl 15 12 ≠ 0 ∨ fld ctl 63 29 ≠ 0 ∨ n = 0 ∨ 4096 < first + n) → exec (.mldr h f) s = faulted .format 0 s) ∧
    loads (.mldrEntries h f) 512 (fun c bs => c.patchEntries 0 bs) ∧
    ((c.wm u).pend.isSome = true → exec (.mcall h f) s = did (s.landNow (engRef f.ed) 1)) ∧
    ((c.wm u).pend = none → fld ent 15 12 ≠ 8 → exec (.mcall h f) s = did (s.landNow (engRef f.ed) 3)) ∧
    ((c.wm u).pend = none → fld ent 15 12 = 8 → ∃ r : Routine,
      exec (.mcall h f) s = did ((s.setMyCore ((c.setWm u { c.wm u with pend := some r }).startRoutine u)).await (hdrTag h)
        (engRef f.ed) (.routine u)) ∧
      r.own = s.owner ∧ r.rpc = fld ent 11 0 ∧ r.tag = hdrTag h ∧ r.token = engRef f.ed ∧ r.wmcfg = l.cfg u ∧ r.fpc = l.fpcNow ∧
      r.steps = 0 ∧ r.callPc = l.wpc ∧ r.kcap = (List.range 6).map l.loopIndex ∧ r.mp = (List.range 8).map (Sparse.get 0 l.mp ·) ∧
      r.mloops = [] ∧ r.done = false)

/-- Words of the routine store read as MLDR wrote them, and the others as before; a run of whole words lands at once (11 R348). -/
def Claims.RoutineStoreLoads : Prop :=
  ∀ (c : Core) (first n : Nat) (bs : List Byte), bs.length = 10 * n →
    (∀ id, c.landStore id (10 * first) bs = c.patchStore (10 * first) bs) ∧
    (∀ i, i < n → Sparse.get 0 (c.patchStore (10 * first) bs).store (first + i) =
      BitVec.ofNat 80 (natOfBytes ((bs.drop (10 * i)).take 10))) ∧
    ∀ i, (i < first ∨ first + n ≤ i) → Sparse.get 0 (c.patchStore (10 * first) bs).store i = Sparse.get 0 c.store i

/-- The sequencing words act on the routine in whose store they stand: MLOOP opens a loop, skips a body that runs zero times and
closes the frames that end with the word itself, and faults where four are open or the body is empty; MJMP takes its jump by its condition; MRET ends the routine after the open groups
of its tiles have closed; each counts as a step (11 R355, R356).  Outside the store they trap (11 R357).  That a frame which ends at an MLOOP with N above 0 stays is
the model's choice (log 132). -/
def Claims.SequencingWords : Prop :=
  (∀ (h : Hdr) (f : FmtE) (s : State) (c u : Nat) (r : Routine), s.inRoutine = some (c, u) → s.running c u = some r →
    let n : BitVec 32 := ((r.eng u).val s.me f.sa).setWidth 32
    let eos (p : Nat) : Bool := rhEos (Sparse.get {} s.me.ports (2 * u + p)).h
    let take := match f.mode.toNat with
      | 0 => some true | 1 => some (eos 0) | 2 => some (eos 1) | 3 => some (eos 0 || eos 1) | _ => none
    let t : Int := r.rpc + f.aux.toInt
    let now (r : Routine) : Host.Outcome State Fault Refusal := .next (s.setRun c u (some r))
    let fails (x : Cause) : Host.Outcome State Fault Refusal := .next (s.routineFault c u x)
    (f.aux.toNat ≠ 0 → n = 0 →
      let x := closeMloops r.rpc r.mloops.reverse
      exec (.mloop h f) s = now { r.count with
        mloops := x.1.reverse, rpc := if x.2 = r.rpc + 1 then r.rpc + 1 + f.aux.toNat else x.2 }) ∧
    (f.aux.toNat ≠ 0 → n ≠ 0 → r.mloops.length < 4 → exec (.mloop h f) s =
      now { r.count with mloops := r.mloops ++ [⟨r.rpc + 1, r.rpc + f.aux.toNat, n, 0⟩], rpc := r.rpc + 1 }) ∧
    (f.aux.toNat ≠ 0 → n ≠ 0 → 4 ≤ r.mloops.length → exec (.mloop h f) s = fails .loopDepth) ∧
    (f.aux.toNat = 0 → exec (.mloop h f) s = fails .illegalEncoding) ∧
    (take = some false → exec (.mjmp h f) s = now r.next) ∧
    (take = some true → 0 ≤ t → t < 4096 → exec (.mjmp h f) s = now { r.count with rpc := t.toNat }) ∧
    (take = some true → (t < 0 ∨ 4096 ≤ t) → exec (.mjmp h f) s = fails .illegalOpcode) ∧
    (take = none → exec (.mjmp h f) s = fails .illegalEncoding) ∧
    exec (.mret h f) s = .next ((s.closeAdded u r.added).setRun c u (some { r.count with done := true }))) ∧
  ∀ (h : Hdr) (f : FmtE) (s : State), s.inRoutine = none → ∀ i ∈ [Instr.mloop h f, .mjmp h f, .mret h f],
    exec i s = .next (s.takeTrap ⟨.mseqOutside, 0, s.me.wpc⟩ .g s.me.group.pc)

/-- An MLOOP body of one word runs exactly N times before the routine goes on behind it (11 R355). -/
def Claims.RoutineLoopRuns : Prop :=
  ∀ (r : Routine) (n : BitVec 32), n ≠ 0 → r.mloops = [⟨r.rpc, r.rpc, n, 0⟩] →
    (∀ j, j < n.toNat → (Routine.next^[j] r).rpc = r.rpc ∧ (Routine.next^[j] r).mloops = [⟨r.rpc, r.rpc, n, BitVec.ofNat 32 j⟩]) ∧
    (Routine.next^[n.toNat] r).rpc = r.rpc + 1 ∧ (Routine.next^[n.toNat] r).mloops = []

/-- A routine word of an engine whose effect is done leaves its routine at the next word, one step more; one that faults ends the
routine, and the task takes a deferred trap (11 R352, R353).  Stated for the digit words. -/
def Claims.RoutineWordsStep : Prop :=
  ∀ (h : Hdr) (f : FmtE) (s : State) (c u : Nat) (r : Routine), s.inRoutine = some (c, u) → s.running c u = some r →
    let l := s.me
    ∀ p ∈ [(Instr.wmulConv, DigitMode.conv, false), (Instr.wmulCorr, .corr, false), (Instr.wmulLimb, .limb, false),
        (Instr.wmacConv, .conv, true), (Instr.wmacCorr, .corr, true), (Instr.wmacLimb, .limb, true)],
      let d := digitProduct s.myCore u p.2.1 p.2.2 r.wmcfg (l.id.acc0 + engIdx f.ed) (l.id.w0 + engIdx f.ea) (l.id.w0 + engIdx f.eb)
      (∀ co, d = .ok (co, false) →
        exec (p.1 h f) s = .next ((s.setMyCore co).setRun c u (some ((((s.setMyCore co).running c u).getD r).next))) ) ∧
      ∀ e i, d = .error (e, i) → exec (p.1 h f) s = .next (s.routineFault c u e)

/-- The events of sequencers: a pending routine starts where it may; a routine that has returned writes its token and retires its
tag, once the core's remote words are acknowledged where it releases at chip scope or wider (11 R351); a port fetches the line that
its held step needs (10 R317). -/
def Claims.SequencerEvents : Prop :=
  (∀ (s : State) (c u : Nat) (r : Routine), ((s.core c).wm u).run = none → ((s.core c).wm u).pend = some r →
    (s.core c).earlier r.own r.order = false → (s.core c).loading = 0 →
    exec (.routineStart c u) s = .next (s.setCore c ((s.core c).setWm u { (s.core c).wm u with run := some r, pend := none }))) ∧
  (∀ (s : State) (c u : Nat) (r : Routine), s.running c u = some r → r.done = true →
    (r.rel = true → 3 ≤ r.scope.toNat → (s.core c).acks = 0) →
    exec (.routineCompletion c u) s = .next (s.endRoutine c u r (s.token r u 0 0))) ∧
  ∀ (s : State) (c u port : Nat) (r : Routine) (h : Hdr) (f : FmtE) (e : FtEnt), s.running c u = some r → r.done = false →
    s.routineWord r = .ok (.wmacOuter h f) → port < 2 →
    let t := { s with cur := (r.own.core, r.own.slot) }
    let p := Sparse.get {} t.me.ports (2 * u + port)
    let n := if port = 0 then e.aBytes else e.bBytes false
    let at_ := p.place n
    let i := at_.2.2 / 128 + p.fetched at_.2.1 at_.2.2
    ftEntry (r.eng u) f t = some e → rhBound p.h = true → rhEos p.h = false → n ≤ portBytes p.h →
    i ≤ (at_.2.2 + n - 1) / 128 →
    (t.myCore.line (t.regionLine (rhFirst at_.2.1 + i)) = lnFull ∨ t.myCore.line (t.regionLine (rhFirst at_.2.1 + i)) = lnEos) →
    exec (.streamFetch c u port) s = .next { t.portAhead (2 * u + port) p at_.2.1 at_.2.2 (t.regionLine (rhFirst at_.2.1 + i)) with cur := s.cur }

/-! ### System words -/

/-- The CSR words complete at a level that reaches the register: CSR.RD gives its value at issue, and the others write at the end of
their group's cycle the operand, the value with the operand's bits set, or with them clear; at another level they trap PRIV
(17 R435, R437). -/
def Claims.CsrWords : Prop :=
  ∀ (h : Hdr) (f : FmtC) (s : State),
    let n := f.csrn.toNat
    let a := readSpec s.me f.a
    let put (x : Word) : Host.Outcome State Fault Refusal := did (s.setMe (s.me.setGroup fun g => { g with csrs := g.csrs ++ [(n, x)] }))
    (csrOpen f.csrn s.me.level = true → s.me.enabled h = true →
      exec (.csrRd h f) s = did (s.landNow (dstRef f.dst) (s.csrGet n)) ∧ exec (.csrWr h f) s = put a ∧
      exec (.csrSet h f) s = put (s.csrGet n ||| a) ∧ exec (.csrClr h f) s = put (s.csrGet n &&& ~~~a)) ∧
    (csrOpen f.csrn s.me.level = false → ∀ i ∈ [Instr.csrRd h f, .csrWr h f, .csrSet h f, .csrClr h f],
      exec i s = .next (s.takeTrap ⟨.priv, 0, s.me.wpc⟩ .g s.me.group.pc))

/-- What CSR numbers read: LEVEL, the cycle counter, pod time, the trap registers, the partition with its incarnation, the queue's
registers and the debug policy (17 Table 17-1). -/
def Claims.CsrReads : Prop :=
  ∀ s : State,
    let l := s.me
    let p := s.part l.id.part
    (l.level = .t → s.csrGet 5 = 0) ∧ (l.level = .s → s.csrGet 5 = 1) ∧ (l.level = .f → s.csrGet 5 = 2) ∧
    s.csrGet 6 = BitVec.ofNat 64 (s.cycle - s.myCore.resetCycle) ∧ s.csrGet 7 = s.podNow ∧ s.csrGet 0 = l.bank.fpc.setWidth 64 ∧
    s.csrGet 0x41 = l.csr.trapPc.setWidth 64 ∧ s.csrGet 0x42 = l.csr.trapInfo ∧ s.csrGet 0x43 = l.csr.trapWpc.setWidth 64 ∧
    s.csrGet 0x44 = p.trapVec ∧ s.csrGet 0x50 = l.tb.fpc.setWidth 64 ∧
    s.csrGet 0x100 = ((p.incarn.setWidth 64 <<< 32) ||| BitVec.ofNat 64 (l.id.part % 8)) ∧ s.csrGet 0x101 = p.ptBase ∧
    s.csrGet 0x102 = p.ptCtl ∧ s.csrGet 0x103 = p.fltqBase ∧ s.csrGet 0x104 = ((p.head.setWidth 64 <<< 32) ||| p.tail.setWidth 64) ∧
    s.csrGet 0x110 = p.dbgPol

/-- A CSR that is written reads what its writable bits took; the table registers keep their fields; the read-only registers, at level T
RPTREM and APXREGION among them, ignore the write, and level F writes the partition's incarnation and debug policy
(17 Table 17-1, R435, R437; 19 R493).  That a write of PARTID at level F leaves its PART as it is, is the model's choice (log 144). -/
def Claims.CsrWrites : Prop :=
  ∀ (s : State) (x : Word),
    (s.csrPut 0 x).csrGet 0 = (x.setWidth 32 &&& fpcMask).setWidth 64 ∧ (s.csrPut 2 x).csrGet 2 = x ∧
    (s.csrPut 0x41 x).csrGet 0x41 = (x.setWidth 32).setWidth 64 ∧ (s.csrPut 0x42 x).csrGet 0x42 = x ∧
    (s.csrPut 0x44 x).csrGet 0x44 = x ∧ (s.csrPut 0x101 x).csrGet 0x101 = x &&& 0x00FFFFFFFFFFF000 ∧
    (s.csrPut 0x102 x).csrGet 0x102 = x &&& 0x00000000FFFF0001 ∧
    (∀ n ∈ [5, 6, 7, 0x43, 0x46, 0x47, 0x48], s.csrPut n x = s) ∧
    (s.me.level = .t → s.csrPut 3 x = s ∧ s.csrPut 4 x = s) ∧
    (s.me.level ≠ .t → (s.csrPut 3 x).csrGet 3 = (x.setWidth 7).setWidth 64) ∧
    (s.me.level ≠ .f → s.csrPut 0x100 x = s ∧ s.csrPut 0x110 x = s) ∧
    (s.me.level = .f →
      (s.csrPut 0x100 x).csrGet 0x100 = (x >>> 32 <<< 32) ||| BitVec.ofNat 64 (s.me.id.part % 8) ∧
      (s.csrPut 0x110 x).csrGet 0x110 = x &&& 0xFFFFFFFF0000003F)

/-- The other system words complete at levels S and F: RFT and HALT end the slot's stay with their group, HALT of firmware stops the
core, WFE waits from the event count and for at most 65,536 cycles, and the TLBI words drop the translations they name; at level T
each traps PRIV (17 R433, R446, R453 to R455).  What a TLBI waits for before it performs, at once, is the model's choice (log 125). -/
def Claims.SystemWords : Prop :=
  ∀ (h : Hdr) (f : FmtRR) (s : State),
    let leave (e : GroupEnd) : State := s.setMe (s.me.setGroup fun g => { g with fin := e, finBit := 1 <<< g.idx })
    let part := s.me.id.part
    let v := (readSpec s.me f.a).toNat / 65536 * 65536
    let ctx := (readSpec s.me f.b).toNat % 65536
    (s.me.level = .s → s.me.enabled h = true → exec (.rft h) s = did (leave .rft) ∧ exec (.halt h) s = did (leave .halt)) ∧
    (s.me.level = .f → s.me.enabled h = true → exec (.halt h) s = did (s.setMyCore { s.myCore with halted := true })) ∧
    (s.me.level ≠ .t → s.me.enabled h = true →
      exec (.wfe h) s =
        did (s.setMe { s.me with wfe := some (((s.die (coreDie s.cur.1)).march part).evtcnt, s.cycle + 65536) }) ∧
      exec (.tlbiAll h f) s = did ((s.dropXlate part fun _ => true).landNow (dstRef f.dst) 0) ∧
      exec (.tlbiAddr h f) s = did ((s.dropXlate part fun e =>
        e.ctx = ctx && e.base < v + 65536 && v < e.base + 2 ^ e.bits).landNow (dstRef f.dst) 0) ∧
      exec (.tlbiCtx h f) s = did ((s.dropXlate part fun e => e.ctx = ctx).landNow (dstRef f.dst) 0)) ∧
    (s.me.level = .t → ∀ i ∈ [Instr.rft h, .halt h, .wfe h, .tlbiAll h f, .tlbiAddr h f, .tlbiCtx h f, .ctxSave h f, .ctxRestore h f],
      exec i s = .next (s.takeTrap ⟨.priv, 0, s.me.wpc⟩ .g s.me.group.pc))

/-- After a TLBI no TLB of the chip holds a translation that it names, and every other translation stands (17 R453). -/
def Claims.DroppedTranslations : Prop :=
  ∀ (s : State) (part : Nat) (p : TlbEntry → Bool),
    (∀ c, ∀ e ∈ ((s.dropXlate part p).core c).tlb, ¬ (e.part = part ∧ p e = true)) ∧
    (∀ d, ((s.dropXlate part p).die d).l2tlb = (s.die d).l2tlb.filter fun e => !(e.part = part && p e)) ∧
    ∀ c, ∀ e ∈ (s.core c).tlb, (e.part ≠ part ∨ p e = false) → e ∈ ((s.dropXlate part p).core c).tlb

/-- The CTX words complete with a status: a misaligned address gives 1, a frame that no access reaches 3, poison 4; CTX.SAVE writes the
frame of the slot's task, and CTX.RESTORE takes one whose head and body pass the checks and whose routines find their WMs free,
the task's wait with it; an access that misses while the die runs 128 walks waits (17 R452; 19 R488).  That a page which is absent or on a
peer chip, or a wait that may not be, gives 3 and a taken WM 2 is the model's choice (logs 90, 161, 166), as the place of an engine's and
a CTX word's misses among the 128 is (log 148). -/
def Claims.ContextWords : Prop :=
  ∀ (h : Hdr) (f : FmtRR) (s : State), s.me.level ≠ .t → s.me.enabled h = true →
    let a := (readSpec s.me f.a).toNat
    let m := buildFrame s s.cur.1 s.cur.2
    let status (t : State) (x : Word) : Host.Outcome State Fault Refusal := did (t.landNow (dstRef f.dst) x)
    (∀ x t, a % 256 = 0 → s.walkFree (coreDie s.cur.1) = false →
      (resolve s (s.myAgent 0) .store a m.2 = .walk x t → exec (.ctxSave h f) s = .next (finishWord (t.noteWalk x .store))) ∧
      (resolve s (s.myAgent 0) .load a 4096 = .walk x t → exec (.ctxRestore h f) s = .next (finishWord (t.noteWalk x .load)))) ∧
    (a % 256 ≠ 0 → exec (.ctxSave h f) s = status s 1 ∧ exec (.ctxRestore h f) s = status s 1) ∧
    (s.walkFree (coreDie s.cur.1) = true →
    (a % 256 = 0 → s.ctxAccess .store a m.2 16 = none → exec (.ctxSave h f) s = status s 3) ∧
    (a % 256 = 0 → s.ctxAccess .load a 4096 16 = none → exec (.ctxRestore h f) s = status s 3) ∧
    (∀ segs t, a % 256 = 0 → s.ctxAccess .load a 4096 16 = some (segs, t) →
      (segs.any (segPoison t) = true → exec (.ctxRestore h f) s = status s 4) ∧
      (segs.any (segPoison t) = false → checkFrame (Memory.write [] 0 (readOwns t segs).1) s.me.id = some .bad →
        exec (.ctxRestore h f) s = status s 1)) ∧
    (∀ segs t, a % 256 = 0 → s.ctxAccess .store a m.2 16 = some (segs, t) →
      let t := { t with freeCtr := t.freeCtr + 36864 }
      exec (.ctxSave h f) s = status ((t.noteRange a segs).writeOwns segs (Memory.read m.1 0 m.2)) 0) ∧
    ∀ s1 s2 t1 t2, a % 256 = 0 → s.ctxAccess .load a 4096 16 = some (s1, t1) → s1.any (segPoison t1) = false →
      let head := Memory.write [] 0 (readOwns t1 s1).1
      let n := frameSize (getF head 2 2)
      checkFrame head s.me.id ≠ some .bad → s.ctxAccess .load a n 16 = some (s2, t2) → s2.any (segPoison t2) = false →
      let r := readOwns t2 s2
      let body := Memory.write [] 0 r.1
      let c := r.2.myCore.dropRoutines s.me.id
      let taken (u : Nat) : Prop := frameRoutine body u ≠ 0 ∧ c.wmFree u = false
      (checkFrame body s.me.id = some .mismatch → exec (.ctxRestore h f) s = status s 2) ∧
      (checkFrame body s.me.id = none → (∃ u, u < 4 ∧ taken u) → exec (.ctxRestore h f) s = status s 2) ∧
      (checkFrame body s.me.id = none → (∀ u, u < 4 → ¬ taken u) →
        ((r.2.setMyCore c).waitPlace body = none → exec (.ctxRestore h f) s = status s 3) ∧
        ∀ loc t, (r.2.setMyCore c).waitPlace body = some (loc, t) →
          exec (.ctxRestore h f) s = status ((restoreFrame (t.noteRange a s2) s.cur.1 s.cur.2 body none).restoreWait body loc) 0))

/-- PAGE_WALK_COMPLETE of a walk that runs, one of its die's first 128: one that finds its page lets the words of its group that have not performed be issued again; one whose
page is not present writes a fault record and raises PAGE_NOT_PRESENT for its word, but of a CTX word, which goes on (17 R439, R452; 19
R488, R492).  The order of the walks of one cycle is the model's choice (log 148). -/
def Claims.PageWalks : Prop :=
  ∀ (s s' : State) (c k : Nat) (w : Machine.Walk) (g : Group) (e : TlbEntry) (a : Acc),
    let q := s.setSlot c k { s.slot c k with walk := none }
    (s.slot c k).walk = some w → s.walkRuns c k w = true → inPod w.addr.toNat = false → w.fetch = false → a = { rd := !w.write || w.atomic, wr := w.write, atom := w.atomic, fetch := w.fetch } →
    (walkInstall q (s.agent c k 0) w.addr.toNat a = .ok e s' → (s'.slot c k).grp = some g →
      exec (.pageWalkComplete c k) s = .next (s'.setSlot c k { s'.slot c k with
        grp := some { g with walks := false, reissue := true,
                             idx := ((List.range g.words.length).find? fun i => !g.perf.getLsbD i).getD 0,
                             checked := g.rptCount ≠ 0 } })) ∧
    ∀ x t, walkInstall q (s.agent c k 0) w.addr.toNat a = .absent x t →
      ((s.slot c k).atCtx = true → exec (.pageWalkComplete c k) s = .next (q.walkDone c k)) ∧
      ((s.slot c k).atCtx = false → (s.slot c k).group.defer = [] →
      let r := ({ t with cur := (c, k) }).faultRecord (s.agent c k 0).part w.addr (s.slot c k).id.recAddr (s.agent c k 0).ctx
        Cause.pageNotPresent.code.toNat (accessCode a x) 0 (coreDie c) c
      exec (.pageWalkComplete c k) s =
        .next { r.closeBroken { r.me.group with
          walks := false, trap := some ⟨.pageNotPresent, w.addr, w.wpc⟩, defer := [] } [] with cur := s.cur })

/-! ### Approximable regions -/

/-- APXB of a region of the core's block complete: a region that is exact, or sampled, opens with its inputs at hand; one that has
converged is substituted: its outputs hold what the network gives, and issue goes on behind the region's end (13 R392, R393).  What the
other registers hold then, and that results in flight land first, is the model's choice (log 93). -/
def Claims.RegionBegins : Prop :=
  ∀ (h : Hdr) (f : FmtE) (s : State) (i : Nat) (r : RSlot), s.me.enabled h = true → apxOpen s.me = false →
    s.rslotOf (f.aux.extractLsb' 0 4).toNat = some (i, r) →
    let n := (f.aux.extractLsb' 0 4).toNat
    let x := regionVals s.me r.inreg
    let sampled := x.any (fun v => !eqxFinite v) || r.exec.toNat % 2 ^ r.samp.toNat = 0
    let r' := { r with exec := r.exec + 1, state := if r.state = 0 then 1 else r.state }
    ((r.state ≠ 3 ∨ sampled = true) → exec (.apxb h f) s =
      did ((s.setRslot i r').openRegion n (if r.state = 3 then 1 else 0) (some ⟨i, x.map fun (v : BitVec 32) => v.setWidth 64, r.gen⟩))) ∧
    (r.state = 3 → sampled = false →
      let t := ((s.setRslot i { r' with subst := r.subst + 1 }).landHeld 64).blurRegion
      let u := t.setMe ((List.zip r.outreg (r'.net x)).foldl (fun l (d, v) => writeRef l .t 0xFFFF (v.setWidth 4096) (regionReg d)) t.me)
      exec (.apxb h f) s = did (u.setMe (u.me.setGroup fun g =>
        { g with pc := BitVec.ofNat 32 (u.groupEndAt r.epc + 1) - BitVec.ofNat 32 g.words.length })))

/-- The other words of regions complete: APXB of a region without a slot opens it exact; APXE closes the open region, and spoils it
where it names another; APXC closes it; APXS reads a register of a region's slot, zero where there is none, writes CTL and THRESH,
and invalidates (13 R387, R392, R395, R397). -/
def Claims.RegionWords : Prop :=
  ∀ (h : Hdr) (f : FmtE) (s : State), s.me.enabled h = true →
    let n := (f.aux.extractLsb' 0 4).toNat
    let k := (f.aux.extractLsb' 4 3).toNat
    let x := readSpec s.me f.sa
    (apxOpen s.me = false → s.rslotOf n = none → exec (.apxb h f) s = did (s.openRegion n 0 none)) ∧
    (apxOpen s.me = false → exec (.apxe h f) s = did s ∧ exec (.apxc h f) s = did s) ∧
    (apxOpen s.me = true → exec (.apxc h f) s = did s.closeRegion ∧
      (apxNo s.me ≠ n → exec (.apxe h f) s = did s.spoilRegion.closeRegion) ∧
      (apxNo s.me = n → s.me.apx = none → exec (.apxe h f) s = did s.closeRegion)) ∧
    (∀ i r a, apxOpen s.me = true → apxNo s.me = n → s.me.apx = some a → s.rslotOf n = some (i, r) → a.rslot = i → a.gen = r.gen →
      let xs := a.inputs.map fun (v : BitVec 64) => (v.setWidth 32 : BitVec 32)
      (apxMode s.me = 0 → (r.state = 1 ∨ r.state = 2) →
        exec (.apxe h f) s = did (s.setRslot i (r.record xs (regionVals s.me r.outreg))).closeRegion) ∧
      (apxMode s.me = 1 → r.state = 3 →
        exec (.apxe h f) s = did (s.setRslot i (r.compare xs (regionVals s.me r.outreg))).closeRegion)) ∧
    (s.rslotOf n = none → exec (.apxsRd h f) s = did (s.landNow (engRef f.ed) 0) ∧ exec (.apxsWr h f) s = did s ∧
      exec (.apxsInv h f) s = did s) ∧
    ∀ i r, s.rslotOf n = some (i, r) →
      exec (.apxsRd h f) s = did (s.landNow (engRef f.ed) (r.reg k)) ∧
      exec (.apxsInv h f) s = did (s.setRslot i r.invalidate) ∧
      (k = 0 → exec (.apxsWr h f) s = did (s.setRslot i { r with
        samp := x.extractLsb' 16 4, lr := x.extractLsb' 8 5,
        batch := if x.extractLsb' 4 2 = 0 then r.batch else x.extractLsb' 4 2 })) ∧
      (k = 1 → exec (.apxsWr h f) s = did (s.setRslot i { r with thresh := x.setWidth 32 }))

/-- A recorded pair joins the buffer of a region slot, which holds at most 64, and a full batch calls for training; a pair with a
value that is not finite is not recorded (13 R391, Table 13-3). -/
def Claims.RecordedPairs : Prop :=
  ∀ (r : RSlot) (x y : List (BitVec 32)),
    ((x ++ y).any (fun v => !eqxFinite v) = true → r.record x y = r) ∧
    (64 ≤ r.buffer.length → r.record x y = r) ∧
    ((x ++ y).any (fun v => !eqxFinite v) = false → r.buffer.length < 64 →
      (r.record x y).buffer = r.buffer ++ [(x, y)] ∧ (r.record x y).weights = r.weights ∧
      (r.state = 1 → (r.record x y).state = if r.batchSize ≤ r.buffer.length + 1 then 2 else 1))

/-- EQUINOX_BATCH_UPDATE trains a region slot whose batch is full: the batch's pairs leave the buffer, and the slot is fitted, or
fitting goes on, or, where a weight is not finite, it begins anew (13 R386, R389, R390). -/
def Claims.BatchUpdates : Prop :=
  (∀ (s : State) (b i : Nat) (r : RSlot), Sparse.find (s.block b).eqx i = some r → (r.state = 1 ∨ r.state = 2) →
    r.batchSize ≤ r.buffer.length →
    exec (.equinoxBatchUpdate b i) s = .next (s.setBlock b { s.block b with eqx := Sparse.put (s.block b).eqx i r.train })) ∧
  ∀ r : RSlot, (r.train.state = 1 ∧ r.train.weights = [] ∧ r.train.buffer = []) ∨
    ((r.train.state = 2 ∨ r.train.state = 3) ∧ r.train.buffer = r.buffer.drop r.batchSize ∧ (r.window.length ≤ 16 → r.train.window.length ≤ 16) ∧
      (r.train.state = 3 → eqxLe r.train.mean r.thresh = true))

/-! ### March, launches, Spring and Fall -/

/-- LAUNCH_INTAKE: a descriptor that cannot be read, or breaks a check, is refused through CPLSTAT with its code and completes; one that
passes has its records made and the handle as its result (02 R40 to R42; 22 R560).  What becomes of a descriptor that cannot be read is the
model's choice (log 80). -/
def Claims.LaunchIntake : Prop :=
  ∀ (s : State) (i : Intake) (rest : List Intake), s.intake = i :: rest → s.fw.boot = 6 →
    let t := { s with intake := rest }
    (t.descriptor i = none → exec .launchIntake s = .next (t.intakeDone i 4 0)) ∧
    ∀ bs, t.descriptor i = some bs →
      let refuse (code : Nat) : State :=
        (if recF bs 0x50 8 = 0 then t else t.marchWrite i.part (recF bs 0xE 2) (recF bs 0x50 8) (bytesOfNat 8 code)).intakeDone i 5 code
      (i.addr.toNat % 128 ≠ 0 → exec .launchIntake s = .next (refuse 1)) ∧
      (∀ c, i.addr.toNat % 128 = 0 → t.checkLaunch i.part bs = .error c → exec .launchIntake s = .next (refuse c)) ∧
      (∀ h, i.addr.toNat % 128 = 0 → t.checkLaunch i.part bs = .ok h → t.makeLaunch i bs h = none →
        exec .launchIntake s = .next (refuse 3)) ∧
      ∀ h n u, i.addr.toNat % 128 = 0 → t.checkLaunch i.part bs = .ok h → t.makeLaunch i bs h = some (n, u) →
        exec .launchIntake s = .next (u.intakeDone i 0 n)

/-- The codes of a refused launch, in their order: descriptor 1, image 2, records that do not fit 4, registers that can never fit 3;
a launch that passes has a header that is well formed and has the stages that the descriptor names (02 R42, Table 2-7).  The order of the
codes, and BADDESC for a wrong count of stages, are the model's choice (logs 77, 129). -/
def Claims.LaunchChecks : Prop :=
  ∀ (s : State) (part : Nat) (bs : List Byte),
    ((descOk bs = false ∨ s.jobValid part (recF bs 0xE 2) = false) → s.checkLaunch part bs = .error 1) ∧
    (∀ c, s.checkLaunch part bs = .error c → c = 1 ∨ c = 2 ∨ c = 3 ∨ c = 4) ∧
    ∀ h, s.checkLaunch part bs = .ok h →
      descOk bs = true ∧ h.stages = recF bs 0xC 1 ∧ recF bs 0xC 1 * recF bs 6 2 * recF bs 5 1 ≤ recF bs 0x40 4 ∧
      gangFits h (recF bs 5 1) = true ∧ ∃ hb, s.marchRead part (recF bs 0xE 2) (recF bs 0x10 8) 128 = some hb ∧ headerOk hb = true ∧
        h = headerOf hb

/-- LAUNCH_COMPLETION: once no record of the launch is left and no Spring or Fall record is bound to its regions, the status word is
written, then CPLFLAG rises, then the interrupt goes out, and the launch is complete (02 R43; 16 R422).  That the ports of its ended tasks
stay as they are is the model's choice (log 151). -/
def Claims.LaunchCompletes : Prop :=
  ∀ (s : State) (handle : Nat) (x : Launch), s.launches.find? (fun x => x.handle = handle && !x.completed) = some x → x.live = 0 →
    (s.sf.any fun y => match y.2.bound with | some (_, _, h) => h = handle && !y.2.ended | none => false) = false →
    let s1 := if x.cplStat = 0 then s
      else s.marchWrite x.part x.job x.cplStat.toNat (bytesOfNat 8 (x.errcnt * 2 ^ 32 + x.code))
    let s2 := s1.raiseFlag x.part x.job x.cplFlag
    let s3 := match x.cplMsi, x.port with
      | true, some (p, _) => if (s2.part x.part).tdi = TdiState.error then s2 else s2.msix p x.part x.vec.toNat
      | _, _ => s2
    exec (.launchCompletion handle) s = .next ((s3.freeLaunch handle).updLaunch x.part handle fun y => { y with completed := true })

/-- DISPATCH_DECISION, at most one for each die and cycle: the first unit of work is dispatched where it can be placed; where it cannot,
a target is reserved, room is made, and the first that can be placed then is dispatched, the unit itself before the others
(18 R459 to R461, R465, R467).  What one decision does and that the unit itself is tried again first is the model's choice (log 85). -/
def Claims.DispatchDecisions : Prop :=
  ∀ (s : State) (d : Nat) (w : Work) (rest : List Work), s.workOrder d = w :: rest → (s.die d).reserve = none →
    let decided (t : State) : State := if t = s then s else t.setDie d { t.die d with decided := s.cycle + 1 }
    (s.cycle < (s.die d).decided → exec (.dispatchDecision d) s = .next s) ∧
    ((s.die d).decided ≤ s.cycle →
    (∀ t, s.tryWork d w = some t → exec (.dispatchDecision d) s = .next (decided t)) ∧
    (s.tryWork d w = none →
      let t := match s.target d w with
        | some x => s.setDie d { s.die d with reserve := some (w.lead.seq, x) }
        | none => s
      exec (.dispatchDecision d) s =
        .next (decided (((w :: rest).findSome? fun v => (t.makeRoom d w).tryWork d v).getD (t.makeRoom d w)))))

/-- The order of the work: what stands before other work has a higher effective priority, or the same and an earlier arrival, or the
same of both and a lower address; so no work stands before itself, and of two with unlike addresses one stands before the other
(18 R460). -/
def Claims.WorkOrder : Prop :=
  ∀ (s : State) (a b c : Work),
    (s.before a b = true ↔ s.effPrio b.lead < s.effPrio a.lead ∨ (s.effPrio a.lead = s.effPrio b.lead ∧
      (s.arrivedAt a.lead < s.arrivedAt b.lead ∨
        (s.arrivedAt a.lead = s.arrivedAt b.lead ∧ a.lead.addr.toNat < b.lead.addr.toNat)))) ∧
    s.before a a = false ∧ (s.before a b = true → s.before b c = true → s.before a c = true) ∧
    (a.lead.addr ≠ b.lead.addr → s.before a b = true ∨ s.before b a = true)

/-- READY_RECORD_REFILL brings the first record that was written back into the SRAM; PRIORITY_AGING lets a record arrive at its new
level (18 R459, R460). -/
def Claims.ReadyRecords : Prop :=
  ∀ (s : State) (d : Nat),
    (∀ w ws, (((s.die d).recs.filter fun r => r.st = .ready).filter fun r => r.inSram).length < 65536 →
      (((((s.die d).recs.filter fun r => r.st = .ready).filter fun r => !r.inSram).map fun r =>
        (⟨r, false⟩ : Work)).foldr s.insertWork []) = w :: ws →
      exec (.readyRecordRefill d) s = .next (s.updRec d w.lead.seq fun r => { r with inSram := true })) ∧
    ∀ q r, (s.die d).recs.find? (fun r => r.seq = q) = some r → r.st = .ready → r.arrival < s.arrivedAt r →
      exec (.priorityAging d q) s = .next (s.updRec d q fun r => { r with arrival := s.arrivedAt r })

/-- By a function that reaches the control region of the partition, and whose port owns the control plane, PREEMPT writes its register and
requests the slot of a RUNNING task; RESUME makes a PARKED task READY and raises EVTCNT; LAUNCHKILL ends every record of a launch on the
die; a function that does not reach it changes nothing, and the write of a port that is not the owner is dropped and counted (18 R468,
R469, R475; 21 R525, R526). -/
def Claims.MarchCommands : Prop :=
  ∀ (s : State) (fn d part : Nat) (a : Word) (r : TRec),
    (s.reaches fn part = false → ∀ i ∈ [Instr.preempt d part a fn, .resume d part a fn, .launchkill d part a fn], exec i s = .next s) ∧
    (s.reaches fn part = true → s.host.owner ≠ fnPort fn + 1 →
      ∀ i ∈ [Instr.preempt d part a fn, .resume d part a fn, .launchkill d part a fn],
        exec i s = .next { s with host := { s.host with cpdrop := s.host.cpdrop + 1 } }) ∧
    (s.reaches fn part = true → s.host.owner = fnPort fn + 1 →
    (∀ c k, (s.updMarch d part fun x => { x with preempt := a }).dieRec d part a = some r → r.st = .running → r.place = some (c, k) →
      (s.updMarch d part fun x => { x with preempt := a }).coresident r.part r.handle r.member = false →
      exec (.preempt d part a fn) s = .next ((s.updMarch d part fun x => { x with preempt := a }).requestSlot c k)) ∧
    (let t := s.updMarch d part fun x => { x with resume := a }
     t.dieRec d part a = some r → r.st = .parked → r.place = none → t.taskRecordHeld part a = false →
      exec (.resume d part a fn) s = .next ((t.readyRec d r.seq).raiseEvt d part)) ∧
    exec (.launchkill d part a fn) s =
      .next ((s.updMarch d part fun x => { x with launchkill := a.setWidth 16 }).killOn d part (a.toNat % 65536)))

/-- A pre-emption ends: where the window has passed at a group boundary the task is moved out of its slot to a frame, or, while its
loads are in flight, waits there for them without issuing; where every
member of a co-resident gang stands still all its frames are written and its slots freed at once (18 R471, R472).  That a PARKED member
counts as landed, and what a task waits for at its window's end, are the model's choice (logs 86, 87). -/
def Claims.PreemptionEnds : Prop :=
  (∀ (s t : State) (c k : Nat) (p : PreReq), (s.slot c k).pre = some p → p.counting = true → p.landed = false →
    (s.slot c k).level = .t → (s.slot c k).grp = none → (s.slot c k).st = .running →
    ((s.die (coreDie c)).march (s.slot c k).id.part).pwin.toNat ≤ p.now s.cycle →
    s.coresident (s.slot c k).id.part (s.slot c k).id.handle (s.slot c k).id.member = false →
    (s.settled c k = true → s.moveOut c k .ready = some t → exec (.preemptWindowExpiry c k) s = .next t) ∧
    (s.settled c k = false → exec (.preemptWindowExpiry c k) s =
      .next ((s.setSlot c k { s.slot c k with pre := some { p with landed := true } }).slotState c k .ready))) ∧
  ∀ (s t : State) (d launch gang : Nat) (r : TRec),
    ((s.die d).recs.find? fun r => r.member && r.handle = launch && (s.gangOf r.part r.handle r.coord).1 = gang && r.place.isSome) = some r →
    let seats := s.gangSeats d r
    (seats.any fun x => (s.slot x.2.1 x.2.2).pre.isSome) = true →
    (seats.all fun x => (s.slot x.2.1 x.2.2).level = .t && (x.1.st = .waiting || x.1.st = .parked ||
      (s.slot x.2.1 x.2.2).pre.any fun p => p.landed)) = true →
    s.coresident r.part r.handle r.member = true →
    seats.foldl (fun o x => o.bind fun s => s.memberOut d x.1 x.2.1 x.2.2) (some s) = some t →
    let u := (t.gangRecs d r).foldl (fun s y => s.updRec d y.seq fun z =>
      if y.st = .ready then { z with held := none } else { z with held := none, since := s.cycle, arrival := s.cycle }) t
    exec (.gangFrameWrite d launch gang) s = .next (match u.gangHome r.part r.handle gang with
      | some (b, g) => u.setBlock b ((u.block b).updGang r.part r.handle gang fun _ => { g with away := true })
      | none => u)

/-- The context of a first dispatch: RUNNING at the record's entry, s1 its argument, FPC its record's in its writable bits, every other
scalar register and predicate as after reset (02 R33, R34). -/
def Claims.FirstContext : Prop :=
  ∀ (id : TaskId) (r : TRec), r.cont = false →
    let l := freshSlot id r
    l.st = .running ∧ l.level = .t ∧ l.pc = BitVec.ofNat 32 (recF r.copy 0x20 4) ∧ l.codeBase = id.kernel + 128 ∧
    l.tb.fpc = BitVec.ofNat 32 (recF r.copy 0x38 4) &&& fpcMask ∧ l.rdS .t 1 = BitVec.ofNat 64 (recF r.copy 0x28 8) ∧
    (∀ i, i ≠ 1 → l.rdS .t i = 0) ∧ (∀ i, l.rdQ i = 0) ∧ (∀ i, i ≠ 0 → l.rdP .t i = false) ∧ l.csr.ctxstat = 0 ∧ l.grp = none

/-- SPRING_FILL: the next line of a bound stream that is EMPTY takes 128 bytes of the pattern and becomes FULL, FULL_EOS at the end of
a record that asks for it, or POISON, which STATUS shows at once; after its last line the record ends (16 R418, R419, R421).  That it goes
line by line is the model's choice (log 92). -/
def Claims.SpringFills : Prop :=
  ∀ (s t : State) (stack n core base handle : Nat) (r : SfRec) (segs : List Seg), Sparse.find s.sf (256 * stack + n) = some r →
    r.bound = some (core, base, handle) → r.runs = true → r.kind = 1 → r.pos < r.total →
    let sb := 128 * (r.f 4 1 + 1)
    let ofs := base + r.f 0x10 4 + r.pos / sb % 2 ^ r.f 3 1 * sb + r.pos % sb
    (s.core core).line (ofs / 128) = lnEmpty → sfRuns (r.agent s stack handle) .load stack r 129 r.pos 128 s = .ok segs t →
    let bad := runsPoison t segs
    let last : Bool := r.pos + 128 = r.total
    let u := (writeSeg t ⟨.scr core ofs, 128⟩ (readSegs t segs)).setLine core (ofs / 128)
      (if bad then lnPoison else if r.flag 1 && last then lnEos else lnFull)
    let p := { r with pos := r.pos + 128, poison := r.poison || bad, waits := none }
    let r' := if p.poison then p.setStatus 0x12 else p
    exec (.springFill stack n) s =
      .next (if last then u.endSf (256 * stack + n) r' 0 true else { u with sf := Sparse.put u.sf (256 * stack + n) r' })

/-- FALL_DRAIN: a slot every line of which holds data is written to the pattern and becomes EMPTY; the record ends after its last
byte or after an end-of-stream slot, then BADREC where what is left of its pattern leaves the stack (16 R418, R420, R421).  That the
bytes left are checked then is the model's choice (log 92). -/
def Claims.FallDrains : Prop :=
  ∀ (s t : State) (stack n core base handle : Nat) (r : SfRec) (runs : List (List Seg)), Sparse.find s.sf (256 * stack + n) = some r →
    r.bound = some (core, base, handle) → r.runs = true → r.kind = 2 → r.pos < r.total →
    let lines := r.f 4 1 + 1
    let sb := 128 * lines
    let first := (base + r.f 0x10 4 + r.pos / sb % 2 ^ r.f 3 1 * sb) / 128
    let st := (s.core core).slotStates first lines
    st.any (· == lnEmpty) = false → slotRuns (r.agent s stack handle) stack r lines r.pos s = .ok (runs, t) →
    let u := (List.range lines).foldl (fun s i => s.setLine core (first + i) lnEmpty) (drainLines core first lines 0 runs t)
    let p := { r with pos := r.pos + sb, poison := r.poison || st.any (· == lnPoison), waits := none }
    let r' := if p.poison then p.setStatus 0x12 else p
    let out := patternOut (r'.agent u stack handle) .store stack r' u (r'.f 0x24 4 * r'.f 0x28 4 + 1) r'.pos
    exec (.fallDrain stack n) s = .next (if r'.total ≤ r'.pos then u.endSf (256 * stack + n) r' 0 true
      else if eosSlot st then u.endSf (256 * stack + n) r' (if out then 0x10 else 0) true
      else { u with sf := Sparse.put u.sf (256 * stack + n) r' })

/-! ### Links and pod time -/

/-- FLIT_RECEIVE on a link that is up: a flit whose SEQ does not follow is discarded and a NAK that names the SEQ expected goes out; one
that follows and whose tag checks is accepted, its packets arrive, what it tells of freed buffers and acceptances counts, and a control
flit has its effect; one whose tag fails is discarded, with a NAK, and the sixteenth in a row starts retraining (20 R504 to R507).  The
form of a control flit's payload is the model's choice (log 68). -/
def Claims.FlitsReceived : Prop :=
  ∀ (s : State) (i : Nat) (fl : Flit), (s.link i).up = true → (s.link i).retraining = false → (s.link i).fenced = false →
    let l := s.link i
    let kb := if flitK fl then 1 else 0
    let bad := { l with tagFails := l.tagFails + 1 }
    let fails : State := (s.setLink i (if 16 ≤ l.tagFails + 1 then bad.retrain s.cycle else bad)).sendControl i ctlNak [l.rxNext.toNat]
    (flitSeq fl ≠ l.rxNext → exec (.flitReceive i fl) s = .next (s.sendControl i ctlNak [l.rxNext.toNat])) ∧
    (flitSeq fl = l.rxNext → Sparse.find l.rxKeys kb = none → exec (.flitReceive i fl) s = .next fails) ∧
    ∀ b, flitSeq fl = l.rxNext → Sparse.find l.rxKeys kb = some b →
      let plain := Config.gcmStream b.key b.salt b.ctr fl.payload
      (Config.gcmTag b.key b.salt b.ctr fl.hdr plain ≠ fl.tag → exec (.flitReceive i fl) s = .next fails) ∧
      (Config.gcmTag b.key b.salt b.ctr fl.hdr plain = fl.tag →
        let bytes := Sparse.get [] l.rxBytes (flitVc fl) ++ (if flitKind fl = 0 then plain else [])
        let ps := cutPackets (bytes.length / 48 + 1) bytes []
        let l' := l.take fl b ps.2
        let t := (s.setLink i l').closeRekey i
        let u := if flitKind fl = 1 then (match Config.controlOf plain with | some c => t.control i c | none => t) else t
        let hop := if l.ports.any (fun x => !portLocal x) then 1 else 0
        exec (.flitReceive i fl) s = .next ((ps.1.map fun p => { p with vc := flitVc fl + hop }).foldl State.arrives u).settle ∧
        l'.rxNext = l.rxNext + 1 ∧ l'.rxLast = flitSeq fl ∧ l'.tagFails = 0 ∧ l'.rxBank = flitK fl ∧
        l'.credits = Sparse.set 0 l.credits (flitCvc fl) (Sparse.get 0 l.credits (flitCvc fl) + flitCredit fl) ∧
        (l.replay.any (fun f => flitSeq f = flitAck fl) = false → l'.replay = l.replay))

/-- What a link does about trouble: a NAK resends from the flit it names; a lane's failure in a direction starts retraining on those that
remain, or fences a link without any; a third failed attempt, of 2 µs each, fences; a finished one works on the lanes that trained and had
not failed, each direction on its own, restarts k and resends what is not acknowledged.  Byte k of the stream travels on working lane
k mod n in beat k / n (20 R503, R506 to R509).  Which spares stand in for a port, and when, is the model's choice (log 168). -/
def Claims.LinkRecovery : Prop :=
  ∀ (s : State) (i : Nat), (s.link i).fenced = false →
    let l := s.link i
    (∀ q, l.retraining = false →
      exec (.nakFlit i q) s = .next (s.setLink i (l.resend (l.replay.dropWhile fun f => flitSeq f ≠ q)))) ∧
    (∀ (rx : Bool) n, (if rx then l.rxLanes else l.lanes).contains n = true →
      let left := if rx then { l with rxLanes := l.rxLanes.filter fun x => x ≠ n } else { l with lanes := l.lanes.filter fun x => x ≠ n }
      let t := s.setLink i (left.retrain s.cycle)
      exec (.laneFailure i n rx) s =
        .next (if (left.lanes.isEmpty || left.rxLanes.isEmpty) = true then (t.fenceLink i).settle else t)) ∧
    (l.retraining = true →
      let t := s.setLink i { l with failures := l.failures + 1, since := s.cycle }
      (s.attemptOver l = true → exec (.retrainTimeout i) s = .next (if 3 ≤ l.failures + 1 then (t.fenceLink i).settle else t)) ∧
      (s.attemptOver l = false → exec (.retrainTimeout i) s = .next s)) ∧
    (l.lanes ≠ [] → ∀ k, l.lanes[k % l.lanes.length]? = some (l.place k).1 ∧ (l.place k).2 = k / l.lanes.length) ∧
    (∀ ports tx rx, l.retraining = true → s.attemptOver l = false →
      let ps := if s.bondsSpares i ports then ports else l.ports
      let a := l.remain ps l.lanes tx
      let b := l.remain ps l.rxLanes rx
      ((a = [] ∨ b = []) → exec (.retrainingComplete i tx ports rx) s = .next (s.fenceLink i).settle) ∧
      (a ≠ [] → b ≠ [] →
        let l' := { l with
          ports := ps, lanes := a, rxLanes := b, retraining := false, up := true, failures := 0, tagFails := 0, k := 0 }
        exec (.retrainingComplete i tx ports rx) s = .next (s.setLink i (l'.resend l'.replay)))) ∧
    ∀ had trained x, l.ports.Nodup → x ∈ l.remain l.ports had trained → x ∈ had ∧ x ∈ trained

/-- Rekeying: KEY_UPDATE in a session brings a link a key: one that a sender is given enters the inactive bank, which its next flit uses,
while the old bank stays until its last flit is accepted; a receiver's enters its inactive bank; KEYDONE erases the old one; outside a
session no key changes (20 R510; 22 R553).  That a sender's key switches at once is the model's choice (log 69). -/
def Claims.Rekeying : Prop :=
  ∀ (s : State) (i n : Nat) (tx : Bool) (key : BitVec 256) (salt : BitVec 32),
    let l := s.link i
    let other (b : Bool) : Nat := if b then 0 else 1
    exec (.keydone i) s = .next (s.setLink i { l with rxKeys := Sparse.del l.rxKeys (other l.rxBank) }) ∧
    (let msg := Config.sha384 (bytesOfNat 4 i ++ [if tx then 1 else 0] ++ bytesOfNat 32 key.toNat ++ bytesOfNat 4 salt.toNat)
     let t := s.spdmAnswers n 0xE9 msg (·.session) (fun _ x => x) []
     (Sparse.find s.fab.links i).isSome = true → s.fw.boot = 6 →
      ((s.spdmOf n).session = true → exec (.keyUpdate i tx key salt n) s = .next (t.installKey i tx key salt)) ∧
      ((s.spdmOf n).session = false → exec (.keyUpdate i tx key salt n) s = .next t ∧ t.fab = s.fab)) ∧
    (l.rxKeys.length ≠ 2 →
      s.installKey i false key salt = s.setLink i { l with rxKeys := Sparse.put l.rxKeys (other l.rxBank) ⟨key, salt, 0⟩ }) ∧
    (l.oldLast = none → l.keyDone = none → l.ctrl.any (fun x => x.1 = ctlKeydone) = false →
      let l' := { l with txKeys := Sparse.put l.txKeys (other l.txBank) ⟨key, salt, 0⟩, txBank := !l.txBank,
                         oldLast := if l.txKey.isSome then some (l.txSeq - 1) else none }
      s.installKey i true key salt = (s.setLink i l').closeRekey i)

/-- Pod time: a child whose parent link is up asks it every 65,536 ns, and takes the offset that the four stamps of an exchange give, to
slew by, its parent counting as heard; a lost parent link is noted.  EST after an exchange is not given: it is free (20 R521; log 2). -/
def Claims.TimeSync : Prop :=
  ∀ (s : State) (t1 t2 t3 t4 : Nat), s.fab.timeCtl.getLsbD 17 = false →
    (s.parentDown = false → ∃ t, exec (.timeSyncExchange t1 t2 t3 t4) s = .next t ∧
      t.fab.slew = -((((t2 : Int) - t1) - ((t4 : Int) - t3)) / 2) ∧ t.fab.downAt = none ∧ t.fab.chip = s.fab.chip ∧
      t.cores = s.cores ∧ t.hbm = s.hbm) ∧
    (s.parentDown = true → exec (.timeSyncExchange t1 t2 t3 t4) s = .next s ∧
      (s.fab.downAt = none → s.trackParent = { s with fab := { s.fab with downAt := some s.podNow.toNat } })) ∧
    ∀ i, s.fab.trained = true → s.parentDown = false → s.parentLink = some i →
      (s.fab.syncAt + 65536 ≤ s.podNow.toNat →
        s.trackParent = ({ s with fab := { s.fab with syncAt := s.podNow.toNat } } : State).sendControl i ctlDreq [s.podNow.toNat]) ∧
      (s.podNow.toNat < s.fab.syncAt + 65536 → s.trackParent = s)

/-! ### The host -/

/-- CPSEM: a free semaphore goes to the port that writes its own claim, of two that write in one cycle to the one that held it least
recently; its holder frees it; any other write, alone or beside another, changes nothing.  OWNER's change advances EPOCH (21 R527). -/
def Claims.Semaphore : Prop :=
  ∀ (s : State) (port : Nat) (v : Word) (o : Option Word), port < 2 →
    let claims (p : Nat) (v : Word) : Prop := s.host.owner = 0 ∧ v.toNat % 4 = p + 1
    let frees (p : Nat) (v : Word) : Prop := s.host.owner = p + 1 ∧ v.toNat % 4 = 0
    (claims port v → (∀ w, o = some w → ¬ claims (1 - port) w) → exec (.cpsem port v o) s = .next (s.setOwner (port + 1))) ∧
    (∀ w, o = some w → claims (1 - port) w → ¬ claims port v → exec (.cpsem port v o) s = .next (s.setOwner (1 - port + 1))) ∧
    (∀ w, o = some w → claims port v → claims (1 - port) w → exec (.cpsem port v o) s = .next (s.setOwner (1 - s.host.recent + 1))) ∧
    (frees port v → exec (.cpsem port v o) s = .next (s.setOwner 0)) ∧
    (∀ w, o = some w → frees (1 - port) w → exec (.cpsem port v o) s = .next (s.setOwner 0)) ∧
    (¬ claims port v → ¬ frees port v → (∀ w, o = some w → ¬ claims (1 - port) w ∧ ¬ frees (1 - port) w) →
      exec (.cpsem port v o) s = .next s) ∧
    (s.setOwner (port + 1)).host.owner = port + 1 ∧ (s.setOwner (port + 1)).host.epoch = s.host.epoch + 1

/-- A port's link that goes down frees the semaphore that it holds (21 R527). -/
def Claims.PortDown : Prop :=
  ∀ (s : State) (port : Nat),
    let t := { s with host := { s.host with linkUp := Sparse.put s.host.linkUp port false } }
    exec (.hostLinkDown port) s = .next (if s.host.owner = port + 1 then t.setOwner 0 else t)

/-- The port whose write of a register this is, through a function that reaches the register (21 R525). -/
def writerPort (s : State) (fn : Nat) : HostReg → Option Nat
  | .march _ p _ | .record p _ _ _ => if s.reaches fn p then some (fnPort fn) else none
  | .qcfg p _ | .pasidTab p _ _ => if fn = p then some p else none
  | _ => if fn < 2 then some fn else none

/-- The control plane: the port that holds the semaphore rings the doorbell of every die, clears QERR, revokes an extent, and writes
registers, those of a partition's control region through a function that reaches it; a write that does not reach its register changes
nothing, and a write of the other port is dropped and counted, whatever it names; an interrupt vector is written without the semaphore
(21 R525 to R529, R534, R543; 00 R6). -/
def Claims.ControlPlane : Prop :=
  ∀ (s : State) (fn part q x : Nat) (reg : HostReg) (v : Word),
    let dropped : Host.Outcome State Fault Refusal := .next { s with host := { s.host with cpdrop := s.host.cpdrop + 1 } }
    (s.reaches fn part = false → exec (.evtdoor fn part) s = .next s) ∧
    (s.reaches fn part = true → s.host.owner = fnPort fn + 1 →
      exec (.evtdoor fn part) s = .next ((List.range 8).foldl (fun s d => s.raiseEvt d part) s)) ∧
    (s.reaches fn part = true → s.host.owner ≠ fnPort fn + 1 → exec (.evtdoor fn part) s = dropped) ∧
    (s.host.owner = fn + 1 →
      exec (.qerrClear fn q) s = .next (s.setQif (8 * fn + q) { s.qif (8 * fn + q) with qerr := 0 }) ∧
      ((s.ext x).state = 1 → exec (.extentRevoke fn x) s = .next (s.revoke x)) ∧
      ((s.ext x).state ≠ 1 → exec (.extentRevoke fn x) s = .next s)) ∧
    (s.host.owner ≠ fn + 1 → exec (.qerrClear fn q) s = dropped ∧ exec (.extentRevoke fn x) s = dropped) ∧
    (∀ p n w, reg = .msixEntry p n w →
      (fn = p → exec (.registerWrite fn reg v) s = .next (s.writeReg reg v).settle) ∧
      (fn ≠ p → exec (.registerWrite fn reg v) s = .next s)) ∧
    ((∀ p n w, reg ≠ .msixEntry p n w) →
      (writerPort s fn reg = none → exec (.registerWrite fn reg v) s = .next s) ∧
      ∀ p, writerPort s fn reg = some p →
        (s.host.owner = p + 1 → exec (.registerWrite fn reg v) s = .next (s.writeReg reg v).settle) ∧
        (s.host.owner ≠ p + 1 → exec (.registerWrite fn reg v) s = dropped))

/-- The fault queue's registers take what the host writes: HEAD moves on, and the records that were held back are written then, in
their order, each at TAIL, which advances, while the queue has room, with the signal where PTCTL asks for it (19 R493). -/
def Claims.FaultQueue : Prop :=
  ∀ (s : State) (part : Nat) (h : BitVec 32) (v : Word),
    let p := s.part part
    exec (.fltqptrHeadWrite part h) s = .next ((s.setPart part { p with head := h }).drainFaults part (p.held.length + 1)) ∧
    exec (.fltqbaseWrite part v) s =
      .next ((s.setPart part { p with fltqBase := v &&& 0x00FFFFFFFFFFF01F }).drainFaults part (p.held.length + 1)) ∧
    (p.held = [] → ∀ n, s.drainFaults part n = s) ∧
    ∀ r rest n k, p.held = r :: rest → faultSlots p = some n →
      ((p.tail - p.head).toNat = n → s.drainFaults part k = s) ∧
      ((p.tail - p.head).toNat ≠ n →
        let u := s.wrInter part (fld p.fltqBase.toNat 55 12 * 2 ^ 12 + 32 * (p.tail.toNat % n)) r.bytes
        let t := u.setPart part { u.part part with held := rest, tail := p.tail + 1 }
        s.drainFaults part (k + 1) = (if p.ptCtl.getLsbD 0 then t.signal part else t).drainFaults part k)

/-- The request packets: each that passes the checks of an enabled interface joins its queue, which then runs; one that does not is
refused with the STATUS of the first check that fails, and one at an interface that is not enabled with 0x07 (21 R529 to R533). -/
def Claims.RequestPackets : Prop :=
  ∀ (port q : Nat) (p : ReqPacket) (s : State),
    ∀ x ∈ [(Instr.launchReq, (1 : BitVec 8)), (Instr.depsig, 2), (Instr.flagadd, 3), (Instr.packetNop, 4)], (p.op = x.2 ∨ p.op = 0 ∨ 4 < p.op.toNat) →
      let i := 8 * port + q
      let y := s.qif i
      (qifEnable y = true → (s.part (qifPart y)).tdi ≠ .error → packetCheck y p = none →
        exec (x.1 port q p) s = .next (State.runQueue i 33 (s.setQif i { y with queue := y.queue ++ [p] }))) ∧
      (∀ c, qifEnable y = true → (s.part (qifPart y)).tdi ≠ .error → packetCheck y p = some c →
        exec (x.1 port q p) s = .next (s.refusePacket i (p.pasid.getD 0) c)) ∧
      ((qifEnable y = false ∨ (s.part (qifPart y)).tdi = .error) → exec (x.1 port q p) s = .next (s.refusePacket i (p.pasid.getD 0) 7))

/-- What the queue does with the packet at its head: LAUNCH waits for launch intake; FLAGADD adds ARG1 to the word it names and
completes with 0, or with 4 where it names none; NOP completes with 0; DEPSIG signals its record (21 R533). -/
def Claims.PacketEffects : Prop :=
  ∀ (s : State) (i : Nat) (p : ReqPacket) (rest : List ReqPacket), (s.qif i).queue = p :: rest → (s.qif i).busy = false →
    (p.op = 1 → State.runQueue i 1 s = s.packetLaunch i p ∧ (s.packetLaunch i p).intake.length = s.intake.length + 1) ∧
    (p.op = 2 → State.runQueue i 1 s = s.packetDepsig i p) ∧
    (p.op = 3 → ∀ l, s.flagaddLoc (qifPart (s.qif i)) p.arg0.toNat = some l →
      State.runQueue i 1 s = (s.addAt l p.arg1).completePacket i 0 0) ∧
    (p.op = 3 → s.flagaddLoc (qifPart (s.qif i)) p.arg0.toNat = none → State.runQueue i 1 s = s.completePacket i 4 0) ∧
    (p.op = 4 → State.runQueue i 1 s = s.completePacket i 0 0)

/-- A completion record: STATUS, the interface, TAG and RESULT in the 16 bytes at CPL, where the host's IOMMU has them, and the interrupt
of the packet's vector, with the address and data of its table entry, where the packet asks for one; where the page does not translate no
record is written and EVEC goes out (21 R532, R534). -/
def Claims.CompletionRecords : Prop :=
  ∀ (s : State) (i st r : Nat) (p : ReqPacket) (rest : List ReqPacket), (s.qif i).queue = p :: rest → p.cpl ≠ 0 →
    p.cpl.toNat % 16 = 0 → (s.part (qifPart (s.qif i))).tdi ≠ .error →
    let t := s.completePacket i st r
    let page := s.dmaPage (i / 8) (p.pasid.getD 0) (p.cpl.toNat / 4096)
    (page = none → t = (s.setQif i { s.qif i with queue := rest, busy := false }).msix (i / 8) (qifPart (s.qif i)) (qifEvec (s.qif i))) ∧
    ∀ q, page = some q →
      Memory.read t.host.mem (4096 * q + p.cpl.toNat % 4096) 16 =
        bytesOfNat 8 (st + i * 2 ^ 16 + p.tag.toNat * 2 ^ 32) ++ bytesOfNat 8 r ∧
      (t.qif i).queue = rest ∧ (p.flags.getLsbD 0 = false → t.host.msix = s.host.msix) ∧
      (p.flags.getLsbD 0 = true → p.vec.toNat < Config.msixVectors (i / 8) →
        t.host.msix = s.host.msix ++ [s.msixOf (i / 8) (qifPart (s.qif i)) p.vec.toNat])

/-- ATS_INVALIDATION drops the translation of a page that a function holds, and no other (21 R532). -/
def Claims.AtsInvalidations : Prop :=
  ∀ (s : State) (port : Nat) (pasid : BitVec 20) (page : Word),
    ∃ t, exec (.atsInvalidation port pasid page) s = .next t ∧ t = { s with host := { s.host with ats := t.host.ats } } ∧
      ∀ k, k ∈ t.host.ats ↔ k ∈ s.host.ats ∧ k ≠ (port, pasid.toNat, page.toNat / 4096)

/-- A host's access to the flag window: the owning host reads a line, whose copy it keeps, owns it, writes bytes of it, or writes back
the line that it has modified, and keeps no copy then; another host gets an unmapped error.  A device access to a line that the host may
have modified takes it back first, and a write takes back any copy; one that finds no copy in its way changes nothing (21 R536). -/
def Claims.FlagWindowAccess : Prop :=
  ∀ (s : State) (host part ofs : Nat) (p : Partition), Sparse.find s.parts part = some p →
    let a := ofs / 64 * 64
    let away : Partition :=
      { p with flagHost := p.flagHost.filter (· ≠ ofs / 64), flagMod := p.flagMod.filter (· ≠ ofs / 64) }
    (host ≠ Config.flagHost part → ∀ k, exec (.hostFlagAccess host part ofs k) s = .next (s.reply (.unmapped host))) ∧
    (host = Config.flagHost part →
      exec (.hostFlagAccess host part ofs .read) s =
        .next ((s.setPart part { p with flagHost := insertNat (ofs / 64) p.flagHost }).reply (.data host (Memory.read p.flagRam a 64) false)) ∧
      exec (.hostFlagAccess host part ofs .readOwn) s =
        .next ((s.setPart part { p with flagHost := insertNat (ofs / 64) p.flagHost, flagMod := insertNat (ofs / 64) p.flagMod }).reply
          (.data host (Memory.read p.flagRam a 64) false)) ∧
      (∀ o bs, exec (.hostFlagAccess host part ofs (.write o bs)) s =
        .next ((s.setPart part { away with flagRam := Memory.write p.flagRam (a + o % 64) (bs.take (64 - o % 64)) }).reply (.done host))) ∧
      ∀ bs, exec (.hostFlagAccess host part ofs (.writeBack bs)) s =
        .next ((if p.flagMod.contains (ofs / 64) then s.setPart part { away with flagRam := Memory.write p.flagRam a (bs.take 64) }
          else s).reply (.done host))) ∧
    (∀ o n wr, (∀ l, l ∈ lines64 o n → p.flagHost.contains l = false ∧ p.flagMod.contains l = false) → s.flagRecall part o n wr = s) ∧
    ∀ l wr, p.flagHost.contains l = true → (wr = true ∨ p.flagMod.contains l = true) →
      ((s.flagRecall part (64 * l) 8 wr).part part).flagHost = p.flagHost.filter (· ≠ l) ∧
      (p.flagMod.contains l = false → ((s.flagRecall part (64 * l) 8 wr).part part).flagRam = p.flagRam)

/-- A host's access to an extent: an ACTIVE extent that names the host, of a unit that its partition owns, serves it, from the pinned
version for a host with a pin, and after recalling the copies that stand in the way; one of a unit that another owns records the access;
any other gets an unmapped error (21 R538, R539, R541, R543; 22 R546, R548). -/
def Claims.ExtentAccess : Prop :=
  ∀ (s : State) (host x line : Nat) (k : HostAccess),
    let e := s.ext x
    let ok := e.state = 1 ∧ e.hosts.getLsbD host = true ∧ s.fw.unitFenced.contains x = false
    (¬ ok → exec (.hostExtentAccess host x line k) s = .next (s.reply (.unmapped host))) ∧
    (ok → s.unitOwner x ≠ some e.part → exec (.hostExtentAccess host x line k) s =
      .next ((s.errRecord (some e.part) 6 1 3 x (BitVec.ofNat 64 (extLine x line))).reply (.unmapped host))) ∧
    (ok → s.unitOwner x = some e.part → e.mode ≠ 1 ∨ Sparse.find e.pins host = none →
      (blockers (Sparse.find e.dir line) host k = [] → exec (.hostExtentAccess host x line k) s = .next (s.extPerform host x line k)) ∧
      (blockers (Sparse.find e.dir line) host k ≠ [] → exec (.hostExtentAccess host x line k) s = .next (s.setExt x { e with
        recalls := e.recalls ++ [⟨line, blockers (Sparse.find e.dir line) host k, some (host, k), s.cycle⟩] }))) ∧
    (∀ v, ok → s.unitOwner x = some e.part → e.mode = 1 → Sparse.find e.pins host = some v →
      exec (.hostExtentAccess host x line .read) s = .next (s.readView host x line v.toNat) ∧
      exec (.hostExtentAccess host x line .readOwn) s = .next ((s.extErr x 4).reply (.unmapped host)))

/-- The directory gives the hosts in the way: for a read those that have modified the line, for ownership or a write every other
that holds it (21 R539). -/
def Claims.DirectoryBlocks : Prop :=
  ∀ (h : Nat) (hs : List Nat) (o : Nat) (bs : List Byte) (w : Nat),
    blockers none h .read = [] ∧ blockers (some (.shared hs)) h .read = [] ∧ (o ≠ h → blockers (some (.modified o)) h .read = [o]) ∧
    blockers (some (.modified h)) h .readOwn = [] ∧ (∀ x, x ∈ blockers (some (.shared hs)) h .readOwn ↔ x ∈ hs ∧ x ≠ h) ∧
    (∀ x, x ∈ blockers (some (.shared hs)) h (.write w bs) ↔ x ∈ hs ∧ x ≠ h) ∧ blockers (some (.modified o)) h (.writeBack bs) = []

/-- The rest of an extent's life: a pin holds the version at hand and VCUR rises, once the lines that hosts have modified are back; an
unpin lets pages of versions that nobody holds go; a recall's response writes dirty data before what waits for it; a recall that is too
late loses the line; a drain that is too long completes with poison; an extent whose recalls are done and of which no host has a copy goes
to ZEROING, then is zeroed with its versions and FREE (21 R539 to R544).  What the record of a revocation holds is the model's choice
(log 103). -/
def Claims.ExtentEvents : Prop :=
  ∀ (s : State) (host x line : Nat),
    let e := s.ext x
    (e.state = 1 → e.mode = 1 → e.hosts.getLsbD host = true → Sparse.find e.pins host = none → e.pinWait = [] →
      (e.modified = false →
        exec (.snapviewPin host x) s = .next (s.setExt x { e with pins := Sparse.put e.pins host e.vcur, vcur := e.vcur + 1 })) ∧
      (e.modified = true →
        exec (.snapviewPin host x) s = .next ((s.setExt x { e with pinWait := [host] }).recallLines x false))) ∧
    (∀ v, Sparse.find e.pins host = some v →
      let pins := Sparse.del e.pins host
      let copies := e.copies.filter fun c => pins.any fun p => p.2.toNat = c.1
      exec (.snapviewUnpin host x) s = .next ((s.setExt x { e with pins := pins, copies := copies }).settle.resumeQueues)) ∧
    (e.recalls.any (fun r => r.line = line && r.from_.contains host) = true →
      let left := e.recalls.map fun r => if r.line = line then { r with from_ := r.from_.filter (· ≠ host) } else r
      let t := s.setExt x { e with dir := dropHolder e.dir line host, recalls := left }
      exec (.recallResponse x line host none) s = .next (t.endRecalls x) ∧
      ∀ bs, Sparse.find e.dir line = some (.modified host) → t.snapFull (extLine x line) 64 = false →
        exec (.recallResponse x line host (some bs)) s =
          .next ((writeSeg t ⟨.ext (extLine x line), 64⟩ (bs.take 64)).endRecalls x)) ∧
    (e.recalls.any (fun r => r.line = line && !r.from_.isEmpty && s.elapsed r.since e.recallUs 100) = true →
      let t := s.setExt x { e with dir := Sparse.put e.dir line .lost, exterr := e.exterr ||| 8,
                                   recalls := e.recalls.map fun r => if r.line = line then { r with from_ := [] } else r }
      exec (.recallTimeout x line) s =
        .next ((t.errRecord (some e.part) 7 1 4 x (BitVec.ofNat 64 (extLine x line))).endRecalls x)) ∧
    (e.state = 2 → s.elapsed e.revokedAt e.drainUs 1000 = true →
      let late := e.recalls.filterMap fun r => r.req.map fun q => (r.line, q.1)
      let t := s.setExt x { e with recalls := e.recalls.map (fun r => { r with req := none }),
                                   exterr := if late.isEmpty then e.exterr else e.exterr ||| 16 }
      exec (.drainTimeout x) s =
        .next (late.foldl (fun t p => t.reply (.data p.2 (Memory.read t.hbm (extLine x p.1) 64) true)) t)) ∧
    (e.state = 2 → e.recalls = [] →
      (e.dir.any (fun d => !(holders (some d.2)).isEmpty) = true → exec (.extentZeroing x) s = .next (s.recallLines x true)) ∧
      (e.dir.any (fun d => !(holders (some d.2)).isEmpty) = false →
        exec (.extentZeroing x) s = .next (s.setExt x { e with state := 3 }))) ∧
    (e.state = 3 →
      let t := ((s.zeroHbm (x * 2 ^ 30) (2 ^ 30)).zeroVersions e).setExt x { e with state := 0, pins := [], copies := [], dir := [] }
      let u : State := { t with host := { t.host with snapWait := t.host.snapWait.filter fun w => w.1 / 2 ^ 30 ≠ x } }
      exec (.extentZeroing x) s = .next (u.errRecord (some e.part) 7 1 5 x (e.exterr.setWidth 64)))

/-! ### Firmware -/

/-- The mailbox of firmware: the port that holds the semaphore asks, after boot, and firmware answers with its signal: ASSIGN makes a
partition of free resources, GROW and SHRINK change an unlocked one, REMOVE ends one, DEBUGPOL sets a policy that verifies, IMAGE
stores an image that verifies, FENCE fences a unit, which ends the tasks there, or lifts its fence, STATUS answers.  A request that does
not pass is refused, and the status of the reply says so.  The answer waits until what SHRINK and FENCE name has left its fence and what
REMOVE names has ended, and a request written meanwhile is dropped and counted (22 R547, R549, R555, R556, R559, R561).  When a request has
been served, and which bits of a policy's blob are reserved, is the model's choice (logs 107, 112). -/
def Claims.FirmwareRequests : Prop :=
  ∀ (s : State) (port part : Nat) (q : AssignReq) (bl : BitVec 128) (us : List Nat) (pol : PolicyBlob) (im : FwImage) (u : FenceUnit)
    (z : Bool), s.host.owner = port + 1 → s.fw.boot = 6 →
    let named := namedUnits bl us
    let no (part code : Nat) : Host.Outcome State Fault Refusal := .next (s.answer { part := part, code := code, refused := true })
    let mine := named.all fun u => s.ownerOf u = some part && !s.fw.leaving.any fun x => x.1 = u
    let leaves := s.fw.leaving.any fun x => x.1 = u
    (s.fw.serving ≠ none → ∀ i ∈ [Instr.assign port q, .grow port part bl us z, .shrink port part bl us z, .remove port part z,
        .debugpol port part pol z, .imageReq port im z, .fwFence port u false z, .fwFence port u true z, .fwStatus port z],
      exec i s = .next { s with host := { s.host with cpdrop := s.host.cpdrop + 1 } }) ∧
    (s.fw.serving = none →
    (s.assignOk q = true → exec (.assign port q) s = .next ((s.assignPart port q).answer { part := q.part, code := 1 })) ∧
    (s.assignOk q = false → exec (.assign port q) s = no q.part 1) ∧
    (s.nameable part = true → s.allFree named = true → us.all (fun x => decide (x < 1024)) = true →
      exec (.grow port part bl us true) s = .next ((s.own part named).answer { part := part, code := 2 })) ∧
    ((s.nameable part = false ∨ s.allFree named = false ∨ us.all (fun x => decide (x < 1024)) = false) → exec (.grow port part bl us z) s = no part 2) ∧
    (s.nameable part = true → mine = true → exec (.shrink port part bl us true) s =
      .next ((named.foldl (fun s u => s.leave true u) s).freeLeaving.answer { part := part, code := 3, units := named })) ∧
    ((s.nameable part = false ∨ mine = false) → exec (.shrink port part bl us z) s = no part 3) ∧
    (s.nameable part = true →
      exec (.remove port part true) s = .next ((s.stopPart part true).answer { part := part, code := 4, ends := true })) ∧
    (s.nameable part = false → exec (.remove port part z) s = no part 4) ∧
    (s.nameable part = true → s.policyOk part pol = true →
      let word := (pol.incarn.setWidth 64 <<< 32) ||| (pol.bits.setWidth 64 &&& 0x3E) ||| 1
      exec (.debugpol port part pol true) s = .next ((s.setPart part { s.part part with
        dbgPol := word, policy := some (Config.sha384 (policyBytes pol ++ pol.signature)) }).answer { part := part, code := 5 })) ∧
    ((s.nameable part = false ∨ s.policyOk part pol = false) → exec (.debugpol port part pol z) s = no part 5) ∧
    (imageOk s.fw.minVersion im = true → exec (.imageReq port im true) s =
      .next (({ s with fw := { s.fw with flash := some im } } : State).answer { part := 0, code := 6 })) ∧
    (imageOk s.fw.minVersion im = false → exec (.imageReq port im z) s = no 0 6) ∧
    (leaves = false → s.isFenced u = false → s.fw.kept.contains u = false →
      exec (.fwFence port u false true) s = .next (((s.fence u).fenceTasks u).settle.answer { part := 0, code := 7 })) ∧
    (leaves = false → s.isFenced u = true →
      let t := if s.fw.kept.contains u then { s with fw := { s.fw with lifting := s.fw.lifting ++ [u] } } else s
      exec (.fwFence port u true true) s = .next ((t.leave false u).freeLeaving.answer { part := 0, code := 7, units := [u] })) ∧
    exec (.fwStatus port true) s = .next (s.answer { part := 0, code := 8 }) ∧
    (∀ i ∈ [(Instr.grow port part bl us false, part, 2), (.shrink port part bl us false, part, 3), (.remove port part false, part, 4),
        (.debugpol port part pol false, part, 5), (.imageReq port im false, 0, 6), (.fwFence port u false false, 0, 7),
        (.fwFence port u true false, 0, 7), (.fwStatus port false, 0, 8)], exec i.1 s = no i.2.1 i.2.2)) ∧
    ∀ x, s.busyWith x = false → s.answer x = ({ s with fw := { s.fw with serving := none } } : State).fwReply x ∧
      (s.fwReply x).fw.status = (x.code, x.refused) ∧ (s.fwReply x).fw.reply.length = 256

/-- A partition's incarnation rises at every ASSIGN that is made, its debug policy is zero, its interface unlocked and its key its own
(22 R547, R548, R550, R555). -/
def Claims.NewPartition : Prop :=
  ∀ (s : State) (port : Nat) (q : AssignReq), s.assignOk q = true →
    let p := (s.assignPart port q).part q.part
    p.incarn = Sparse.get 0 s.fw.incarn q.part + 1 ∧ p.dbgPol = 0 ∧ p.tdi = .unlocked ∧ p.port = port ∧
    p.key = Config.randomKey s.freeCtr ∧
    Sparse.get 0 (s.assignPart port q).fw.incarn q.part = Sparse.get 0 s.fw.incarn q.part + 1

/-- The TDISP messages move an interface between its states: LOCK from CONFIG_UNLOCKED to CONFIG_LOCKED with the second stage in force, an
IDE key and the tables that it freezes, where its port has one of 8 streams free; START to RUN, STOP back, and the two queries answer with
the state and the report (22 R550, R551). -/
def Claims.InterfaceStates : Prop :=
  ∀ (s : State) (part : Nat), s.interface part = true →
    let p := s.part part
    let root := Config.stage2Base part p.incarn.toNat
    (p.tdi = .unlocked → s.ideStreams p.port < 8 →
      let t := (s.setPart part { p with tdi := .locked, stage2 := some root, s2Units := s.tableUnits 4 root,
                                        ideKey := Config.ideKey part p.incarn.toNat }).dropTlb part
      exec (.lockInterface part) s = .next (t.setPart part { t.part part with tables := t.frozenTables part })) ∧
    (p.tdi = .unlocked → 8 ≤ s.ideStreams p.port → exec (.lockInterface part) s = .next s) ∧
    (p.tdi = .locked → exec (.startInterface part) s = .next (s.setPart part { p with tdi := .run })) ∧
    (p.tdi ≠ .locked → exec (.startInterface part) s = .next s) ∧
    (p.tdi ≠ .unlocked → exec (.stopInterface part) s = .next (s.stopPart part false) ∧ exec (.lockInterface part) s = .next s) ∧
    exec (.getDeviceInterfaceState part) s = .next { s with fw := { s.fw with tdiStates := s.fw.tdiStates ++ [p.tdi] } } ∧
    exec (.getDeviceInterfaceReport part) s = .next { s with fw := { s.fw with tdiReply := s.report part } }

/-- A write that would change frozen configuration is dropped and moves the interface to ERROR: of a register, and of a byte of the
tables in memory that the lock froze (22 R551, R563). -/
def Claims.FrozenConfiguration : Prop :=
  (∀ (s : State) (p : Nat) (f : State → State),
    ((s.part p).tdi ≠ .unlocked → s.frozenWrite [p] true f = s.tdiError p) ∧
    ((s.part p).tdi = .unlocked → s.frozenWrite [p] true f = f s) ∧ s.frozenWrite [p] false f = f s) ∧
  ∀ (s : State) (a : Nat) (bs : List Byte) (p : Nat),
    (s.frozenBy a bs = [p] → s.wrOpen a bs = s.setPart p { s.part p with tdi := .error }) ∧
    (s.frozenBy a bs = [] → s.wrOpen a bs = s.wrHbm a bs) ∧
    (p ∈ s.frozenBy a bs ↔ ∃ x, (p, x) ∈ s.parts ∧ (∃ t ∈ x.tables, a < t.1 + t.2 ∧ t.1 < a + bs.length) ∧
      Memory.read s.hbm a bs.length ≠ bs)

/-- The attestation messages: each is answered by the standard's answer to the session's transcript, signed with the alias key, and
moves its session on where it is in order; within a session the answer goes out under AES-256-GCM; FINISH after KEY_EXCHANGE establishes
the session and END_SESSION ends it (22 R552 to R554; the order is the model's, log 5, and so is what of the certificate chain is
answered, log 171). -/
def Claims.AttestationMessages : Prop :=
  ∀ (s : State) (n j : Nat) (m : BitVec 384), s.fw.boot = 6 →
    let x := s.spdmOf n
    let t := Config.sha384 (bytesOfNat 48 x.transcript.toNat ++ bytesOfNat 48 m.toNat)
    let bytes (code : Nat) (more : List (BitVec 384)) : List Byte :=
      (Config.spdmAnswer code t :: more).flatMap fun a => bytesOfNat 48 a.toNat
    let next (code : Nat) (more : List (BitVec 384)) : BitVec 384 := Config.sha384 (bytesOfNat 48 t.toNat ++ bytes code more)
    let answers (code : Nat) (more : List (BitVec 384)) (y : Spdm) : Host.Outcome State Fault Refusal :=
      let z := { y with transcript := next code more, reply := Config.spdmAnswer code t :: more,
                        signature := Config.ecdsaSign s.aliasKey (next code more),
                        coded := if x.session then Config.gcmStream x.key 0 x.ctr (bytes code more) else [],
                        ctr := if x.session then x.ctr + 1 else 0 }
      .next { s with fw := { s.fw with spdm := Sparse.set {} s.fw.spdm n z } }
    exec (.getVersion n m) s = answers 0x84 [] { version := true } ∧
    (x.version = true → exec (.getCapabilities n m) s = answers 0xE1 [] { x with caps := true }) ∧
    (x.caps = true → exec (.negotiateAlgorithms n m) s = answers 0xE3 [] { x with algs := true }) ∧
    (x.algs = true →
      exec (.getDigests n m) s =
        answers 0x81 [Config.sha384 (Config.mfrCert ++ bytesOfNat 96 s.fw.cert.toNat)] { x with digests := true } ∧
      exec (.getCertificate n m) s =
        answers 0x82 [Config.sha384 Config.mfrCert, s.fw.cert.extractLsb' 384 384, s.fw.cert.extractLsb' 0 384] { x with cert := true } ∧
      exec (.challenge n m) s = answers 0x83 [] { x with challenged := true } ∧
      exec (.getMeasurements n j m) s = answers 0xE0 [s.measurement j] x ∧
      exec (.keyExchange n m) s = answers 0xE4 [] { x with keyed := true, key := Config.sessionKey (next 0xE4 []) }) ∧
    (x.keyed = true → exec (.finish n m) s = answers 0xE5 [] { x with session := true }) ∧
    (x.session = true → exec (.heartbeat n m) s = answers 0xE8 [] x ∧
      exec (.endSession n m) s = answers 0xEC [] { x with keyed := false, session := false, key := 0 })

/-- The clock governor moves CCLK by 25 MHz between 425 and 850 MHz as power and junction tell, and nothing else; pod time, which is set
down anew, does not jump with it; above 115 °C the device stops, a stopped device takes no step but a RESET, and that one runs (22 R562;
20 R521). -/
def Claims.ClockGovernor : Prop :=
  ∀ (s : State) (w j : Nat),
    let at_ (mhz : Nat) : State :=
      { s with fab := { s.fab with podTime := s.podNow, podAt := s.cycle, slew := s.fab.slew - slewed s.fab.slew s.podNs },
               fw := { s.fw with cclk := mhz } }
    ((3600 < w ∨ 105 < j) → exec (.governorLower w j) s = .next (at_ (max 425 (s.fw.cclk - 25)))) ∧
    (w ≤ 3600 → j ≤ 105 → exec (.governorLower w j) s = .next s) ∧
    (w < 3600 → j < 105 → exec (.governorRaise w j) s = .next (at_ (min 850 (s.fw.cclk + 25)))) ∧
    ((3600 ≤ w ∨ 105 ≤ j) → exec (.governorRaise w j) s = .next s) ∧
    (∀ mhz, (at_ mhz).podNow = s.podNow) ∧
    (115 < j → exec (.thermalShutdown j) s = .next { s with fw := { s.fw with shutdown := true } }) ∧
    (j ≤ 115 → exec (.thermalShutdown j) s = .next s) ∧
    (s.fw.shutdown = true → s.resetNext = false → step s = .fault .deviceStopped) ∧
    ∀ r t, s.agenda = .event .resetDev :: r → exec .resetDev { s with agenda := r } = .next t → step s = .next t.after

/-- Errors: a corrected one is counted and recorded; patrol scrubbing changes nothing that a program sees; an uncorrected one of a
scratchpad line or a memory line poisons it, one of a block fences it
and ends its tasks (22 R557 to R559). -/
def Claims.ErrorContainment : Prop :=
  ∀ (s : State) (u : ErrUnit) (c l b : Nat),
    exec (.correctedError u) s = .next (({ s with fw := { s.fw with corrected := s.fw.corrected + 1 } } : State).errorEvent u 0) ∧
    exec (.patrolScrub u) s = .next s ∧
    exec (.uncorrectedError (.scratchLine c l)) s = .next ((s.setLine c l lnPoison).errorEvent (.scratchLine c l) 1).settle ∧
    exec (.uncorrectedError (.hbmLine l)) s =
      .next (({ s with hbmPoison := insertNat l s.hbmPoison } : State).errorEvent (.hbmLine l) 1).settle ∧
    exec (.uncorrectedError (.blockUnit b)) s =
      .next (((s.fence (.block b)).fenceTasks (.block b)).errorEvent (.blockUnit b) 2).settle ∧
    ((s.fence (.block b)).block b).fenced = true

/-- RESET: what fuses, module flash and host memory hold outlives it, everything else is as after reset, and the boot sequence runs the
image in flash where it verifies, or waits for one; after a thermal stop an error record is written; an image that the waiting loader
takes runs where it verifies and is refused otherwise; the fabric is trained with the pod chip number that firmware takes, and a block's
August core is its lowest core that has passed self-test, or the block is fenced (22 R560 to R562; 20 R501).  What passes and trains, what
an image's signature signs, and what outlives a reset beside fuses and flash is the model's choice (logs 104, 113, 116). -/
def Claims.ResetAndBoot : Prop :=
  (∀ s : State, let t := s.afterReset.boot
    (s.fw.shutdown = false → exec .resetDev s = .next t) ∧
    (s.fw.shutdown = true → ∃ bs, exec .resetDev s =
      .next { t with freeCtr := t.freeCtr + 4, fw := { t.fw with log := t.fw.log ++ [bs] } }) ∧
    s.afterReset.host.mem = s.host.mem ∧ s.afterReset.fw.flash = s.fw.flash ∧ s.afterReset.fw.minVersion = s.fw.minVersion ∧
    s.afterReset.cores = [] ∧ s.afterReset.parts = [] ∧ s.afterReset.hbm = State.reset.hbm) ∧
  (∀ s : State,
    let waits : State := { s with fw := { s.fw with boot := 1, waitsImage := true } }
    (s.fw.flash = none → s.boot = waits) ∧
    ∀ i, s.fw.flash = some i → s.boot = if imageOk s.fw.minVersion i then s.bringUp i else waits) ∧
  (∀ (s : State) (i : FwImage), (s.bringUp i).fw.boot = 6 ∧ (s.bringUp i).fw.running = some i ∧ (s.bringUp i).fw.waitsImage = false ∧
    (i.raiseMin = true → (s.bringUp i).fw.minVersion = max s.fw.minVersion i.secVersion) ∧
    (s.bringUp i).fab.trained = true ∧ (s.bringUp i).fab.chip = Config.podChip s.freeCtr) ∧
  (∀ (s : State) (boot b : Nat), (s.appoint boot b).block b =
    match (List.range 8).find? fun k => Config.coreTest boot (8 * b + k) with
    | some k => { s.block b with august := k }
    | none => { s.block b with fenced := true }) ∧
  ∀ (s : State) (port : Nat) (i : FwImage), s.fw.waitsImage = true →
    exec (.recoveryImageLoad port i) s = .next (if imageOk s.fw.minVersion i then s.bringUp i else s)

end Sys2Proof

open Sys2Proof Sys2Proof.Machine Sys2Proof.Safety

/-- The printed sample words decode to the instructions the manual prints them for. -/
def Obligations.DecodedSampleWords : Prop :=
  Claims.DecodeSampleWords

/-- Every well-formed program word has an encoding that decodes back to it. -/
def Obligations.EncodedWordDecodes : Prop :=
  Claims.EncodedWordDecodes

/-- A word that decodes is its instruction's one encoding: no bit is dropped. -/
def Obligations.DecodedWordEncodes : Prop :=
  Claims.DecodedWordEncodes

/-- A step runs the word that the bytes at the PC decode to. -/
def Obligations.StepRunsDecodedWord : Prop :=
  Claims.StepRunsFetchedWord ∧ Claims.StepRunsNextWord ∧ Claims.LookAhead

/-- A word that its level may not run traps PRIV before it runs. -/
def Obligations.PrivilegedWordsTrap : Prop :=
  Claims.PrivilegedWordsTrap

/-- A group goes on word by word, closes after its last, and results land after L cycles. -/
def Obligations.GroupProgress : Prop :=
  Claims.GroupGoesOn ∧ Claims.GroupCloses ∧ Claims.ResultLandsInTime ∧ Claims.ResultLanding

/-- A register reads what was written, hard-wired ones excepted, and no other changes. -/
def Obligations.RegisterReadAfterWrite : Prop :=
  Claims.RegisterReadAfterWrite

/-- What reset leaves; reset values the manual does not give are the model's (log 1, 3). -/
def Obligations.ResetState : Prop :=
  Claims.ResetState

/-- When PR enables a word outside the V class. -/
def Obligations.EnabledRule : Prop :=
  Claims.EnabledRule

/-- Integer operations compute what bit vectors of TYPE's width compute. -/
def Obligations.IntegerResults : Prop :=
  Claims.IntegerResults ∧ Claims.BitCounts

/-- The integer words and CMP complete with their results. -/
def Obligations.IntegerAndCompareWords : Prop :=
  Claims.IntegerWords ∧ Claims.CompareWords

/-- MOVHI joins its immediate to the low half of A; NOP has no effect. -/
def Obligations.MoveHighAndNop : Prop :=
  Claims.MoveHighWord ∧ Claims.NopWord

/-- SEL, MOVI, LEA, the BITS words and PLOG complete with their results. -/
def Obligations.MoveBitsSelectPredicate : Prop :=
  Claims.SelectWord ∧ Claims.MoveAndAddressWords ∧ Claims.BitsWords ∧ Claims.PredicateWords

/-- Scalar words change their destination, the last-result file and the PC only. -/
def Obligations.ScalarWordsLand : Prop :=
  Claims.ScalarWordsLand ∧ Claims.NullifiedWords

/-- The float words complete; exact values round to themselves; NaNs are canonical. -/
def Obligations.FloatWords : Prop :=
  Claims.FloatWords ∧ Claims.FloatRepresentable ∧ Claims.FloatNaNs

/-- Branches, jumps and calls go to their targets with one bubble and change nothing else. -/
def Obligations.BranchWords : Prop :=
  Claims.BranchWords ∧ Claims.BranchesLand

/-- LOOP, BRKL, RPT and TRAP complete; a loop of N iterations closes N times. -/
def Obligations.LoopAndTrapWords : Prop :=
  Claims.LoopWords ∧ Claims.LoopRunsNTimes ∧ Claims.RepeatWord ∧ Claims.UserTrapWord

/-- What taking a trap saves and where it goes; a trap at level S ends the task. -/
def Obligations.TrapEntry : Prop :=
  Claims.TrapEntry ∧ Claims.DoubleTrap

/-- RFT resumes at TRAPPC or issues the buffered group again. -/
def Obligations.TrapReturn : Prop :=
  Claims.ReturnFromTrap ∧ Claims.ReplayedGroup

/-- Vector elements pack and read back; a landing result changes its enabled lanes only. -/
def Obligations.VectorElementsLand : Prop :=
  Claims.VectorElements ∧ Claims.VectorLandingFrame

/-- The integer, mask and permute V words complete with their results. -/
def Obligations.VectorIntegerWords : Prop :=
  Claims.VectorIntegerWords ∧ Claims.VectorMaskWords ∧ Claims.PermuteWords

/-- The float, conversion and block-scale V words complete with their results. -/
def Obligations.VectorFloatWords : Prop :=
  Claims.VectorFloatWords ∧ Claims.VectorConversions ∧ Claims.BlockScaleWords

/-- VEXT and VRED complete; the reduction tree sums what is present. -/
def Obligations.VectorReductions : Prop :=
  Claims.ReductionWords ∧ Claims.ReductionSums

/-- Bytes stored read back, others are as before, and writes keep the memories' form. -/
def Obligations.MemoryReadAfterWrite : Prop :=
  Claims.MemoryReadAfterWrite ∧ Claims.MemoryFormKept

/-- Every step keeps the canonical form of every memory. -/
def Obligations.StepKeepsMemories : Prop :=
  Claims.StepKeepsMemories

/-- An access in no window traps ADDR_UNMAPPED, one that leaves its window WINDOW_STRADDLE. -/
def Obligations.UnmappedAddresses : Prop :=
  Claims.WindowFaults

/-- The local window lies in the launch's region; misaligned accesses trap MISALIGN. -/
def Obligations.LocalWindowAndAlignment : Prop :=
  Claims.LocalWindow ∧ Claims.AlignmentFaults

/-- LD and LDV complete, and their values land, or raise DATA_POISON. -/
def Obligations.LoadWords : Prop :=
  Claims.LoadWords ∧ Claims.LoadReturns

/-- ST, STV, VGATH and VSCAT complete; a store changes no other byte or register. -/
def Obligations.StoreWords : Prop :=
  Claims.StoreWords ∧ Claims.StoreFrame ∧ Claims.GatherScatterWords

/-- The atomics complete with the old value and the new one in memory. -/
def Obligations.AtomicWords : Prop :=
  Claims.AtomicWords ∧ Claims.AtomicResults

/-- PREF, FENCE, CFLUSH and FLAG complete. -/
def Obligations.FenceFlushFlagWords : Prop :=
  Claims.FenceFlushPrefetchWords ∧ Claims.FlagWord

/-- WAITF and WAITF.T end at once or wait, and waits end at their limit. -/
def Obligations.WaitWords : Prop :=
  Claims.WaitWords ∧ Claims.WaitEvents

/-- CPY and CPY.SCALE queue a command that its engine carries out. -/
def Obligations.CopyWords : Prop :=
  Claims.CopyWords ∧ Claims.CopyEvents

/-- The ring words complete, and an index runs freely modulo 2^32. -/
def Obligations.RingWords : Prop :=
  Claims.RingWords ∧ Claims.RingIndexWraps

/-- SPAWN, SPAWN.L, DEP and SUSP complete, or trap as the record's address does. -/
def Obligations.SpawnAndSuspendWords : Prop :=
  Claims.SpawnWords ∧ Claims.RecordFaults ∧ Claims.SuspendWords ∧ Claims.SuspendedGroups

/-- How dependence counters rise, fall, saturate and ready their records. -/
def Obligations.DependenceCounters : Prop :=
  Claims.DependenceCounters

/-- The BAR and GETC words complete; when a barrier's phase completes. -/
def Obligations.BarrierAndConstantWords : Prop :=
  Claims.BarrierWords ∧ Claims.BarrierPhases ∧ Claims.GetConstantWords

/-- The remote words complete: each that passes its checks joins its queue; the others trap. -/
def Obligations.RemoteWords : Prop :=
  Claims.RemoteWords

/-- The mailbox words and RACK complete; software entries keep their order. -/
def Obligations.MailboxWords : Prop :=
  Claims.MailboxWords ∧ Claims.MailboxOrder

/-- QPOST completes on the August core and arms an entry, which fires when ready. -/
def Obligations.WorkEntries : Prop :=
  Claims.WorkEntries

/-- Words go out; packets are taken as their operation, once and in their pair's order; a put is applied and acknowledged. -/
def Obligations.FabricPackets : Prop :=
  Claims.EgressAccepts ∧ Claims.PacketEvents ∧ Claims.PacketOrder ∧ Claims.WordsApplied

/-- The words that set engines up and move engine registers complete. -/
def Obligations.EngineSetWords : Prop :=
  Claims.EngineSetWords ∧ Claims.EngineMoveWords

/-- The digit products complete, and are the digits of the product. -/
def Obligations.DigitProducts : Prop :=
  Claims.DigitWords ∧ Claims.DigitProducts ∧ Claims.DigitsMultiply ∧ Claims.RoutineWordsStep

/-- The OUTER and EXTR words complete. -/
def Obligations.OuterAndExtractWords : Prop :=
  Claims.OuterWords ∧ Claims.ExtractWords

/-- MLDR, MCALL and the sequencing words complete; a routine's loop runs N times. -/
def Obligations.RoutineWords : Prop :=
  Claims.RoutineWords ∧ Claims.RoutineStoreLoads ∧ Claims.SequencingWords ∧ Claims.RoutineLoopRuns ∧ Claims.SequencerEvents

/-- CSR words read and write the registers that their level reaches. -/
def Obligations.CsrWords : Prop :=
  Claims.CsrWords ∧ Claims.CsrReads ∧ Claims.CsrWrites

/-- The system words complete at their levels and trap PRIV at level T; walks end. -/
def Obligations.SystemWords : Prop :=
  Claims.SystemWords ∧ Claims.DroppedTranslations ∧ Claims.ContextWords ∧ Claims.PageWalks

/-- The words of approximable regions complete; regions record, train and substitute. -/
def Obligations.RegionWords : Prop :=
  Claims.RegionBegins ∧ Claims.RegionWords ∧ Claims.RecordedPairs ∧ Claims.BatchUpdates

/-- Launch intake checks, refuses or makes a launch; a finished task leaves its slot; a launch completes. -/
def Obligations.Launches : Prop :=
  Claims.LaunchIntake ∧ Claims.LaunchChecks ∧ Claims.FinishedTask ∧ Claims.LaunchCompletes

/-- The order of ready work, dispatch decisions, and the context of a first dispatch. -/
def Obligations.Dispatch : Prop :=
  Claims.DispatchDecisions ∧ Claims.WorkOrder ∧ Claims.FirstContext

/-- Refill, ageing, PREEMPT, RESUME, LAUNCHKILL and the end of a pre-emption. -/
def Obligations.MarchCommands : Prop :=
  Claims.ReadyRecords ∧ Claims.MarchCommands ∧ Claims.PreemptionEnds

/-- Spring fills and Fall drains the slots of a bound stream. -/
def Obligations.SpringAndFall : Prop :=
  Claims.SpringFills ∧ Claims.FallDrains

/-- Links receive flits, recover and rekey; pod time. -/
def Obligations.Links : Prop :=
  Claims.FlitsReceived ∧ Claims.LinkRecovery ∧ Claims.Rekeying ∧ Claims.TimeSync

/-- The control plane's semaphore, ports and fault queue. -/
def Obligations.ControlPlane : Prop :=
  Claims.Semaphore ∧ Claims.PortDown ∧ Claims.ControlPlane ∧ Claims.FaultQueue

/-- Request packets, completion records and ATS invalidations. -/
def Obligations.QueueInterfaces : Prop :=
  Claims.RequestPackets ∧ Claims.PacketEffects ∧ Claims.CompletionRecords ∧ Claims.AtsInvalidations

/-- Hosts reach the flag windows and the extents that name them. -/
def Obligations.HostExtents : Prop :=
  Claims.FlagWindowAccess ∧ Claims.ExtentAccess ∧ Claims.DirectoryBlocks ∧ Claims.ExtentEvents

/-- Firmware answers requests, makes partitions and guards frozen configuration. -/
def Obligations.FirmwareRequests : Prop :=
  Claims.FirmwareRequests ∧ Claims.NewPartition ∧ Claims.FrozenConfiguration

/-- TDISP states; attestation answers, whose order is the model's (log 5). -/
def Obligations.InterfaceStates : Prop :=
  Claims.InterfaceStates ∧ Claims.AttestationMessages

/-- The clock governor and the containment of errors. -/
def Obligations.ClockAndErrors : Prop :=
  Claims.ClockGovernor ∧ Claims.ErrorContainment

/-- What reset keeps, and how the boot sequence ends. -/
def Obligations.ResetAndBoot : Prop :=
  Claims.ResetAndBoot
end

