-- ==== Sys2Proof/Laws/Sparse.lean ====
section
/-! SUPPORT. Laws of sparse maps and of memories held as sparse maps of bytes: what a key reads after each operation, and that
every operation keeps the canonical form. -/

namespace Sys2Proof
namespace Machine

variable {β γ : Type}

/-! ### What a key reads -/

theorem Sparse.get_eq_find (d : β) (m : SMap β) (a : Nat) : Sparse.get d m a = (Sparse.find m a).getD d := by
  induction m with
  | nil => rfl
  | cons c r ih =>
    obtain ⟨k, v⟩ := c
    simp only [Sparse.get, Sparse.find]
    split <;> simp [ih]

theorem Sparse.find_del (m : SMap β) (a b : Nat) : Sparse.find (Sparse.del m a) b = if b = a then none else Sparse.find m b := by
  induction m with
  | nil => simp [Sparse.del, Sparse.find]
  | cons c r ih =>
    obtain ⟨k, v⟩ := c
    simp only [Sparse.del, Sparse.find]
    split
    · rw [ih]; split <;> [rfl; (split <;> [omega; rfl])]
    · simp only [Sparse.find, ih]; split <;> [(split <;> [omega; rfl]); rfl]

theorem Sparse.find_put (m : SMap β) (a b : Nat) (x : β) :
    Sparse.find (Sparse.put m a x) b = if b = a then some x else Sparse.find m b := by
  induction m with
  | nil => simp only [Sparse.put, Sparse.find]
  | cons c r ih =>
    obtain ⟨k, v⟩ := c
    simp only [Sparse.put]
    split
    · subst_vars; simp only [Sparse.find, Sparse.find_del]; split <;> rfl
    · split
      · simp only [Sparse.find, Sparse.find_del]; split <;> [rfl; (split <;> rfl)]
      · simp only [Sparse.find, ih]; split <;> [(split <;> [omega; rfl]); rfl]

theorem Sparse.get_del (d : β) (m : SMap β) (a b : Nat) :
    Sparse.get d (Sparse.del m a) b = if b = a then d else Sparse.get d m b := by
  simp only [Sparse.get_eq_find, Sparse.find_del]; split <;> rfl

theorem Sparse.get_put (d : β) (m : SMap β) (a b : Nat) (x : β) :
    Sparse.get d (Sparse.put m a x) b = if b = a then x else Sparse.get d m b := by
  simp only [Sparse.get_eq_find, Sparse.find_put]; split <;> rfl

theorem Sparse.get_set [DecidableEq β] (d : β) (m : SMap β) (a b : Nat) (x : β) :
    Sparse.get d (Sparse.set d m a x) b = if b = a then x else Sparse.get d m b := by
  simp only [Sparse.set]; split
  · subst_vars; exact Sparse.get_del x m a b
  · exact Sparse.get_put d m a b x

@[simp] theorem Sparse.get_set_self [DecidableEq β] (d : β) (m : SMap β) (a : Nat) (x : β) :
    Sparse.get d (Sparse.set d m a x) a = x := by simp [Sparse.get_set]

@[simp] theorem Sparse.get_put_self (d : β) (m : SMap β) (a : Nat) (x : β) : Sparse.get d (Sparse.put m a x) a = x := by
  simp [Sparse.get_put]

@[simp] theorem Sparse.find_put_self (m : SMap β) (a : Nat) (x : β) : Sparse.find (Sparse.put m a x) a = some x := by
  simp [Sparse.find_put]

theorem Sparse.get_set_ne [DecidableEq β] (d : β) (m : SMap β) {a b : Nat} (x : β) (h : b ≠ a) :
    Sparse.get d (Sparse.set d m a x) b = Sparse.get d m b := by simp [Sparse.get_set, h]

theorem Sparse.find_clear (m : SMap β) (a n b : Nat) :
    Sparse.find (Sparse.clear m a n) b = if a ≤ b ∧ b < a + n then none else Sparse.find m b := by
  induction m with
  | nil => simp [Sparse.clear, Sparse.find]
  | cons c r ih =>
    obtain ⟨k, v⟩ := c
    simp only [Sparse.clear, List.filter] at ih ⊢
    split <;> rename_i h
    · simp only [Sparse.find, ih]
      simp only [Bool.or_eq_true, decide_eq_true_eq] at h
      split <;> [(split <;> [omega; rfl]); rfl]
    · rw [ih]
      simp only [Bool.or_eq_false_iff, decide_eq_false_iff_not] at h
      simp only [Sparse.find]
      split <;> [rfl; (split <;> [omega; rfl])]

theorem Sparse.get_clear (d : β) (m : SMap β) (a n b : Nat) :
    Sparse.get d (Sparse.clear m a n) b = if a ≤ b ∧ b < a + n then d else Sparse.get d m b := by
  simp only [Sparse.get_eq_find, Sparse.find_clear]; split <;> rfl

theorem Sparse.find_map (f : β → γ) (m : SMap β) (b : Nat) :
    Sparse.find (m.map fun x => (x.1, f x.2)) b = (Sparse.find m b).map f := by
  induction m with
  | nil => rfl
  | cons c r ih => simp only [List.map, Sparse.find]; split <;> simp [ih]

/-! ### The canonical form -/

theorem Sparse.wfFrom_mono [DecidableEq β] {d : β} {lo lo' : Nat} {m : SMap β} (h : Sparse.wfFrom d lo m = true) (hl : lo' ≤ lo) :
    Sparse.wfFrom d lo' m = true := by
  cases m with
  | nil => rfl
  | cons c r => simp_all [Sparse.wfFrom]; omega

theorem Sparse.wfFrom_filter [DecidableEq β] {d : β} (p : Nat × β → Bool) {lo : Nat} {m : SMap β} (h : Sparse.wfFrom d lo m = true) :
    Sparse.wfFrom d lo (m.filter p) = true := by
  induction m generalizing lo with
  | nil => rfl
  | cons c r ih =>
    obtain ⟨k, v⟩ := c
    simp only [Sparse.wfFrom, Bool.and_eq_true, decide_eq_true_eq] at h
    have := ih h.2
    simp only [List.filter]
    split
    · simp_all [Sparse.wfFrom]
    · exact Sparse.wfFrom_mono this (by omega)

theorem Sparse.wfFrom_del [DecidableEq β] {d : β} {lo : Nat} {m : SMap β} (a : Nat) (h : Sparse.wfFrom d lo m = true) :
    Sparse.wfFrom d lo (Sparse.del m a) = true := by
  induction m generalizing lo with
  | nil => rfl
  | cons c r ih =>
    obtain ⟨k, v⟩ := c
    simp only [Sparse.wfFrom, Bool.and_eq_true, decide_eq_true_eq] at h
    have := ih h.2
    simp only [Sparse.del]
    split
    · exact Sparse.wfFrom_mono this (by omega)
    · simp_all [Sparse.wfFrom]

theorem Sparse.wfFrom_put [DecidableEq β] {d : β} {lo : Nat} {m : SMap β} {a : Nat} {x : β} (h : Sparse.wfFrom d lo m = true)
    (hx : x ≠ d) (ha : lo ≤ a) : Sparse.wfFrom d lo (Sparse.put m a x) = true := by
  induction m generalizing lo with
  | nil => simp [Sparse.put, Sparse.wfFrom, hx, ha]
  | cons c r ih =>
    obtain ⟨k, v⟩ := c
    simp only [Sparse.wfFrom, Bool.and_eq_true, decide_eq_true_eq] at h
    simp only [Sparse.put]
    split
    · simp only [Sparse.wfFrom, Bool.and_eq_true, decide_eq_true_eq]
      exact ⟨⟨h.1.1, hx⟩, Sparse.wfFrom_del a h.2⟩
    · split
      · simp only [Sparse.wfFrom, Bool.and_eq_true, decide_eq_true_eq]
        exact ⟨⟨ha, hx⟩, ⟨by omega, h.1.2⟩, Sparse.wfFrom_del a h.2⟩
      · simp only [Sparse.wfFrom, Bool.and_eq_true, decide_eq_true_eq]
        exact ⟨h.1, ih h.2 (by omega)⟩

theorem Sparse.wf_set [DecidableEq β] {d : β} {m : SMap β} (a : Nat) (x : β) (h : Sparse.wf d m = true) :
    Sparse.wf d (Sparse.set d m a x) = true := by
  simp only [Sparse.set]; split
  · exact Sparse.wfFrom_del a h
  · exact Sparse.wfFrom_put h ‹_› (by omega)

theorem Sparse.wf_clear [DecidableEq β] {d : β} {m : SMap β} (a n : Nat) (h : Sparse.wf d m = true) :
    Sparse.wf d (Sparse.clear m a n) = true := Sparse.wfFrom_filter _ h

/-! ### Entries -/

theorem Sparse.mem_del {m : SMap β} {a : Nat} {c : Nat × β} (h : c ∈ Sparse.del m a) : c ∈ m := by
  induction m with
  | nil => exact h
  | cons x r ih =>
    simp only [Sparse.del] at h
    split at h
    · exact List.mem_cons_of_mem _ (ih h)
    · rcases List.mem_cons.1 h with h | h
      · exact h ▸ List.mem_cons_self
      · exact List.mem_cons_of_mem _ (ih h)

theorem Sparse.mem_put {m : SMap β} {a : Nat} {x : β} {c : Nat × β} (h : c ∈ Sparse.put m a x) : c = (a, x) ∨ c ∈ m := by
  induction m with
  | nil => simpa [Sparse.put] using h
  | cons y r ih =>
    obtain ⟨k, v⟩ := y
    simp only [Sparse.put] at h
    split at h
    · subst_vars
      rcases List.mem_cons.1 h with h | h
      · exact .inl h
      · exact .inr (List.mem_cons_of_mem _ (Sparse.mem_del h))
    · split at h
      · rcases List.mem_cons.1 h with h | h
        · exact .inl h
        · rcases List.mem_cons.1 h with h | h
          · exact .inr (h ▸ List.mem_cons_self)
          · exact .inr (List.mem_cons_of_mem _ (Sparse.mem_del h))
      · rcases List.mem_cons.1 h with h | h
        · exact .inr (h ▸ List.mem_cons_self)
        · exact (ih h).imp_right (List.mem_cons_of_mem _)

theorem Sparse.mem_set [DecidableEq β] {d : β} {m : SMap β} {a : Nat} {x : β} {c : Nat × β} (h : c ∈ Sparse.set d m a x) :
    c = (a, x) ∨ c ∈ m := by
  simp only [Sparse.set] at h; split at h
  · exact .inr (Sparse.mem_del h)
  · exact Sparse.mem_put h

theorem Sparse.mem_of_find {m : SMap β} {a : Nat} {x : β} (h : Sparse.find m a = some x) : (a, x) ∈ m := by
  induction m with
  | nil => cases h
  | cons y r ih =>
    obtain ⟨k, v⟩ := y
    simp only [Sparse.find] at h
    split at h
    · cases h; subst_vars; exact List.mem_cons_self
    · exact List.mem_cons_of_mem _ (ih h)

/-- Every entry of a map has a property, and the value that a key reads has it too where the default has it. -/
theorem Sparse.get_of_all {d : β} {p : β → Bool} {m : SMap β} (h : (m.all fun c => p c.2) = true) (hd : p d = true) (a : Nat) :
    p (Sparse.get d m a) = true := by
  rw [Sparse.get_eq_find]
  cases hf : Sparse.find m a with
  | none => simpa using hd
  | some x => simpa using List.all_eq_true.1 h _ (Sparse.mem_of_find hf)

theorem Sparse.all_set [DecidableEq β] {d : β} {p : β → Bool} {m : SMap β} (a : Nat) {x : β} (h : (m.all fun c => p c.2) = true)
    (hx : p x = true) : ((Sparse.set d m a x).all fun c => p c.2) = true := by
  rw [List.all_eq_true] at h ⊢
  intro c hc
  rcases Sparse.mem_set hc with rfl | hc
  · exact hx
  · exact h c hc

theorem Sparse.all_put {p : β → Bool} {m : SMap β} (a : Nat) {x : β} (h : (m.all fun c => p c.2) = true)
    (hx : p x = true) : ((Sparse.put m a x).all fun c => p c.2) = true := by
  rw [List.all_eq_true] at h ⊢
  intro c hc
  rcases Sparse.mem_put hc with rfl | hc
  · exact hx
  · exact h c hc

/-! ### Memories -/

theorem Memory.byte_setByte (m : Mem) (a b : Nat) (x : Byte) :
    Memory.byte (Memory.setByte m a x) b = if b = a then x else Memory.byte m b := Sparse.get_set _ m a b x

theorem Memory.byte_write (m : Mem) (a b : Nat) (bs : List Byte) :
    Memory.byte (Memory.write m a bs) b = if a ≤ b ∧ b < a + bs.length then bs.getD (b - a) 0 else Memory.byte m b := by
  induction bs generalizing m a with
  | nil => simp only [Memory.write, List.length_nil]; split <;> [omega; rfl]
  | cons x r ih =>
    simp only [Memory.write, ih, Memory.byte_setByte, List.length_cons]
    by_cases h : b = a
    · subst h; simp
    · by_cases h2 : a + 1 ≤ b ∧ b < a + 1 + r.length
      · have h3 : a ≤ b ∧ b < a + (r.length + 1) := by omega
        obtain ⟨n, rfl⟩ : ∃ n, b = a + 1 + n := ⟨b - a - 1, by omega⟩
        have : a + 1 + n - a = n + 1 := by omega
        simp [h2, h3, this]
      · have h3 : ¬ (a ≤ b ∧ b < a + (r.length + 1)) := by omega
        rw [if_neg h2, if_neg h, if_neg h3]

theorem Memory.read_length (m : Mem) (a n : Nat) : (Memory.read m a n).length = n := by simp [Memory.read]

theorem Memory.read_write_same (m : Mem) (a : Nat) (bs : List Byte) : Memory.read (Memory.write m a bs) a bs.length = bs := by
  apply List.ext_getElem
  · simp [Memory.read]
  · intro i h1 h2
    simp only [Memory.read, List.getElem_map, List.getElem_range, Memory.byte_write]
    rw [if_pos (by omega), Nat.add_sub_cancel_left]
    simp [List.getD_eq_getElem?_getD, h2]

theorem Memory.read_write_disjoint (m : Mem) (a b n : Nat) (bs : List Byte) (h : b + n ≤ a ∨ a + bs.length ≤ b) :
    Memory.read (Memory.write m a bs) b n = Memory.read m b n := by
  apply List.map_congr_left
  intro i hi
  rw [List.mem_range] at hi
  rw [Memory.byte_write, if_neg (by omega)]

theorem Memory.wf_setByte {m : Mem} (a : Nat) (x : Byte) (h : Memory.wf m = true) : Memory.wf (Memory.setByte m a x) = true :=
  Sparse.wf_set a x h

theorem Memory.wf_write {m : Mem} (a : Nat) (bs : List Byte) (h : Memory.wf m = true) : Memory.wf (Memory.write m a bs) = true := by
  induction bs generalizing m a with
  | nil => exact h
  | cons x r ih => exact ih (a + 1) (Memory.wf_setByte a x h)

theorem Memory.wf_clear {m : Mem} (a n : Nat) (h : Memory.wf m = true) : Memory.wf (Sparse.clear m a n) = true := Sparse.wf_clear a n h

/-! ### Bytes and numbers -/

theorem bytesOfNat_length (n x : Nat) : (bytesOfNat n x).length = n := by
  induction n generalizing x with
  | zero => rfl
  | succ n ih => simp [bytesOfNat, ih]

theorem natOfBytes_bytesOfNat (n x : Nat) : natOfBytes (bytesOfNat n x) = x % 256 ^ n := by
  induction n generalizing x with
  | zero => simp [bytesOfNat, natOfBytes, Nat.mod_one]
  | succ n ih => simp [bytesOfNat, natOfBytes, ih, Nat.pow_succ', Nat.mod_mul]

theorem natOfBytes_lt (bs : List Byte) : natOfBytes bs < 256 ^ bs.length := by
  induction bs with
  | nil => simp [natOfBytes]
  | cons b r ih =>
    have := b.isLt
    simp only [natOfBytes, List.length_cons, Nat.pow_succ]
    omega

end Machine
end Sys2Proof
end

