-- ==== Sys2Proof/Laws/State.lean ====
section
/-! SUPPORT. One law per field of the state and update: what an update of a core, block, die, partition or slot leaves, and what
it makes the record read.  Nothing later unfolds a record update. -/

namespace Sys2Proof
namespace Machine

/-! ### setCore -/

@[simp] theorem State.setCore_blocks (s : State) (c : Nat) (x : Core) : (s.setCore c x).blocks = s.blocks := rfl
@[simp] theorem State.setCore_dies (s : State) (c : Nat) (x : Core) : (s.setCore c x).dies = s.dies := rfl
@[simp] theorem State.setCore_hbm (s : State) (c : Nat) (x : Core) : (s.setCore c x).hbm = s.hbm := rfl
@[simp] theorem State.setCore_hbmPoison (s : State) (c : Nat) (x : Core) : (s.setCore c x).hbmPoison = s.hbmPoison := rfl
@[simp] theorem State.setCore_sf (s : State) (c : Nat) (x : Core) : (s.setCore c x).sf = s.sf := rfl
@[simp] theorem State.setCore_parts (s : State) (c : Nat) (x : Core) : (s.setCore c x).parts = s.parts := rfl
@[simp] theorem State.setCore_launches (s : State) (c : Nat) (x : Core) : (s.setCore c x).launches = s.launches := rfl
@[simp] theorem State.setCore_nextHandle (s : State) (c : Nat) (x : Core) : (s.setCore c x).nextHandle = s.nextHandle := rfl
@[simp] theorem State.setCore_intake (s : State) (c : Nat) (x : Core) : (s.setCore c x).intake = s.intake := rfl
@[simp] theorem State.setCore_nextSeq (s : State) (c : Nat) (x : Core) : (s.setCore c x).nextSeq = s.nextSeq := rfl
@[simp] theorem State.setCore_fab (s : State) (c : Nat) (x : Core) : (s.setCore c x).fab = s.fab := rfl
@[simp] theorem State.setCore_host (s : State) (c : Nat) (x : Core) : (s.setCore c x).host = s.host := rfl
@[simp] theorem State.setCore_fw (s : State) (c : Nat) (x : Core) : (s.setCore c x).fw = s.fw := rfl
@[simp] theorem State.setCore_cycle (s : State) (c : Nat) (x : Core) : (s.setCore c x).cycle = s.cycle := rfl
@[simp] theorem State.setCore_agenda (s : State) (c : Nat) (x : Core) : (s.setCore c x).agenda = s.agenda := rfl
@[simp] theorem State.setCore_cur (s : State) (c : Nat) (x : Core) : (s.setCore c x).cur = s.cur := rfl
@[simp] theorem State.setCore_chored (s : State) (c : Nat) (x : Core) : (s.setCore c x).chored = s.chored := rfl
@[simp] theorem State.setCore_inRoutine (s : State) (c : Nat) (x : Core) : (s.setCore c x).inRoutine = s.inRoutine := rfl
@[simp] theorem State.setCore_freeCtr (s : State) (c : Nat) (x : Core) : (s.setCore c x).freeCtr = s.freeCtr := rfl

/-! ### setBlock -/

@[simp] theorem State.setBlock_cores (s : State) (b : Nat) (x : Block) : (s.setBlock b x).cores = s.cores := rfl
@[simp] theorem State.setBlock_dies (s : State) (b : Nat) (x : Block) : (s.setBlock b x).dies = s.dies := rfl
@[simp] theorem State.setBlock_hbm (s : State) (b : Nat) (x : Block) : (s.setBlock b x).hbm = s.hbm := rfl
@[simp] theorem State.setBlock_hbmPoison (s : State) (b : Nat) (x : Block) : (s.setBlock b x).hbmPoison = s.hbmPoison := rfl
@[simp] theorem State.setBlock_sf (s : State) (b : Nat) (x : Block) : (s.setBlock b x).sf = s.sf := rfl
@[simp] theorem State.setBlock_parts (s : State) (b : Nat) (x : Block) : (s.setBlock b x).parts = s.parts := rfl
@[simp] theorem State.setBlock_launches (s : State) (b : Nat) (x : Block) : (s.setBlock b x).launches = s.launches := rfl
@[simp] theorem State.setBlock_nextHandle (s : State) (b : Nat) (x : Block) : (s.setBlock b x).nextHandle = s.nextHandle := rfl
@[simp] theorem State.setBlock_intake (s : State) (b : Nat) (x : Block) : (s.setBlock b x).intake = s.intake := rfl
@[simp] theorem State.setBlock_nextSeq (s : State) (b : Nat) (x : Block) : (s.setBlock b x).nextSeq = s.nextSeq := rfl
@[simp] theorem State.setBlock_fab (s : State) (b : Nat) (x : Block) : (s.setBlock b x).fab = s.fab := rfl
@[simp] theorem State.setBlock_host (s : State) (b : Nat) (x : Block) : (s.setBlock b x).host = s.host := rfl
@[simp] theorem State.setBlock_fw (s : State) (b : Nat) (x : Block) : (s.setBlock b x).fw = s.fw := rfl
@[simp] theorem State.setBlock_cycle (s : State) (b : Nat) (x : Block) : (s.setBlock b x).cycle = s.cycle := rfl
@[simp] theorem State.setBlock_agenda (s : State) (b : Nat) (x : Block) : (s.setBlock b x).agenda = s.agenda := rfl
@[simp] theorem State.setBlock_cur (s : State) (b : Nat) (x : Block) : (s.setBlock b x).cur = s.cur := rfl
@[simp] theorem State.setBlock_chored (s : State) (b : Nat) (x : Block) : (s.setBlock b x).chored = s.chored := rfl
@[simp] theorem State.setBlock_inRoutine (s : State) (b : Nat) (x : Block) : (s.setBlock b x).inRoutine = s.inRoutine := rfl
@[simp] theorem State.setBlock_freeCtr (s : State) (b : Nat) (x : Block) : (s.setBlock b x).freeCtr = s.freeCtr := rfl

/-! ### setDie -/

@[simp] theorem State.setDie_cores (s : State) (d : Nat) (x : Die) : (s.setDie d x).cores = s.cores := rfl
@[simp] theorem State.setDie_blocks (s : State) (d : Nat) (x : Die) : (s.setDie d x).blocks = s.blocks := rfl
@[simp] theorem State.setDie_hbm (s : State) (d : Nat) (x : Die) : (s.setDie d x).hbm = s.hbm := rfl
@[simp] theorem State.setDie_hbmPoison (s : State) (d : Nat) (x : Die) : (s.setDie d x).hbmPoison = s.hbmPoison := rfl
@[simp] theorem State.setDie_sf (s : State) (d : Nat) (x : Die) : (s.setDie d x).sf = s.sf := rfl
@[simp] theorem State.setDie_parts (s : State) (d : Nat) (x : Die) : (s.setDie d x).parts = s.parts := rfl
@[simp] theorem State.setDie_launches (s : State) (d : Nat) (x : Die) : (s.setDie d x).launches = s.launches := rfl
@[simp] theorem State.setDie_nextHandle (s : State) (d : Nat) (x : Die) : (s.setDie d x).nextHandle = s.nextHandle := rfl
@[simp] theorem State.setDie_intake (s : State) (d : Nat) (x : Die) : (s.setDie d x).intake = s.intake := rfl
@[simp] theorem State.setDie_nextSeq (s : State) (d : Nat) (x : Die) : (s.setDie d x).nextSeq = s.nextSeq := rfl
@[simp] theorem State.setDie_fab (s : State) (d : Nat) (x : Die) : (s.setDie d x).fab = s.fab := rfl
@[simp] theorem State.setDie_host (s : State) (d : Nat) (x : Die) : (s.setDie d x).host = s.host := rfl
@[simp] theorem State.setDie_fw (s : State) (d : Nat) (x : Die) : (s.setDie d x).fw = s.fw := rfl
@[simp] theorem State.setDie_cycle (s : State) (d : Nat) (x : Die) : (s.setDie d x).cycle = s.cycle := rfl
@[simp] theorem State.setDie_agenda (s : State) (d : Nat) (x : Die) : (s.setDie d x).agenda = s.agenda := rfl
@[simp] theorem State.setDie_cur (s : State) (d : Nat) (x : Die) : (s.setDie d x).cur = s.cur := rfl
@[simp] theorem State.setDie_chored (s : State) (d : Nat) (x : Die) : (s.setDie d x).chored = s.chored := rfl
@[simp] theorem State.setDie_inRoutine (s : State) (d : Nat) (x : Die) : (s.setDie d x).inRoutine = s.inRoutine := rfl
@[simp] theorem State.setDie_freeCtr (s : State) (d : Nat) (x : Die) : (s.setDie d x).freeCtr = s.freeCtr := rfl

/-! ### setPart -/

@[simp] theorem State.setPart_cores (s : State) (p : Nat) (x : Partition) : (s.setPart p x).cores = s.cores := rfl
@[simp] theorem State.setPart_blocks (s : State) (p : Nat) (x : Partition) : (s.setPart p x).blocks = s.blocks := rfl
@[simp] theorem State.setPart_dies (s : State) (p : Nat) (x : Partition) : (s.setPart p x).dies = s.dies := rfl
@[simp] theorem State.setPart_hbm (s : State) (p : Nat) (x : Partition) : (s.setPart p x).hbm = s.hbm := rfl
@[simp] theorem State.setPart_hbmPoison (s : State) (p : Nat) (x : Partition) : (s.setPart p x).hbmPoison = s.hbmPoison := rfl
@[simp] theorem State.setPart_sf (s : State) (p : Nat) (x : Partition) : (s.setPart p x).sf = s.sf := rfl
@[simp] theorem State.setPart_launches (s : State) (p : Nat) (x : Partition) : (s.setPart p x).launches = s.launches := rfl
@[simp] theorem State.setPart_nextHandle (s : State) (p : Nat) (x : Partition) : (s.setPart p x).nextHandle = s.nextHandle := rfl
@[simp] theorem State.setPart_intake (s : State) (p : Nat) (x : Partition) : (s.setPart p x).intake = s.intake := rfl
@[simp] theorem State.setPart_nextSeq (s : State) (p : Nat) (x : Partition) : (s.setPart p x).nextSeq = s.nextSeq := rfl
@[simp] theorem State.setPart_fab (s : State) (p : Nat) (x : Partition) : (s.setPart p x).fab = s.fab := rfl
@[simp] theorem State.setPart_host (s : State) (p : Nat) (x : Partition) : (s.setPart p x).host = s.host := rfl
@[simp] theorem State.setPart_fw (s : State) (p : Nat) (x : Partition) : (s.setPart p x).fw = s.fw := rfl
@[simp] theorem State.setPart_cycle (s : State) (p : Nat) (x : Partition) : (s.setPart p x).cycle = s.cycle := rfl
@[simp] theorem State.setPart_agenda (s : State) (p : Nat) (x : Partition) : (s.setPart p x).agenda = s.agenda := rfl
@[simp] theorem State.setPart_cur (s : State) (p : Nat) (x : Partition) : (s.setPart p x).cur = s.cur := rfl
@[simp] theorem State.setPart_chored (s : State) (p : Nat) (x : Partition) : (s.setPart p x).chored = s.chored := rfl
@[simp] theorem State.setPart_inRoutine (s : State) (p : Nat) (x : Partition) : (s.setPart p x).inRoutine = s.inRoutine := rfl
@[simp] theorem State.setPart_freeCtr (s : State) (p : Nat) (x : Partition) : (s.setPart p x).freeCtr = s.freeCtr := rfl

/-! ### setSlot -/

@[simp] theorem State.setSlot_blocks (s : State) (c k : Nat) (x : Slot) : (s.setSlot c k x).blocks = s.blocks := rfl
@[simp] theorem State.setSlot_dies (s : State) (c k : Nat) (x : Slot) : (s.setSlot c k x).dies = s.dies := rfl
@[simp] theorem State.setSlot_hbm (s : State) (c k : Nat) (x : Slot) : (s.setSlot c k x).hbm = s.hbm := rfl
@[simp] theorem State.setSlot_hbmPoison (s : State) (c k : Nat) (x : Slot) : (s.setSlot c k x).hbmPoison = s.hbmPoison := rfl
@[simp] theorem State.setSlot_sf (s : State) (c k : Nat) (x : Slot) : (s.setSlot c k x).sf = s.sf := rfl
@[simp] theorem State.setSlot_parts (s : State) (c k : Nat) (x : Slot) : (s.setSlot c k x).parts = s.parts := rfl
@[simp] theorem State.setSlot_launches (s : State) (c k : Nat) (x : Slot) : (s.setSlot c k x).launches = s.launches := rfl
@[simp] theorem State.setSlot_nextHandle (s : State) (c k : Nat) (x : Slot) : (s.setSlot c k x).nextHandle = s.nextHandle := rfl
@[simp] theorem State.setSlot_intake (s : State) (c k : Nat) (x : Slot) : (s.setSlot c k x).intake = s.intake := rfl
@[simp] theorem State.setSlot_nextSeq (s : State) (c k : Nat) (x : Slot) : (s.setSlot c k x).nextSeq = s.nextSeq := rfl
@[simp] theorem State.setSlot_fab (s : State) (c k : Nat) (x : Slot) : (s.setSlot c k x).fab = s.fab := rfl
@[simp] theorem State.setSlot_host (s : State) (c k : Nat) (x : Slot) : (s.setSlot c k x).host = s.host := rfl
@[simp] theorem State.setSlot_fw (s : State) (c k : Nat) (x : Slot) : (s.setSlot c k x).fw = s.fw := rfl
@[simp] theorem State.setSlot_cycle (s : State) (c k : Nat) (x : Slot) : (s.setSlot c k x).cycle = s.cycle := rfl
@[simp] theorem State.setSlot_agenda (s : State) (c k : Nat) (x : Slot) : (s.setSlot c k x).agenda = s.agenda := rfl
@[simp] theorem State.setSlot_cur (s : State) (c k : Nat) (x : Slot) : (s.setSlot c k x).cur = s.cur := rfl
@[simp] theorem State.setSlot_chored (s : State) (c k : Nat) (x : Slot) : (s.setSlot c k x).chored = s.chored := rfl
@[simp] theorem State.setSlot_inRoutine (s : State) (c k : Nat) (x : Slot) : (s.setSlot c k x).inRoutine = s.inRoutine := rfl
@[simp] theorem State.setSlot_freeCtr (s : State) (c k : Nat) (x : Slot) : (s.setSlot c k x).freeCtr = s.freeCtr := rfl

/-! ### setMe -/

@[simp] theorem State.setMe_blocks (s : State) (x : Slot) : (s.setMe x).blocks = s.blocks := rfl
@[simp] theorem State.setMe_dies (s : State) (x : Slot) : (s.setMe x).dies = s.dies := rfl
@[simp] theorem State.setMe_hbm (s : State) (x : Slot) : (s.setMe x).hbm = s.hbm := rfl
@[simp] theorem State.setMe_hbmPoison (s : State) (x : Slot) : (s.setMe x).hbmPoison = s.hbmPoison := rfl
@[simp] theorem State.setMe_sf (s : State) (x : Slot) : (s.setMe x).sf = s.sf := rfl
@[simp] theorem State.setMe_parts (s : State) (x : Slot) : (s.setMe x).parts = s.parts := rfl
@[simp] theorem State.setMe_launches (s : State) (x : Slot) : (s.setMe x).launches = s.launches := rfl
@[simp] theorem State.setMe_nextHandle (s : State) (x : Slot) : (s.setMe x).nextHandle = s.nextHandle := rfl
@[simp] theorem State.setMe_intake (s : State) (x : Slot) : (s.setMe x).intake = s.intake := rfl
@[simp] theorem State.setMe_nextSeq (s : State) (x : Slot) : (s.setMe x).nextSeq = s.nextSeq := rfl
@[simp] theorem State.setMe_fab (s : State) (x : Slot) : (s.setMe x).fab = s.fab := rfl
@[simp] theorem State.setMe_host (s : State) (x : Slot) : (s.setMe x).host = s.host := rfl
@[simp] theorem State.setMe_fw (s : State) (x : Slot) : (s.setMe x).fw = s.fw := rfl
@[simp] theorem State.setMe_cycle (s : State) (x : Slot) : (s.setMe x).cycle = s.cycle := rfl
@[simp] theorem State.setMe_agenda (s : State) (x : Slot) : (s.setMe x).agenda = s.agenda := rfl
@[simp] theorem State.setMe_cur (s : State) (x : Slot) : (s.setMe x).cur = s.cur := rfl
@[simp] theorem State.setMe_chored (s : State) (x : Slot) : (s.setMe x).chored = s.chored := rfl
@[simp] theorem State.setMe_inRoutine (s : State) (x : Slot) : (s.setMe x).inRoutine = s.inRoutine := rfl
@[simp] theorem State.setMe_freeCtr (s : State) (x : Slot) : (s.setMe x).freeCtr = s.freeCtr := rfl

/-! ### setMyCore -/

@[simp] theorem State.setMyCore_blocks (s : State) (x : Core) : (s.setMyCore x).blocks = s.blocks := rfl
@[simp] theorem State.setMyCore_dies (s : State) (x : Core) : (s.setMyCore x).dies = s.dies := rfl
@[simp] theorem State.setMyCore_hbm (s : State) (x : Core) : (s.setMyCore x).hbm = s.hbm := rfl
@[simp] theorem State.setMyCore_hbmPoison (s : State) (x : Core) : (s.setMyCore x).hbmPoison = s.hbmPoison := rfl
@[simp] theorem State.setMyCore_sf (s : State) (x : Core) : (s.setMyCore x).sf = s.sf := rfl
@[simp] theorem State.setMyCore_parts (s : State) (x : Core) : (s.setMyCore x).parts = s.parts := rfl
@[simp] theorem State.setMyCore_launches (s : State) (x : Core) : (s.setMyCore x).launches = s.launches := rfl
@[simp] theorem State.setMyCore_nextHandle (s : State) (x : Core) : (s.setMyCore x).nextHandle = s.nextHandle := rfl
@[simp] theorem State.setMyCore_intake (s : State) (x : Core) : (s.setMyCore x).intake = s.intake := rfl
@[simp] theorem State.setMyCore_nextSeq (s : State) (x : Core) : (s.setMyCore x).nextSeq = s.nextSeq := rfl
@[simp] theorem State.setMyCore_fab (s : State) (x : Core) : (s.setMyCore x).fab = s.fab := rfl
@[simp] theorem State.setMyCore_host (s : State) (x : Core) : (s.setMyCore x).host = s.host := rfl
@[simp] theorem State.setMyCore_fw (s : State) (x : Core) : (s.setMyCore x).fw = s.fw := rfl
@[simp] theorem State.setMyCore_cycle (s : State) (x : Core) : (s.setMyCore x).cycle = s.cycle := rfl
@[simp] theorem State.setMyCore_agenda (s : State) (x : Core) : (s.setMyCore x).agenda = s.agenda := rfl
@[simp] theorem State.setMyCore_cur (s : State) (x : Core) : (s.setMyCore x).cur = s.cur := rfl
@[simp] theorem State.setMyCore_chored (s : State) (x : Core) : (s.setMyCore x).chored = s.chored := rfl
@[simp] theorem State.setMyCore_inRoutine (s : State) (x : Core) : (s.setMyCore x).inRoutine = s.inRoutine := rfl
@[simp] theorem State.setMyCore_freeCtr (s : State) (x : Core) : (s.setMyCore x).freeCtr = s.freeCtr := rfl

/-! ### tick -/

@[simp] theorem State.tick_cores (s : State) : s.tick.cores = s.cores := rfl
@[simp] theorem State.tick_blocks (s : State) : s.tick.blocks = s.blocks := rfl
@[simp] theorem State.tick_dies (s : State) : s.tick.dies = s.dies := rfl
@[simp] theorem State.tick_hbm (s : State) : s.tick.hbm = s.hbm := rfl
@[simp] theorem State.tick_hbmPoison (s : State) : s.tick.hbmPoison = s.hbmPoison := rfl
@[simp] theorem State.tick_sf (s : State) : s.tick.sf = s.sf := rfl
@[simp] theorem State.tick_parts (s : State) : s.tick.parts = s.parts := rfl
@[simp] theorem State.tick_launches (s : State) : s.tick.launches = s.launches := rfl
@[simp] theorem State.tick_nextHandle (s : State) : s.tick.nextHandle = s.nextHandle := rfl
@[simp] theorem State.tick_intake (s : State) : s.tick.intake = s.intake := rfl
@[simp] theorem State.tick_nextSeq (s : State) : s.tick.nextSeq = s.nextSeq := rfl
@[simp] theorem State.tick_fab (s : State) : s.tick.fab = s.fab := rfl
@[simp] theorem State.tick_host (s : State) : s.tick.host = s.host := rfl
@[simp] theorem State.tick_fw (s : State) : s.tick.fw = s.fw := rfl
@[simp] theorem State.tick_agenda (s : State) : s.tick.agenda = s.agenda := rfl
@[simp] theorem State.tick_cur (s : State) : s.tick.cur = s.cur := rfl
@[simp] theorem State.tick_chored (s : State) : s.tick.chored = s.chored := rfl
@[simp] theorem State.tick_inRoutine (s : State) : s.tick.inRoutine = s.inRoutine := rfl
@[simp] theorem State.tick_freeCtr (s : State) : s.tick.freeCtr = s.freeCtr := rfl
@[simp] theorem State.tick_cycle (s : State) : s.tick.cycle = s.cycle + 1 := rfl

/-! ### The group in progress -/

@[simp] theorem Slot.setGroup_st (l : Slot) (f : Group → Group) : (l.setGroup f).st = l.st := rfl
@[simp] theorem Slot.setGroup_id (l : Slot) (f : Group → Group) : (l.setGroup f).id = l.id := rfl
@[simp] theorem Slot.setGroup_level (l : Slot) (f : Group → Group) : (l.setGroup f).level = l.level := rfl
@[simp] theorem Slot.setGroup_tb (l : Slot) (f : Group → Group) : (l.setGroup f).tb = l.tb := rfl
@[simp] theorem Slot.setGroup_sb (l : Slot) (f : Group → Group) : (l.setGroup f).sb = l.sb := rfl
@[simp] theorem Slot.setGroup_files (l : Slot) (f : Group → Group) : (l.setGroup f).files = l.files := rfl
@[simp] theorem Slot.setGroup_vIssued (l : Slot) (f : Group → Group) : (l.setGroup f).vIssued = l.vIssued := rfl
@[simp] theorem Slot.setGroup_pc (l : Slot) (f : Group → Group) : (l.setGroup f).pc = l.pc := rfl
@[simp] theorem Slot.setGroup_codeBase (l : Slot) (f : Group → Group) : (l.setGroup f).codeBase = l.codeBase := rfl
@[simp] theorem Slot.setGroup_hBase (l : Slot) (f : Group → Group) : (l.setGroup f).hBase = l.hBase := rfl
@[simp] theorem Slot.setGroup_hLen (l : Slot) (f : Group → Group) : (l.setGroup f).hLen = l.hLen := rfl
@[simp] theorem Slot.setGroup_csr (l : Slot) (f : Group → Group) : (l.setGroup f).csr = l.csr := rfl
@[simp] theorem Slot.setGroup_rpl (l : Slot) (f : Group → Group) : (l.setGroup f).rpl = l.rpl := rfl
@[simp] theorem Slot.setGroup_rptResume (l : Slot) (f : Group → Group) : (l.setGroup f).rptResume = l.rptResume := rfl
@[simp] theorem Slot.setGroup_wait (l : Slot) (f : Group → Group) : (l.setGroup f).wait = l.wait := rfl
@[simp] theorem Slot.setGroup_wfe (l : Slot) (f : Group → Group) : (l.setGroup f).wfe = l.wfe := rfl
@[simp] theorem Slot.setGroup_refused (l : Slot) (f : Group → Group) : (l.setGroup f).refused = l.refused := rfl
@[simp] theorem Slot.setGroup_first (l : Slot) (f : Group → Group) : (l.setGroup f).first = l.first := rfl
@[simp] theorem Slot.setGroup_walk (l : Slot) (f : Group → Group) : (l.setGroup f).walk = l.walk := rfl
@[simp] theorem Slot.setGroup_mp (l : Slot) (f : Group → Group) : (l.setGroup f).mp = l.mp := rfl
@[simp] theorem Slot.setGroup_wmcfg (l : Slot) (f : Group → Group) : (l.setGroup f).wmcfg = l.wmcfg := rfl
@[simp] theorem Slot.setGroup_apx (l : Slot) (f : Group → Group) : (l.setGroup f).apx = l.apx := rfl
@[simp] theorem Slot.setGroup_bars (l : Slot) (f : Group → Group) : (l.setGroup f).bars = l.bars := rfl
@[simp] theorem Slot.setGroup_ports (l : Slot) (f : Group → Group) : (l.setGroup f).ports = l.ports := rfl
@[simp] theorem Slot.setGroup_pre (l : Slot) (f : Group → Group) : (l.setGroup f).pre = l.pre := rfl
@[simp] theorem Slot.setGroup_parks (l : Slot) (f : Group → Group) : (l.setGroup f).parks = l.parks := rfl
@[simp] theorem Slot.setGroup_ends (l : Slot) (f : Group → Group) : (l.setGroup f).ends = l.ends := rfl
@[simp] theorem Slot.setGroup_notBefore (l : Slot) (f : Group → Group) : (l.setGroup f).notBefore = l.notBefore := rfl
@[simp] theorem Slot.setGroup_truth (l : Slot) (f : Group → Group) : (l.setGroup f).truth = l.truth := rfl
@[simp] theorem Slot.setGroup_fetch (l : Slot) (f : Group → Group) : (l.setGroup f).fetch = l.fetch := rfl
@[simp] theorem Slot.setGroup_grp (l : Slot) (f : Group → Group) : (l.setGroup f).grp = some (f l.group) := rfl
@[simp] theorem Slot.setGroup_group (l : Slot) (f : Group → Group) : (l.setGroup f).group = f l.group := rfl

/-! ### What a record reads after an update -/

theorem State.core_setCore (s : State) (c d : Nat) (x : Core) : (s.setCore c x).core d = if d = c then x else s.core d :=
  Sparse.get_set _ _ _ _ _
theorem State.block_setBlock (s : State) (c d : Nat) (x : Block) : (s.setBlock c x).block d = if d = c then x else s.block d :=
  Sparse.get_set _ _ _ _ _
theorem State.die_setDie (s : State) (c d : Nat) (x : Die) : (s.setDie c x).die d = if d = c then x else s.die d :=
  Sparse.get_set _ _ _ _ _
theorem State.part_setPart (s : State) (c d : Nat) (x : Partition) : (s.setPart c x).part d = if d = c then x else s.part d :=
  Sparse.get_put _ _ _ _ _

@[simp] theorem State.core_setCore_self (s : State) (c : Nat) (x : Core) : (s.setCore c x).core c = x := by simp [core_setCore]
@[simp] theorem State.block_setBlock_self (s : State) (c : Nat) (x : Block) : (s.setBlock c x).block c = x := by simp [block_setBlock]
@[simp] theorem State.die_setDie_self (s : State) (c : Nat) (x : Die) : (s.setDie c x).die c = x := by simp [die_setDie]
@[simp] theorem State.part_setPart_self (s : State) (c : Nat) (x : Partition) : (s.setPart c x).part c = x := by simp [part_setPart]
@[simp] theorem State.block_setCore (s : State) (c : Nat) (x : Core) (i : Nat) : (s.setCore c x).block i = s.block i := rfl
@[simp] theorem State.die_setCore (s : State) (c : Nat) (x : Core) (i : Nat) : (s.setCore c x).die i = s.die i := rfl
@[simp] theorem State.part_setCore (s : State) (c : Nat) (x : Core) (i : Nat) : (s.setCore c x).part i = s.part i := rfl
@[simp] theorem State.core_setBlock (s : State) (b : Nat) (x : Block) (i : Nat) : (s.setBlock b x).core i = s.core i := rfl
@[simp] theorem State.die_setBlock (s : State) (b : Nat) (x : Block) (i : Nat) : (s.setBlock b x).die i = s.die i := rfl
@[simp] theorem State.part_setBlock (s : State) (b : Nat) (x : Block) (i : Nat) : (s.setBlock b x).part i = s.part i := rfl
@[simp] theorem State.slot_setBlock (s : State) (b : Nat) (x : Block) (i j : Nat) : (s.setBlock b x).slot i j = s.slot i j := rfl
@[simp] theorem State.me_setBlock (s : State) (b : Nat) (x : Block) : (s.setBlock b x).me = s.me := rfl
@[simp] theorem State.myCore_setBlock (s : State) (b : Nat) (x : Block) : (s.setBlock b x).myCore = s.myCore := rfl
@[simp] theorem State.core_setDie (s : State) (d : Nat) (x : Die) (i : Nat) : (s.setDie d x).core i = s.core i := rfl
@[simp] theorem State.block_setDie (s : State) (d : Nat) (x : Die) (i : Nat) : (s.setDie d x).block i = s.block i := rfl
@[simp] theorem State.part_setDie (s : State) (d : Nat) (x : Die) (i : Nat) : (s.setDie d x).part i = s.part i := rfl
@[simp] theorem State.slot_setDie (s : State) (d : Nat) (x : Die) (i j : Nat) : (s.setDie d x).slot i j = s.slot i j := rfl
@[simp] theorem State.me_setDie (s : State) (d : Nat) (x : Die) : (s.setDie d x).me = s.me := rfl
@[simp] theorem State.myCore_setDie (s : State) (d : Nat) (x : Die) : (s.setDie d x).myCore = s.myCore := rfl
@[simp] theorem State.core_setPart (s : State) (p : Nat) (x : Partition) (i : Nat) : (s.setPart p x).core i = s.core i := rfl
@[simp] theorem State.block_setPart (s : State) (p : Nat) (x : Partition) (i : Nat) : (s.setPart p x).block i = s.block i := rfl
@[simp] theorem State.die_setPart (s : State) (p : Nat) (x : Partition) (i : Nat) : (s.setPart p x).die i = s.die i := rfl
@[simp] theorem State.slot_setPart (s : State) (p : Nat) (x : Partition) (i j : Nat) : (s.setPart p x).slot i j = s.slot i j := rfl
@[simp] theorem State.me_setPart (s : State) (p : Nat) (x : Partition) : (s.setPart p x).me = s.me := rfl
@[simp] theorem State.myCore_setPart (s : State) (p : Nat) (x : Partition) : (s.setPart p x).myCore = s.myCore := rfl
@[simp] theorem State.block_setSlot (s : State) (c k : Nat) (x : Slot) (i : Nat) : (s.setSlot c k x).block i = s.block i := rfl
@[simp] theorem State.die_setSlot (s : State) (c k : Nat) (x : Slot) (i : Nat) : (s.setSlot c k x).die i = s.die i := rfl
@[simp] theorem State.part_setSlot (s : State) (c k : Nat) (x : Slot) (i : Nat) : (s.setSlot c k x).part i = s.part i := rfl
@[simp] theorem State.block_setMe (s : State) (x : Slot) (i : Nat) : (s.setMe x).block i = s.block i := rfl
@[simp] theorem State.die_setMe (s : State) (x : Slot) (i : Nat) : (s.setMe x).die i = s.die i := rfl
@[simp] theorem State.part_setMe (s : State) (x : Slot) (i : Nat) : (s.setMe x).part i = s.part i := rfl
@[simp] theorem State.block_setMyCore (s : State) (x : Core) (i : Nat) : (s.setMyCore x).block i = s.block i := rfl
@[simp] theorem State.die_setMyCore (s : State) (x : Core) (i : Nat) : (s.setMyCore x).die i = s.die i := rfl
@[simp] theorem State.part_setMyCore (s : State) (x : Core) (i : Nat) : (s.setMyCore x).part i = s.part i := rfl
@[simp] theorem State.core_tick (s : State) (i : Nat) : s.tick.core i = s.core i := rfl
@[simp] theorem State.block_tick (s : State) (i : Nat) : s.tick.block i = s.block i := rfl
@[simp] theorem State.die_tick (s : State) (i : Nat) : s.tick.die i = s.die i := rfl
@[simp] theorem State.part_tick (s : State) (i : Nat) : s.tick.part i = s.part i := rfl
@[simp] theorem State.slot_tick (s : State) (i j : Nat) : s.tick.slot i j = s.slot i j := rfl
@[simp] theorem State.me_tick (s : State) : s.tick.me = s.me := rfl
@[simp] theorem State.myCore_tick (s : State) : s.tick.myCore = s.myCore := rfl

theorem State.core_setSlot (s : State) (c k d : Nat) (x : Slot) :
    (s.setSlot c k x).core d = if d = c then { s.core c with slots := Sparse.set {} (s.core c).slots k x } else s.core d := by
  simp [State.setSlot, State.core_setCore]

theorem State.slot_setSlot (s : State) (c k d j : Nat) (x : Slot) :
    (s.setSlot c k x).slot d j = if d = c ∧ j = k then x else s.slot d j := by
  simp only [State.slot, State.core_setSlot]
  by_cases h : d = c
  · subst h; simp [Sparse.get_set]
  · simp [h]

@[simp] theorem State.slot_setSlot_self (s : State) (c k : Nat) (x : Slot) : (s.setSlot c k x).slot c k = x := by simp [slot_setSlot]

@[simp] theorem State.me_setMe (s : State) (x : Slot) : (s.setMe x).me = x := State.slot_setSlot_self s _ _ x

theorem State.slot_setMe (s : State) (c k : Nat) (x : Slot) : (s.setMe x).slot c k = if (c, k) = s.cur then x else s.slot c k := by
  rw [State.setMe, State.slot_setSlot]; congr 1; simp [Prod.ext_iff]

theorem State.core_setMe (s : State) (d : Nat) (x : Slot) (h : d ≠ s.cur.1) : (s.setMe x).core d = s.core d := by
  simp [State.setMe, State.core_setSlot, h]

theorem State.myCore_setMe (s : State) (x : Slot) :
    (s.setMe x).myCore = { s.myCore with slots := Sparse.set {} s.myCore.slots s.cur.2 x } := by
  show (s.setSlot s.cur.1 s.cur.2 x).core s.cur.1 = _
  rw [State.core_setSlot, if_pos rfl]; rfl

@[simp] theorem State.myCore_setMyCore (s : State) (x : Core) : (s.setMyCore x).myCore = x := State.core_setCore_self s _ x

theorem State.me_setMyCore (s : State) (x : Core) : (s.setMyCore x).me = Sparse.get {} x.slots s.cur.2 := by
  show Sparse.get {} ((s.setCore s.cur.1 x).core s.cur.1).slots s.cur.2 = _
  rw [State.core_setCore_self]

end Machine
end Sys2Proof
end

