-- ==== Sys2Proof/Laws/Closing.lean ====
section
/-! SUPPORT. What the end of a cycle and the closing of a group leave alone: frames of landing and of the close, cited instead of
unfolding them. -/

namespace Sys2Proof
namespace Safety

open Machine

theorem byteAt_setMe (s : State) (x : Slot) (l : Loc) : byteAt (s.setMe x) l = byteAt s l := by
  unfold byteAt readSeg
  cases l with
  | scr c o =>
    simp only [State.setMe, State.core_setSlot]
    split
    · subst_vars; rfl
    · rfl
  | _ => rfl

theorem kept_refl (s : State) : Kept s s := ⟨rfl, fun _ _ => rfl, rfl, fun _ _ => rfl, fun _ => rfl⟩

theorem kept_setMe (s : State) (x : Slot) : Kept s (s.setMe x) := by
  refine ⟨rfl, fun c h => State.core_setMe s c x h, ?_, fun k h => ?_, byteAt_setMe s x⟩
  · rw [State.myCore_setMe]
  · rw [State.slot_setMe]; simp [Prod.ext_iff, h]

theorem kept_tick (s : State) : Kept s s.tick := ⟨rfl, fun _ _ => rfl, rfl, fun _ _ => rfl, fun _ => rfl⟩

theorem kept_cur {s t : State} (h : Kept s t) : t.cur = s.cur := by rw [h.1]

theorem kept_trans {s t u : State} (h : Kept s t) (k : Kept t u) : Kept s u := by
  have hc := kept_cur h
  refine ⟨?_, fun c hh => ?_, ?_, fun j hh => ?_, fun l => (k.2.2.2.2 l).trans (h.2.2.2.2 l)⟩
  · rw [k.1]; simp only; rw [h.1]
  · rw [k.2.1 c (by rw [hc]; exact hh), h.2.1 c hh]
  · rw [k.2.2.1]; simp only; rw [h.2.2.1]
  · have h1 := k.2.2.2.1 j (by rw [hc]; exact hh)
    rw [hc] at h1
    rw [h1, h.2.2.2.1 j hh]

theorem setBankOf_bank (l : Slot) (v : Level) (b : Bank) : (l.setBankOf v b).bankOf v = b := by
  unfold Slot.setBankOf Slot.bankOf; split <;> simp

theorem bank_eq (l : Slot) : l.bank = l.bankOf l.level := rfl
theorem setBank_eq (l : Slot) (b : Bank) : l.setBank b = l.setBankOf l.level b := rfl

@[simp] theorem setBankOf_level (l : Slot) (v : Level) (b : Bank) : (l.setBankOf v b).level = l.level := by
  unfold Slot.setBankOf; split <;> rfl

theorem setBankOf_self (l : Slot) (v : Level) : l.setBankOf v (l.bankOf v) = l := by
  unfold Slot.setBankOf Slot.bankOf; split <;> rfl

/-- What a landing leaves alone. -/
structure LandFrame (l m : Slot) : Prop where
  level : m.level = l.level
  grp : m.grp = l.grp
  loops : ∀ v, (m.bankOf v).loops = (l.bankOf v).loops
  inflight : ∀ v, (m.bankOf v).inflight = (l.bankOf v).inflight
  wait : m.wait = l.wait
  wfe : m.wfe = l.wfe
  rest : m = { l with tb := m.tb, sb := m.sb, files := m.files }

theorem LandFrame.refl (l : Slot) : LandFrame l l := ⟨rfl, rfl, fun _ => rfl, fun _ => rfl, rfl, rfl, rfl⟩
theorem LandFrame.trans {l m n : Slot} (h : LandFrame l m) (k : LandFrame m n) : LandFrame l n := by
  refine ⟨k.level.trans h.level, k.grp.trans h.grp, fun v => (k.loops v).trans (h.loops v), fun v => (k.inflight v).trans (h.inflight v), k.wait.trans h.wait, k.wfe.trans h.wfe, ?_⟩
  rw [k.rest]; simp only; rw [h.rest]

theorem landFrame_setBankOf (l : Slot) (v : Level) (b : Bank) (h1 : b.loops = (l.bankOf v).loops) (h2 : b.inflight = (l.bankOf v).inflight) :
    LandFrame l (l.setBankOf v b) := by
  unfold Slot.setBankOf
  split
  · rename_i hv
    refine ⟨rfl, rfl, fun w => ?_, fun w => ?_, rfl, rfl, rfl⟩ <;> (simp only [Slot.bankOf] at *; split <;> simp_all)
  · rename_i hv
    refine ⟨rfl, rfl, fun w => ?_, fun w => ?_, rfl, rfl, rfl⟩ <;> (simp only [Slot.bankOf] at *; split <;> simp_all)

theorem landFrame_files (l : Slot) (f : Files) : LandFrame l { l with files := f } := ⟨rfl, rfl, fun _ => rfl, fun _ => rfl, rfl, rfl, rfl⟩

theorem landFrame_foldl {α : Type} (f : Slot → α → Slot) (hf : ∀ l x, LandFrame l (f l x)) (xs : List α) (l : Slot) : LandFrame l (xs.foldl f l) := by
  induction xs generalizing l with
  | nil => exact .refl l
  | cons x r ih => exact (hf l x).trans (ih _)

theorem landFrame_writeRef (l : Slot) (v : Level) (m : BitVec 16) (x : BitVec 4096) (r : RegRef) : LandFrame l (writeRef l v m x r) := by
  cases r with
  | s i => unfold writeRef Slot.wrS; simp only; split; exact .refl l; split; exact landFrame_files _ _; exact landFrame_setBankOf _ _ _ rfl rfl
  | q i => exact landFrame_files _ _
  | p i => unfold writeRef Slot.wrP; simp only; split; exact .refl l; exact landFrame_setBankOf _ _ _ rfl rfl
  | v cm i => exact landFrame_foldl _ (fun l c => landFrame_files _ _) _ _
  | vq cm i => exact landFrame_foldl _ (fun l c => landFrame_files _ _) _ _
  | vp c i => unfold writeRef Slot.wrVp; simp only; split; exact .refl l; exact landFrame_files _ _
  | _ => exact .refl l

theorem landFrame_land (l : Slot) (v : Level) (x : Landing) : LandFrame l (l.land v x) := by
  unfold Slot.land
  generalize hy : writeRef l v x.mask (if x.unit = 0 then x.val.setWidth 4096 else placeVec x.unit x.val) x.dst = y
  have h1 : LandFrame l y := hy ▸ landFrame_writeRef l v _ _ _
  refine LandFrame.trans h1 ?_
  refine LandFrame.trans ?_ (landFrame_setBankOf _ _ _ rfl rfl)
  split
  · unfold Slot.pushEntry; split; exact landFrame_setBankOf _ _ _ rfl rfl; exact landFrame_files _ _
  · exact .refl _

/-- The end of a cycle of a slot. -/
theorem endCycle_frame (l : Slot) :
    l.endCycle.1.level = l.level ∧ l.endCycle.1.grp = l.grp ∧ (∀ v, (l.endCycle.1.bankOf v).loops = (l.bankOf v).loops) ∧
    (l.endCycle.1.bankOf l.level).inflight = ((l.bankOf l.level).inflight.filter fun x => 1 < x.left).map (fun x => { x with left := x.left - 1 }) ∧
    l.endCycle.1.wait = l.wait ∧ l.endCycle.1.wfe = l.wfe ∧
    l.endCycle.1 = { l with tb := l.endCycle.1.tb, sb := l.endCycle.1.sb, files := l.endCycle.1.files } := by
  unfold Slot.endCycle
  simp only
  set b := l.bankOf l.level with hb
  set l0 := l.setBankOf l.level _ with hl0
  have f := landFrame_foldl (fun l' x => l'.land l.level x) (fun l' x => landFrame_land l' _ x) (b.inflight.filter fun x => x.left ≤ 1) l0
  have h0 : l0 = { l with tb := l0.tb, sb := l0.sb } := by
    rw [hl0]; unfold Slot.setBankOf; split <;> rfl
  refine ⟨?_, ?_, fun v => ?_, ?_, ?_, ?_, ?_⟩
  · rw [f.level]; exact setBankOf_level _ _ _
  · rw [f.grp, h0]
  · rw [f.loops, hl0, hb]; unfold Slot.setBankOf Slot.bankOf
    by_cases h1 : l.level = .s <;> by_cases h2 : v = .s <;> simp [h1, h2]
  · rw [f.inflight, hl0, setBankOf_bank]
  · rw [f.wait, h0]
  · rw [f.wfe, h0]
  · rw [f.rest]; simp only; rw [h0]

/-- The traps that fall due at a cycle's end do not depend on where issue goes on. -/
theorem endCycle_traps (l : Slot) (pc : BitVec 32) (g : Option Group) (w : Option Walk) :
    ({ l with pc := pc, grp := g, walk := w } : Slot).endCycle.2 = l.endCycle.2 := rfl

theorem closeLoops_none (last nxt : BitVec 32) (any : Bool) (l : List LoopFrame) (h : ∀ f ∈ l.head?, f.e ≠ last) :
    closeLoops last nxt any l = (l, nxt, any) := by
  cases l with
  | nil => rfl
  | cons f r => simp only [closeLoops]; rw [if_neg (h f rfl)]

theorem afterGroup_next (s : State) (g : Group) (hu : g.user = none) (hf : g.fin = .next) (hw : s.me.wait = none) (hv : s.me.wfe = none) :
    s.afterGroup g [] [] false = s := by
  simp [State.afterGroup, hu, hf, hw, hv, pickTrap]

theorem setBank_self (l : Slot) : l.setBank l.bank = l := by rw [setBank_eq, bank_eq]; exact setBankOf_self _ _

theorem closeWhole_plain (s : State) (g : Group) (hb : g.brkl = false) (hp : g.push = none) (hr : g.reissue = false) (hu : g.user = none)
    (hf : g.fin = .next) (hw : s.me.wait = none) (hv : s.me.wfe = none)
    (hl : g.target = none → ∀ f ∈ s.me.bank.loops.getLast?, f.e ≠ g.seqPc - 1)
    (hpt : g.point = false) (ht : g.bubble = true → s.me.endCycle.2 = []) :
    s.closeWhole g [] =
      (let m := { s.me with pc := g.target.getD g.seqPc, grp := none, walk := none }
       if g.bubble then (s.setMe m.endCycle.1).tick else s.setMe m) := by
  have key : s.closeWhole g [] =
      (let m := { s.me with pc := g.target.getD g.seqPc, grp := none, walk := none }
       let e := if g.bubble then m.endCycle else (m, [])
       (if g.bubble then (s.setMe e.1).tick else s.setMe e.1).afterGroup g [] e.2 false) := by
    have e : s.me.setBank { s.me.bank with loops := s.me.bank.loops } = s.me := setBank_self s.me
    unfold State.closeWhole
    cases hh : g.target with
    | some t => simp only [hb, hp, hr, hpt, Bool.false_eq_true, if_false, Bool.and_false, Bool.false_and, Bool.or_false, Option.getD, e]
    | none =>
      have : ∀ f ∈ (s.me.bank.loops.reverse).head?, f.e ≠ g.seqPc - 1 := by rw [List.head?_reverse]; exact hl hh
      simp only [hb, hp, hr, hpt, closeLoops_none _ _ _ _ this, List.reverse_reverse, Bool.false_eq_true, if_false, Bool.and_false,
        Bool.false_and, Bool.or_false, Option.getD, e]
  rw [key]
  by_cases hbb : g.bubble = true
  · have htr := (endCycle_traps s.me (g.target.getD g.seqPc) none none).trans (ht hbb)
    obtain ⟨_, _, _, _, e5, e6, _⟩ := endCycle_frame { s.me with pc := g.target.getD g.seqPc, grp := none, walk := none }
    simp only [hbb, if_true, htr]
    exact afterGroup_next _ _ hu hf (by rw [State.me_tick, State.me_setMe, e5]; exact hw) (by rw [State.me_tick, State.me_setMe, e6]; exact hv)
  · simp only [hbb]
    exact afterGroup_next _ _ hu hf (by simpa using hw) (by simpa using hv)

theorem group_some {l : Slot} {g : Group} (h : l.grp = some g) : l.group = g := by simp [Slot.group, h]

theorem finishWord_closing (s : State) (g : Group) (hg : s.me.grp = some g) (hlen : g.words.length = g.idx + 1) (htrap : g.trap = none)
    (hwalk : g.walks = false) (hrpt : g.rptCount = 0) (hdefer : g.defer = []) (hcsrs : g.csrs = []) (hend : s.me.endCycle.2 = []) :
    finishWord s = (((s.setMe s.me).setMe { s.me.endCycle.1 with grp := some { g with ctxSet := 0, ctx0 := none } }).tick).closeWhole
      { g with ctxSet := 0, ctx0 := none } [] := by
  have hafter : g.after = none := by
    simp only [Group.after, List.find?_eq_none, List.mem_range]
    intro x hx; simp; omega
  have hself : ({ s.me with grp := some g } : Slot) = s.me := by rw [← hg]
  obtain ⟨pc, words, idx, perf, checked, reissue, trap, walks, user, userBit, target, push, brkl, bubble, rptCount, rptM, rptStep, fin, finBit, defer, caps, csrs, ctxSet, ctx0⟩ := g
  simp only at htrap hwalk hrpt hdefer hcsrs
  subst htrap hwalk hrpt hdefer hcsrs
  unfold finishWord
  simp only [group_some hg, hafter]
  unfold closeGroup
  simp only [group_some hg, Option.isSome_none, Bool.or_self, Bool.false_and, Bool.false_eq_true, if_false, List.foldl_nil, hself,
    State.me_setMe, List.nil_append, hend, ne_eq, not_true_eq_false, decide_false]

end Safety
end Sys2Proof
end

