-- ==== Sys2Proof/Laws/Exec.lean ====
section
/-! SUPPORT. One law per instruction: exec runs its meaning. -/

namespace Sys2Proof
namespace Machine

@[simp] theorem exec_nop h (s : State) : exec (.nop h) s = execNop h s := rfl
@[simp] theorem exec_add h f (s : State) : exec (.add h f) s = execAdd h f s := rfl
@[simp] theorem exec_sub h f (s : State) : exec (.sub h f) s = execSub h f s := rfl
@[simp] theorem exec_mul h f (s : State) : exec (.mul h f) s = execMul h f s := rfl
@[simp] theorem exec_mulHi h f (s : State) : exec (.mulHi h f) s = execMulHi h f s := rfl
@[simp] theorem exec_divI h f (s : State) : exec (.divI h f) s = execDivI h f s := rfl
@[simp] theorem exec_divRem h f (s : State) : exec (.divRem h f) s = execDivRem h f s := rfl
@[simp] theorem exec_andI h f (s : State) : exec (.andI h f) s = execAndI h f s := rfl
@[simp] theorem exec_orI h f (s : State) : exec (.orI h f) s = execOrI h f s := rfl
@[simp] theorem exec_xorI h f (s : State) : exec (.xorI h f) s = execXorI h f s := rfl
@[simp] theorem exec_andn h f (s : State) : exec (.andn h f) s = execAndn h f s := rfl
@[simp] theorem exec_shl h f (s : State) : exec (.shl h f) s = execShl h f s := rfl
@[simp] theorem exec_shr h f (s : State) : exec (.shr h f) s = execShr h f s := rfl
@[simp] theorem exec_sra h f (s : State) : exec (.sra h f) s = execSra h f s := rfl
@[simp] theorem exec_rot h f (s : State) : exec (.rot h f) s = execRot h f s := rfl
@[simp] theorem exec_minI h f (s : State) : exec (.minI h f) s = execMinI h f s := rfl
@[simp] theorem exec_maxI h f (s : State) : exec (.maxI h f) s = execMaxI h f s := rfl
@[simp] theorem exec_cmp h cc f (s : State) : exec (.cmp h cc f) s = execCmp h cc f s := rfl
@[simp] theorem exec_sel h f (s : State) : exec (.sel h f) s = execSel h f s := rfl
@[simp] theorem exec_movi h f (s : State) : exec (.movi h f) s = execMovi h f s := rfl
@[simp] theorem exec_movhi h f (s : State) : exec (.movhi h f) s = execMovhi h f s := rfl
@[simp] theorem exec_lea h f (s : State) : exec (.lea h f) s = execLea h f s := rfl
@[simp] theorem exec_bitsClz h f (s : State) : exec (.bitsClz h f) s = execBitsClz h f s := rfl
@[simp] theorem exec_bitsCtz h f (s : State) : exec (.bitsCtz h f) s = execBitsCtz h f s := rfl
@[simp] theorem exec_bitsPopc h f (s : State) : exec (.bitsPopc h f) s = execBitsPopc h f s := rfl
@[simp] theorem exec_bitsBrev h f (s : State) : exec (.bitsBrev h f) s = execBitsBrev h f s := rfl
@[simp] theorem exec_bitsBfx h f (s : State) : exec (.bitsBfx h f) s = execBitsBfx h f s := rfl
@[simp] theorem exec_bitsBfi h f (s : State) : exec (.bitsBfi h f) s = execBitsBfi h f s := rfl
@[simp] theorem exec_bitsAbs h f (s : State) : exec (.bitsAbs h f) s = execBitsAbs h f s := rfl
@[simp] theorem exec_bitsNeg h f (s : State) : exec (.bitsNeg h f) s = execBitsNeg h f s := rfl
@[simp] theorem exec_plogAnd h f (s : State) : exec (.plogAnd h f) s = execPlogAnd h f s := rfl
@[simp] theorem exec_plogOr h f (s : State) : exec (.plogOr h f) s = execPlogOr h f s := rfl
@[simp] theorem exec_plogXor h f (s : State) : exec (.plogXor h f) s = execPlogXor h f s := rfl
@[simp] theorem exec_plogAndn h f (s : State) : exec (.plogAndn h f) s = execPlogAndn h f s := rfl
@[simp] theorem exec_fadd h f (s : State) : exec (.fadd h f) s = execFadd h f s := rfl
@[simp] theorem exec_faddSub h f (s : State) : exec (.faddSub h f) s = execFaddSub h f s := rfl
@[simp] theorem exec_fmul h f (s : State) : exec (.fmul h f) s = execFmul h f s := rfl
@[simp] theorem exec_fma h f (s : State) : exec (.fma h f) s = execFma h f s := rfl
@[simp] theorem exec_fmaFms h f (s : State) : exec (.fmaFms h f) s = execFmaFms h f s := rfl
@[simp] theorem exec_fmaFnma h f (s : State) : exec (.fmaFnma h f) s = execFmaFnma h f s := rfl
@[simp] theorem exec_fdiv h f (s : State) : exec (.fdiv h f) s = execFdiv h f s := rfl
@[simp] theorem exec_fdivSqrt h f (s : State) : exec (.fdivSqrt h f) s = execFdivSqrt h f s := rfl
@[simp] theorem exec_fmin h f (s : State) : exec (.fmin h f) s = execFmin h f s := rfl
@[simp] theorem exec_fmax h f (s : State) : exec (.fmax h f) s = execFmax h f s := rfl
@[simp] theorem exec_fcmp h cc f (s : State) : exec (.fcmp h cc f) s = execFcmp h cc f s := rfl
@[simp] theorem exec_fcvt h f (s : State) : exec (.fcvt h f) s = execFcvt h f s := rfl
@[simp] theorem exec_br h f (s : State) : exec (.br h f) s = execBr h f s := rfl
@[simp] theorem exec_jmp h f (s : State) : exec (.jmp h f) s = execJmp h f s := rfl
@[simp] theorem exec_call h f (s : State) : exec (.call h f) s = execCall h f s := rfl
@[simp] theorem exec_ret h f (s : State) : exec (.ret h f) s = execRet h f s := rfl
@[simp] theorem exec_loopI h f (s : State) : exec (.loopI h f) s = execLoopI h f s := rfl
@[simp] theorem exec_brkl h (s : State) : exec (.brkl h) s = execBrkl h s := rfl
@[simp] theorem exec_rpt h f (s : State) : exec (.rpt h f) s = execRpt h f s := rfl
@[simp] theorem exec_trap h f (s : State) : exec (.trap h f) s = execTrap h f s := rfl
@[simp] theorem exec_resultLanding core slot (s : State) : exec (.resultLanding core slot) s = execResultLanding core slot s := rfl
@[simp] theorem exec_vadd h f (s : State) : exec (.vadd h f) s = execVadd h f s := rfl
@[simp] theorem exec_vsub h f (s : State) : exec (.vsub h f) s = execVsub h f s := rfl
@[simp] theorem exec_vmul h f (s : State) : exec (.vmul h f) s = execVmul h f s := rfl
@[simp] theorem exec_vmulHi h f (s : State) : exec (.vmulHi h f) s = execVmulHi h f s := rfl
@[simp] theorem exec_vmad h f (s : State) : exec (.vmad h f) s = execVmad h f s := rfl
@[simp] theorem exec_vlogAnd h f (s : State) : exec (.vlogAnd h f) s = execVlogAnd h f s := rfl
@[simp] theorem exec_vlogOr h f (s : State) : exec (.vlogOr h f) s = execVlogOr h f s := rfl
@[simp] theorem exec_vlogXor h f (s : State) : exec (.vlogXor h f) s = execVlogXor h f s := rfl
@[simp] theorem exec_vlogAndn h f (s : State) : exec (.vlogAndn h f) s = execVlogAndn h f s := rfl
@[simp] theorem exec_vshShl h f (s : State) : exec (.vshShl h f) s = execVshShl h f s := rfl
@[simp] theorem exec_vshShr h f (s : State) : exec (.vshShr h f) s = execVshShr h f s := rfl
@[simp] theorem exec_vshSra h f (s : State) : exec (.vshSra h f) s = execVshSra h f s := rfl
@[simp] theorem exec_vshRot h f (s : State) : exec (.vshRot h f) s = execVshRot h f s := rfl
@[simp] theorem exec_vmin h f (s : State) : exec (.vmin h f) s = execVmin h f s := rfl
@[simp] theorem exec_vmax h f (s : State) : exec (.vmax h f) s = execVmax h f s := rfl
@[simp] theorem exec_vcmp h cc f (s : State) : exec (.vcmp h cc f) s = execVcmp h cc f s := rfl
@[simp] theorem exec_vsel h f (s : State) : exec (.vsel h f) s = execVsel h f s := rfl
@[simp] theorem exec_vfadd h f (s : State) : exec (.vfadd h f) s = execVfadd h f s := rfl
@[simp] theorem exec_vfaddSub h f (s : State) : exec (.vfaddSub h f) s = execVfaddSub h f s := rfl
@[simp] theorem exec_vfmul h f (s : State) : exec (.vfmul h f) s = execVfmul h f s := rfl
@[simp] theorem exec_vfma h f (s : State) : exec (.vfma h f) s = execVfma h f s := rfl
@[simp] theorem exec_vfmaFms h f (s : State) : exec (.vfmaFms h f) s = execVfmaFms h f s := rfl
@[simp] theorem exec_vfmaFnma h f (s : State) : exec (.vfmaFnma h f) s = execVfmaFnma h f s := rfl
@[simp] theorem exec_vfmin h f (s : State) : exec (.vfmin h f) s = execVfmin h f s := rfl
@[simp] theorem exec_vfmax h f (s : State) : exec (.vfmax h f) s = execVfmax h f s := rfl
@[simp] theorem exec_vfcmp h cc f (s : State) : exec (.vfcmp h cc f) s = execVfcmp h cc f s := rfl
@[simp] theorem exec_vsfRcp h f (s : State) : exec (.vsfRcp h f) s = execVsfRcp h f s := rfl
@[simp] theorem exec_vsfRsqrt h f (s : State) : exec (.vsfRsqrt h f) s = execVsfRsqrt h f s := rfl
@[simp] theorem exec_vsfExp2 h f (s : State) : exec (.vsfExp2 h f) s = execVsfExp2 h f s := rfl
@[simp] theorem exec_vsfLog2 h f (s : State) : exec (.vsfLog2 h f) s = execVsfLog2 h f s := rfl
@[simp] theorem exec_vsfSin h f (s : State) : exec (.vsfSin h f) s = execVsfSin h f s := rfl
@[simp] theorem exec_vsfCos h f (s : State) : exec (.vsfCos h f) s = execVsfCos h f s := rfl
@[simp] theorem exec_vsfTanh h f (s : State) : exec (.vsfTanh h f) s = execVsfTanh h f s := rfl
@[simp] theorem exec_vsfSigm h f (s : State) : exec (.vsfSigm h f) s = execVsfSigm h f s := rfl
@[simp] theorem exec_vcvt h f (s : State) : exec (.vcvt h f) s = execVcvt h f s := rfl
@[simp] theorem exec_vcvtBsPack h f (s : State) : exec (.vcvtBsPack h f) s = execVcvtBsPack h f s := rfl
@[simp] theorem exec_vcvtBsUnpack h f (s : State) : exec (.vcvtBsUnpack h f) s = execVcvtBsUnpack h f s := rfl
@[simp] theorem exec_vshuf h f (s : State) : exec (.vshuf h f) s = execVshuf h f s := rfl
@[simp] theorem exec_vredAdd h f (s : State) : exec (.vredAdd h f) s = execVredAdd h f s := rfl
@[simp] theorem exec_vredMin h f (s : State) : exec (.vredMin h f) s = execVredMin h f s := rfl
@[simp] theorem exec_vredMax h f (s : State) : exec (.vredMax h f) s = execVredMax h f s := rfl
@[simp] theorem exec_vxcp h f (s : State) : exec (.vxcp h f) s = execVxcp h f s := rfl
@[simp] theorem exec_vsplat h f (s : State) : exec (.vsplat h f) s = execVsplat h f s := rfl
@[simp] theorem exec_vext h f (s : State) : exec (.vext h f) s = execVext h f s := rfl
@[simp] theorem exec_viota h f (s : State) : exec (.viota h f) s = execViota h f s := rfl
@[simp] theorem exec_vrng h f (s : State) : exec (.vrng h f) s = execVrng h f s := rfl
@[simp] theorem exec_vplogAnd h f (s : State) : exec (.vplogAnd h f) s = execVplogAnd h f s := rfl
@[simp] theorem exec_vplogOr h f (s : State) : exec (.vplogOr h f) s = execVplogOr h f s := rfl
@[simp] theorem exec_vplogXor h f (s : State) : exec (.vplogXor h f) s = execVplogXor h f s := rfl
@[simp] theorem exec_vplogAndn h f (s : State) : exec (.vplogAndn h f) s = execVplogAndn h f s := rfl
@[simp] theorem exec_vpcnt h f (s : State) : exec (.vpcnt h f) s = execVpcnt h f s := rfl
@[simp] theorem exec_ld h f (s : State) : exec (.ld h f) s = execLd h f s := rfl
@[simp] theorem exec_loadReturn core slot tag (s : State) : exec (.loadReturn core slot tag) s = execLoadReturn core slot tag s := rfl
@[simp] theorem exec_st h f (s : State) : exec (.st h f) s = execSt h f s := rfl
@[simp] theorem exec_ldv h f (s : State) : exec (.ldv h f) s = execLdv h f s := rfl
@[simp] theorem exec_stv h f (s : State) : exec (.stv h f) s = execStv h f s := rfl
@[simp] theorem exec_vgath h f (s : State) : exec (.vgath h f) s = execVgath h f s := rfl
@[simp] theorem exec_vscat h f (s : State) : exec (.vscat h f) s = execVscat h f s := rfl
@[simp] theorem exec_atomAdd h f (s : State) : exec (.atomAdd h f) s = execAtomAdd h f s := rfl
@[simp] theorem exec_atomAnd h f (s : State) : exec (.atomAnd h f) s = execAtomAnd h f s := rfl
@[simp] theorem exec_atomOr h f (s : State) : exec (.atomOr h f) s = execAtomOr h f s := rfl
@[simp] theorem exec_atomXor h f (s : State) : exec (.atomXor h f) s = execAtomXor h f s := rfl
@[simp] theorem exec_atomMin h f (s : State) : exec (.atomMin h f) s = execAtomMin h f s := rfl
@[simp] theorem exec_atomMax h f (s : State) : exec (.atomMax h f) s = execAtomMax h f s := rfl
@[simp] theorem exec_atomSwap h f (s : State) : exec (.atomSwap h f) s = execAtomSwap h f s := rfl
@[simp] theorem exec_atomCas h f (s : State) : exec (.atomCas h f) s = execAtomCas h f s := rfl
@[simp] theorem exec_atomFadd h f (s : State) : exec (.atomFadd h f) s = execAtomFadd h f s := rfl
@[simp] theorem exec_atomBfadd h f (s : State) : exec (.atomBfadd h f) s = execAtomBfadd h f s := rfl
@[simp] theorem exec_fence h f (s : State) : exec (.fence h f) s = execFence h f s := rfl
@[simp] theorem exec_flagI h f (s : State) : exec (.flagI h f) s = execFlag h f s := rfl
@[simp] theorem exec_waitf h f (s : State) : exec (.waitf h f) s = execWaitf h f s := rfl
@[simp] theorem exec_waitfT h f (s : State) : exec (.waitfT h f) s = execWaitfT h f s := rfl
@[simp] theorem exec_waitTimeout core slot (s : State) : exec (.waitTimeout core slot) s = execWaitTimeout core slot s := rfl
@[simp] theorem exec_monitorScan die (s : State) : exec (.monitorScan die) s = execMonitorScan die s := rfl
@[simp] theorem exec_cflushWb h f (s : State) : exec (.cflushWb h f) s = execCflushWb h f s := rfl
@[simp] theorem exec_cflushInv h f (s : State) : exec (.cflushInv h f) s = execCflushInv h f s := rfl
@[simp] theorem exec_cflushWbinv h f (s : State) : exec (.cflushWbinv h f) s = execCflushWbinv h f s := rfl
@[simp] theorem exec_pref h f (s : State) : exec (.pref h f) s = execPref h f s := rfl
@[simp] theorem exec_cpy h f (s : State) : exec (.cpy h f) s = execCpy h f s := rfl
@[simp] theorem exec_cpyScale h f (s : State) : exec (.cpyScale h f) s = execCpyScale h f s := rfl
@[simp] theorem exec_copyIntakeDispatch core (s : State) : exec (.copyIntakeDispatch core) s = execCopyIntakeDispatch core s := rfl
@[simp] theorem exec_copyLineFill core cmd (s : State) : exec (.copyLineFill core cmd) s = execCopyLineFill core cmd s := rfl
@[simp] theorem exec_cpyCompletion core cmd (s : State) : exec (.cpyCompletion core cmd) s = execCpyCompletion core cmd s := rfl
@[simp] theorem exec_ringBind h f (s : State) : exec (.ringBind h f) s = execRingBind h f s := rfl
@[simp] theorem exec_ringGet h f (s : State) : exec (.ringGet h f) s = execRingGet h f s := rfl
@[simp] theorem exec_ringCommit h f (s : State) : exec (.ringCommit h f) s = execRingCommit h f s := rfl
@[simp] theorem exec_ringEos h f (s : State) : exec (.ringEos h f) s = execRingEos h f s := rfl
@[simp] theorem exec_ringFree h f (s : State) : exec (.ringFree h f) s = execRingFree h f s := rfl
@[simp] theorem exec_ringStat h f (s : State) : exec (.ringStat h f) s = execRingStat h f s := rfl
@[simp] theorem exec_spawn h f (s : State) : exec (.spawn h f) s = execSpawn h f s := rfl
@[simp] theorem exec_spawnL h f (s : State) : exec (.spawnL h f) s = execSpawnL h f s := rfl
@[simp] theorem exec_depAdd h f (s : State) : exec (.depAdd h f) s = execDepAdd h f s := rfl
@[simp] theorem exec_depSignal h f (s : State) : exec (.depSignal h f) s = execDepSignal h f s := rfl
@[simp] theorem exec_suspSuspend h f (s : State) : exec (.suspSuspend h f) s = execSuspSuspend h f s := rfl
@[simp] theorem exec_suspYield h f (s : State) : exec (.suspYield h f) s = execSuspYield h f s := rfl
@[simp] theorem exec_suspFinish h f (s : State) : exec (.suspFinish h f) s = execSuspFinish h f s := rfl
@[simp] theorem exec_barArrive h f (s : State) : exec (.barArrive h f) s = execBarArrive h f s := rfl
@[simp] theorem exec_barWait h f (s : State) : exec (.barWait h f) s = execBarWait h f s := rfl
@[simp] theorem exec_barBoth h f (s : State) : exec (.barBoth h f) s = execBarBoth h f s := rfl
@[simp] theorem exec_getcCoord h f (s : State) : exec (.getcCoord h f) s = execGetcCoord h f s := rfl
@[simp] theorem exec_getcShape h f (s : State) : exec (.getcShape h f) s = execGetcShape h f s := rfl
@[simp] theorem exec_getcLaunch h f (s : State) : exec (.getcLaunch h f) s = execGetcLaunch h f s := rfl
@[simp] theorem exec_getcCore h f (s : State) : exec (.getcCore h f) s = execGetcCore h f s := rfl
@[simp] theorem exec_rput h f (s : State) : exec (.rput h f) s = execRput h f s := rfl
@[simp] theorem exec_rputSig h f (s : State) : exec (.rputSig h f) s = execRputSig h f s := rfl
@[simp] theorem exec_rcopy h f (s : State) : exec (.rcopy h f) s = execRcopy h f s := rfl
@[simp] theorem exec_rcopySig h f (s : State) : exec (.rcopySig h f) s = execRcopySig h f s := rfl
@[simp] theorem exec_rsem h f (s : State) : exec (.rsem h f) s = execRsem h f s := rfl
@[simp] theorem exec_rred h f (s : State) : exec (.rred h f) s = execRred h f s := rfl
@[simp] theorem exec_mcred h f (s : State) : exec (.mcred h f) s = execMcred h f s := rfl
@[simp] theorem exec_qpost h f (s : State) : exec (.qpost h f) s = execQpost h f s := rfl
@[simp] theorem exec_qpostEntryFire block entry (s : State) : exec (.qpostEntryFire block entry) s = execQpostEntryFire block entry s := rfl
@[simp] theorem exec_qpostTimedFire block entry (s : State) : exec (.qpostTimedFire block entry) s = execQpostTimedFire block entry s := rfl
@[simp] theorem exec_mbxPost h f (s : State) : exec (.mbxPost h f) s = execMbxPost h f s := rfl
@[simp] theorem exec_mbxTake h f (s : State) : exec (.mbxTake h f) s = execMbxTake h f s := rfl
@[simp] theorem exec_mbxStatus h f (s : State) : exec (.mbxStatus h f) s = execMbxStatus h f s := rfl
@[simp] theorem exec_mbxPostnb h f (s : State) : exec (.mbxPostnb h f) s = execMbxPostnb h f s := rfl
@[simp] theorem exec_rack h f (s : State) : exec (.rack h f) s = execRack h f s := rfl
@[simp] theorem exec_egressAccept block src (s : State) : exec (.egressAccept block src) s = execEgressAccept block src s := rfl
@[simp] theorem exec_wcfg h f (s : State) : exec (.wcfg h f) s = execWcfg h f s := rfl
@[simp] theorem exec_wcfgEg h f (s : State) : exec (.wcfgEg h f) s = execWcfgEg h f s := rfl
@[simp] theorem exec_pack h f (s : State) : exec (.pack h f) s = execPack h f s := rfl
@[simp] theorem exec_packRev h f (s : State) : exec (.packRev h f) s = execPackRev h f s := rfl
@[simp] theorem exec_packLimb h f (s : State) : exec (.packLimb h f) s = execPackLimb h f s := rfl
@[simp] theorem exec_wmulConv h f (s : State) : exec (.wmulConv h f) s = execWmulConv h f s := rfl
@[simp] theorem exec_wmulCorr h f (s : State) : exec (.wmulCorr h f) s = execWmulCorr h f s := rfl
@[simp] theorem exec_wmulLimb h f (s : State) : exec (.wmulLimb h f) s = execWmulLimb h f s := rfl
@[simp] theorem exec_wmulOuter h f (s : State) : exec (.wmulOuter h f) s = execWmulOuter h f s := rfl
@[simp] theorem exec_wmulOuterSp h f (s : State) : exec (.wmulOuterSp h f) s = execWmulOuterSp h f s := rfl
@[simp] theorem exec_wmacConv h f (s : State) : exec (.wmacConv h f) s = execWmacConv h f s := rfl
@[simp] theorem exec_wmacCorr h f (s : State) : exec (.wmacCorr h f) s = execWmacCorr h f s := rfl
@[simp] theorem exec_wmacLimb h f (s : State) : exec (.wmacLimb h f) s = execWmacLimb h f s := rfl
@[simp] theorem exec_wmacOuter h f (s : State) : exec (.wmacOuter h f) s = execWmacOuter h f s := rfl
@[simp] theorem exec_wmacOuterSp h f (s : State) : exec (.wmacOuterSp h f) s = execWmacOuterSp h f s := rfl
@[simp] theorem exec_streamFetch core wm port (s : State) : exec (.streamFetch core wm port) s = execStreamFetch core wm port s := rfl
@[simp] theorem exec_extrDigm h f (s : State) : exec (.extrDigm h f) s = execExtrDigm h f s := rfl
@[simp] theorem exec_extrDigs h f (s : State) : exec (.extrDigs h f) s = execExtrDigs h f s := rfl
@[simp] theorem exec_extrLimb h f (s : State) : exec (.extrLimb h f) s = execExtrLimb h f s := rfl
@[simp] theorem exec_extrTile h f (s : State) : exec (.extrTile h f) s = execExtrTile h f s := rfl
@[simp] theorem exec_extrTileClr h f (s : State) : exec (.extrTileClr h f) s = execExtrTileClr h f s := rfl
@[simp] theorem exec_wclr h f (s : State) : exec (.wclr h f) s = execWclr h f s := rfl
@[simp] theorem exec_wmov h f (s : State) : exec (.wmov h f) s = execWmov h f s := rfl
@[simp] theorem exec_sbindA h f (s : State) : exec (.sbindA h f) s = execSbindA h f s := rfl
@[simp] theorem exec_sbindB h f (s : State) : exec (.sbindB h f) s = execSbindB h f s := rfl
@[simp] theorem exec_sbindUnbind h f (s : State) : exec (.sbindUnbind h f) s = execSbindUnbind h f s := rfl
@[simp] theorem exec_mcall h f (s : State) : exec (.mcall h f) s = execMcall h f s := rfl
@[simp] theorem exec_routineStart core wm (s : State) : exec (.routineStart core wm) s = execRoutineStart core wm s := rfl
@[simp] theorem exec_routineCompletion core wm (s : State) : exec (.routineCompletion core wm) s = execRoutineCompletion core wm s := rfl
@[simp] theorem exec_mpld h f (s : State) : exec (.mpld h f) s = execMpld h f s := rfl
@[simp] theorem exec_mldr h f (s : State) : exec (.mldr h f) s = execMldr h f s := rfl
@[simp] theorem exec_mldrEntries h f (s : State) : exec (.mldrEntries h f) s = execMldrEntries h f s := rfl
@[simp] theorem exec_ftld h f (s : State) : exec (.ftld h f) s = execFtld h f s := rfl
@[simp] theorem exec_scld h f (s : State) : exec (.scld h f) s = execScld h f s := rfl
@[simp] theorem exec_scldRd h f (s : State) : exec (.scldRd h f) s = execScldRd h f s := rfl
@[simp] theorem exec_metaqPush h f (s : State) : exec (.metaqPush h f) s = execMetaqPush h f s := rfl
@[simp] theorem exec_metaqClear h f (s : State) : exec (.metaqClear h f) s = execMetaqClear h f s := rfl
@[simp] theorem exec_wstat h f (s : State) : exec (.wstat h f) s = execWstat h f s := rfl
@[simp] theorem exec_wstatClr h f (s : State) : exec (.wstatClr h f) s = execWstatClr h f s := rfl
@[simp] theorem exec_mloop h f (s : State) : exec (.mloop h f) s = execMloop h f s := rfl
@[simp] theorem exec_mjmp h f (s : State) : exec (.mjmp h f) s = execMjmp h f s := rfl
@[simp] theorem exec_mret h f (s : State) : exec (.mret h f) s = execMret h f s := rfl
@[simp] theorem exec_apxb h f (s : State) : exec (.apxb h f) s = execApxb h f s := rfl
@[simp] theorem exec_apxe h f (s : State) : exec (.apxe h f) s = execApxe h f s := rfl
@[simp] theorem exec_apxc h f (s : State) : exec (.apxc h f) s = execApxc h f s := rfl
@[simp] theorem exec_apxsRd h f (s : State) : exec (.apxsRd h f) s = execApxsRd h f s := rfl
@[simp] theorem exec_apxsWr h f (s : State) : exec (.apxsWr h f) s = execApxsWr h f s := rfl
@[simp] theorem exec_apxsInv h f (s : State) : exec (.apxsInv h f) s = execApxsInv h f s := rfl
@[simp] theorem exec_equinoxBatchUpdate block rslot (s : State) : exec (.equinoxBatchUpdate block rslot) s = execEquinoxBatchUpdate block rslot s := rfl
@[simp] theorem exec_csrRd h f (s : State) : exec (.csrRd h f) s = execCsrRd h f s := rfl
@[simp] theorem exec_csrWr h f (s : State) : exec (.csrWr h f) s = execCsrWr h f s := rfl
@[simp] theorem exec_csrSet h f (s : State) : exec (.csrSet h f) s = execCsrSet h f s := rfl
@[simp] theorem exec_csrClr h f (s : State) : exec (.csrClr h f) s = execCsrClr h f s := rfl
@[simp] theorem exec_rft h (s : State) : exec (.rft h) s = execRft h s := rfl
@[simp] theorem exec_tlbiAll h f (s : State) : exec (.tlbiAll h f) s = execTlbiAll h f s := rfl
@[simp] theorem exec_tlbiAddr h f (s : State) : exec (.tlbiAddr h f) s = execTlbiAddr h f s := rfl
@[simp] theorem exec_tlbiCtx h f (s : State) : exec (.tlbiCtx h f) s = execTlbiCtx h f s := rfl
@[simp] theorem exec_ctxSave h f (s : State) : exec (.ctxSave h f) s = execCtxSave h f s := rfl
@[simp] theorem exec_ctxRestore h f (s : State) : exec (.ctxRestore h f) s = execCtxRestore h f s := rfl
@[simp] theorem exec_wfe h (s : State) : exec (.wfe h) s = execWfe h s := rfl
@[simp] theorem exec_wfeTimeout core slot (s : State) : exec (.wfeTimeout core slot) s = execWfeTimeout core slot s := rfl
@[simp] theorem exec_halt h (s : State) : exec (.halt h) s = execHalt h s := rfl
@[simp] theorem exec_pageWalkComplete core slot (s : State) : exec (.pageWalkComplete core slot) s = execPageWalkComplete core slot s := rfl
@[simp] theorem exec_launchIntake  (s : State) : exec (.launchIntake) s = execLaunchIntake s := rfl
@[simp] theorem exec_launchCompletion handle (s : State) : exec (.launchCompletion handle) s = execLaunchCompletion handle s := rfl
@[simp] theorem exec_dispatchDecision die (s : State) : exec (.dispatchDecision die) s = execDispatchDecision die s := rfl
@[simp] theorem exec_readyRecordRefill die (s : State) : exec (.readyRecordRefill die) s = execReadyRecordRefill die s := rfl
@[simp] theorem exec_priorityAging die rec (s : State) : exec (.priorityAging die rec) s = execPriorityAging die rec s := rfl
@[simp] theorem exec_preempt die part rec port (s : State) : exec (.preempt die part rec port) s = execPreempt die part rec s port := rfl
@[simp] theorem exec_preemptWindowExpiry core slot (s : State) : exec (.preemptWindowExpiry core slot) s = execPreemptWindowExpiry core slot s := rfl
@[simp] theorem exec_gangFrameWrite die launch gang (s : State) : exec (.gangFrameWrite die launch gang) s = execGangFrameWrite die launch gang s := rfl
@[simp] theorem exec_resume die part rec port (s : State) : exec (.resume die part rec port) s = execResume die part rec s port := rfl
@[simp] theorem exec_launchkill die part handle port (s : State) : exec (.launchkill die part handle port) s = execLaunchkill die part handle s port := rfl
@[simp] theorem exec_registerWrite port reg value (s : State) : exec (.registerWrite port reg value) s = execRegisterWrite port reg value s := rfl
@[simp] theorem exec_springFill stack rec (s : State) : exec (.springFill stack rec) s = execSpringFill stack rec s := rfl
@[simp] theorem exec_fallDrain stack rec (s : State) : exec (.fallDrain stack rec) s = execFallDrain stack rec s := rfl
@[simp] theorem exec_flitReceive link flit (s : State) : exec (.flitReceive link flit) s = execFlitReceive link flit s := rfl
@[simp] theorem exec_nakFlit link seq (s : State) : exec (.nakFlit link seq) s = execNakFlit link seq s := rfl
@[simp] theorem exec_keydone link (s : State) : exec (.keydone link) s = execKeydone link s := rfl
@[simp] theorem exec_laneFailure link lane rx (s : State) : exec (.laneFailure link lane rx) s = execLaneFailure link lane s rx := rfl
@[simp] theorem exec_retrainTimeout link (s : State) : exec (.retrainTimeout link) s = execRetrainTimeout link s := rfl
@[simp] theorem exec_putPkt pkt (s : State) : exec (.putPkt pkt) s = execPutPkt pkt s := rfl
@[simp] theorem exec_redPkt pkt (s : State) : exec (.redPkt pkt) s = execRedPkt pkt s := rfl
@[simp] theorem exec_semPkt pkt (s : State) : exec (.semPkt pkt) s = execSemPkt pkt s := rfl
@[simp] theorem exec_mcredContribution pkt (s : State) : exec (.mcredContribution pkt) s = execMcredContribution pkt s := rfl
@[simp] theorem exec_mcredRoundTimeout job group (s : State) : exec (.mcredRoundTimeout job group) s = execMcredRoundTimeout job group s := rfl
@[simp] theorem exec_mcdata pkt (s : State) : exec (.mcdata pkt) s = execMcdata pkt s := rfl
@[simp] theorem exec_readPkt pkt (s : State) : exec (.readPkt pkt) s = execReadPkt pkt s := rfl
@[simp] theorem exec_atomic pkt (s : State) : exec (.atomic pkt) s = execAtomic pkt s := rfl
@[simp] theorem exec_respPkt pkt (s : State) : exec (.respPkt pkt) s = execRespPkt pkt s := rfl
@[simp] theorem exec_ackPkt pkt (s : State) : exec (.ackPkt pkt) s = execAckPkt pkt s := rfl
@[simp] theorem exec_timeSyncExchange t1 t2 t3 t4 (s : State) : exec (.timeSyncExchange t1 t2 t3 t4) s = execTimeSyncExchange t1 t2 t3 t4 s := rfl
@[simp] theorem exec_cpsem port value other (s : State) : exec (.cpsem port value other) s = execCpsem port value other s := rfl
@[simp] theorem exec_hostLinkDown port (s : State) : exec (.hostLinkDown port) s = execHostLinkDown port s := rfl
@[simp] theorem exec_evtdoor port part (s : State) : exec (.evtdoor port part) s = execEvtdoor port part s := rfl
@[simp] theorem exec_qerrClear port q (s : State) : exec (.qerrClear port q) s = execQerrClear port q s := rfl
@[simp] theorem exec_fltqptrHeadWrite part value (s : State) : exec (.fltqptrHeadWrite part value) s = execFltqptrHeadWrite part value s := rfl
@[simp] theorem exec_fltqbaseWrite part value (s : State) : exec (.fltqbaseWrite part value) s = execFltqbaseWrite part value s := rfl
@[simp] theorem exec_launchReq port q pkt (s : State) : exec (.launchReq port q pkt) s = execLaunchReq port q pkt s := rfl
@[simp] theorem exec_depsig port q pkt (s : State) : exec (.depsig port q pkt) s = execDepsig port q pkt s := rfl
@[simp] theorem exec_flagadd port q pkt (s : State) : exec (.flagadd port q pkt) s = execFlagadd port q pkt s := rfl
@[simp] theorem exec_packetNop port q pkt (s : State) : exec (.packetNop port q pkt) s = execPacketNop port q pkt s := rfl
@[simp] theorem exec_atsInvalidation port pasid page (s : State) : exec (.atsInvalidation port pasid page) s = execAtsInvalidation port pasid page s := rfl
@[simp] theorem exec_hostFlagAccess host part ofs kind (s : State) : exec (.hostFlagAccess host part ofs kind) s = execHostFlagAccess host part ofs kind s := rfl
@[simp] theorem exec_hostExtentAccess host ext line kind (s : State) : exec (.hostExtentAccess host ext line kind) s = execHostExtentAccess host ext line kind s := rfl
@[simp] theorem exec_snapviewPin host ext (s : State) : exec (.snapviewPin host ext) s = execSnapviewPin host ext s := rfl
@[simp] theorem exec_snapviewUnpin host ext (s : State) : exec (.snapviewUnpin host ext) s = execSnapviewUnpin host ext s := rfl
@[simp] theorem exec_extentRevoke port ext (s : State) : exec (.extentRevoke port ext) s = execExtentRevoke port ext s := rfl
@[simp] theorem exec_drainTimeout ext (s : State) : exec (.drainTimeout ext) s = execDrainTimeout ext s := rfl
@[simp] theorem exec_recallTimeout ext line (s : State) : exec (.recallTimeout ext line) s = execRecallTimeout ext line s := rfl
@[simp] theorem exec_extentZeroing ext (s : State) : exec (.extentZeroing ext) s = execExtentZeroing ext s := rfl
@[simp] theorem exec_assign port req (s : State) : exec (.assign port req) s = execAssign port req s := rfl
@[simp] theorem exec_grow port part blocks units zero (s : State) : exec (.grow port part blocks units zero) s = execGrow port part blocks units s zero := rfl
@[simp] theorem exec_shrink port part blocks units zero (s : State) : exec (.shrink port part blocks units zero) s = execShrink port part blocks units s zero := rfl
@[simp] theorem exec_remove port part zero (s : State) : exec (.remove port part zero) s = execRemove port part s zero := rfl
@[simp] theorem exec_debugpol port part policy zero (s : State) : exec (.debugpol port part policy zero) s = execDebugpol port part policy s zero := rfl
@[simp] theorem exec_imageReq port image zero (s : State) : exec (.imageReq port image zero) s = execImageReq port image s zero := rfl
@[simp] theorem exec_fwFence port unit lift zero (s : State) : exec (.fwFence port unit lift zero) s = execFwFence port unit lift s zero := rfl
@[simp] theorem exec_fwStatus port zero (s : State) : exec (.fwStatus port zero) s = execFwStatus port s zero := rfl
@[simp] theorem exec_lockInterface part (s : State) : exec (.lockInterface part) s = execLockInterface part s := rfl
@[simp] theorem exec_stopInterface part (s : State) : exec (.stopInterface part) s = execStopInterface part s := rfl
@[simp] theorem exec_startInterface part (s : State) : exec (.startInterface part) s = execStartInterface part s := rfl
@[simp] theorem exec_getDeviceInterfaceState part (s : State) : exec (.getDeviceInterfaceState part) s = execGetDeviceInterfaceState part s := rfl
@[simp] theorem exec_getDeviceInterfaceReport part (s : State) : exec (.getDeviceInterfaceReport part) s = execGetDeviceInterfaceReport part s := rfl
@[simp] theorem exec_getVersion ses msg (s : State) : exec (.getVersion ses msg) s = execGetVersion ses msg s := rfl
@[simp] theorem exec_getCapabilities ses msg (s : State) : exec (.getCapabilities ses msg) s = execGetCapabilities ses msg s := rfl
@[simp] theorem exec_negotiateAlgorithms ses msg (s : State) : exec (.negotiateAlgorithms ses msg) s = execNegotiateAlgorithms ses msg s := rfl
@[simp] theorem exec_getDigests ses msg (s : State) : exec (.getDigests ses msg) s = execGetDigests ses msg s := rfl
@[simp] theorem exec_getCertificate ses msg (s : State) : exec (.getCertificate ses msg) s = execGetCertificate ses msg s := rfl
@[simp] theorem exec_challenge ses msg (s : State) : exec (.challenge ses msg) s = execChallenge ses msg s := rfl
@[simp] theorem exec_getMeasurements ses index msg (s : State) : exec (.getMeasurements ses index msg) s = execGetMeasurements ses index msg s := rfl
@[simp] theorem exec_keyExchange ses msg (s : State) : exec (.keyExchange ses msg) s = execKeyExchange ses msg s := rfl
@[simp] theorem exec_finish ses msg (s : State) : exec (.finish ses msg) s = execFinish ses msg s := rfl
@[simp] theorem exec_keyUpdate link tx key salt ses (s : State) : exec (.keyUpdate link tx key salt ses) s = execKeyUpdate link tx key salt s ses := rfl
@[simp] theorem exec_heartbeat ses msg (s : State) : exec (.heartbeat ses msg) s = execHeartbeat ses msg s := rfl
@[simp] theorem exec_endSession ses msg (s : State) : exec (.endSession ses msg) s = execEndSession ses msg s := rfl
@[simp] theorem exec_resetDev  (s : State) : exec (.resetDev) s = execResetDev s := rfl
@[simp] theorem exec_recoveryImageLoad port image (s : State) : exec (.recoveryImageLoad port image) s = execRecoveryImageLoad port image s := rfl
@[simp] theorem exec_governorLower power junction (s : State) : exec (.governorLower power junction) s = execGovernorLower power junction s := rfl
@[simp] theorem exec_governorRaise power junction (s : State) : exec (.governorRaise power junction) s = execGovernorRaise power junction s := rfl
@[simp] theorem exec_thermalShutdown junction (s : State) : exec (.thermalShutdown junction) s = execThermalShutdown junction s := rfl
@[simp] theorem exec_patrolScrub unit (s : State) : exec (.patrolScrub unit) s = execPatrolScrub unit s := rfl
@[simp] theorem exec_correctedError unit (s : State) : exec (.correctedError unit) s = execCorrectedError unit s := rfl
@[simp] theorem exec_uncorrectedError unit (s : State) : exec (.uncorrectedError unit) s = execUncorrectedError unit s := rfl
@[simp] theorem exec_retrainingComplete link lanes ports rxLanes (s : State) : exec (.retrainingComplete link lanes ports rxLanes) s = execRetrainingComplete link lanes s ports rxLanes := rfl
@[simp] theorem exec_recallResponse ext line host dirty (s : State) : exec (.recallResponse ext line host dirty) s = execRecallResponse ext line host dirty s := rfl

end Machine
end Sys2Proof
end

