-- ==== Sys2Proof/Laws/Memories.lean ====
section
/-! SUPPORT. The canonical form of every memory: it holds after reset, and what reads, sets and writes a core, a die, a partition,
a slot or a run of bytes keeps it. -/

namespace Sys2Proof
namespace Safety

open Machine

/-! ### What the form says, and of reset -/

theorem memoriesWf_iff {s : State} : memoriesWf s = true ↔
    Memory.wf s.hbm = true ∧ Memory.wf s.host.mem = true ∧ (s.cores.all fun c => Memory.wf c.2.scr) = true ∧
    (s.dies.all fun d => Memory.wf d.2.sync) = true ∧ (s.parts.all fun p => Memory.wf p.2.flagRam) = true := by
  simp only [memoriesWf, Bool.and_eq_true, and_assoc]

theorem memoriesWf_reset : memoriesWf State.reset = true := rfl

/-- The form is that of the memories alone: every other field may change. -/
theorem memoriesWf_congr {s t : State} (h : memoriesWf s = true) (h1 : t.hbm = s.hbm) (h2 : t.host.mem = s.host.mem)
    (h3 : t.cores = s.cores) (h4 : t.dies = s.dies) (h5 : t.parts = s.parts) : memoriesWf t = true := by
  rw [memoriesWf_iff] at h ⊢; rw [h1, h2, h3, h4, h5]; exact h

/-! ### What reads a memory finds it in form -/

theorem memoriesWf_hbm {s : State} (h : memoriesWf s = true) : Memory.wf s.hbm = true := (memoriesWf_iff.1 h).1
theorem memoriesWf_hostMem {s : State} (h : memoriesWf s = true) : Memory.wf s.host.mem = true := (memoriesWf_iff.1 h).2.1
theorem memoriesWf_core {s : State} (h : memoriesWf s = true) (c : Nat) : Memory.wf (s.core c).scr = true :=
  Sparse.get_of_all (p := fun x : Core => Memory.wf x.scr) (memoriesWf_iff.1 h).2.2.1 rfl c
theorem memoriesWf_myCore {s : State} (h : memoriesWf s = true) : Memory.wf s.myCore.scr = true := memoriesWf_core h _
theorem memoriesWf_die {s : State} (h : memoriesWf s = true) (d : Nat) : Memory.wf (s.die d).sync = true :=
  Sparse.get_of_all (p := fun x : Die => Memory.wf x.sync) (memoriesWf_iff.1 h).2.2.2.1 rfl d
theorem memoriesWf_part {s : State} (h : memoriesWf s = true) (i : Nat) : Memory.wf (s.part i).flagRam = true :=
  Sparse.get_of_all (p := fun x : Partition => Memory.wf x.flagRam) (memoriesWf_iff.1 h).2.2.2.2 rfl i

/-! ### What sets a part of the machine keeps the form -/

theorem memoriesWf_setCore {s : State} (h : memoriesWf s = true) (c : Nat) {x : Core} (hx : Memory.wf x.scr = true) :
    memoriesWf (s.setCore c x) = true := by
  rw [memoriesWf_iff] at h ⊢
  exact ⟨h.1, h.2.1, Sparse.all_set (p := fun x : Core => Memory.wf x.scr) c h.2.2.1 hx, h.2.2.2⟩
theorem memoriesWf_setMyCore {s : State} (h : memoriesWf s = true) {x : Core} (hx : Memory.wf x.scr = true) :
    memoriesWf (s.setMyCore x) = true := memoriesWf_setCore h _ hx
theorem memoriesWf_setSlot {s : State} (h : memoriesWf s = true) (c k : Nat) (x : Slot) : memoriesWf (s.setSlot c k x) = true :=
  memoriesWf_setCore h c (memoriesWf_core h c)
theorem memoriesWf_setMe {s : State} (h : memoriesWf s = true) (x : Slot) : memoriesWf (s.setMe x) = true := memoriesWf_setSlot h _ _ x
theorem memoriesWf_setBlock {s : State} (h : memoriesWf s = true) (b : Nat) (x : Block) : memoriesWf (s.setBlock b x) = true :=
  memoriesWf_congr h rfl rfl rfl rfl rfl
theorem memoriesWf_setDie {s : State} (h : memoriesWf s = true) (d : Nat) {x : Die} (hx : Memory.wf x.sync = true) :
    memoriesWf (s.setDie d x) = true := by
  rw [memoriesWf_iff] at h ⊢
  exact ⟨h.1, h.2.1, h.2.2.1, Sparse.all_set (p := fun x : Die => Memory.wf x.sync) d h.2.2.2.1 hx, h.2.2.2.2⟩
theorem memoriesWf_setPart {s : State} (h : memoriesWf s = true) (i : Nat) {x : Partition} (hx : Memory.wf x.flagRam = true) :
    memoriesWf (s.setPart i x) = true := by
  rw [memoriesWf_iff] at h ⊢
  exact ⟨h.1, h.2.1, h.2.2.1, h.2.2.2.1, Sparse.all_put (p := fun x : Partition => Memory.wf x.flagRam) i h.2.2.2.2 hx⟩
theorem memoriesWf_setLine {s : State} (h : memoriesWf s = true) (c i : Nat) (x : BitVec 2) : memoriesWf (s.setLine c i x) = true :=
  memoriesWf_setCore h c (memoriesWf_core h c)
theorem memoriesWf_tick {s : State} (h : memoriesWf s = true) : memoriesWf s.tick = true := memoriesWf_congr h rfl rfl rfl rfl rfl
theorem memoriesWf_free {s : State} (h : memoriesWf s = true) : memoriesWf s.free.2 = true := memoriesWf_congr h rfl rfl rfl rfl rfl

/-- A fold of steps that keep the form keeps it. -/
theorem memoriesWf_foldl {α : Type} {f : State → α → State} (hf : ∀ s x, memoriesWf s = true → memoriesWf (f s x) = true) (l : List α)
    {s : State} (h : memoriesWf s = true) : memoriesWf (l.foldl f s) = true := by
  induction l generalizing s with
  | nil => exact h
  | cons x r ih => exact ih (hf s x h)

/-! ### What writes bytes keeps the form -/

theorem memoriesWf_touchCode {s : State} (h : memoriesWf s = true) (b : Bool) (a n : Nat) : memoriesWf (touchCode s b a n) = true :=
  memoriesWf_congr h rfl rfl rfl rfl rfl
theorem memoriesWf_wrHbm {s : State} (h : memoriesWf s = true) (a : Nat) (bs : List Byte) : memoriesWf (s.wrHbm a bs) = true := by
  have h' : memoriesWf (if s.blocks.isEmpty then s else touchCode s false a bs.length) = true := by
    split
    · exact h
    · exact memoriesWf_touchCode h _ _ _
  rw [memoriesWf_iff] at h' ⊢
  exact ⟨Memory.wf_write a bs h'.1, h'.2⟩
theorem memoriesWf_postHost {s : State} (h : memoriesWf s = true) (part task : Option Nat) (a : Nat) (bs : List Byte) (bad : Bool) :
    memoriesWf (s.postHost part task a bs bad) = true := by
  have h' : memoriesWf (if s.blocks.isEmpty then s else touchCode s true a bs.length) = true := by
    split
    · exact h
    · exact memoriesWf_touchCode h _ _ _
  exact memoriesWf_congr h' rfl rfl rfl rfl rfl
theorem memoriesWf_snapCopy {s : State} (h : memoriesWf s = true) (x page : Nat) : memoriesWf (s.snapCopy x page) = true := by
  unfold State.snapCopy
  simp only
  split
  · split
    · exact h
    · generalize hu : s.wrHbm _ _ = u
      have hw : memoriesWf u = true := hu ▸ memoriesWf_wrHbm h _ _
      exact memoriesWf_congr hw rfl rfl rfl rfl rfl
  · exact h
theorem memoriesWf_wrOpen {s : State} (h : memoriesWf s = true) (a : Nat) (bs : List Byte) : memoriesWf (s.wrOpen a bs) = true := by
  unfold State.wrOpen
  split
  · exact memoriesWf_wrHbm h _ _
  · exact memoriesWf_foldl (f := fun s p => s.setPart p { s.part p with tdi := .error })
      (fun s p hs => memoriesWf_setPart hs p (memoriesWf_part hs p)) _ h
theorem memoriesWf_setExt {s : State} (h : memoriesWf s = true) (x : Nat) (e : Extent) : memoriesWf (s.setExt x e) = true :=
  memoriesWf_congr h rfl rfl rfl rfl rfl
theorem memoriesWf_writeSeg {s : State} (h : memoriesWf s = true) (g : Seg) (bs : List Byte) : memoriesWf (writeSeg s g bs) = true := by
  unfold writeSeg
  split
  · exact h
  · exact h
  · exact h
  · exact memoriesWf_setCore h _ (Memory.wf_write _ _ (memoriesWf_core h _))
  · exact memoriesWf_setDie h _ (Memory.wf_write _ _ (memoriesWf_die h _))
  · exact memoriesWf_setPart h _ (Memory.wf_write _ _ (memoriesWf_part h _))
  · exact memoriesWf_setBlock h _ _
  · split
    · exact h
    · exact memoriesWf_wrOpen h _ _
  · split
    · exact h
    · split
      · exact memoriesWf_congr h rfl rfl rfl rfl rfl
      exact memoriesWf_congr (memoriesWf_wrOpen (memoriesWf_foldl (fun s p hs => memoriesWf_snapCopy hs _ p) _ h) _ _) rfl rfl rfl rfl rfl
  · exact memoriesWf_postHost h _ _ _ _ _
theorem memoriesWf_writeSegs {s : State} (h : memoriesWf s = true) (gs : List Seg) (bs : List Byte) :
    memoriesWf (writeSegs s gs bs) = true := by
  induction gs generalizing s bs with
  | nil => exact h
  | cons g r ih => exact ih (memoriesWf_writeSeg h g _) _

end Safety
end Sys2Proof
end

