-- ==== Sys2Proof/Laws/Words.lean ====
section
/-! SUPPORT. How each family of words runs: an enabled word does its effect, a nullified one what its family leaves, and the group
goes on.  One law per shared operation, which the statements' proofs cite. -/

namespace Sys2Proof
namespace Machine
open Safety

theorem runPlain_enabled (h : Hdr) (s : State) (eff : State → WRes) (he : s.me.enabled h = true) :
    runPlain h s eff = ended (eff s) := by
  simp only [runPlain, runWord, he, if_true]
  cases eff s <;> rfl

theorem runPlain_nullified (h : Hdr) (s : State) (eff : State → WRes) (he : s.me.enabled h = false) : runPlain h s eff = did s := by
  simp [runPlain, runWord, he, did]

theorem runWord_enabled (h : Hdr) (s : State) (eff : State → WRes) (nul : State → State) (he : s.me.enabled h = true) :
    runWord h s eff nul = ended (eff s) := by
  simp only [runWord, he, if_true]
  cases eff s <;> rfl

theorem runWord_nullified (h : Hdr) (s : State) (eff : State → WRes) (nul : State → State) (he : s.me.enabled h = false) :
    runWord h s eff nul = did (nul s) := by
  simp [runWord, he, did]

theorem runScalar_enabled (h : Hdr) (s : State) (lat : Nat) (dst : RegRef) (f : Slot → Word × Fl) (he : s.me.enabled h = true) :
    runScalar h s lat dst f = did (result s lat dst (f s.me).1 (f s.me).2) := by
  rw [runScalar, runWord_enabled _ _ _ _ he]; rfl

theorem runScalar_nullified (h : Hdr) (s : State) (lat : Nat) (dst : RegRef) (f : Slot → Word × Fl) (he : s.me.enabled h = false) :
    runScalar h s lat dst f = did (s.setMe (s.me.nullResult lat dst)) := by
  rw [runScalar, runWord_nullified _ _ _ _ he]

theorem runEng_task (h : Hdr) (f : FmtE) (s : State) (eff : Eng → State → GRes) (hr : s.inRoutine = none)
    (he : s.me.enabled h = true) :
    runEng h f s eff = match eff (s.me.eng f.wu.toNat) s with
      | .ok t => did t
      | .fault c i t => faulted c i t
      | .walk a k t => walked a k t
      | .stall => .next s := by
  simp only [runEng, hr, he, if_true]
  cases eff (s.me.eng f.wu.toNat) s <;> rfl

theorem runEng_routine (h : Hdr) (f : FmtE) (s : State) (eff : Eng → State → GRes) (c u : Nat) (r : Routine)
    (hr : s.inRoutine = some (c, u)) (h2 : s.running c u = some r) :
    runEng h f s eff = .next (match eff (r.eng u) s with
      | .ok t => t.setRun c u (some (((t.running c u).getD r).next))
      | .fault x _ t => t.routineFault c u x
      | .walk _ _ t => t
      | .stall => s) := by
  simp only [runEng, hr, h2]

theorem runSys_legal (h : Hdr) (s : State) (legal : Level → Bool) (eff : State → WRes) (hl : legal s.me.level = true)
    (he : s.me.enabled h = true) : runSys h s legal eff = ended (eff s) := by
  rw [runSys, if_pos hl, runPlain_enabled _ _ _ he]

theorem runSys_refused (h : Hdr) (s : State) (legal : Level → Bool) (eff : State → WRes) (hl : legal s.me.level = false) :
    runSys h s legal eff = .next (s.takeTrap ⟨.priv, 0, s.me.wpc⟩ .g s.me.group.pc) := by
  simp [runSys, hl]

theorem runSeq_outside (s : State) (eff : Eng → Routine → State → Except Cause (Routine × State)) (hr : s.inRoutine = none) :
    runSeq s eff = .next (s.takeTrap ⟨.mseqOutside, 0, s.me.wpc⟩ .g s.me.group.pc) := by
  simp [runSeq, hr]

theorem runSeq_routine (s : State) (eff : Eng → Routine → State → Except Cause (Routine × State)) (c u : Nat) (r : Routine)
    (hr : s.inRoutine = some (c, u)) (h2 : s.running c u = some r) :
    runSeq s eff = .next (match eff (r.eng u) r s with
      | .ok (r, t) => t.setRun c u (some r)
      | .error x => s.routineFault c u x) := by
  simp only [runSeq, hr, h2]

end Machine
end Sys2Proof
end

