-- ==== Sys2Proof/Tests/Slice0.lean ====
section
/-! SUPPORT. Tests: the words of every program instruction written from the encoding tables of 06 to 17, ill-formed terms that the
check refuses, for every statement states and operands that meet its hypotheses, and values that the manual works out. -/

namespace Sys2Proof
namespace Tests
open Machine Safety
set_option maxRecDepth 100000
set_option Elab.async false

/-! ### Small states -/

def hd : Hdr := ⟨true, 0, 0, 0⟩
def hdOff : Hdr := ⟨true, 8, 0, 0⟩
def hdT : Hdr := ⟨true, 0, 1, 0⟩
def nopWord : IWord := 1 <<< 79
def grp0 : Group := { pc := 0, words := [nopWord] }
/-- A RUNNING task at level T at a group of one word; s1 is the base of its local window, s2 is 5, s3 is misaligned. -/
def slot0 : Slot :=
  { st := .running, id := taskOf, grp := some grp0,
    files := { s := [(1, 0xFF00000000000000), (2, 5), (3, 0xFF00000000000001), (4, 0xFF00000000000100)] } }
def core0 : Core := { regions := [⟨0, 0, 1048576⟩], slots := [(0, slot0)], tlb := [identityEntry] }
def t0 : State := State.reset.setCore 0 core0
def t1 : State := { t0 with fw := { t0.fw with boot := 6 }, launches := [launchOf], parts := [(0, { units := [0] })],
                            blocks := [(0, { owner := some 0 })] }
/-- `t1` with the slot changed. -/
def at_ (f : Slot → Slot) : State := t1.setMe (f slot0)
/-- `t1` with the first 256 MiB of memory mapped onto themselves by tables at 0x100000, a kernel header of a one-word handler at
0x1000, and the trap vector there. -/
def mapped : State :=
  { t1 with
    hbm := Memory.write [] 0x1000 ([0x41, 0x4B, 0x4E, 0x31, 1, 0, 0, 0, 0, 0, 0, 0, 1, 0, 0, 0, 128] ++ List.replicate 8 0 ++ [1]) ++
      [(0x100000, 1), (0x100002, 0x11), (0x110000, 1), (0x110002, 0x12), (0x120000, 1), (0x120002, 0x13), (0x130000, 0xE3),
       (0x130001, 6), (0x130009, 0xFF), (0x13000A, 0xFF), (0x13000B, 0xFF), (0x13000C, 3)]
    parts := [(0, { units := [0], trapVec := 0x1000, ptBase := 0x100000, ptCtl := 0x00010001 })] }
def rr0 : FmtRR := ⟨5, 1, 2, 0, 0, 1, 0⟩
def ri0 : FmtRI := ⟨5, 2, 7, 1, 0⟩

/-- Whether an access answers runs and a machine that satisfy `p`. -/
def accessOk (r : ARes) (p : List Seg → State → Bool) : Bool := match r with | .ok g s => p g s | _ => false
def mm0 : FmtM := ⟨5, 1, 0, 2, 0, 0, 0, 0⟩
def at0 : FmtAT := ⟨5, 1, 2, 0, 3, 0, 0⟩
def tt0 : FmtT := ⟨5, 1, 2, 0, 0, 0, 0, 0⟩


/-! ### Encodings -/

theorem test_decode_integer_1 : ∀ p ∈ ([
    (0x80914000000000000000, .nop ⟨true, 9, 0, 5⟩),
    (0x81314106FECEE1DF5550, .add ⟨true, 3, 0, 5⟩ (.ri ⟨6, 0x1FD, 0x9DC3BEAA, 0xA, 0⟩)),
    (0x82914103FEA65763C5D0, .sub ⟨true, 9, 0, 5⟩ (.ri ⟨3, 0x1FD, 0x4CAEC78B, 0xA, 0⟩)),
    (0x8391410502C496E7EA40, .mul ⟨true, 9, 0, 5⟩ (.ri ⟨5, 5, 0x892DCFD4, 8, 0⟩)),
    (0x83914304FED321817A08, .mulHi ⟨true, 9, 0, 5⟩ (.ri ⟨4, 0x1FD, 0xA64302F4, 1, 0⟩)),
    (0x84314113C2FAE85E6118, .divI ⟨true, 3, 0, 5⟩ (.ri ⟨0x13, 0x185, 0xF5D0BCC2, 3, 0⟩)),
    (0x8491430743609C4A74C0, .divRem ⟨true, 9, 0, 5⟩ (.ri ⟨7, 0x86, 0xC13894E9, 8, 0⟩)),
    (0x85314103011DDF0F0440, .andI ⟨true, 3, 0, 5⟩ (.ri ⟨3, 2, 0x3BBE1E08, 8, 0⟩)),
    (0x86314110FEA732191C48, .orI ⟨true, 3, 0, 5⟩ (.ri ⟨0x10, 0x1FD, 0x4E643238, 9, 0⟩)),
    (0x8731414EC2E541A6F718, .xorI ⟨true, 3, 0, 5⟩ (.ri ⟨0x4E, 0x185, 0xCA834DEE, 3, 0⟩))] : List (Nat × Instr)), decodeTableWord 80 p.1 = some p.2 := by decide

theorem test_decode_integer_2 : ∀ p ∈ ([
    (0x88914106C2DB20E97AC8, .andn ⟨true, 9, 0, 5⟩ (.ri ⟨6, 0x185, 0xB641D2F5, 9, 0⟩)),
    (0x8991410680049E9BC010, .shl ⟨true, 9, 0, 5⟩ (.ri ⟨6, 0x100, 0x93D3780, 2, 0⟩)),
    (0x8A314134244670AD9240, .shr ⟨true, 3, 0, 5⟩ (.ri ⟨0x34, 0x48, 0x8CE15B24, 8, 0⟩)),
    (0x8B91416014B4D2C22298, .sra ⟨true, 9, 0, 5⟩ (.ri ⟨0x60, 0x29, 0x69A58445, 3, 0⟩)),
    (0x8C914006428040000600, .rot ⟨true, 9, 0, 5⟩ (.rr ⟨6, 0x85, 1, 0, 0, 3, 0⟩)),
    (0x8D3141068168094B1440, .minI ⟨true, 3, 0, 5⟩ (.ri ⟨6, 0x102, 0xD0129628, 8, 0⟩)),
    (0x8D91430443D1F50F8E10, .maxI ⟨true, 9, 0, 5⟩ (.ri ⟨4, 0x87, 0xA3EA1F1C, 2, 0⟩)),
    (0x8E91430743FF40000600, .cmp ⟨true, 9, 0, 5⟩ .le (.rr ⟨7, 0x87, 0x1FD, 0, 0, 3, 0⟩)),
    (0x8F3140030018C0000200, .sel ⟨true, 3, 0, 5⟩ ⟨3, 0, 0x63, 0, 0, 1, 0⟩),
    (0x90914101006D9E905B0C, .movi ⟨true, 9, 0, 5⟩ ⟨1, 0, 0xDB3D20B6, 1, 4⟩)] : List (Nat × Instr)), decodeTableWord 80 p.1 = some p.2 := by decide

theorem test_decode_integer_3 : ∀ p ∈ ([
    (0x90314354010866F91388, .movhi ⟨true, 3, 0, 5⟩ ⟨0x54, 2, 0x10CDF227, 1, 0⟩),
    (0x91300104027140B1CC09, .lea ⟨true, 3, 0, 0⟩ (.ri ⟨4, 4, 0xE2816398, 1, 1⟩))] : List (Nat × Instr)), decodeTableWord 80 p.1 = some p.2 := by decide

theorem test_decode_bits_1 : ∀ p ∈ ([
    (0x9231405DFE8000000000, .bitsClz ⟨true, 3, 0, 5⟩ ⟨0x5D, 0x1FD, 0, 0, 0, 0, 0⟩),
    (0x92314102FE8000001000, .bitsCtz ⟨true, 3, 0, 5⟩ ⟨2, 0x1FD, 0, 0, 0, 8, 0⟩),
    (0x92914207FE8000001600, .bitsPopc ⟨true, 9, 0, 5⟩ ⟨7, 0x1FD, 0, 0, 0, 0xB, 0⟩),
    (0x92314306020000001400, .bitsBrev ⟨true, 3, 0, 5⟩ ⟨6, 4, 0, 0, 0, 0xA, 0⟩),
    (0x9231440347803FA01600, .bitsBfx ⟨true, 3, 0, 5⟩ ⟨3, 0x8F, 0, 0x1FD, 0, 0xB, 0⟩),
    (0x92914500C2FF7FA01000, .bitsBfi ⟨true, 9, 0, 5⟩ ⟨0, 0x185, 0x1FD, 0x1FD, 0, 8, 0⟩),
    (0x92314641000000000000, .bitsAbs ⟨true, 3, 0, 5⟩ ⟨0x41, 0, 0, 0, 0, 0, 0⟩),
    (0x92314707000000001400, .bitsNeg ⟨true, 3, 0, 5⟩ ⟨7, 0, 0, 0, 0, 0xA, 0⟩),
    (0x93014002028180000000, .plogAnd ⟨true, 0, 0, 5⟩ ⟨2, 5, 6, 0, 0, 0, 0⟩),
    (0x93314104000000000000, .plogOr ⟨true, 3, 0, 5⟩ ⟨4, 0, 0, 0, 0, 0, 0⟩)] : List (Nat × Instr)), decodeTableWord 80 p.1 = some p.2 := by decide

theorem test_decode_bits_2 : ∀ p ∈ ([
    (0x93914203020000000000, .plogXor ⟨true, 9, 0, 5⟩ ⟨3, 4, 0, 0, 0, 0, 0⟩),
    (0x933003000380C0000003, .plogAndn ⟨true, 3, 0, 0⟩ ⟨0, 7, 3, 0, 0, 0, 3⟩)] : List (Nat × Instr)), decodeTableWord 80 p.1 = some p.2 := by decide

theorem test_decode_float_1 : ∀ p ∈ ([
    (0x94314002026140000800, .fadd ⟨true, 3, 0, 5⟩ ⟨2, 4, 0x185, 0, 0, 4, 0⟩),
    (0x94314100C2C100000800, .faddSub ⟨true, 3, 0, 5⟩ ⟨0, 0x185, 0x104, 0, 0, 4, 0⟩),
    (0x953000070182C0000800, .fmul ⟨true, 3, 0, 0⟩ ⟨7, 3, 0xB, 0, 0, 4, 0⟩),
    (0x9691400100217FA00A00, .fma ⟨true, 9, 0, 5⟩ ⟨1, 0, 0x85, 0x1FD, 0, 5, 0⟩),
    (0x96014175118046A00A00, .fmaFms ⟨true, 0, 0, 5⟩ ⟨0x75, 0x23, 1, 0x35, 0, 5, 0⟩),
    (0x9691422EC282FFA00800, .fmaFnma ⟨true, 9, 0, 5⟩ ⟨0x2E, 0x185, 0xB, 0x1FD, 0, 4, 0⟩),
    (0x97914030148040000E00, .fdiv ⟨true, 9, 0, 5⟩ ⟨0x30, 0x29, 1, 0, 0, 7, 0⟩),
    (0x97914100038000000800, .fdivSqrt ⟨true, 9, 0, 5⟩ ⟨0, 7, 0, 0, 0, 4, 0⟩),
    (0x98900001000140000C00, .fmin ⟨true, 9, 0, 0⟩ ⟨1, 0, 5, 0, 0, 6, 0⟩),
    (0x983141008197C0000800, .fmax ⟨true, 3, 0, 5⟩ ⟨0, 0x103, 0x5F, 0, 0, 4, 0⟩)] : List (Nat × Instr)), decodeTableWord 80 p.1 = some p.2 := by decide

theorem test_decode_float_2 : ∀ p ∈ ([
    (0x98914900FEFF40000800, .fcmp ⟨true, 9, 0, 5⟩ .ne ⟨0, 0x1FD, 0x1FD, 0, 0, 4, 0⟩),
    (0x99314027420000000600, .fcvt ⟨true, 3, 0, 5⟩ ⟨0x27, 0x84, 0, 0, 0, 3, 0⟩)] : List (Nat × Instr)), decodeTableWord 80 p.1 = some p.2 := by decide

theorem test_decode_control : ∀ p ∈ ([
    (0x9A3140B752918A000000, .br ⟨true, 3, 0, 5⟩ ⟨0xB752918A⟩),
    (0x9B914000FE8000000000, .jmp ⟨true, 9, 0, 5⟩ ⟨0, 0x1FD, 0, 0, 0, 0, 0⟩),
    (0x9B314101010000000000, .call ⟨true, 3, 0, 5⟩ ⟨1, 2, 0, 0, 0, 0, 0⟩),
    (0x9B914200818000000000, .ret ⟨true, 9, 0, 5⟩ ⟨0, 0x103, 0, 0, 0, 0, 0⟩),
    (0x9C314020BE0F80000000, .loopI ⟨true, 3, 0, 5⟩ ⟨0x41, 0x7C1F⟩),
    (0x9C314100000000000000, .brkl ⟨true, 3, 0, 5⟩),
    (0x1D0000DD000000000000, .rpt ⟨false, 0, 0, 0⟩ ⟨0x37, 4⟩),
    (0x9E9140000C8000000000, .trap ⟨true, 9, 0, 5⟩ ⟨0, 0x19, 0, 0, 0, 0, 0⟩)] : List (Nat × Instr)), decodeTableWord 80 p.1 = some p.2 := by decide

theorem test_decode_vector_integer_1 : ∀ p ∈ ([
    (0xA031403702E140060000, .vadd ⟨true, 3, 0, 5⟩ ⟨0x37, 5, 0x185, 0, 0x30, 0, 0⟩),
    (0xA191401001A100061000, .vsub ⟨true, 9, 0, 5⟩ ⟨0x10, 3, 0x84, 0, 0x30, 8, 0⟩),
    (0xA2914005C2E14001E200, .vmul ⟨true, 9, 0, 5⟩ ⟨5, 0x185, 0x185, 0, 0xF, 1, 0⟩),
    (0xA230012D8241C0002600, .vmulHi ⟨true, 3, 0, 0⟩ ⟨0x2D, 0x104, 0x107, 0, 1, 3, 0⟩),
    (0xA39000040D7F60DFE400, .vmad ⟨true, 9, 0, 0⟩ ⟨4, 0x1A, 0x1FD, 0x106, 0xFF, 2, 0⟩),
    (0xA4300002C28B80061600, .vlogAnd ⟨true, 3, 0, 0⟩ ⟨2, 0x185, 0x2E, 0, 0x30, 0xB, 0⟩),
    (0xA4314104834180002200, .vlogOr ⟨true, 3, 0, 5⟩ ⟨4, 0x106, 0x106, 0, 1, 1, 0⟩),
    (0xA43142064280C0007400, .vlogXor ⟨true, 3, 0, 5⟩ ⟨6, 0x85, 3, 0, 3, 0xA, 0⟩),
    (0xA4900301418140002400, .vlogAndn ⟨true, 9, 0, 0⟩ ⟨1, 0x83, 5, 0, 1, 2, 0⟩),
    (0xA59140220B01C001E400, .vshShl ⟨true, 9, 0, 5⟩ ⟨0x22, 0x16, 7, 0, 0xF, 2, 0⟩)] : List (Nat × Instr)), decodeTableWord 80 p.1 = some p.2 := by decide

theorem test_decode_vector_integer_2 : ∀ p ∈ ([
    (0xA5314105817F40006200, .vshShr ⟨true, 3, 0, 5⟩ ⟨5, 0x102, 0x1FD, 0, 3, 1, 0⟩),
    (0xA531423542C140006400, .vshSra ⟨true, 3, 0, 5⟩ ⟨0x35, 0x85, 0x105, 0, 3, 2, 0⟩),
    (0xA59143001BA0C0007400, .vshRot ⟨true, 9, 0, 5⟩ ⟨0, 0x37, 0x83, 0, 3, 0xA, 0⟩),
    (0xA691401B13C08001E600, .vmin ⟨true, 9, 0, 5⟩ ⟨0x1B, 0x27, 0x102, 0, 0xF, 3, 0⟩),
    (0xA6314107007F401FF000, .vmax ⟨true, 3, 0, 5⟩ ⟨7, 0, 0x1FD, 0, 0xFF, 8, 0⟩),
    (0xA731430600E140002200, .vcmp ⟨true, 3, 0, 5⟩ .le ⟨6, 1, 0x185, 0, 1, 1, 0⟩),
    (0xA8014024C28E00006000, .vsel ⟨true, 0, 0, 5⟩ ⟨0x24, 0x185, 0x38, 0, 3, 0, 0⟩)] : List (Nat × Instr)), decodeTableWord 80 p.1 = some p.2 := by decide

theorem test_decode_vector_float_1 : ∀ p ∈ ([
    (0xA991400783614001E800, .vfadd ⟨true, 9, 0, 5⟩ ⟨7, 0x106, 0x185, 0, 0xF, 4, 0⟩),
    (0xA9914107007F40006800, .vfaddSub ⟨true, 9, 0, 5⟩ ⟨7, 0, 0x1FD, 0, 3, 4, 0⟩),
    (0xAA314002004140060800, .vfmul ⟨true, 3, 0, 5⟩ ⟨2, 0, 0x105, 0, 0x30, 4, 0⟩),
    (0xAB900020C2E170BFEA00, .vfma ⟨true, 9, 0, 0⟩ ⟨0x20, 0x185, 0x185, 0x185, 0xFF, 5, 0⟩),
    (0xAB90010E027F7FA60E00, .vfmaFms ⟨true, 9, 0, 0⟩ ⟨0xE, 4, 0x1FD, 0x1FD, 0x30, 7, 0⟩),
    (0xAB914206FE8120002C00, .vfmaFnma ⟨true, 9, 0, 5⟩ ⟨6, 0x1FD, 4, 0x100, 1, 6, 0⟩),
    (0xAC914001C28040006C00, .vfmin ⟨true, 9, 0, 5⟩ ⟨1, 0x185, 1, 0, 3, 6, 0⟩),
    (0xAC314105000D40060A00, .vfmax ⟨true, 3, 0, 5⟩ ⟨5, 0, 0x35, 0, 0x30, 5, 0⟩),
    (0xAD000400000A40002A00, .vfcmp ⟨true, 0, 0, 0⟩ .gt ⟨0, 0, 0x29, 0, 1, 5, 0⟩),
    (0xAE914003000000002800, .vsfRcp ⟨true, 9, 0, 5⟩ ⟨3, 0, 0, 0, 1, 4, 0⟩)] : List (Nat × Instr)), decodeTableWord 80 p.1 = some p.2 := by decide

theorem test_decode_vector_float_2 : ∀ p ∈ ([
    (0xAE300100400000002800, .vsfRsqrt ⟨true, 3, 0, 0⟩ ⟨0, 0x80, 0, 0, 1, 4, 0⟩),
    (0xAE3142008080001FE800, .vsfExp2 ⟨true, 3, 0, 5⟩ ⟨0, 0x101, 0, 0, 0xFF, 4, 0⟩),
    (0xAE000300FE8000006800, .vsfLog2 ⟨true, 0, 0, 0⟩ ⟨0, 0x1FD, 0, 0, 3, 4, 0⟩),
    (0xAE014400000000006800, .vsfSin ⟨true, 0, 0, 5⟩ ⟨0, 0, 0, 0, 3, 4, 0⟩),
    (0xAE000502FE8000060800, .vsfCos ⟨true, 0, 0, 0⟩ ⟨2, 0x1FD, 0, 0, 0x30, 4, 0⟩),
    (0xAE014606070000060800, .vsfTanh ⟨true, 0, 0, 5⟩ ⟨6, 0xE, 0, 0, 0x30, 4, 0⟩),
    (0xAE3007000000001FE800, .vsfSigm ⟨true, 3, 0, 0⟩ ⟨0, 0, 0, 0, 0xFF, 4, 0⟩),
    (0xAF31400003800001E3D7, .vcvt ⟨true, 3, 0, 5⟩ ⟨0, 7, 0, 0, 0xF, 1, 0x1D7⟩),
    (0xAF31411B836140006804, .vcvtBsPack ⟨true, 3, 0, 5⟩ ⟨0x1B, 0x106, 0x185, 0, 3, 4, 4⟩),
    (0xAF900100000000060824, .vcvtBsUnpack ⟨true, 9, 0, 0⟩ ⟨0, 0, 0, 0, 0x30, 4, 0x24⟩)] : List (Nat × Instr)), decodeTableWord 80 p.1 = some p.2 := by decide

theorem test_decode_vector_permute_1 : ∀ p ∈ ([
    (0xB030001A80C180002000, .vshuf ⟨true, 3, 0, 0⟩ ⟨0x1A, 0x101, 0x106, 0, 1, 0, 0⟩),
    (0xB1314010818000002600, .vredAdd ⟨true, 3, 0, 5⟩ ⟨0x10, 0x103, 0, 0, 1, 3, 0⟩),
    (0xB1314138000000002200, .vredMin ⟨true, 3, 0, 5⟩ ⟨0x38, 0, 0, 0, 1, 1, 0⟩),
    (0xB1300206808000002600, .vredMax ⟨true, 3, 0, 0⟩ ⟨6, 0x101, 0, 0, 1, 3, 0⟩),
    (0xB290003A0D80001FE003, .vxcp ⟨true, 9, 0, 0⟩ ⟨0x3A, 0x1B, 0, 0, 0xFF, 0, 3⟩),
    (0xB3914002FE80001FEE00, .vsplat ⟨true, 9, 0, 5⟩ ⟨2, 0x1FD, 0, 0, 0xFF, 7, 0⟩),
    (0xB490000083C1C0002200, .vext ⟨true, 9, 0, 0⟩ ⟨0, 0x107, 0x107, 0, 1, 1, 0⟩),
    (0xB531400423000001F200, .viota ⟨true, 3, 0, 5⟩ ⟨4, 0x46, 0, 0, 0xF, 9, 0⟩),
    (0xB601400DC2C14001E000, .vrng ⟨true, 0, 0, 5⟩ ⟨0xD, 0x185, 0x105, 0, 0xF, 0, 0⟩),
    (0xB79140030000001FE000, .vplogAnd ⟨true, 9, 0, 5⟩ ⟨3, 0, 0, 0, 0xFF, 0, 0⟩)] : List (Nat × Instr)), decodeTableWord 80 p.1 = some p.2 := by decide

theorem test_decode_vector_permute_2 : ∀ p ∈ ([
    (0xB731410400000001E000, .vplogOr ⟨true, 3, 0, 5⟩ ⟨4, 0, 0, 0, 0xF, 0, 0⟩),
    (0xB7314207000000002000, .vplogXor ⟨true, 3, 0, 5⟩ ⟨7, 0, 0, 0, 1, 0, 0⟩),
    (0xB79143070000C01FE000, .vplogAndn ⟨true, 9, 0, 5⟩ ⟨7, 0, 3, 0, 0xFF, 0, 0⟩),
    (0xB831400700000001E000, .vpcnt ⟨true, 3, 0, 5⟩ ⟨7, 0, 0, 0, 0xF, 0, 0⟩)] : List (Nat × Instr)), decodeTableWord 80 p.1 = some p.2 := by decide

theorem test_decode_memory_1 : ∀ p ∈ ([
    (0xC0940000008F802E1982, .ld ⟨true, 9, 2, 0⟩ ⟨0, 2, 0x3E00B8, 3, 1, 4, 0, 2⟩),
    (0xC13000036143E5025222, .st ⟨true, 3, 0, 0⟩ ⟨6, 0x185, 0xF9409, 2, 2, 1, 0, 2⟩),
    (0xC295400000F7530B2800, .ldv ⟨true, 9, 2, 5⟩ ⟨0, 3, 0xDD4C2C, 5, 0, 0, 0, 0⟩),
    (0xC3014083835EF71DE23E, .stv ⟨true, 0, 0, 5⟩ ⟨0x107, 0xD, 0x7BDC77, 4, 2, 1, 7, 2⟩),
    (0xC405400000C2522FFC00, .vgath ⟨true, 0, 2, 5⟩ ⟨0, 3, 0x12, 2, 2, 1, 3, 0xFF⟩),
    (0xC5914083E17FA950C000, .vscat ⟨true, 9, 0, 5⟩ ⟨0x107, 0x185, 0x1FD, 1, 1, 2, 4, 0x30⟩),
    (0xC6354000038180091000, .atomAdd ⟨true, 3, 2, 5⟩ ⟨0, 7, 6, 0, 2, 2, 1⟩),
    (0xC635413500614009B000, .atomAnd ⟨true, 3, 2, 5⟩ ⟨0x35, 0, 0x185, 0, 2, 3, 3⟩),
    (0xC6940260410F800D0000, .atomOr ⟨true, 9, 2, 0⟩ ⟨0x60, 0x82, 0x3E, 0, 3, 2, 0⟩),
    (0xC635435AFE81C0093000, .atomXor ⟨true, 3, 2, 5⟩ ⟨0x5A, 0x1FD, 7, 0, 2, 2, 3⟩)] : List (Nat × Instr)), decodeTableWord 80 p.1 = some p.2 := by decide

theorem test_decode_memory_2 : ∀ p ∈ ([
    (0xC6354400450E400CA000, .atomMin ⟨true, 3, 2, 5⟩ ⟨0, 0x8A, 0x39, 0, 3, 1, 2⟩),
    (0xC6354500000080088000, .atomMax ⟨true, 3, 2, 5⟩ ⟨0, 0, 2, 0, 2, 1, 0⟩),
    (0xC6940606007F40099000, .atomSwap ⟨true, 9, 2, 0⟩ ⟨6, 0, 0x1FD, 0, 2, 3, 1⟩),
    (0xC6354701FEC0CE48C000, .atomCas ⟨true, 3, 2, 5⟩ ⟨1, 0x1FD, 0x103, 0x72, 2, 1, 4⟩),
    (0xC605480009800008C000, .atomFadd ⟨true, 0, 2, 5⟩ ⟨0, 0x13, 0, 0, 2, 1, 4⟩),
    (0xC6054922000000099000, .atomBfadd ⟨true, 0, 2, 5⟩ ⟨0x22, 0, 0, 0, 2, 3, 1⟩),
    (0xC7354041000000000040, .fence ⟨true, 3, 2, 5⟩ ⟨0x82, 0, 0, 0, 0, 2, 0, 0⟩),
    (0xC831400003C0800C0000, .flagI ⟨true, 3, 0, 5⟩ ⟨0, 7, 0x102, 0, 3, 0, 0⟩),
    (0xC995407105C000000160, .waitf ⟨true, 9, 2, 5⟩ ⟨0x71, 0xB, 0x100, 0, 0, 5, 1, 0⟩),
    (0xC934010340FF7FA00060, .waitfT ⟨true, 3, 2, 0⟩ ⟨3, 0x81, 0x1FD, 0x1FD, 0, 1, 1, 0⟩)] : List (Nat × Instr)), decodeTableWord 80 p.1 = some p.2 := by decide

theorem test_decode_memory_3 : ∀ p ∈ ([
    (0xCA914083FF4F562EC000, .cflushWb ⟨true, 9, 0, 5⟩ ⟨0x107, 0x1FD, 0x3D58BB, 0, 0, 0, 0, 0⟩),
    (0xCA914181099580D3C000, .cflushInv ⟨true, 9, 0, 5⟩ ⟨0x102, 0x26, 0x56034F, 0, 0, 0, 0, 0⟩),
    (0xCA3142FEE155C015C000, .cflushWbinv ⟨true, 3, 0, 5⟩ ⟨0x1FD, 0x185, 0x570057, 0, 0, 0, 0, 0⟩)] : List (Nat × Instr)), decodeTableWord 80 p.1 = some p.2 := by decide

theorem test_decode_task_1 : ∀ p ∈ ([
    (0xD231400000C8CDA08001, .pref ⟨true, 3, 0, 5⟩ ⟨0, 3, 0x233682, 0, 0, 0, 0, 1⟩),
    (0xCB95406C4661609BCB70, .cpy ⟨true, 9, 2, 5⟩ ⟨0x6C, 0x8C, 0x185, 0x104, 0xDE5, 5, 1, 1⟩),
    (0xCB954166366140000070, .cpyScale ⟨true, 9, 2, 5⟩ ⟨0x66, 0x6C, 0x185, 0, 0, 1, 1, 1⟩),
    (0xCC91400000FF7FA00000, .ringBind ⟨true, 9, 0, 5⟩ ⟨0, 1, 0x1FD, 0x1FD, 0, 0, 0, 0⟩),
    (0xCC954103000000000000, .ringGet ⟨true, 9, 2, 5⟩ ⟨3, 0, 0, 0, 0, 0, 0, 0⟩),
    (0xCC314200000000000000, .ringCommit ⟨true, 3, 0, 5⟩ ⟨0, 0, 0, 0, 0, 0, 0, 0⟩),
    (0xCC914300000000000000, .ringEos ⟨true, 9, 0, 5⟩ ⟨0, 0, 0, 0, 0, 0, 0, 0⟩),
    (0xCC314400000000000000, .ringFree ⟨true, 3, 0, 5⟩ ⟨0, 0, 0, 0, 0, 0, 0, 0⟩),
    (0xCC954505000000000000, .ringStat ⟨true, 9, 2, 5⟩ ⟨5, 0, 0, 0, 0, 0, 0, 0⟩),
    (0xCD314000C28000000000, .spawn ⟨true, 3, 0, 5⟩ ⟨0, 0x185, 0, 0, 0, 0, 0, 0⟩)] : List (Nat × Instr)), decodeTableWord 80 p.1 = some p.2 := by decide

theorem test_decode_task_2 : ∀ p ∈ ([
    (0xCD314100378000000000, .spawnL ⟨true, 3, 0, 5⟩ ⟨0, 0x6F, 0, 0, 0, 0, 0, 0⟩),
    (0xCE300000826140000150, .depAdd ⟨true, 3, 0, 0⟩ ⟨0, 0x104, 0x185, 0, 0, 5, 0, 1⟩),
    (0xCE9141004680000000D0, .depSignal ⟨true, 9, 0, 5⟩ ⟨0, 0x8D, 0, 0, 0, 3, 0, 1⟩),
    (0xCF914000818000000000, .suspSuspend ⟨true, 9, 0, 5⟩ ⟨0, 0x103, 0, 0, 0, 0, 0, 0⟩),
    (0xCF914100000000000000, .suspYield ⟨true, 9, 0, 5⟩ ⟨0, 0, 0, 0, 0, 0, 0, 0⟩),
    (0xCF914200000000000000, .suspFinish ⟨true, 9, 0, 5⟩ ⟨0, 0, 0, 0, 0, 0, 0, 0⟩),
    (0xD0314000000000000000, .barArrive ⟨true, 3, 0, 5⟩ ⟨0, 0, 0, 0, 0, 0, 0, 0⟩),
    (0xD0314100000000000000, .barWait ⟨true, 3, 0, 5⟩ ⟨0, 0, 0, 0, 0, 0, 0, 0⟩),
    (0xD0314200000000000000, .barBoth ⟨true, 3, 0, 5⟩ ⟨0, 0, 0, 0, 0, 0, 0, 0⟩),
    (0xD195401A000000000000, .getcCoord ⟨true, 9, 2, 5⟩ ⟨0x1A, 0, 0, 0, 0, 0, 0, 0⟩)] : List (Nat × Instr)), decodeTableWord 80 p.1 = some p.2 := by decide

theorem test_decode_task_3 : ∀ p ∈ ([
    (0xD135404B000000000200, .getcShape ⟨true, 3, 2, 5⟩ ⟨0x4B, 0, 0, 0, 1, 0, 0, 0⟩),
    (0xD13B4076000000000400, .getcLaunch ⟨true, 3, 5, 5⟩ ⟨0x76, 0, 0, 0, 2, 0, 0, 0⟩),
    (0xD19B4003000000000600, .getcCore ⟨true, 9, 5, 5⟩ ⟨3, 0, 0, 0, 3, 0, 0, 0⟩)] : List (Nat × Instr)), decodeTableWord 80 p.1 = some p.2 := by decide

theorem test_decode_remote_1 : ∀ p ∈ ([
    (0xD83400C2C07FA0000010, .rput ⟨true, 3, 2, 0⟩ ⟨0x185, 0x101, 0x1FD, 0, 0, 0, 0, 1, 0⟩),
    (0xD83141406160B8500030, .rputSig ⟨true, 3, 0, 5⟩ ⟨0x80, 0x185, 0x105, 0x185, 0, 0, 1, 1, 0⟩),
    (0xD90400C2803FA00000B0, .rcopy ⟨true, 0, 2, 0⟩ ⟨0x185, 0, 0x1FD, 0, 0, 0, 5, 1, 0⟩),
    (0xD99141FE81E098500070, .rcopySig ⟨true, 9, 0, 5⟩ ⟨0x1FD, 7, 0x104, 0x185, 0, 0, 3, 1, 0⟩),
    (0xDA0540FE810000000000, .rsem ⟨true, 0, 2, 5⟩ ⟨0x1FD, 4, 0, 0, 0, 0, 0, 0, 0⟩),
    (0xDB9140007F7FA0000790, .rred ⟨true, 9, 0, 5⟩ ⟨0, 0x1FD, 0x1FD, 0, 0, 7, 4, 1, 0⟩),
    (0xDC3140007F7FA00003B0, .mcred ⟨true, 3, 0, 5⟩ ⟨0, 0x1FD, 0x1FD, 0, 0, 3, 5, 1, 0⟩),
    (0xDD9140FE800000000000, .qpost ⟨true, 9, 0, 5⟩ ⟨0x1FD, 0, 0, 0, 0, 0, 0, 0, 0⟩),
    (0xDE314000830000000000, .mbxPost ⟨true, 3, 0, 5⟩ ⟨0, 0x106, 0, 0, 0, 0, 0, 0⟩),
    (0xDE35411A000000000000, .mbxTake ⟨true, 3, 2, 5⟩ ⟨0x1A, 0, 0, 0, 0, 0, 0, 0⟩)] : List (Nat × Instr)), decodeTableWord 80 p.1 = some p.2 := by decide

theorem test_decode_remote_2 : ∀ p ∈ ([
    (0xDE954206000000000000, .mbxStatus ⟨true, 9, 2, 5⟩ ⟨6, 0, 0, 0, 0, 0, 0, 0⟩),
    (0xDE35432C000000000000, .mbxPostnb ⟨true, 3, 2, 5⟩ ⟨0x2C, 0, 0, 0, 0, 0, 0, 0⟩),
    (0xDF954006000000000000, .rack ⟨true, 9, 2, 5⟩ ⟨6, 0, 0, 0, 0, 0, 0, 0⟩)] : List (Nat × Instr)), decodeTableWord 80 p.1 = some p.2 := by decide

theorem test_decode_engine_products_1 : ∀ p ∈ ([
    (0xE09140000000C28C0000, .wcfg ⟨true, 9, 0, 5⟩ ⟨0, 0, 0, 0x185, 0, 3, 0, 0, 0, 0, 0⟩),
    (0xE0314000000000140000, .wcfgEg ⟨true, 3, 0, 5⟩ ⟨0, 0, 0, 0, 1, 1, 0, 0, 0, 0, 0⟩),
    (0xE19000050000C2824800, .pack ⟨true, 9, 0, 0⟩ ⟨5, 0, 0, 0x185, 0, 0, 9, 0x40, 0, 0, 0⟩),
    (0xE1914001000000120000, .packRev ⟨true, 9, 0, 5⟩ ⟨1, 0, 0, 0, 1, 0, 8, 0, 0, 0, 0⟩),
    (0xE19000000000C2A00000, .packLimb ⟨true, 9, 0, 0⟩ ⟨0, 0, 0, 0x185, 2, 0, 0, 0, 0, 0, 0⟩),
    (0xE3014021030000040000, .wmulConv ⟨true, 0, 0, 5⟩ ⟨0x21, 3, 0, 0, 0, 1, 0, 0, 0, 0, 0⟩),
    (0xE30000200000001C0000, .wmulCorr ⟨true, 0, 0, 0⟩ ⟨0x20, 0, 0, 0, 1, 3, 0, 0, 0, 0, 0⟩),
    (0xE3014022000000200000, .wmulLimb ⟨true, 0, 0, 5⟩ ⟨0x22, 0, 0, 0, 2, 0, 0, 0, 0, 0, 0⟩),
    (0xE33140430000FEB40120, .wmulOuter ⟨true, 3, 0, 5⟩ ⟨0x43, 0, 0, 0x1FD, 3, 1, 0, 9, 0, 0, 0⟩),
    (0xE391404000A000400000, .wmulOuterSp ⟨true, 9, 0, 5⟩ ⟨0x40, 0, 0xA0, 0, 4, 0, 0, 0, 0, 0, 0⟩)] : List (Nat × Instr)), decodeTableWord 80 p.1 = some p.2 := by decide

theorem test_decode_engine_products_2 : ∀ p ∈ ([
    (0xE4314022000000040000, .wmacConv ⟨true, 3, 0, 5⟩ ⟨0x22, 0, 0, 0, 0, 1, 0, 0, 0, 0, 0⟩),
    (0xE4900020000000100000, .wmacCorr ⟨true, 9, 0, 0⟩ ⟨0x20, 0, 0, 0, 1, 0, 0, 0, 0, 0, 0⟩),
    (0xE43140220000002C0000, .wmacLimb ⟨true, 3, 0, 5⟩ ⟨0x22, 0, 0, 0, 2, 3, 0, 0, 0, 0, 0⟩),
    (0xE40000400000293804A0, .wmacOuter ⟨true, 0, 0, 0⟩ ⟨0x40, 0, 0, 0x52, 3, 2, 0, 0x25, 0, 0, 0⟩),
    (0xE431004300A2C2CB2A60, .wmacOuterSp ⟨true, 3, 0, 4⟩ ⟨0x43, 0, 0xA2, 0x185, 4, 2, 0xC, 0x153, 0, 0, 0⟩),
    (0xE59B400020C00002C000, .extrDigm ⟨true, 9, 5, 5⟩ ⟨0, 0x20, 0xC0, 0, 0, 0, 0xB, 0, 0, 0, 0⟩),
    (0xE50B40C02300001C00A0, .extrDigs ⟨true, 0, 5, 5⟩ ⟨0xC0, 0x23, 0, 0, 1, 3, 0, 5, 0, 0, 0⟩),
    (0xE534000020C0C2A80000, .extrLimb ⟨true, 3, 2, 0⟩ ⟨0, 0x20, 0xC0, 0x185, 2, 2, 0, 0, 0, 0, 0⟩),
    (0xE50A000043C0FEB00000, .extrTile ⟨true, 0, 5, 0⟩ ⟨0, 0x43, 0xC0, 0x1FD, 3, 0, 0, 0, 0, 0, 0⟩),
    (0xE504000040C000400000, .extrTileClr ⟨true, 0, 2, 0⟩ ⟨0, 0x40, 0xC0, 0, 4, 0, 0, 0, 0, 0, 0⟩)] : List (Nat × Instr)), decodeTableWord 80 p.1 = some p.2 := by decide

theorem test_decode_engine_1 : ∀ p ∈ ([
    (0xE6314005000000000000, .wclr ⟨true, 3, 0, 5⟩ ⟨5, 0, 0, 0, 0, 0, 0, 0, 0, 0, 0⟩),
    (0xE6914104000000040000, .wmov ⟨true, 9, 0, 5⟩ ⟨4, 0, 0, 0, 0, 1, 0, 0, 0, 0, 0⟩),
    (0xE73140008E0000000000, .sbindA ⟨true, 3, 0, 5⟩ ⟨0, 0x8E, 0, 0, 0, 0, 0, 0, 0, 0, 0⟩),
    (0xE7300000950000100000, .sbindB ⟨true, 3, 0, 0⟩ ⟨0, 0x95, 0, 0, 1, 0, 0, 0, 0, 0, 0⟩),
    (0xE7914000000000280000, .sbindUnbind ⟨true, 9, 0, 5⟩ ⟨0, 0, 0, 0, 2, 2, 0, 0, 0, 0, 0⟩),
    (0xE89540C0000000080A51, .mcall ⟨true, 9, 2, 5⟩ ⟨0xC0, 0, 0, 0, 0, 2, 0, 0x52, 4, 0, 1⟩),
    (0xE9014067000028800000, .mpld ⟨true, 0, 0, 5⟩ ⟨0x67, 0, 0, 0x51, 0, 0, 0, 0, 0, 0, 0⟩),
    (0xEA914000CB0000000000, .mldr ⟨true, 9, 0, 5⟩ ⟨0, 0xCB, 0, 0, 0, 0, 0, 0, 0, 0, 0⟩),
    (0xEA954000000000100000, .mldrEntries ⟨true, 9, 2, 5⟩ ⟨0, 0, 0, 0, 1, 0, 0, 0, 0, 0, 0⟩),
    (0xEB3140000000C2800000, .ftld ⟨true, 3, 0, 5⟩ ⟨0, 0, 0, 0x185, 0, 0, 0, 0, 0, 0, 0⟩)] : List (Nat × Instr)), decodeTableWord 80 p.1 = some p.2 := by decide

theorem test_decode_engine_2 : ∀ p ∈ ([
    (0xEC914000DE00C2800000, .scld ⟨true, 9, 0, 5⟩ ⟨0, 0xDE, 0, 0x185, 0, 0, 0, 0, 0, 0, 0⟩),
    (0xEC9540C5C900001C0000, .scldRd ⟨true, 9, 2, 5⟩ ⟨0xC5, 0xC9, 0, 0, 1, 3, 0, 0, 0, 0, 0⟩),
    (0xED3400C1A00000000000, .metaqPush ⟨true, 3, 2, 0⟩ ⟨0xC1, 0xA0, 0, 0, 0, 0, 0, 0, 0, 0, 0⟩),
    (0xED314100A20000000000, .metaqClear ⟨true, 3, 0, 5⟩ ⟨0, 0xA2, 0, 0, 0, 0, 0, 0, 0, 0, 0⟩),
    (0xEE3B40C0000000080000, .wstat ⟨true, 3, 5, 5⟩ ⟨0xC0, 0, 0, 0, 0, 2, 0, 0, 0, 0, 0⟩),
    (0xEE3141000000FE800000, .wstatClr ⟨true, 3, 0, 5⟩ ⟨0, 0, 0, 0x1FD, 0, 0, 0, 0, 0, 0, 0⟩),
    (0xEF314000000000002160, .mloop ⟨true, 3, 0, 5⟩ ⟨0, 0, 0, 0, 0, 0, 0, 0x10B, 0, 0, 0⟩),
    (0xEF314100000000200000, .mjmp ⟨true, 3, 0, 5⟩ ⟨0, 0, 0, 0, 2, 0, 0, 0, 0, 0, 0⟩),
    (0xEF314200000000000000, .mret ⟨true, 3, 0, 5⟩ ⟨0, 0, 0, 0, 0, 0, 0, 0, 0, 0, 0⟩),
    (0xF0914000000000000000, .apxb ⟨true, 9, 0, 5⟩ ⟨0, 0, 0, 0, 0, 0, 0, 0, 0, 0, 0⟩)] : List (Nat × Instr)), decodeTableWord 80 p.1 = some p.2 := by decide

theorem test_decode_engine_3 : ∀ p ∈ ([
    (0xF1914000000000000000, .apxe ⟨true, 9, 0, 5⟩ ⟨0, 0, 0, 0, 0, 0, 0, 0, 0, 0, 0⟩),
    (0xF2914000000000000000, .apxc ⟨true, 9, 0, 5⟩ ⟨0, 0, 0, 0, 0, 0, 0, 0, 0, 0, 0⟩),
    (0xF33A00C10000000004A0, .apxsRd ⟨true, 3, 5, 0⟩ ⟨0xC1, 0, 0, 0, 0, 0, 0, 0x25, 0, 0, 0⟩),
    (0xF3314100000047800420, .apxsWr ⟨true, 3, 0, 5⟩ ⟨0, 0, 0, 0x8F, 0, 0, 0, 0x21, 0, 0, 0⟩),
    (0xF3914200000000000000, .apxsInv ⟨true, 9, 0, 5⟩ ⟨0, 0, 0, 0, 0, 0, 0, 0, 0, 0, 0⟩)] : List (Nat × Instr)), decodeTableWord 80 p.1 = some p.2 := by decide

theorem test_decode_system_1 : ∀ p ∈ ([
    (0xF4354007000000000000, .csrRd ⟨true, 3, 2, 5⟩ ⟨7, 0, 0⟩),
    (0xF4914100008000000000, .csrWr ⟨true, 9, 0, 5⟩ ⟨0, 1, 0⟩),
    (0xF4314200FE8000000000, .csrSet ⟨true, 3, 0, 5⟩ ⟨0, 0x1FD, 0⟩),
    (0xF4914300030000000000, .csrClr ⟨true, 9, 0, 5⟩ ⟨0, 6, 0⟩),
    (0xF5314000000000000000, .rft ⟨true, 3, 0, 5⟩),
    (0xF635403F000000000000, .tlbiAll ⟨true, 3, 2, 5⟩ ⟨0x3F, 0, 0, 0, 0, 0, 0⟩),
    (0xF6354105C28000000000, .tlbiAddr ⟨true, 3, 2, 5⟩ ⟨5, 0x185, 0, 0, 0, 0, 0⟩),
    (0xF6954200000140000000, .tlbiCtx ⟨true, 9, 2, 5⟩ ⟨0, 0, 5, 0, 0, 0, 0⟩),
    (0xF7340044C28000000000, .ctxSave ⟨true, 3, 2, 0⟩ ⟨0x44, 0x185, 0, 0, 0, 0, 0⟩),
    (0xF7954104428000000000, .ctxRestore ⟨true, 9, 2, 5⟩ ⟨4, 0x85, 0, 0, 0, 0, 0⟩)] : List (Nat × Instr)), decodeTableWord 80 p.1 = some p.2 := by decide

theorem test_decode_system_2 : ∀ p ∈ ([
    (0xF8314000000000000000, .wfe ⟨true, 3, 0, 5⟩),
    (0xF9314000000000000000, .halt ⟨true, 3, 0, 5⟩)] : List (Nat × Instr)), decodeTableWord 80 p.1 = some p.2 := by decide


/-! ### Terms that are not well formed -/

theorem test_ill_formed_words_1 : ∀ i ∈ ([
    .nop ⟨true, 9, 5, 5⟩,
    .add ⟨true, 3, 5, 5⟩ (.ri ⟨6, 0x1FD, 0x9DC3BEAA, 0xA, 0⟩),
    .add ⟨true, 3, 0, 5⟩ (.ri ⟨0xFF, 0x1FD, 0x9DC3BEAA, 0xA, 0⟩),
    .add ⟨true, 3, 0, 5⟩ (.ri ⟨6, 0xC0, 0x9DC3BEAA, 0xA, 0⟩),
    .add ⟨true, 3, 0, 5⟩ (.ri ⟨6, 0x1FD, 0x9DC3BEAA, 0xF, 0⟩),
    .add ⟨true, 3, 0, 5⟩ (.ri ⟨6, 0x1FD, 0x9DC3BEAA, 0xA, 7⟩),
    .cmp ⟨true, 9, 5, 5⟩ .le (.rr ⟨7, 0x87, 0x1FD, 0, 0, 3, 0⟩),
    .cmp ⟨true, 9, 0, 5⟩ .le (.rr ⟨0xFF, 0x87, 0x1FD, 0, 0, 3, 0⟩),
    .cmp ⟨true, 9, 0, 5⟩ .le (.rr ⟨7, 0xC0, 0x1FD, 0, 0, 3, 0⟩),
    .cmp ⟨true, 9, 0, 5⟩ .le (.rr ⟨7, 0x87, 0xC0, 0, 0, 3, 0⟩),
    .cmp ⟨true, 9, 0, 5⟩ .le (.rr ⟨7, 0x87, 0x1FD, 0x1FF, 0, 3, 0⟩),
    .cmp ⟨true, 9, 0, 5⟩ .le (.rr ⟨7, 0x87, 0x1FD, 0, 0xFF, 3, 0⟩),
    .cmp ⟨true, 9, 0, 5⟩ .le (.rr ⟨7, 0x87, 0x1FD, 0, 0, 0xF, 0⟩),
    .cmp ⟨true, 9, 0, 5⟩ .le (.rr ⟨7, 0x87, 0x1FD, 0, 0, 3, 0x1FF⟩),
    .sel ⟨true, 3, 5, 5⟩ ⟨3, 0, 0x63, 0, 0, 1, 0⟩,
    .sel ⟨true, 3, 0, 5⟩ ⟨0xFF, 0, 0x63, 0, 0, 1, 0⟩,
    .sel ⟨true, 3, 0, 5⟩ ⟨3, 0xC0, 0x63, 0, 0, 1, 0⟩,
    .sel ⟨true, 3, 0, 5⟩ ⟨3, 0, 0xC0, 0, 0, 1, 0⟩,
    .sel ⟨true, 3, 0, 5⟩ ⟨3, 0, 0x63, 0x1FF, 0, 1, 0⟩,
    .sel ⟨true, 3, 0, 5⟩ ⟨3, 0, 0x63, 0, 0xFF, 1, 0⟩,
    .sel ⟨true, 3, 0, 5⟩ ⟨3, 0, 0x63, 0, 0, 0xF, 0⟩,
    .sel ⟨true, 3, 0, 5⟩ ⟨3, 0, 0x63, 0, 0, 1, 0x1FF⟩,
    .movi ⟨true, 9, 5, 5⟩ ⟨1, 0, 0xDB3D20B6, 1, 4⟩,
    .movi ⟨true, 9, 0, 5⟩ ⟨0xFF, 0, 0xDB3D20B6, 1, 4⟩] : List Instr), wellFormed i = false := by decide

theorem test_ill_formed_words_2 : ∀ i ∈ ([
    .movi ⟨true, 9, 0, 5⟩ ⟨1, 0x1FF, 0xDB3D20B6, 1, 4⟩,
    .movi ⟨true, 9, 0, 5⟩ ⟨1, 0, 0xDB3D20B6, 0xF, 4⟩,
    .movi ⟨true, 9, 0, 5⟩ ⟨1, 0, 0xDB3D20B6, 1, 7⟩,
    .movhi ⟨true, 3, 5, 5⟩ ⟨0x54, 2, 0x10CDF227, 1, 0⟩,
    .movhi ⟨true, 3, 0, 5⟩ ⟨0xFF, 2, 0x10CDF227, 1, 0⟩,
    .movhi ⟨true, 3, 0, 5⟩ ⟨0x54, 0xC0, 0x10CDF227, 1, 0⟩,
    .movhi ⟨true, 3, 0, 5⟩ ⟨0x54, 2, 0x10CDF227, 0xF, 0⟩,
    .movhi ⟨true, 3, 0, 5⟩ ⟨0x54, 2, 0x10CDF227, 1, 7⟩,
    .lea ⟨true, 3, 5, 0⟩ (.ri ⟨4, 4, 0xE2816398, 1, 1⟩),
    .lea ⟨true, 3, 0, 0⟩ (.ri ⟨0xFF, 4, 0xE2816398, 1, 1⟩),
    .lea ⟨true, 3, 0, 0⟩ (.ri ⟨4, 0xC0, 0xE2816398, 1, 1⟩),
    .lea ⟨true, 3, 0, 0⟩ (.ri ⟨4, 4, 0xE2816398, 0xF, 1⟩),
    .lea ⟨true, 3, 0, 0⟩ (.ri ⟨4, 4, 0xE2816398, 1, 7⟩),
    .bitsClz ⟨true, 3, 5, 5⟩ ⟨0x5D, 0x1FD, 0, 0, 0, 0, 0⟩,
    .bitsClz ⟨true, 3, 0, 5⟩ ⟨0xFF, 0x1FD, 0, 0, 0, 0, 0⟩,
    .bitsClz ⟨true, 3, 0, 5⟩ ⟨0x5D, 0xC0, 0, 0, 0, 0, 0⟩,
    .bitsClz ⟨true, 3, 0, 5⟩ ⟨0x5D, 0x1FD, 0x1FF, 0, 0, 0, 0⟩,
    .bitsClz ⟨true, 3, 0, 5⟩ ⟨0x5D, 0x1FD, 0, 0x1FF, 0, 0, 0⟩,
    .bitsClz ⟨true, 3, 0, 5⟩ ⟨0x5D, 0x1FD, 0, 0, 0xFF, 0, 0⟩,
    .bitsClz ⟨true, 3, 0, 5⟩ ⟨0x5D, 0x1FD, 0, 0, 0, 0xF, 0⟩,
    .bitsClz ⟨true, 3, 0, 5⟩ ⟨0x5D, 0x1FD, 0, 0, 0, 0, 0x1FF⟩,
    .bitsBfx ⟨true, 3, 5, 5⟩ ⟨3, 0x8F, 0, 0x1FD, 0, 0xB, 0⟩,
    .bitsBfx ⟨true, 3, 0, 5⟩ ⟨0xFF, 0x8F, 0, 0x1FD, 0, 0xB, 0⟩,
    .bitsBfx ⟨true, 3, 0, 5⟩ ⟨3, 0xC0, 0, 0x1FD, 0, 0xB, 0⟩] : List Instr), wellFormed i = false := by decide

theorem test_ill_formed_words_3 : ∀ i ∈ ([
    .bitsBfx ⟨true, 3, 0, 5⟩ ⟨3, 0x8F, 0x1FF, 0x1FD, 0, 0xB, 0⟩,
    .bitsBfx ⟨true, 3, 0, 5⟩ ⟨3, 0x8F, 0, 0xC0, 0, 0xB, 0⟩,
    .bitsBfx ⟨true, 3, 0, 5⟩ ⟨3, 0x8F, 0, 0x1FD, 0xFF, 0xB, 0⟩,
    .bitsBfx ⟨true, 3, 0, 5⟩ ⟨3, 0x8F, 0, 0x1FD, 0, 0xF, 0⟩,
    .bitsBfx ⟨true, 3, 0, 5⟩ ⟨3, 0x8F, 0, 0x1FD, 0, 0xB, 0x1FF⟩,
    .bitsBfi ⟨true, 9, 5, 5⟩ ⟨0, 0x185, 0x1FD, 0x1FD, 0, 8, 0⟩,
    .bitsBfi ⟨true, 9, 0, 5⟩ ⟨0xFF, 0x185, 0x1FD, 0x1FD, 0, 8, 0⟩,
    .bitsBfi ⟨true, 9, 0, 5⟩ ⟨0, 0xC0, 0x1FD, 0x1FD, 0, 8, 0⟩,
    .bitsBfi ⟨true, 9, 0, 5⟩ ⟨0, 0x185, 0xC0, 0x1FD, 0, 8, 0⟩,
    .bitsBfi ⟨true, 9, 0, 5⟩ ⟨0, 0x185, 0x1FD, 0xC0, 0, 8, 0⟩,
    .bitsBfi ⟨true, 9, 0, 5⟩ ⟨0, 0x185, 0x1FD, 0x1FD, 0xFF, 8, 0⟩,
    .bitsBfi ⟨true, 9, 0, 5⟩ ⟨0, 0x185, 0x1FD, 0x1FD, 0, 0xF, 0⟩,
    .bitsBfi ⟨true, 9, 0, 5⟩ ⟨0, 0x185, 0x1FD, 0x1FD, 0, 8, 0x1FF⟩,
    .bitsAbs ⟨true, 3, 5, 5⟩ ⟨0x41, 0, 0, 0, 0, 0, 0⟩,
    .bitsAbs ⟨true, 3, 0, 5⟩ ⟨0xFF, 0, 0, 0, 0, 0, 0⟩,
    .bitsAbs ⟨true, 3, 0, 5⟩ ⟨0x41, 0xC0, 0, 0, 0, 0, 0⟩,
    .bitsAbs ⟨true, 3, 0, 5⟩ ⟨0x41, 0, 0x1FF, 0, 0, 0, 0⟩,
    .bitsAbs ⟨true, 3, 0, 5⟩ ⟨0x41, 0, 0, 0x1FF, 0, 0, 0⟩,
    .bitsAbs ⟨true, 3, 0, 5⟩ ⟨0x41, 0, 0, 0, 0xFF, 0, 0⟩,
    .bitsAbs ⟨true, 3, 0, 5⟩ ⟨0x41, 0, 0, 0, 0, 0xF, 0⟩,
    .bitsAbs ⟨true, 3, 0, 5⟩ ⟨0x41, 0, 0, 0, 0, 0, 0x1FF⟩,
    .plogAnd ⟨true, 0, 5, 5⟩ ⟨2, 5, 6, 0, 0, 0, 0⟩,
    .plogAnd ⟨true, 0, 0, 5⟩ ⟨0xFF, 5, 6, 0, 0, 0, 0⟩,
    .plogAnd ⟨true, 0, 0, 5⟩ ⟨2, 0x1FF, 6, 0, 0, 0, 0⟩] : List Instr), wellFormed i = false := by decide

theorem test_ill_formed_words_4 : ∀ i ∈ ([
    .plogAnd ⟨true, 0, 0, 5⟩ ⟨2, 5, 0x1FF, 0, 0, 0, 0⟩,
    .plogAnd ⟨true, 0, 0, 5⟩ ⟨2, 5, 6, 0x1FF, 0, 0, 0⟩,
    .plogAnd ⟨true, 0, 0, 5⟩ ⟨2, 5, 6, 0, 0xFF, 0, 0⟩,
    .plogAnd ⟨true, 0, 0, 5⟩ ⟨2, 5, 6, 0, 0, 0xF, 0⟩,
    .plogAnd ⟨true, 0, 0, 5⟩ ⟨2, 5, 6, 0, 0, 0, 0x1FF⟩,
    .fadd ⟨true, 3, 5, 5⟩ ⟨2, 4, 0x185, 0, 0, 4, 0⟩,
    .fadd ⟨true, 3, 0, 5⟩ ⟨0xFF, 4, 0x185, 0, 0, 4, 0⟩,
    .fadd ⟨true, 3, 0, 5⟩ ⟨2, 0xC0, 0x185, 0, 0, 4, 0⟩,
    .fadd ⟨true, 3, 0, 5⟩ ⟨2, 4, 0xC0, 0, 0, 4, 0⟩,
    .fadd ⟨true, 3, 0, 5⟩ ⟨2, 4, 0x185, 0x1FF, 0, 4, 0⟩,
    .fadd ⟨true, 3, 0, 5⟩ ⟨2, 4, 0x185, 0, 0xFF, 4, 0⟩,
    .fadd ⟨true, 3, 0, 5⟩ ⟨2, 4, 0x185, 0, 0, 0xF, 0⟩,
    .fadd ⟨true, 3, 0, 5⟩ ⟨2, 4, 0x185, 0, 0, 4, 0x1FF⟩,
    .fma ⟨true, 9, 5, 5⟩ ⟨1, 0, 0x85, 0x1FD, 0, 5, 0⟩,
    .fma ⟨true, 9, 0, 5⟩ ⟨0xFF, 0, 0x85, 0x1FD, 0, 5, 0⟩,
    .fma ⟨true, 9, 0, 5⟩ ⟨1, 0xC0, 0x85, 0x1FD, 0, 5, 0⟩,
    .fma ⟨true, 9, 0, 5⟩ ⟨1, 0, 0xC0, 0x1FD, 0, 5, 0⟩,
    .fma ⟨true, 9, 0, 5⟩ ⟨1, 0, 0x85, 0xC0, 0, 5, 0⟩,
    .fma ⟨true, 9, 0, 5⟩ ⟨1, 0, 0x85, 0x1FD, 0xFF, 5, 0⟩,
    .fma ⟨true, 9, 0, 5⟩ ⟨1, 0, 0x85, 0x1FD, 0, 0xF, 0⟩,
    .fma ⟨true, 9, 0, 5⟩ ⟨1, 0, 0x85, 0x1FD, 0, 5, 0x1FF⟩,
    .fdivSqrt ⟨true, 9, 5, 5⟩ ⟨0, 7, 0, 0, 0, 4, 0⟩,
    .fdivSqrt ⟨true, 9, 0, 5⟩ ⟨0xFF, 7, 0, 0, 0, 4, 0⟩,
    .fdivSqrt ⟨true, 9, 0, 5⟩ ⟨0, 0xC0, 0, 0, 0, 4, 0⟩] : List Instr), wellFormed i = false := by decide

theorem test_ill_formed_words_5 : ∀ i ∈ ([
    .fdivSqrt ⟨true, 9, 0, 5⟩ ⟨0, 7, 0x1FF, 0, 0, 4, 0⟩,
    .fdivSqrt ⟨true, 9, 0, 5⟩ ⟨0, 7, 0, 0x1FF, 0, 4, 0⟩,
    .fdivSqrt ⟨true, 9, 0, 5⟩ ⟨0, 7, 0, 0, 0xFF, 4, 0⟩,
    .fdivSqrt ⟨true, 9, 0, 5⟩ ⟨0, 7, 0, 0, 0, 0xF, 0⟩,
    .fdivSqrt ⟨true, 9, 0, 5⟩ ⟨0, 7, 0, 0, 0, 4, 0x1FF⟩,
    .fcmp ⟨true, 9, 5, 5⟩ .ne ⟨0, 0x1FD, 0x1FD, 0, 0, 4, 0⟩,
    .fcmp ⟨true, 9, 0, 5⟩ .ne ⟨0xFF, 0x1FD, 0x1FD, 0, 0, 4, 0⟩,
    .fcmp ⟨true, 9, 0, 5⟩ .ne ⟨0, 0xC0, 0x1FD, 0, 0, 4, 0⟩,
    .fcmp ⟨true, 9, 0, 5⟩ .ne ⟨0, 0x1FD, 0xC0, 0, 0, 4, 0⟩,
    .fcmp ⟨true, 9, 0, 5⟩ .ne ⟨0, 0x1FD, 0x1FD, 0x1FF, 0, 4, 0⟩,
    .fcmp ⟨true, 9, 0, 5⟩ .ne ⟨0, 0x1FD, 0x1FD, 0, 0xFF, 4, 0⟩,
    .fcmp ⟨true, 9, 0, 5⟩ .ne ⟨0, 0x1FD, 0x1FD, 0, 0, 0xF, 0⟩,
    .fcmp ⟨true, 9, 0, 5⟩ .ne ⟨0, 0x1FD, 0x1FD, 0, 0, 4, 0x1FF⟩,
    .fcvt ⟨true, 3, 5, 5⟩ ⟨0x27, 0x84, 0, 0, 0, 3, 0⟩,
    .fcvt ⟨true, 3, 0, 5⟩ ⟨0xFF, 0x84, 0, 0, 0, 3, 0⟩,
    .fcvt ⟨true, 3, 0, 5⟩ ⟨0x27, 0xC0, 0, 0, 0, 3, 0⟩,
    .fcvt ⟨true, 3, 0, 5⟩ ⟨0x27, 0x84, 0x1FF, 0, 0, 3, 0⟩,
    .fcvt ⟨true, 3, 0, 5⟩ ⟨0x27, 0x84, 0, 0x1FF, 0, 3, 0⟩,
    .fcvt ⟨true, 3, 0, 5⟩ ⟨0x27, 0x84, 0, 0, 0xFF, 3, 0⟩,
    .fcvt ⟨true, 3, 0, 5⟩ ⟨0x27, 0x84, 0, 0, 0, 0xF, 0⟩,
    .fcvt ⟨true, 3, 0, 5⟩ ⟨0x27, 0x84, 0, 0, 0, 3, 0x1FF⟩,
    .jmp ⟨true, 9, 5, 5⟩ ⟨0, 0x1FD, 0, 0, 0, 0, 0⟩,
    .jmp ⟨true, 9, 0, 5⟩ ⟨0xFF, 0x1FD, 0, 0, 0, 0, 0⟩,
    .jmp ⟨true, 9, 0, 5⟩ ⟨0, 0xC0, 0, 0, 0, 0, 0⟩] : List Instr), wellFormed i = false := by decide

theorem test_ill_formed_words_6 : ∀ i ∈ ([
    .jmp ⟨true, 9, 0, 5⟩ ⟨0, 0x1FD, 0x1FF, 0, 0, 0, 0⟩,
    .jmp ⟨true, 9, 0, 5⟩ ⟨0, 0x1FD, 0, 0x1FF, 0, 0, 0⟩,
    .jmp ⟨true, 9, 0, 5⟩ ⟨0, 0x1FD, 0, 0, 0xFF, 0, 0⟩,
    .jmp ⟨true, 9, 0, 5⟩ ⟨0, 0x1FD, 0, 0, 0, 0xF, 0⟩,
    .jmp ⟨true, 9, 0, 5⟩ ⟨0, 0x1FD, 0, 0, 0, 0, 0x1FF⟩,
    .call ⟨true, 3, 5, 5⟩ ⟨1, 2, 0, 0, 0, 0, 0⟩,
    .call ⟨true, 3, 0, 5⟩ ⟨0xFF, 2, 0, 0, 0, 0, 0⟩,
    .call ⟨true, 3, 0, 5⟩ ⟨1, 0xC0, 0, 0, 0, 0, 0⟩,
    .call ⟨true, 3, 0, 5⟩ ⟨1, 2, 0x1FF, 0, 0, 0, 0⟩,
    .call ⟨true, 3, 0, 5⟩ ⟨1, 2, 0, 0x1FF, 0, 0, 0⟩,
    .call ⟨true, 3, 0, 5⟩ ⟨1, 2, 0, 0, 0xFF, 0, 0⟩,
    .call ⟨true, 3, 0, 5⟩ ⟨1, 2, 0, 0, 0, 0xF, 0⟩,
    .call ⟨true, 3, 0, 5⟩ ⟨1, 2, 0, 0, 0, 0, 0x1FF⟩,
    .loopI ⟨true, 3, 5, 5⟩ ⟨0x41, 0x7C1F⟩,
    .loopI ⟨true, 3, 0, 5⟩ ⟨0xC0, 0x7C1F⟩,
    .loopI ⟨true, 3, 0, 5⟩ ⟨0x41, 0⟩,
    .rpt ⟨false, 0, 5, 0⟩ ⟨0x37, 4⟩,
    .trap ⟨true, 9, 5, 5⟩ ⟨0, 0x19, 0, 0, 0, 0, 0⟩,
    .trap ⟨true, 9, 0, 5⟩ ⟨0xFF, 0x19, 0, 0, 0, 0, 0⟩,
    .trap ⟨true, 9, 0, 5⟩ ⟨0, 0xC0, 0, 0, 0, 0, 0⟩,
    .trap ⟨true, 9, 0, 5⟩ ⟨0, 0x19, 0x1FF, 0, 0, 0, 0⟩,
    .trap ⟨true, 9, 0, 5⟩ ⟨0, 0x19, 0, 0x1FF, 0, 0, 0⟩,
    .trap ⟨true, 9, 0, 5⟩ ⟨0, 0x19, 0, 0, 0xFF, 0, 0⟩,
    .trap ⟨true, 9, 0, 5⟩ ⟨0, 0x19, 0, 0, 0, 0xF, 0⟩] : List Instr), wellFormed i = false := by decide

theorem test_ill_formed_words_7 : ∀ i ∈ ([
    .trap ⟨true, 9, 0, 5⟩ ⟨0, 0x19, 0, 0, 0, 0, 0x1FF⟩,
    .vadd ⟨true, 3, 5, 5⟩ ⟨0x37, 5, 0x185, 0, 0x30, 0, 0⟩,
    .vadd ⟨true, 3, 0, 5⟩ ⟨0xFF, 5, 0x185, 0, 0x30, 0, 0⟩,
    .vadd ⟨true, 3, 0, 5⟩ ⟨0x37, 0xC0, 0x185, 0, 0x30, 0, 0⟩,
    .vadd ⟨true, 3, 0, 5⟩ ⟨0x37, 5, 0xC0, 0, 0x30, 0, 0⟩,
    .vadd ⟨true, 3, 0, 5⟩ ⟨0x37, 5, 0x185, 0x1FF, 0x30, 0, 0⟩,
    .vadd ⟨true, 3, 0, 5⟩ ⟨0x37, 5, 0x185, 0, 0, 0, 0⟩,
    .vadd ⟨true, 3, 0, 5⟩ ⟨0x37, 5, 0x185, 0, 0x30, 0xF, 0⟩,
    .vadd ⟨true, 3, 0, 5⟩ ⟨0x37, 5, 0x185, 0, 0x30, 0, 0x1FF⟩,
    .vmul ⟨true, 9, 5, 5⟩ ⟨5, 0x185, 0x185, 0, 0xF, 1, 0⟩,
    .vmul ⟨true, 9, 0, 5⟩ ⟨0xFF, 0x185, 0x185, 0, 0xF, 1, 0⟩,
    .vmul ⟨true, 9, 0, 5⟩ ⟨5, 0xC0, 0x185, 0, 0xF, 1, 0⟩,
    .vmul ⟨true, 9, 0, 5⟩ ⟨5, 0x185, 0xC0, 0, 0xF, 1, 0⟩,
    .vmul ⟨true, 9, 0, 5⟩ ⟨5, 0x185, 0x185, 0x1FF, 0xF, 1, 0⟩,
    .vmul ⟨true, 9, 0, 5⟩ ⟨5, 0x185, 0x185, 0, 0, 1, 0⟩,
    .vmul ⟨true, 9, 0, 5⟩ ⟨5, 0x185, 0x185, 0, 0xF, 0xF, 0⟩,
    .vmul ⟨true, 9, 0, 5⟩ ⟨5, 0x185, 0x185, 0, 0xF, 1, 0x1FF⟩,
    .vmad ⟨true, 9, 5, 0⟩ ⟨4, 0x1A, 0x1FD, 0x106, 0xFF, 2, 0⟩,
    .vmad ⟨true, 9, 0, 0⟩ ⟨0xFF, 0x1A, 0x1FD, 0x106, 0xFF, 2, 0⟩,
    .vmad ⟨true, 9, 0, 0⟩ ⟨4, 0xC0, 0x1FD, 0x106, 0xFF, 2, 0⟩,
    .vmad ⟨true, 9, 0, 0⟩ ⟨4, 0x1A, 0xC0, 0x106, 0xFF, 2, 0⟩,
    .vmad ⟨true, 9, 0, 0⟩ ⟨4, 0x1A, 0x1FD, 0xC0, 0xFF, 2, 0⟩,
    .vmad ⟨true, 9, 0, 0⟩ ⟨4, 0x1A, 0x1FD, 0x106, 0, 2, 0⟩,
    .vmad ⟨true, 9, 0, 0⟩ ⟨4, 0x1A, 0x1FD, 0x106, 0xFF, 0xF, 0⟩] : List Instr), wellFormed i = false := by decide

theorem test_ill_formed_words_8 : ∀ i ∈ ([
    .vmad ⟨true, 9, 0, 0⟩ ⟨4, 0x1A, 0x1FD, 0x106, 0xFF, 2, 0x1FF⟩,
    .vcmp ⟨true, 3, 5, 5⟩ .le ⟨6, 1, 0x185, 0, 1, 1, 0⟩,
    .vcmp ⟨true, 3, 0, 5⟩ .le ⟨0xFF, 1, 0x185, 0, 1, 1, 0⟩,
    .vcmp ⟨true, 3, 0, 5⟩ .le ⟨6, 0xC0, 0x185, 0, 1, 1, 0⟩,
    .vcmp ⟨true, 3, 0, 5⟩ .le ⟨6, 1, 0xC0, 0, 1, 1, 0⟩,
    .vcmp ⟨true, 3, 0, 5⟩ .le ⟨6, 1, 0x185, 0x1FF, 1, 1, 0⟩,
    .vcmp ⟨true, 3, 0, 5⟩ .le ⟨6, 1, 0x185, 0, 0, 1, 0⟩,
    .vcmp ⟨true, 3, 0, 5⟩ .le ⟨6, 1, 0x185, 0, 1, 0xF, 0⟩,
    .vcmp ⟨true, 3, 0, 5⟩ .le ⟨6, 1, 0x185, 0, 1, 1, 0x1FF⟩,
    .vsel ⟨true, 0, 5, 5⟩ ⟨0x24, 0x185, 0x38, 0, 3, 0, 0⟩,
    .vsel ⟨true, 0, 0, 5⟩ ⟨0xFF, 0x185, 0x38, 0, 3, 0, 0⟩,
    .vsel ⟨true, 0, 0, 5⟩ ⟨0x24, 0xC0, 0x38, 0, 3, 0, 0⟩,
    .vsel ⟨true, 0, 0, 5⟩ ⟨0x24, 0x185, 0xC0, 0, 3, 0, 0⟩,
    .vsel ⟨true, 0, 0, 5⟩ ⟨0x24, 0x185, 0x38, 0x1FF, 3, 0, 0⟩,
    .vsel ⟨true, 0, 0, 5⟩ ⟨0x24, 0x185, 0x38, 0, 0, 0, 0⟩,
    .vsel ⟨true, 0, 0, 5⟩ ⟨0x24, 0x185, 0x38, 0, 3, 0xF, 0⟩,
    .vsel ⟨true, 0, 0, 5⟩ ⟨0x24, 0x185, 0x38, 0, 3, 0, 0x1FF⟩,
    .vfadd ⟨true, 9, 5, 5⟩ ⟨7, 0x106, 0x185, 0, 0xF, 4, 0⟩,
    .vfadd ⟨true, 9, 0, 5⟩ ⟨0xFF, 0x106, 0x185, 0, 0xF, 4, 0⟩,
    .vfadd ⟨true, 9, 0, 5⟩ ⟨7, 0xC0, 0x185, 0, 0xF, 4, 0⟩,
    .vfadd ⟨true, 9, 0, 5⟩ ⟨7, 0x106, 0xC0, 0, 0xF, 4, 0⟩,
    .vfadd ⟨true, 9, 0, 5⟩ ⟨7, 0x106, 0x185, 0x1FF, 0xF, 4, 0⟩,
    .vfadd ⟨true, 9, 0, 5⟩ ⟨7, 0x106, 0x185, 0, 0, 4, 0⟩,
    .vfadd ⟨true, 9, 0, 5⟩ ⟨7, 0x106, 0x185, 0, 0xF, 0xF, 0⟩] : List Instr), wellFormed i = false := by decide

theorem test_ill_formed_words_9 : ∀ i ∈ ([
    .vfadd ⟨true, 9, 0, 5⟩ ⟨7, 0x106, 0x185, 0, 0xF, 4, 0x1FF⟩,
    .vfma ⟨true, 9, 5, 0⟩ ⟨0x20, 0x185, 0x185, 0x185, 0xFF, 5, 0⟩,
    .vfma ⟨true, 9, 0, 0⟩ ⟨0xFF, 0x185, 0x185, 0x185, 0xFF, 5, 0⟩,
    .vfma ⟨true, 9, 0, 0⟩ ⟨0x20, 0xC0, 0x185, 0x185, 0xFF, 5, 0⟩,
    .vfma ⟨true, 9, 0, 0⟩ ⟨0x20, 0x185, 0xC0, 0x185, 0xFF, 5, 0⟩,
    .vfma ⟨true, 9, 0, 0⟩ ⟨0x20, 0x185, 0x185, 0xC0, 0xFF, 5, 0⟩,
    .vfma ⟨true, 9, 0, 0⟩ ⟨0x20, 0x185, 0x185, 0x185, 0, 5, 0⟩,
    .vfma ⟨true, 9, 0, 0⟩ ⟨0x20, 0x185, 0x185, 0x185, 0xFF, 0xF, 0⟩,
    .vfma ⟨true, 9, 0, 0⟩ ⟨0x20, 0x185, 0x185, 0x185, 0xFF, 5, 0x1FF⟩,
    .vfcmp ⟨true, 0, 5, 0⟩ .gt ⟨0, 0, 0x29, 0, 1, 5, 0⟩,
    .vfcmp ⟨true, 0, 0, 0⟩ .gt ⟨0xFF, 0, 0x29, 0, 1, 5, 0⟩,
    .vfcmp ⟨true, 0, 0, 0⟩ .gt ⟨0, 0xC0, 0x29, 0, 1, 5, 0⟩,
    .vfcmp ⟨true, 0, 0, 0⟩ .gt ⟨0, 0, 0xC0, 0, 1, 5, 0⟩,
    .vfcmp ⟨true, 0, 0, 0⟩ .gt ⟨0, 0, 0x29, 0x1FF, 1, 5, 0⟩,
    .vfcmp ⟨true, 0, 0, 0⟩ .gt ⟨0, 0, 0x29, 0, 0, 5, 0⟩,
    .vfcmp ⟨true, 0, 0, 0⟩ .gt ⟨0, 0, 0x29, 0, 1, 0xF, 0⟩,
    .vfcmp ⟨true, 0, 0, 0⟩ .gt ⟨0, 0, 0x29, 0, 1, 5, 0x1FF⟩,
    .vsfRcp ⟨true, 9, 5, 5⟩ ⟨3, 0, 0, 0, 1, 4, 0⟩,
    .vsfRcp ⟨true, 9, 0, 5⟩ ⟨0xFF, 0, 0, 0, 1, 4, 0⟩,
    .vsfRcp ⟨true, 9, 0, 5⟩ ⟨3, 0xC0, 0, 0, 1, 4, 0⟩,
    .vsfRcp ⟨true, 9, 0, 5⟩ ⟨3, 0, 0x1FF, 0, 1, 4, 0⟩,
    .vsfRcp ⟨true, 9, 0, 5⟩ ⟨3, 0, 0, 0x1FF, 1, 4, 0⟩,
    .vsfRcp ⟨true, 9, 0, 5⟩ ⟨3, 0, 0, 0, 0, 4, 0⟩,
    .vsfRcp ⟨true, 9, 0, 5⟩ ⟨3, 0, 0, 0, 1, 0xF, 0⟩] : List Instr), wellFormed i = false := by decide

theorem test_ill_formed_words_10 : ∀ i ∈ ([
    .vsfRcp ⟨true, 9, 0, 5⟩ ⟨3, 0, 0, 0, 1, 4, 0x1FF⟩,
    .vcvt ⟨true, 3, 5, 5⟩ ⟨0, 7, 0, 0, 0xF, 1, 0x1D7⟩,
    .vcvt ⟨true, 3, 0, 5⟩ ⟨0xFF, 7, 0, 0, 0xF, 1, 0x1D7⟩,
    .vcvt ⟨true, 3, 0, 5⟩ ⟨0, 0xC0, 0, 0, 0xF, 1, 0x1D7⟩,
    .vcvt ⟨true, 3, 0, 5⟩ ⟨0, 7, 0x1FF, 0, 0xF, 1, 0x1D7⟩,
    .vcvt ⟨true, 3, 0, 5⟩ ⟨0, 7, 0, 0x1FF, 0xF, 1, 0x1D7⟩,
    .vcvt ⟨true, 3, 0, 5⟩ ⟨0, 7, 0, 0, 0, 1, 0x1D7⟩,
    .vcvt ⟨true, 3, 0, 5⟩ ⟨0, 7, 0, 0, 0xF, 0xF, 0x1D7⟩,
    .vcvt ⟨true, 3, 0, 5⟩ ⟨0, 7, 0, 0, 0xF, 1, 0x1FF⟩,
    .vcvtBsPack ⟨true, 3, 5, 5⟩ ⟨0x1B, 0x106, 0x185, 0, 3, 4, 4⟩,
    .vcvtBsPack ⟨true, 3, 0, 5⟩ ⟨0xFF, 0x106, 0x185, 0, 3, 4, 4⟩,
    .vcvtBsPack ⟨true, 3, 0, 5⟩ ⟨0x1B, 0xC0, 0x185, 0, 3, 4, 4⟩,
    .vcvtBsPack ⟨true, 3, 0, 5⟩ ⟨0x1B, 0x106, 0xC0, 0, 3, 4, 4⟩,
    .vcvtBsPack ⟨true, 3, 0, 5⟩ ⟨0x1B, 0x106, 0x185, 0x1FF, 3, 4, 4⟩,
    .vcvtBsPack ⟨true, 3, 0, 5⟩ ⟨0x1B, 0x106, 0x185, 0, 0xFE, 4, 4⟩,
    .vcvtBsPack ⟨true, 3, 0, 5⟩ ⟨0x1B, 0x106, 0x185, 0, 3, 0xF, 4⟩,
    .vcvtBsPack ⟨true, 3, 0, 5⟩ ⟨0x1B, 0x106, 0x185, 0, 3, 4, 0x1FF⟩,
    .vcvtBsUnpack ⟨true, 9, 5, 0⟩ ⟨0, 0, 0, 0, 0x30, 4, 0x24⟩,
    .vcvtBsUnpack ⟨true, 9, 0, 0⟩ ⟨0xFF, 0, 0, 0, 0x30, 4, 0x24⟩,
    .vcvtBsUnpack ⟨true, 9, 0, 0⟩ ⟨0, 0xC0, 0, 0, 0x30, 4, 0x24⟩,
    .vcvtBsUnpack ⟨true, 9, 0, 0⟩ ⟨0, 0, 0x1FF, 0, 0x30, 4, 0x24⟩,
    .vcvtBsUnpack ⟨true, 9, 0, 0⟩ ⟨0, 0, 0, 0x1FF, 0x30, 4, 0x24⟩,
    .vcvtBsUnpack ⟨true, 9, 0, 0⟩ ⟨0, 0, 0, 0, 0xFE, 4, 0x24⟩,
    .vcvtBsUnpack ⟨true, 9, 0, 0⟩ ⟨0, 0, 0, 0, 0x30, 0xF, 0x24⟩] : List Instr), wellFormed i = false := by decide

theorem test_ill_formed_words_11 : ∀ i ∈ ([
    .vcvtBsUnpack ⟨true, 9, 0, 0⟩ ⟨0, 0, 0, 0, 0x30, 4, 0x1FF⟩,
    .vshuf ⟨true, 3, 5, 0⟩ ⟨0x1A, 0x101, 0x106, 0, 1, 0, 0⟩,
    .vshuf ⟨true, 3, 0, 0⟩ ⟨0xFF, 0x101, 0x106, 0, 1, 0, 0⟩,
    .vshuf ⟨true, 3, 0, 0⟩ ⟨0x1A, 0xC0, 0x106, 0, 1, 0, 0⟩,
    .vshuf ⟨true, 3, 0, 0⟩ ⟨0x1A, 0x101, 0xC0, 0, 1, 0, 0⟩,
    .vshuf ⟨true, 3, 0, 0⟩ ⟨0x1A, 0x101, 0x106, 0x1FF, 1, 0, 0⟩,
    .vshuf ⟨true, 3, 0, 0⟩ ⟨0x1A, 0x101, 0x106, 0, 0, 0, 0⟩,
    .vshuf ⟨true, 3, 0, 0⟩ ⟨0x1A, 0x101, 0x106, 0, 1, 0xF, 0⟩,
    .vshuf ⟨true, 3, 0, 0⟩ ⟨0x1A, 0x101, 0x106, 0, 1, 0, 0x1FF⟩,
    .vredAdd ⟨true, 3, 5, 5⟩ ⟨0x10, 0x103, 0, 0, 1, 3, 0⟩,
    .vredAdd ⟨true, 3, 0, 5⟩ ⟨0xFF, 0x103, 0, 0, 1, 3, 0⟩,
    .vredAdd ⟨true, 3, 0, 5⟩ ⟨0x10, 0xC0, 0, 0, 1, 3, 0⟩,
    .vredAdd ⟨true, 3, 0, 5⟩ ⟨0x10, 0x103, 0x1FF, 0, 1, 3, 0⟩,
    .vredAdd ⟨true, 3, 0, 5⟩ ⟨0x10, 0x103, 0, 0x1FF, 1, 3, 0⟩,
    .vredAdd ⟨true, 3, 0, 5⟩ ⟨0x10, 0x103, 0, 0, 0, 3, 0⟩,
    .vredAdd ⟨true, 3, 0, 5⟩ ⟨0x10, 0x103, 0, 0, 1, 0xF, 0⟩,
    .vredAdd ⟨true, 3, 0, 5⟩ ⟨0x10, 0x103, 0, 0, 1, 3, 0x1FF⟩,
    .vredMin ⟨true, 3, 5, 5⟩ ⟨0x38, 0, 0, 0, 1, 1, 0⟩,
    .vredMin ⟨true, 3, 0, 5⟩ ⟨0xFF, 0, 0, 0, 1, 1, 0⟩,
    .vredMin ⟨true, 3, 0, 5⟩ ⟨0x38, 0xC0, 0, 0, 1, 1, 0⟩,
    .vredMin ⟨true, 3, 0, 5⟩ ⟨0x38, 0, 0x1FF, 0, 1, 1, 0⟩,
    .vredMin ⟨true, 3, 0, 5⟩ ⟨0x38, 0, 0, 0x1FF, 1, 1, 0⟩,
    .vredMin ⟨true, 3, 0, 5⟩ ⟨0x38, 0, 0, 0, 0, 1, 0⟩,
    .vredMin ⟨true, 3, 0, 5⟩ ⟨0x38, 0, 0, 0, 1, 0xF, 0⟩] : List Instr), wellFormed i = false := by decide

theorem test_ill_formed_words_12 : ∀ i ∈ ([
    .vredMin ⟨true, 3, 0, 5⟩ ⟨0x38, 0, 0, 0, 1, 1, 0x1FF⟩,
    .vxcp ⟨true, 9, 5, 0⟩ ⟨0x3A, 0x1B, 0, 0, 0xFF, 0, 3⟩,
    .vxcp ⟨true, 9, 0, 0⟩ ⟨0xFF, 0x1B, 0, 0, 0xFF, 0, 3⟩,
    .vxcp ⟨true, 9, 0, 0⟩ ⟨0x3A, 0x1FF, 0, 0, 0xFF, 0, 3⟩,
    .vxcp ⟨true, 9, 0, 0⟩ ⟨0x3A, 0x1B, 0x1FF, 0, 0xFF, 0, 3⟩,
    .vxcp ⟨true, 9, 0, 0⟩ ⟨0x3A, 0x1B, 0, 0x1FF, 0xFF, 0, 3⟩,
    .vxcp ⟨true, 9, 0, 0⟩ ⟨0x3A, 0x1B, 0, 0, 0, 0, 3⟩,
    .vxcp ⟨true, 9, 0, 0⟩ ⟨0x3A, 0x1B, 0, 0, 0xFF, 0xF, 3⟩,
    .vxcp ⟨true, 9, 0, 0⟩ ⟨0x3A, 0x1B, 0, 0, 0xFF, 0, 0x1FF⟩,
    .vsplat ⟨true, 9, 5, 5⟩ ⟨2, 0x1FD, 0, 0, 0xFF, 7, 0⟩,
    .vsplat ⟨true, 9, 0, 5⟩ ⟨0xFF, 0x1FD, 0, 0, 0xFF, 7, 0⟩,
    .vsplat ⟨true, 9, 0, 5⟩ ⟨2, 0xC0, 0, 0, 0xFF, 7, 0⟩,
    .vsplat ⟨true, 9, 0, 5⟩ ⟨2, 0x1FD, 0x1FF, 0, 0xFF, 7, 0⟩,
    .vsplat ⟨true, 9, 0, 5⟩ ⟨2, 0x1FD, 0, 0x1FF, 0xFF, 7, 0⟩,
    .vsplat ⟨true, 9, 0, 5⟩ ⟨2, 0x1FD, 0, 0, 0, 7, 0⟩,
    .vsplat ⟨true, 9, 0, 5⟩ ⟨2, 0x1FD, 0, 0, 0xFF, 0xF, 0⟩,
    .vsplat ⟨true, 9, 0, 5⟩ ⟨2, 0x1FD, 0, 0, 0xFF, 7, 0x1FF⟩,
    .vext ⟨true, 9, 5, 0⟩ ⟨0, 0x107, 0x107, 0, 1, 1, 0⟩,
    .vext ⟨true, 9, 0, 0⟩ ⟨0xFF, 0x107, 0x107, 0, 1, 1, 0⟩,
    .vext ⟨true, 9, 0, 0⟩ ⟨0, 0xC0, 0x107, 0, 1, 1, 0⟩,
    .vext ⟨true, 9, 0, 0⟩ ⟨0, 0x107, 0xC0, 0, 1, 1, 0⟩,
    .vext ⟨true, 9, 0, 0⟩ ⟨0, 0x107, 0x107, 0x1FF, 1, 1, 0⟩,
    .vext ⟨true, 9, 0, 0⟩ ⟨0, 0x107, 0x107, 0, 0xFF, 1, 0⟩,
    .vext ⟨true, 9, 0, 0⟩ ⟨0, 0x107, 0x107, 0, 1, 0xF, 0⟩] : List Instr), wellFormed i = false := by decide

theorem test_ill_formed_words_13 : ∀ i ∈ ([
    .vext ⟨true, 9, 0, 0⟩ ⟨0, 0x107, 0x107, 0, 1, 1, 0x1FF⟩,
    .viota ⟨true, 3, 5, 5⟩ ⟨4, 0x46, 0, 0, 0xF, 9, 0⟩,
    .viota ⟨true, 3, 0, 5⟩ ⟨0xFF, 0x46, 0, 0, 0xF, 9, 0⟩,
    .viota ⟨true, 3, 0, 5⟩ ⟨4, 0xC0, 0, 0, 0xF, 9, 0⟩,
    .viota ⟨true, 3, 0, 5⟩ ⟨4, 0x46, 0x1FF, 0, 0xF, 9, 0⟩,
    .viota ⟨true, 3, 0, 5⟩ ⟨4, 0x46, 0, 0x1FF, 0xF, 9, 0⟩,
    .viota ⟨true, 3, 0, 5⟩ ⟨4, 0x46, 0, 0, 0, 9, 0⟩,
    .viota ⟨true, 3, 0, 5⟩ ⟨4, 0x46, 0, 0, 0xF, 0xF, 0⟩,
    .viota ⟨true, 3, 0, 5⟩ ⟨4, 0x46, 0, 0, 0xF, 9, 0x1FF⟩,
    .vrng ⟨true, 0, 5, 5⟩ ⟨0xD, 0x185, 0x105, 0, 0xF, 0, 0⟩,
    .vrng ⟨true, 0, 0, 5⟩ ⟨0xFF, 0x185, 0x105, 0, 0xF, 0, 0⟩,
    .vrng ⟨true, 0, 0, 5⟩ ⟨0xD, 0xC0, 0x105, 0, 0xF, 0, 0⟩,
    .vrng ⟨true, 0, 0, 5⟩ ⟨0xD, 0x185, 0xC0, 0, 0xF, 0, 0⟩,
    .vrng ⟨true, 0, 0, 5⟩ ⟨0xD, 0x185, 0x105, 0x1FF, 0xF, 0, 0⟩,
    .vrng ⟨true, 0, 0, 5⟩ ⟨0xD, 0x185, 0x105, 0, 0, 0, 0⟩,
    .vrng ⟨true, 0, 0, 5⟩ ⟨0xD, 0x185, 0x105, 0, 0xF, 0xF, 0⟩,
    .vrng ⟨true, 0, 0, 5⟩ ⟨0xD, 0x185, 0x105, 0, 0xF, 0, 0x1FF⟩,
    .vplogAnd ⟨true, 9, 5, 5⟩ ⟨3, 0, 0, 0, 0xFF, 0, 0⟩,
    .vplogAnd ⟨true, 9, 0, 5⟩ ⟨0xFF, 0, 0, 0, 0xFF, 0, 0⟩,
    .vplogAnd ⟨true, 9, 0, 5⟩ ⟨3, 0x1FF, 0, 0, 0xFF, 0, 0⟩,
    .vplogAnd ⟨true, 9, 0, 5⟩ ⟨3, 0, 0x1FF, 0, 0xFF, 0, 0⟩,
    .vplogAnd ⟨true, 9, 0, 5⟩ ⟨3, 0, 0, 0x1FF, 0xFF, 0, 0⟩,
    .vplogAnd ⟨true, 9, 0, 5⟩ ⟨3, 0, 0, 0, 0, 0, 0⟩,
    .vplogAnd ⟨true, 9, 0, 5⟩ ⟨3, 0, 0, 0, 0xFF, 0xF, 0⟩] : List Instr), wellFormed i = false := by decide

theorem test_ill_formed_words_14 : ∀ i ∈ ([
    .vplogAnd ⟨true, 9, 0, 5⟩ ⟨3, 0, 0, 0, 0xFF, 0, 0x1FF⟩,
    .vpcnt ⟨true, 3, 5, 5⟩ ⟨7, 0, 0, 0, 0xF, 0, 0⟩,
    .vpcnt ⟨true, 3, 0, 5⟩ ⟨0xFF, 0, 0, 0, 0xF, 0, 0⟩,
    .vpcnt ⟨true, 3, 0, 5⟩ ⟨7, 0x1FF, 0, 0, 0xF, 0, 0⟩,
    .vpcnt ⟨true, 3, 0, 5⟩ ⟨7, 0, 0x1FF, 0, 0xF, 0, 0⟩,
    .vpcnt ⟨true, 3, 0, 5⟩ ⟨7, 0, 0, 0x1FF, 0xF, 0, 0⟩,
    .vpcnt ⟨true, 3, 0, 5⟩ ⟨7, 0, 0, 0, 0, 0, 0⟩,
    .vpcnt ⟨true, 3, 0, 5⟩ ⟨7, 0, 0, 0, 0xF, 0xF, 0⟩,
    .vpcnt ⟨true, 3, 0, 5⟩ ⟨7, 0, 0, 0, 0xF, 0, 0x1FF⟩,
    .ld ⟨true, 9, 0, 0⟩ ⟨0, 2, 0x3E00B8, 3, 1, 4, 0, 2⟩,
    .ld ⟨true, 9, 2, 0⟩ ⟨0x1FF, 2, 0x3E00B8, 3, 1, 4, 0, 2⟩,
    .ld ⟨true, 9, 2, 0⟩ ⟨0, 0xC0, 0x3E00B8, 3, 1, 4, 0, 2⟩,
    .ld ⟨true, 9, 2, 0⟩ ⟨0, 2, 0x3E00B8, 7, 1, 4, 0, 2⟩,
    .ld ⟨true, 9, 2, 0⟩ ⟨0, 2, 0x3E00B8, 3, 7, 4, 0, 2⟩,
    .ld ⟨true, 9, 2, 0⟩ ⟨0, 2, 0x3E00B8, 3, 1, 7, 0, 2⟩,
    .ld ⟨true, 9, 2, 0⟩ ⟨0, 2, 0x3E00B8, 3, 1, 4, 7, 2⟩,
    .ld ⟨true, 9, 2, 0⟩ ⟨0, 2, 0x3E00B8, 3, 1, 4, 0, 3⟩,
    .st ⟨true, 3, 5, 0⟩ ⟨6, 0x185, 0xF9409, 2, 2, 1, 0, 2⟩,
    .st ⟨true, 3, 0, 0⟩ ⟨0xC0, 0x185, 0xF9409, 2, 2, 1, 0, 2⟩,
    .st ⟨true, 3, 0, 0⟩ ⟨6, 0xC0, 0xF9409, 2, 2, 1, 0, 2⟩,
    .st ⟨true, 3, 0, 0⟩ ⟨6, 0x185, 0xF9409, 7, 2, 1, 0, 2⟩,
    .st ⟨true, 3, 0, 0⟩ ⟨6, 0x185, 0xF9409, 2, 7, 1, 0, 2⟩,
    .st ⟨true, 3, 0, 0⟩ ⟨6, 0x185, 0xF9409, 2, 2, 7, 0, 2⟩,
    .st ⟨true, 3, 0, 0⟩ ⟨6, 0x185, 0xF9409, 2, 2, 1, 7, 2⟩] : List Instr), wellFormed i = false := by decide

theorem test_ill_formed_words_15 : ∀ i ∈ ([
    .st ⟨true, 3, 0, 0⟩ ⟨6, 0x185, 0xF9409, 2, 2, 1, 0, 3⟩,
    .ldv ⟨true, 9, 0, 5⟩ ⟨0, 3, 0xDD4C2C, 5, 0, 0, 0, 0⟩,
    .ldv ⟨true, 9, 2, 5⟩ ⟨0x1FF, 3, 0xDD4C2C, 5, 0, 0, 0, 0⟩,
    .ldv ⟨true, 9, 2, 5⟩ ⟨0, 0xC0, 0xDD4C2C, 5, 0, 0, 0, 0⟩,
    .ldv ⟨true, 9, 2, 5⟩ ⟨0, 3, 0xDD4C2C, 7, 0, 0, 0, 0⟩,
    .ldv ⟨true, 9, 2, 5⟩ ⟨0, 3, 0xDD4C2C, 5, 7, 0, 0, 0⟩,
    .ldv ⟨true, 9, 2, 5⟩ ⟨0, 3, 0xDD4C2C, 5, 0, 7, 0, 0⟩,
    .ldv ⟨true, 9, 2, 5⟩ ⟨0, 3, 0xDD4C2C, 5, 0, 0, 7, 0⟩,
    .ldv ⟨true, 9, 2, 5⟩ ⟨0, 3, 0xDD4C2C, 5, 0, 0, 0, 3⟩,
    .stv ⟨true, 0, 5, 5⟩ ⟨0x107, 0xD, 0x7BDC77, 4, 2, 1, 7, 2⟩,
    .stv ⟨true, 0, 0, 5⟩ ⟨0xC0, 0xD, 0x7BDC77, 4, 2, 1, 7, 2⟩,
    .stv ⟨true, 0, 0, 5⟩ ⟨0x107, 0xC0, 0x7BDC77, 4, 2, 1, 7, 2⟩,
    .stv ⟨true, 0, 0, 5⟩ ⟨0x107, 0xD, 0x7BDC77, 7, 2, 1, 7, 2⟩,
    .stv ⟨true, 0, 0, 5⟩ ⟨0x107, 0xD, 0x7BDC77, 4, 7, 1, 7, 2⟩,
    .stv ⟨true, 0, 0, 5⟩ ⟨0x107, 0xD, 0x7BDC77, 4, 2, 7, 7, 2⟩,
    .stv ⟨true, 0, 0, 5⟩ ⟨0x107, 0xD, 0x7BDC77, 4, 2, 1, 7, 3⟩,
    .vgath ⟨true, 0, 0, 5⟩ ⟨0, 3, 0x12, 2, 2, 1, 3, 0xFF⟩,
    .vgath ⟨true, 0, 2, 5⟩ ⟨0x1FF, 3, 0x12, 2, 2, 1, 3, 0xFF⟩,
    .vgath ⟨true, 0, 2, 5⟩ ⟨0, 0xC0, 0x12, 2, 2, 1, 3, 0xFF⟩,
    .vgath ⟨true, 0, 2, 5⟩ ⟨0, 3, 0xC0, 2, 2, 1, 3, 0xFF⟩,
    .vgath ⟨true, 0, 2, 5⟩ ⟨0, 3, 0x12, 2, 7, 1, 3, 0xFF⟩,
    .vgath ⟨true, 0, 2, 5⟩ ⟨0, 3, 0x12, 2, 2, 7, 3, 0xFF⟩,
    .vgath ⟨true, 0, 2, 5⟩ ⟨0, 3, 0x12, 2, 2, 1, 7, 0xFF⟩,
    .vscat ⟨true, 9, 5, 5⟩ ⟨0x107, 0x185, 0x1FD, 1, 1, 2, 4, 0x30⟩] : List Instr), wellFormed i = false := by decide

theorem test_ill_formed_words_16 : ∀ i ∈ ([
    .vscat ⟨true, 9, 0, 5⟩ ⟨0xC0, 0x185, 0x1FD, 1, 1, 2, 4, 0x30⟩,
    .vscat ⟨true, 9, 0, 5⟩ ⟨0x107, 0xC0, 0x1FD, 1, 1, 2, 4, 0x30⟩,
    .vscat ⟨true, 9, 0, 5⟩ ⟨0x107, 0x185, 0xC0, 1, 1, 2, 4, 0x30⟩,
    .vscat ⟨true, 9, 0, 5⟩ ⟨0x107, 0x185, 0x1FD, 1, 7, 2, 4, 0x30⟩,
    .vscat ⟨true, 9, 0, 5⟩ ⟨0x107, 0x185, 0x1FD, 1, 1, 7, 4, 0x30⟩,
    .vscat ⟨true, 9, 0, 5⟩ ⟨0x107, 0x185, 0x1FD, 1, 1, 2, 7, 0x30⟩,
    .atomAdd ⟨true, 3, 0, 5⟩ ⟨0, 7, 6, 0, 2, 2, 1⟩,
    .atomAdd ⟨true, 3, 2, 5⟩ ⟨0xFF, 7, 6, 0, 2, 2, 1⟩,
    .atomAdd ⟨true, 3, 2, 5⟩ ⟨0, 0xC0, 6, 0, 2, 2, 1⟩,
    .atomAdd ⟨true, 3, 2, 5⟩ ⟨0, 7, 0xC0, 0, 2, 2, 1⟩,
    .atomAdd ⟨true, 3, 2, 5⟩ ⟨0, 7, 6, 0x1FF, 2, 2, 1⟩,
    .atomAdd ⟨true, 3, 2, 5⟩ ⟨0, 7, 6, 0, 7, 2, 1⟩,
    .atomAdd ⟨true, 3, 2, 5⟩ ⟨0, 7, 6, 0, 2, 7, 1⟩,
    .atomAdd ⟨true, 3, 2, 5⟩ ⟨0, 7, 6, 0, 2, 2, 7⟩,
    .atomCas ⟨true, 3, 0, 5⟩ ⟨1, 0x1FD, 0x103, 0x72, 2, 1, 4⟩,
    .atomCas ⟨true, 3, 2, 5⟩ ⟨0xFF, 0x1FD, 0x103, 0x72, 2, 1, 4⟩,
    .atomCas ⟨true, 3, 2, 5⟩ ⟨1, 0xC0, 0x103, 0x72, 2, 1, 4⟩,
    .atomCas ⟨true, 3, 2, 5⟩ ⟨1, 0x1FD, 0xC0, 0x72, 2, 1, 4⟩,
    .atomCas ⟨true, 3, 2, 5⟩ ⟨1, 0x1FD, 0x103, 0xC0, 2, 1, 4⟩,
    .atomCas ⟨true, 3, 2, 5⟩ ⟨1, 0x1FD, 0x103, 0x72, 7, 1, 4⟩,
    .atomCas ⟨true, 3, 2, 5⟩ ⟨1, 0x1FD, 0x103, 0x72, 2, 7, 4⟩,
    .atomCas ⟨true, 3, 2, 5⟩ ⟨1, 0x1FD, 0x103, 0x72, 2, 1, 7⟩,
    .atomFadd ⟨true, 0, 0, 5⟩ ⟨0, 0x13, 0, 0, 2, 1, 4⟩,
    .atomFadd ⟨true, 0, 2, 5⟩ ⟨0xFF, 0x13, 0, 0, 2, 1, 4⟩] : List Instr), wellFormed i = false := by decide

theorem test_ill_formed_words_17 : ∀ i ∈ ([
    .atomFadd ⟨true, 0, 2, 5⟩ ⟨0, 0xC0, 0, 0, 2, 1, 4⟩,
    .atomFadd ⟨true, 0, 2, 5⟩ ⟨0, 0x13, 0xC0, 0, 2, 1, 4⟩,
    .atomFadd ⟨true, 0, 2, 5⟩ ⟨0, 0x13, 0, 0x1FF, 2, 1, 4⟩,
    .atomFadd ⟨true, 0, 2, 5⟩ ⟨0, 0x13, 0, 0, 7, 1, 4⟩,
    .atomFadd ⟨true, 0, 2, 5⟩ ⟨0, 0x13, 0, 0, 2, 7, 4⟩,
    .atomFadd ⟨true, 0, 2, 5⟩ ⟨0, 0x13, 0, 0, 2, 1, 7⟩,
    .fence ⟨true, 3, 0, 5⟩ ⟨0x82, 0, 0, 0, 0, 2, 0, 0⟩,
    .fence ⟨true, 3, 2, 5⟩ ⟨0x1FF, 0, 0, 0, 0, 2, 0, 0⟩,
    .fence ⟨true, 3, 2, 5⟩ ⟨0x82, 0x1FF, 0, 0, 0, 2, 0, 0⟩,
    .fence ⟨true, 3, 2, 5⟩ ⟨0x82, 0, 0xFFFFFF, 0, 0, 2, 0, 0⟩,
    .fence ⟨true, 3, 2, 5⟩ ⟨0x82, 0, 0, 7, 0, 2, 0, 0⟩,
    .fence ⟨true, 3, 2, 5⟩ ⟨0x82, 0, 0, 0, 7, 2, 0, 0⟩,
    .fence ⟨true, 3, 2, 5⟩ ⟨0x82, 0, 0, 0, 0, 7, 0, 0⟩,
    .fence ⟨true, 3, 2, 5⟩ ⟨0x82, 0, 0, 0, 0, 2, 7, 0⟩,
    .fence ⟨true, 3, 2, 5⟩ ⟨0x82, 0, 0, 0, 0, 2, 0, 3⟩,
    .flagI ⟨true, 3, 5, 5⟩ ⟨0, 7, 0x102, 0, 3, 0, 0⟩,
    .flagI ⟨true, 3, 0, 5⟩ ⟨0xFF, 7, 0x102, 0, 3, 0, 0⟩,
    .flagI ⟨true, 3, 0, 5⟩ ⟨0, 0xC0, 0x102, 0, 3, 0, 0⟩,
    .flagI ⟨true, 3, 0, 5⟩ ⟨0, 7, 0xC0, 0, 3, 0, 0⟩,
    .flagI ⟨true, 3, 0, 5⟩ ⟨0, 7, 0x102, 0x1FF, 3, 0, 0⟩,
    .flagI ⟨true, 3, 0, 5⟩ ⟨0, 7, 0x102, 0, 7, 0, 0⟩,
    .flagI ⟨true, 3, 0, 5⟩ ⟨0, 7, 0x102, 0, 3, 7, 0⟩,
    .flagI ⟨true, 3, 0, 5⟩ ⟨0, 7, 0x102, 0, 3, 0, 7⟩,
    .waitf ⟨true, 9, 0, 5⟩ ⟨0x71, 0xB, 0x100, 0, 0, 5, 1, 0⟩] : List Instr), wellFormed i = false := by decide

theorem test_ill_formed_words_18 : ∀ i ∈ ([
    .waitf ⟨true, 9, 2, 5⟩ ⟨0xFF, 0xB, 0x100, 0, 0, 5, 1, 0⟩,
    .waitf ⟨true, 9, 2, 5⟩ ⟨0x71, 0xC0, 0x100, 0, 0, 5, 1, 0⟩,
    .waitf ⟨true, 9, 2, 5⟩ ⟨0x71, 0xB, 0xC0, 0, 0, 5, 1, 0⟩,
    .waitf ⟨true, 9, 2, 5⟩ ⟨0x71, 0xB, 0x100, 0x1FF, 0, 5, 1, 0⟩,
    .waitf ⟨true, 9, 2, 5⟩ ⟨0x71, 0xB, 0x100, 0, 0xFFF, 5, 1, 0⟩,
    .waitf ⟨true, 9, 2, 5⟩ ⟨0x71, 0xB, 0x100, 0, 0, 7, 1, 0⟩,
    .waitf ⟨true, 9, 2, 5⟩ ⟨0x71, 0xB, 0x100, 0, 0, 5, 0, 0⟩,
    .waitf ⟨true, 9, 2, 5⟩ ⟨0x71, 0xB, 0x100, 0, 0, 5, 1, 1⟩,
    .waitfT ⟨true, 3, 0, 0⟩ ⟨3, 0x81, 0x1FD, 0x1FD, 0, 1, 1, 0⟩,
    .waitfT ⟨true, 3, 2, 0⟩ ⟨0xFF, 0x81, 0x1FD, 0x1FD, 0, 1, 1, 0⟩,
    .waitfT ⟨true, 3, 2, 0⟩ ⟨3, 0xC0, 0x1FD, 0x1FD, 0, 1, 1, 0⟩,
    .waitfT ⟨true, 3, 2, 0⟩ ⟨3, 0x81, 0xC0, 0x1FD, 0, 1, 1, 0⟩,
    .waitfT ⟨true, 3, 2, 0⟩ ⟨3, 0x81, 0x1FD, 0xC0, 0, 1, 1, 0⟩,
    .waitfT ⟨true, 3, 2, 0⟩ ⟨3, 0x81, 0x1FD, 0x1FD, 0xFFF, 1, 1, 0⟩,
    .waitfT ⟨true, 3, 2, 0⟩ ⟨3, 0x81, 0x1FD, 0x1FD, 0, 7, 1, 0⟩,
    .waitfT ⟨true, 3, 2, 0⟩ ⟨3, 0x81, 0x1FD, 0x1FD, 0, 1, 0, 0⟩,
    .waitfT ⟨true, 3, 2, 0⟩ ⟨3, 0x81, 0x1FD, 0x1FD, 0, 1, 1, 1⟩,
    .cflushWb ⟨true, 9, 5, 5⟩ ⟨0x107, 0x1FD, 0x3D58BB, 0, 0, 0, 0, 0⟩,
    .cflushWb ⟨true, 9, 0, 5⟩ ⟨0xC0, 0x1FD, 0x3D58BB, 0, 0, 0, 0, 0⟩,
    .cflushWb ⟨true, 9, 0, 5⟩ ⟨0x107, 0xC0, 0x3D58BB, 0, 0, 0, 0, 0⟩,
    .cflushWb ⟨true, 9, 0, 5⟩ ⟨0x107, 0x1FD, 0x3D58BB, 7, 0, 0, 0, 0⟩,
    .cflushWb ⟨true, 9, 0, 5⟩ ⟨0x107, 0x1FD, 0x3D58BB, 0, 7, 0, 0, 0⟩,
    .cflushWb ⟨true, 9, 0, 5⟩ ⟨0x107, 0x1FD, 0x3D58BB, 0, 0, 7, 0, 0⟩,
    .cflushWb ⟨true, 9, 0, 5⟩ ⟨0x107, 0x1FD, 0x3D58BB, 0, 0, 0, 7, 0⟩] : List Instr), wellFormed i = false := by decide

theorem test_ill_formed_words_19 : ∀ i ∈ ([
    .cflushWb ⟨true, 9, 0, 5⟩ ⟨0x107, 0x1FD, 0x3D58BB, 0, 0, 0, 0, 3⟩,
    .pref ⟨true, 3, 5, 5⟩ ⟨0, 3, 0x233682, 0, 0, 0, 0, 1⟩,
    .pref ⟨true, 3, 0, 5⟩ ⟨0x1FF, 3, 0x233682, 0, 0, 0, 0, 1⟩,
    .pref ⟨true, 3, 0, 5⟩ ⟨0, 0xC0, 0x233682, 0, 0, 0, 0, 1⟩,
    .pref ⟨true, 3, 0, 5⟩ ⟨0, 3, 0x233682, 7, 0, 0, 0, 1⟩,
    .pref ⟨true, 3, 0, 5⟩ ⟨0, 3, 0x233682, 0, 7, 0, 0, 1⟩,
    .pref ⟨true, 3, 0, 5⟩ ⟨0, 3, 0x233682, 0, 0, 7, 0, 1⟩,
    .pref ⟨true, 3, 0, 5⟩ ⟨0, 3, 0x233682, 0, 0, 0, 7, 1⟩,
    .pref ⟨true, 3, 0, 5⟩ ⟨0, 3, 0x233682, 0, 0, 0, 0, 3⟩,
    .cpy ⟨true, 9, 0, 5⟩ ⟨0x6C, 0x8C, 0x185, 0x104, 0xDE5, 5, 1, 1⟩,
    .cpy ⟨true, 9, 2, 5⟩ ⟨0xFF, 0x8C, 0x185, 0x104, 0xDE5, 5, 1, 1⟩,
    .cpy ⟨true, 9, 2, 5⟩ ⟨0x6C, 0xC0, 0x185, 0x104, 0xDE5, 5, 1, 1⟩,
    .cpy ⟨true, 9, 2, 5⟩ ⟨0x6C, 0x8C, 0xC0, 0x104, 0xDE5, 5, 1, 1⟩,
    .cpy ⟨true, 9, 2, 5⟩ ⟨0x6C, 0x8C, 0x185, 0xC0, 0xDE5, 5, 1, 1⟩,
    .cpy ⟨true, 9, 2, 5⟩ ⟨0x6C, 0x8C, 0x185, 0x104, 0xDE5, 7, 1, 1⟩,
    .cpyScale ⟨true, 9, 0, 5⟩ ⟨0x66, 0x6C, 0x185, 0, 0, 1, 1, 1⟩,
    .cpyScale ⟨true, 9, 2, 5⟩ ⟨0xFF, 0x6C, 0x185, 0, 0, 1, 1, 1⟩,
    .cpyScale ⟨true, 9, 2, 5⟩ ⟨0x66, 0xC0, 0x185, 0, 0, 1, 1, 1⟩,
    .cpyScale ⟨true, 9, 2, 5⟩ ⟨0x66, 0x6C, 0xC0, 0, 0, 1, 1, 1⟩,
    .cpyScale ⟨true, 9, 2, 5⟩ ⟨0x66, 0x6C, 0x185, 0x1FF, 0, 1, 1, 1⟩,
    .cpyScale ⟨true, 9, 2, 5⟩ ⟨0x66, 0x6C, 0x185, 0, 0xFFF, 1, 1, 1⟩,
    .cpyScale ⟨true, 9, 2, 5⟩ ⟨0x66, 0x6C, 0x185, 0, 0, 7, 1, 1⟩,
    .ringBind ⟨true, 9, 5, 5⟩ ⟨0, 1, 0x1FD, 0x1FD, 0, 0, 0, 0⟩,
    .ringBind ⟨true, 9, 0, 5⟩ ⟨0xFF, 1, 0x1FD, 0x1FD, 0, 0, 0, 0⟩] : List Instr), wellFormed i = false := by decide

theorem test_ill_formed_words_20 : ∀ i ∈ ([
    .ringBind ⟨true, 9, 0, 5⟩ ⟨0, 0xC0, 0x1FD, 0x1FD, 0, 0, 0, 0⟩,
    .ringBind ⟨true, 9, 0, 5⟩ ⟨0, 1, 0xC0, 0x1FD, 0, 0, 0, 0⟩,
    .ringBind ⟨true, 9, 0, 5⟩ ⟨0, 1, 0x1FD, 0xC0, 0, 0, 0, 0⟩,
    .ringBind ⟨true, 9, 0, 5⟩ ⟨0, 1, 0x1FD, 0x1FD, 0xFFF, 0, 0, 0⟩,
    .ringBind ⟨true, 9, 0, 5⟩ ⟨0, 1, 0x1FD, 0x1FD, 0, 7, 0, 0⟩,
    .ringBind ⟨true, 9, 0, 5⟩ ⟨0, 1, 0x1FD, 0x1FD, 0, 0, 1, 0⟩,
    .ringBind ⟨true, 9, 0, 5⟩ ⟨0, 1, 0x1FD, 0x1FD, 0, 0, 0, 1⟩,
    .ringGet ⟨true, 9, 0, 5⟩ ⟨3, 0, 0, 0, 0, 0, 0, 0⟩,
    .ringGet ⟨true, 9, 2, 5⟩ ⟨0xFF, 0, 0, 0, 0, 0, 0, 0⟩,
    .ringGet ⟨true, 9, 2, 5⟩ ⟨3, 0x1FF, 0, 0, 0, 0, 0, 0⟩,
    .ringGet ⟨true, 9, 2, 5⟩ ⟨3, 0, 0x1FF, 0, 0, 0, 0, 0⟩,
    .ringGet ⟨true, 9, 2, 5⟩ ⟨3, 0, 0, 0x1FF, 0, 0, 0, 0⟩,
    .ringGet ⟨true, 9, 2, 5⟩ ⟨3, 0, 0, 0, 0xFFF, 0, 0, 0⟩,
    .ringGet ⟨true, 9, 2, 5⟩ ⟨3, 0, 0, 0, 0, 7, 0, 0⟩,
    .ringGet ⟨true, 9, 2, 5⟩ ⟨3, 0, 0, 0, 0, 0, 1, 0⟩,
    .ringGet ⟨true, 9, 2, 5⟩ ⟨3, 0, 0, 0, 0, 0, 0, 1⟩,
    .ringCommit ⟨true, 3, 5, 5⟩ ⟨0, 0, 0, 0, 0, 0, 0, 0⟩,
    .ringCommit ⟨true, 3, 0, 5⟩ ⟨0xFF, 0, 0, 0, 0, 0, 0, 0⟩,
    .ringCommit ⟨true, 3, 0, 5⟩ ⟨0, 0x1FF, 0, 0, 0, 0, 0, 0⟩,
    .ringCommit ⟨true, 3, 0, 5⟩ ⟨0, 0, 0x1FF, 0, 0, 0, 0, 0⟩,
    .ringCommit ⟨true, 3, 0, 5⟩ ⟨0, 0, 0, 0x1FF, 0, 0, 0, 0⟩,
    .ringCommit ⟨true, 3, 0, 5⟩ ⟨0, 0, 0, 0, 0xFFF, 0, 0, 0⟩,
    .ringCommit ⟨true, 3, 0, 5⟩ ⟨0, 0, 0, 0, 0, 7, 0, 0⟩,
    .ringCommit ⟨true, 3, 0, 5⟩ ⟨0, 0, 0, 0, 0, 0, 1, 0⟩] : List Instr), wellFormed i = false := by decide

theorem test_ill_formed_words_21 : ∀ i ∈ ([
    .ringCommit ⟨true, 3, 0, 5⟩ ⟨0, 0, 0, 0, 0, 0, 0, 1⟩,
    .spawn ⟨true, 3, 5, 5⟩ ⟨0, 0x185, 0, 0, 0, 0, 0, 0⟩,
    .spawn ⟨true, 3, 0, 5⟩ ⟨0xFF, 0x185, 0, 0, 0, 0, 0, 0⟩,
    .spawn ⟨true, 3, 0, 5⟩ ⟨0, 0xC0, 0, 0, 0, 0, 0, 0⟩,
    .spawn ⟨true, 3, 0, 5⟩ ⟨0, 0x185, 0x1FF, 0, 0, 0, 0, 0⟩,
    .spawn ⟨true, 3, 0, 5⟩ ⟨0, 0x185, 0, 0x1FF, 0, 0, 0, 0⟩,
    .spawn ⟨true, 3, 0, 5⟩ ⟨0, 0x185, 0, 0, 0xFFF, 0, 0, 0⟩,
    .spawn ⟨true, 3, 0, 5⟩ ⟨0, 0x185, 0, 0, 0, 7, 0, 0⟩,
    .spawn ⟨true, 3, 0, 5⟩ ⟨0, 0x185, 0, 0, 0, 0, 1, 0⟩,
    .spawn ⟨true, 3, 0, 5⟩ ⟨0, 0x185, 0, 0, 0, 0, 0, 1⟩,
    .depAdd ⟨true, 3, 5, 0⟩ ⟨0, 0x104, 0x185, 0, 0, 5, 0, 1⟩,
    .depAdd ⟨true, 3, 0, 0⟩ ⟨0xFF, 0x104, 0x185, 0, 0, 5, 0, 1⟩,
    .depAdd ⟨true, 3, 0, 0⟩ ⟨0, 0xC0, 0x185, 0, 0, 5, 0, 1⟩,
    .depAdd ⟨true, 3, 0, 0⟩ ⟨0, 0x104, 0xC0, 0, 0, 5, 0, 1⟩,
    .depAdd ⟨true, 3, 0, 0⟩ ⟨0, 0x104, 0x185, 0x1FF, 0, 5, 0, 1⟩,
    .depAdd ⟨true, 3, 0, 0⟩ ⟨0, 0x104, 0x185, 0, 0xFFF, 5, 0, 1⟩,
    .depAdd ⟨true, 3, 0, 0⟩ ⟨0, 0x104, 0x185, 0, 0, 7, 0, 1⟩,
    .depAdd ⟨true, 3, 0, 0⟩ ⟨0, 0x104, 0x185, 0, 0, 5, 1, 1⟩,
    .depAdd ⟨true, 3, 0, 0⟩ ⟨0, 0x104, 0x185, 0, 0, 5, 0, 0⟩,
    .depSignal ⟨true, 9, 5, 5⟩ ⟨0, 0x8D, 0, 0, 0, 3, 0, 1⟩,
    .depSignal ⟨true, 9, 0, 5⟩ ⟨0xFF, 0x8D, 0, 0, 0, 3, 0, 1⟩,
    .depSignal ⟨true, 9, 0, 5⟩ ⟨0, 0xC0, 0, 0, 0, 3, 0, 1⟩,
    .depSignal ⟨true, 9, 0, 5⟩ ⟨0, 0x8D, 0x1FF, 0, 0, 3, 0, 1⟩,
    .depSignal ⟨true, 9, 0, 5⟩ ⟨0, 0x8D, 0, 0x1FF, 0, 3, 0, 1⟩] : List Instr), wellFormed i = false := by decide

theorem test_ill_formed_words_22 : ∀ i ∈ ([
    .depSignal ⟨true, 9, 0, 5⟩ ⟨0, 0x8D, 0, 0, 0xFFF, 3, 0, 1⟩,
    .depSignal ⟨true, 9, 0, 5⟩ ⟨0, 0x8D, 0, 0, 0, 7, 0, 1⟩,
    .depSignal ⟨true, 9, 0, 5⟩ ⟨0, 0x8D, 0, 0, 0, 3, 1, 1⟩,
    .depSignal ⟨true, 9, 0, 5⟩ ⟨0, 0x8D, 0, 0, 0, 3, 0, 0⟩,
    .suspSuspend ⟨true, 9, 5, 5⟩ ⟨0, 0x103, 0, 0, 0, 0, 0, 0⟩,
    .suspSuspend ⟨true, 9, 0, 5⟩ ⟨0xFF, 0x103, 0, 0, 0, 0, 0, 0⟩,
    .suspSuspend ⟨true, 9, 0, 5⟩ ⟨0, 0xC0, 0, 0, 0, 0, 0, 0⟩,
    .suspSuspend ⟨true, 9, 0, 5⟩ ⟨0, 0x103, 0x1FF, 0, 0, 0, 0, 0⟩,
    .suspSuspend ⟨true, 9, 0, 5⟩ ⟨0, 0x103, 0, 0x1FF, 0, 0, 0, 0⟩,
    .suspSuspend ⟨true, 9, 0, 5⟩ ⟨0, 0x103, 0, 0, 0xFFF, 0, 0, 0⟩,
    .suspSuspend ⟨true, 9, 0, 5⟩ ⟨0, 0x103, 0, 0, 0, 7, 0, 0⟩,
    .suspSuspend ⟨true, 9, 0, 5⟩ ⟨0, 0x103, 0, 0, 0, 0, 1, 0⟩,
    .suspSuspend ⟨true, 9, 0, 5⟩ ⟨0, 0x103, 0, 0, 0, 0, 0, 1⟩,
    .suspYield ⟨true, 9, 5, 5⟩ ⟨0, 0, 0, 0, 0, 0, 0, 0⟩,
    .suspYield ⟨true, 9, 0, 5⟩ ⟨0xFF, 0, 0, 0, 0, 0, 0, 0⟩,
    .suspYield ⟨true, 9, 0, 5⟩ ⟨0, 0x1FF, 0, 0, 0, 0, 0, 0⟩,
    .suspYield ⟨true, 9, 0, 5⟩ ⟨0, 0, 0x1FF, 0, 0, 0, 0, 0⟩,
    .suspYield ⟨true, 9, 0, 5⟩ ⟨0, 0, 0, 0x1FF, 0, 0, 0, 0⟩,
    .suspYield ⟨true, 9, 0, 5⟩ ⟨0, 0, 0, 0, 0xFFF, 0, 0, 0⟩,
    .suspYield ⟨true, 9, 0, 5⟩ ⟨0, 0, 0, 0, 0, 7, 0, 0⟩,
    .suspYield ⟨true, 9, 0, 5⟩ ⟨0, 0, 0, 0, 0, 0, 1, 0⟩,
    .suspYield ⟨true, 9, 0, 5⟩ ⟨0, 0, 0, 0, 0, 0, 0, 1⟩,
    .barArrive ⟨true, 3, 5, 5⟩ ⟨0, 0, 0, 0, 0, 0, 0, 0⟩,
    .barArrive ⟨true, 3, 0, 5⟩ ⟨0xFF, 0, 0, 0, 0, 0, 0, 0⟩] : List Instr), wellFormed i = false := by decide

theorem test_ill_formed_words_23 : ∀ i ∈ ([
    .barArrive ⟨true, 3, 0, 5⟩ ⟨0, 0x1FF, 0, 0, 0, 0, 0, 0⟩,
    .barArrive ⟨true, 3, 0, 5⟩ ⟨0, 0, 0x1FF, 0, 0, 0, 0, 0⟩,
    .barArrive ⟨true, 3, 0, 5⟩ ⟨0, 0, 0, 0x1FF, 0, 0, 0, 0⟩,
    .barArrive ⟨true, 3, 0, 5⟩ ⟨0, 0, 0, 0, 0xFFF, 0, 0, 0⟩,
    .barArrive ⟨true, 3, 0, 5⟩ ⟨0, 0, 0, 0, 0, 7, 0, 0⟩,
    .barArrive ⟨true, 3, 0, 5⟩ ⟨0, 0, 0, 0, 0, 0, 1, 0⟩,
    .barArrive ⟨true, 3, 0, 5⟩ ⟨0, 0, 0, 0, 0, 0, 0, 1⟩,
    .getcCoord ⟨true, 9, 0, 5⟩ ⟨0x1A, 0, 0, 0, 0, 0, 0, 0⟩,
    .getcCoord ⟨true, 9, 2, 5⟩ ⟨0xFF, 0, 0, 0, 0, 0, 0, 0⟩,
    .getcCoord ⟨true, 9, 2, 5⟩ ⟨0x1A, 0x1FF, 0, 0, 0, 0, 0, 0⟩,
    .getcCoord ⟨true, 9, 2, 5⟩ ⟨0x1A, 0, 0x1FF, 0, 0, 0, 0, 0⟩,
    .getcCoord ⟨true, 9, 2, 5⟩ ⟨0x1A, 0, 0, 0x1FF, 0, 0, 0, 0⟩,
    .getcCoord ⟨true, 9, 2, 5⟩ ⟨0x1A, 0, 0, 0, 0xFFF, 0, 0, 0⟩,
    .getcCoord ⟨true, 9, 2, 5⟩ ⟨0x1A, 0, 0, 0, 0, 7, 0, 0⟩,
    .getcCoord ⟨true, 9, 2, 5⟩ ⟨0x1A, 0, 0, 0, 0, 0, 1, 0⟩,
    .getcCoord ⟨true, 9, 2, 5⟩ ⟨0x1A, 0, 0, 0, 0, 0, 0, 1⟩,
    .getcShape ⟨true, 3, 0, 5⟩ ⟨0x4B, 0, 0, 0, 1, 0, 0, 0⟩,
    .getcShape ⟨true, 3, 2, 5⟩ ⟨0xFF, 0, 0, 0, 1, 0, 0, 0⟩,
    .getcShape ⟨true, 3, 2, 5⟩ ⟨0x4B, 0x1FF, 0, 0, 1, 0, 0, 0⟩,
    .getcShape ⟨true, 3, 2, 5⟩ ⟨0x4B, 0, 0x1FF, 0, 1, 0, 0, 0⟩,
    .getcShape ⟨true, 3, 2, 5⟩ ⟨0x4B, 0, 0, 0x1FF, 1, 0, 0, 0⟩,
    .getcShape ⟨true, 3, 2, 5⟩ ⟨0x4B, 0, 0, 0, 0xFFF, 0, 0, 0⟩,
    .getcShape ⟨true, 3, 2, 5⟩ ⟨0x4B, 0, 0, 0, 1, 7, 0, 0⟩,
    .getcShape ⟨true, 3, 2, 5⟩ ⟨0x4B, 0, 0, 0, 1, 0, 1, 0⟩] : List Instr), wellFormed i = false := by decide

theorem test_ill_formed_words_24 : ∀ i ∈ ([
    .getcShape ⟨true, 3, 2, 5⟩ ⟨0x4B, 0, 0, 0, 1, 0, 0, 1⟩,
    .getcLaunch ⟨true, 3, 0, 5⟩ ⟨0x76, 0, 0, 0, 2, 0, 0, 0⟩,
    .getcLaunch ⟨true, 3, 5, 5⟩ ⟨0xFF, 0, 0, 0, 2, 0, 0, 0⟩,
    .getcLaunch ⟨true, 3, 5, 5⟩ ⟨0x76, 0x1FF, 0, 0, 2, 0, 0, 0⟩,
    .getcLaunch ⟨true, 3, 5, 5⟩ ⟨0x76, 0, 0x1FF, 0, 2, 0, 0, 0⟩,
    .getcLaunch ⟨true, 3, 5, 5⟩ ⟨0x76, 0, 0, 0x1FF, 2, 0, 0, 0⟩,
    .getcLaunch ⟨true, 3, 5, 5⟩ ⟨0x76, 0, 0, 0, 0xFFF, 0, 0, 0⟩,
    .getcLaunch ⟨true, 3, 5, 5⟩ ⟨0x76, 0, 0, 0, 2, 7, 0, 0⟩,
    .getcLaunch ⟨true, 3, 5, 5⟩ ⟨0x76, 0, 0, 0, 2, 0, 1, 0⟩,
    .getcLaunch ⟨true, 3, 5, 5⟩ ⟨0x76, 0, 0, 0, 2, 0, 0, 1⟩,
    .getcCore ⟨true, 9, 0, 5⟩ ⟨3, 0, 0, 0, 3, 0, 0, 0⟩,
    .getcCore ⟨true, 9, 5, 5⟩ ⟨0xFF, 0, 0, 0, 3, 0, 0, 0⟩,
    .getcCore ⟨true, 9, 5, 5⟩ ⟨3, 0x1FF, 0, 0, 3, 0, 0, 0⟩,
    .getcCore ⟨true, 9, 5, 5⟩ ⟨3, 0, 0x1FF, 0, 3, 0, 0, 0⟩,
    .getcCore ⟨true, 9, 5, 5⟩ ⟨3, 0, 0, 0x1FF, 3, 0, 0, 0⟩,
    .getcCore ⟨true, 9, 5, 5⟩ ⟨3, 0, 0, 0, 0xFFF, 0, 0, 0⟩,
    .getcCore ⟨true, 9, 5, 5⟩ ⟨3, 0, 0, 0, 3, 7, 0, 0⟩,
    .getcCore ⟨true, 9, 5, 5⟩ ⟨3, 0, 0, 0, 3, 0, 1, 0⟩,
    .getcCore ⟨true, 9, 5, 5⟩ ⟨3, 0, 0, 0, 3, 0, 0, 1⟩,
    .rput ⟨true, 3, 2, 0⟩ ⟨0xC0, 0x101, 0x1FD, 0, 0, 0, 0, 1, 0⟩,
    .rput ⟨true, 3, 2, 0⟩ ⟨0x185, 0xC0, 0x1FD, 0, 0, 0, 0, 1, 0⟩,
    .rput ⟨true, 3, 2, 0⟩ ⟨0x185, 0x101, 0xC0, 0, 0, 0, 0, 1, 0⟩,
    .rput ⟨true, 3, 2, 0⟩ ⟨0x185, 0x101, 0x1FD, 0x1FF, 0, 0, 0, 1, 0⟩,
    .rput ⟨true, 3, 2, 0⟩ ⟨0x185, 0x101, 0x1FD, 0, 0xFF, 0, 0, 1, 0⟩] : List Instr), wellFormed i = false := by decide

theorem test_ill_formed_words_25 : ∀ i ∈ ([
    .rput ⟨true, 3, 2, 0⟩ ⟨0x185, 0x101, 0x1FD, 0, 0, 0xF, 0, 1, 0⟩,
    .rput ⟨true, 3, 2, 0⟩ ⟨0x185, 0x101, 0x1FD, 0, 0, 0, 7, 1, 0⟩,
    .rput ⟨true, 3, 2, 0⟩ ⟨0x185, 0x101, 0x1FD, 0, 0, 0, 0, 1, 1⟩,
    .rputSig ⟨true, 3, 0, 5⟩ ⟨0xC0, 0x185, 0x105, 0x185, 0, 0, 1, 1, 0⟩,
    .rputSig ⟨true, 3, 0, 5⟩ ⟨0x80, 0xC0, 0x105, 0x185, 0, 0, 1, 1, 0⟩,
    .rputSig ⟨true, 3, 0, 5⟩ ⟨0x80, 0x185, 0xC0, 0x185, 0, 0, 1, 1, 0⟩,
    .rputSig ⟨true, 3, 0, 5⟩ ⟨0x80, 0x185, 0x105, 0xC0, 0, 0, 1, 1, 0⟩,
    .rputSig ⟨true, 3, 0, 5⟩ ⟨0x80, 0x185, 0x105, 0x185, 0xFF, 0, 1, 1, 0⟩,
    .rputSig ⟨true, 3, 0, 5⟩ ⟨0x80, 0x185, 0x105, 0x185, 0, 0xF, 1, 1, 0⟩,
    .rputSig ⟨true, 3, 0, 5⟩ ⟨0x80, 0x185, 0x105, 0x185, 0, 0, 7, 1, 0⟩,
    .rputSig ⟨true, 3, 0, 5⟩ ⟨0x80, 0x185, 0x105, 0x185, 0, 0, 1, 0, 0⟩,
    .rputSig ⟨true, 3, 0, 5⟩ ⟨0x80, 0x185, 0x105, 0x185, 0, 0, 1, 1, 1⟩,
    .rsem ⟨true, 0, 2, 5⟩ ⟨0xC0, 4, 0, 0, 0, 0, 0, 0, 0⟩,
    .rsem ⟨true, 0, 2, 5⟩ ⟨0x1FD, 0xC0, 0, 0, 0, 0, 0, 0, 0⟩,
    .rsem ⟨true, 0, 2, 5⟩ ⟨0x1FD, 4, 0x1FF, 0, 0, 0, 0, 0, 0⟩,
    .rsem ⟨true, 0, 2, 5⟩ ⟨0x1FD, 4, 0, 0x1FF, 0, 0, 0, 0, 0⟩,
    .rsem ⟨true, 0, 2, 5⟩ ⟨0x1FD, 4, 0, 0, 0xFF, 0, 0, 0, 0⟩,
    .rsem ⟨true, 0, 2, 5⟩ ⟨0x1FD, 4, 0, 0, 0, 0xF, 0, 0, 0⟩,
    .rsem ⟨true, 0, 2, 5⟩ ⟨0x1FD, 4, 0, 0, 0, 0, 7, 0, 0⟩,
    .rsem ⟨true, 0, 2, 5⟩ ⟨0x1FD, 4, 0, 0, 0, 0, 0, 1, 0⟩,
    .rsem ⟨true, 0, 2, 5⟩ ⟨0x1FD, 4, 0, 0, 0, 0, 0, 0, 1⟩,
    .rred ⟨true, 9, 0, 5⟩ ⟨0xC0, 0x1FD, 0x1FD, 0, 0, 7, 4, 1, 0⟩,
    .rred ⟨true, 9, 0, 5⟩ ⟨0, 0xC0, 0x1FD, 0, 0, 7, 4, 1, 0⟩,
    .rred ⟨true, 9, 0, 5⟩ ⟨0, 0x1FD, 0xC0, 0, 0, 7, 4, 1, 0⟩] : List Instr), wellFormed i = false := by decide

theorem test_ill_formed_words_26 : ∀ i ∈ ([
    .rred ⟨true, 9, 0, 5⟩ ⟨0, 0x1FD, 0x1FD, 0x1FF, 0, 7, 4, 1, 0⟩,
    .rred ⟨true, 9, 0, 5⟩ ⟨0, 0x1FD, 0x1FD, 0, 0xFF, 7, 4, 1, 0⟩,
    .rred ⟨true, 9, 0, 5⟩ ⟨0, 0x1FD, 0x1FD, 0, 0, 0xF, 4, 1, 0⟩,
    .rred ⟨true, 9, 0, 5⟩ ⟨0, 0x1FD, 0x1FD, 0, 0, 7, 7, 1, 0⟩,
    .rred ⟨true, 9, 0, 5⟩ ⟨0, 0x1FD, 0x1FD, 0, 0, 7, 4, 0, 0⟩,
    .rred ⟨true, 9, 0, 5⟩ ⟨0, 0x1FD, 0x1FD, 0, 0, 7, 4, 1, 1⟩,
    .qpost ⟨true, 9, 5, 5⟩ ⟨0x1FD, 0, 0, 0, 0, 0, 0, 0, 0⟩,
    .qpost ⟨true, 9, 0, 5⟩ ⟨0xC0, 0, 0, 0, 0, 0, 0, 0, 0⟩,
    .qpost ⟨true, 9, 0, 5⟩ ⟨0x1FD, 0x1FF, 0, 0, 0, 0, 0, 0, 0⟩,
    .qpost ⟨true, 9, 0, 5⟩ ⟨0x1FD, 0, 0x1FF, 0, 0, 0, 0, 0, 0⟩,
    .qpost ⟨true, 9, 0, 5⟩ ⟨0x1FD, 0, 0, 0x1FF, 0, 0, 0, 0, 0⟩,
    .qpost ⟨true, 9, 0, 5⟩ ⟨0x1FD, 0, 0, 0, 0xFF, 0, 0, 0, 0⟩,
    .qpost ⟨true, 9, 0, 5⟩ ⟨0x1FD, 0, 0, 0, 0, 0xF, 0, 0, 0⟩,
    .qpost ⟨true, 9, 0, 5⟩ ⟨0x1FD, 0, 0, 0, 0, 0, 7, 0, 0⟩,
    .qpost ⟨true, 9, 0, 5⟩ ⟨0x1FD, 0, 0, 0, 0, 0, 0, 1, 0⟩,
    .qpost ⟨true, 9, 0, 5⟩ ⟨0x1FD, 0, 0, 0, 0, 0, 0, 0, 1⟩,
    .mbxTake ⟨true, 3, 0, 5⟩ ⟨0x1A, 0, 0, 0, 0, 0, 0, 0⟩,
    .mbxTake ⟨true, 3, 2, 5⟩ ⟨0xFF, 0, 0, 0, 0, 0, 0, 0⟩,
    .mbxTake ⟨true, 3, 2, 5⟩ ⟨0x1A, 0x1FF, 0, 0, 0, 0, 0, 0⟩,
    .mbxTake ⟨true, 3, 2, 5⟩ ⟨0x1A, 0, 0x1FF, 0, 0, 0, 0, 0⟩,
    .mbxTake ⟨true, 3, 2, 5⟩ ⟨0x1A, 0, 0, 0x1FF, 0, 0, 0, 0⟩,
    .mbxTake ⟨true, 3, 2, 5⟩ ⟨0x1A, 0, 0, 0, 0xFFF, 0, 0, 0⟩,
    .mbxTake ⟨true, 3, 2, 5⟩ ⟨0x1A, 0, 0, 0, 0, 7, 0, 0⟩,
    .mbxTake ⟨true, 3, 2, 5⟩ ⟨0x1A, 0, 0, 0, 0, 0, 1, 0⟩] : List Instr), wellFormed i = false := by decide

theorem test_ill_formed_words_27 : ∀ i ∈ ([
    .mbxTake ⟨true, 3, 2, 5⟩ ⟨0x1A, 0, 0, 0, 0, 0, 0, 1⟩,
    .mbxPostnb ⟨true, 3, 0, 5⟩ ⟨0x2C, 0, 0, 0, 0, 0, 0, 0⟩,
    .mbxPostnb ⟨true, 3, 2, 5⟩ ⟨0xFF, 0, 0, 0, 0, 0, 0, 0⟩,
    .mbxPostnb ⟨true, 3, 2, 5⟩ ⟨0x2C, 0xC0, 0, 0, 0, 0, 0, 0⟩,
    .mbxPostnb ⟨true, 3, 2, 5⟩ ⟨0x2C, 0, 0x1FF, 0, 0, 0, 0, 0⟩,
    .mbxPostnb ⟨true, 3, 2, 5⟩ ⟨0x2C, 0, 0, 0x1FF, 0, 0, 0, 0⟩,
    .mbxPostnb ⟨true, 3, 2, 5⟩ ⟨0x2C, 0, 0, 0, 0xFFF, 0, 0, 0⟩,
    .mbxPostnb ⟨true, 3, 2, 5⟩ ⟨0x2C, 0, 0, 0, 0, 7, 0, 0⟩,
    .mbxPostnb ⟨true, 3, 2, 5⟩ ⟨0x2C, 0, 0, 0, 0, 0, 1, 0⟩,
    .mbxPostnb ⟨true, 3, 2, 5⟩ ⟨0x2C, 0, 0, 0, 0, 0, 0, 1⟩,
    .rack ⟨true, 9, 0, 5⟩ ⟨6, 0, 0, 0, 0, 0, 0, 0⟩,
    .rack ⟨true, 9, 2, 5⟩ ⟨0xFF, 0, 0, 0, 0, 0, 0, 0⟩,
    .rack ⟨true, 9, 2, 5⟩ ⟨6, 0x1FF, 0, 0, 0, 0, 0, 0⟩,
    .rack ⟨true, 9, 2, 5⟩ ⟨6, 0, 0x1FF, 0, 0, 0, 0, 0⟩,
    .rack ⟨true, 9, 2, 5⟩ ⟨6, 0, 0, 0x1FF, 0, 0, 0, 0⟩,
    .rack ⟨true, 9, 2, 5⟩ ⟨6, 0, 0, 0, 0xFFF, 0, 0, 0⟩,
    .rack ⟨true, 9, 2, 5⟩ ⟨6, 0, 0, 0, 0, 7, 0, 0⟩,
    .rack ⟨true, 9, 2, 5⟩ ⟨6, 0, 0, 0, 0, 0, 1, 0⟩,
    .rack ⟨true, 9, 2, 5⟩ ⟨6, 0, 0, 0, 0, 0, 0, 1⟩,
    .wcfg ⟨true, 9, 5, 5⟩ ⟨0, 0, 0, 0x185, 0, 3, 0, 0, 0, 0, 0⟩,
    .wcfg ⟨true, 9, 0, 5⟩ ⟨0xFF, 0, 0, 0x185, 0, 3, 0, 0, 0, 0, 0⟩,
    .wcfg ⟨true, 9, 0, 5⟩ ⟨0, 0xFF, 0, 0x185, 0, 3, 0, 0, 0, 0, 0⟩,
    .wcfg ⟨true, 9, 0, 5⟩ ⟨0, 0, 0xFF, 0x185, 0, 3, 0, 0, 0, 0, 0⟩,
    .wcfg ⟨true, 9, 0, 5⟩ ⟨0, 0, 0, 0xC0, 0, 3, 0, 0, 0, 0, 0⟩] : List Instr), wellFormed i = false := by decide

theorem test_ill_formed_words_28 : ∀ i ∈ ([
    .wcfg ⟨true, 9, 0, 5⟩ ⟨0, 0, 0, 0x185, 7, 3, 0, 0, 0, 0, 0⟩,
    .wcfg ⟨true, 9, 0, 5⟩ ⟨0, 0, 0, 0x185, 0, 3, 0xF, 0, 0, 0, 0⟩,
    .wcfg ⟨true, 9, 0, 5⟩ ⟨0, 0, 0, 0x185, 0, 3, 0, 0x1FF, 0, 0, 0⟩,
    .wcfg ⟨true, 9, 0, 5⟩ ⟨0, 0, 0, 0x185, 0, 3, 0, 0, 7, 0, 0⟩,
    .wcfg ⟨true, 9, 0, 5⟩ ⟨0, 0, 0, 0x185, 0, 3, 0, 0, 0, 1, 0⟩,
    .wcfg ⟨true, 9, 0, 5⟩ ⟨0, 0, 0, 0x185, 0, 3, 0, 0, 0, 0, 1⟩,
    .wcfgEg ⟨true, 3, 5, 5⟩ ⟨0, 0, 0, 0, 1, 1, 0, 0, 0, 0, 0⟩,
    .wcfgEg ⟨true, 3, 0, 5⟩ ⟨0xFF, 0, 0, 0, 1, 1, 0, 0, 0, 0, 0⟩,
    .wcfgEg ⟨true, 3, 0, 5⟩ ⟨0, 0xFF, 0, 0, 1, 1, 0, 0, 0, 0, 0⟩,
    .wcfgEg ⟨true, 3, 0, 5⟩ ⟨0, 0, 0xFF, 0, 1, 1, 0, 0, 0, 0, 0⟩,
    .wcfgEg ⟨true, 3, 0, 5⟩ ⟨0, 0, 0, 0x1FF, 1, 1, 0, 0, 0, 0, 0⟩,
    .wcfgEg ⟨true, 3, 0, 5⟩ ⟨0, 0, 0, 0, 7, 1, 0, 0, 0, 0, 0⟩,
    .wcfgEg ⟨true, 3, 0, 5⟩ ⟨0, 0, 0, 0, 1, 1, 0xF, 0, 0, 0, 0⟩,
    .wcfgEg ⟨true, 3, 0, 5⟩ ⟨0, 0, 0, 0, 1, 1, 0, 0, 7, 0, 0⟩,
    .wcfgEg ⟨true, 3, 0, 5⟩ ⟨0, 0, 0, 0, 1, 1, 0, 0, 0, 1, 0⟩,
    .wcfgEg ⟨true, 3, 0, 5⟩ ⟨0, 0, 0, 0, 1, 1, 0, 0, 0, 0, 1⟩,
    .pack ⟨true, 9, 5, 0⟩ ⟨5, 0, 0, 0x185, 0, 0, 9, 0x40, 0, 0, 0⟩,
    .pack ⟨true, 9, 0, 0⟩ ⟨0xFF, 0, 0, 0x185, 0, 0, 9, 0x40, 0, 0, 0⟩,
    .pack ⟨true, 9, 0, 0⟩ ⟨5, 0xFF, 0, 0x185, 0, 0, 9, 0x40, 0, 0, 0⟩,
    .pack ⟨true, 9, 0, 0⟩ ⟨5, 0, 0xFF, 0x185, 0, 0, 9, 0x40, 0, 0, 0⟩,
    .pack ⟨true, 9, 0, 0⟩ ⟨5, 0, 0, 0xC0, 0, 0, 9, 0x40, 0, 0, 0⟩,
    .pack ⟨true, 9, 0, 0⟩ ⟨5, 0, 0, 0x185, 7, 0, 9, 0x40, 0, 0, 0⟩,
    .pack ⟨true, 9, 0, 0⟩ ⟨5, 0, 0, 0x185, 0, 3, 9, 0x40, 0, 0, 0⟩,
    .pack ⟨true, 9, 0, 0⟩ ⟨5, 0, 0, 0x185, 0, 0, 0xF, 0x40, 0, 0, 0⟩] : List Instr), wellFormed i = false := by decide

theorem test_ill_formed_words_29 : ∀ i ∈ ([
    .pack ⟨true, 9, 0, 0⟩ ⟨5, 0, 0, 0x185, 0, 0, 9, 0x1FF, 0, 0, 0⟩,
    .pack ⟨true, 9, 0, 0⟩ ⟨5, 0, 0, 0x185, 0, 0, 9, 0x40, 7, 0, 0⟩,
    .pack ⟨true, 9, 0, 0⟩ ⟨5, 0, 0, 0x185, 0, 0, 9, 0x40, 0, 1, 0⟩,
    .pack ⟨true, 9, 0, 0⟩ ⟨5, 0, 0, 0x185, 0, 0, 9, 0x40, 0, 0, 1⟩,
    .packRev ⟨true, 9, 5, 5⟩ ⟨1, 0, 0, 0, 1, 0, 8, 0, 0, 0, 0⟩,
    .packRev ⟨true, 9, 0, 5⟩ ⟨0xFF, 0, 0, 0, 1, 0, 8, 0, 0, 0, 0⟩,
    .packRev ⟨true, 9, 0, 5⟩ ⟨1, 0xFF, 0, 0, 1, 0, 8, 0, 0, 0, 0⟩,
    .packRev ⟨true, 9, 0, 5⟩ ⟨1, 0, 0xFF, 0, 1, 0, 8, 0, 0, 0, 0⟩,
    .packRev ⟨true, 9, 0, 5⟩ ⟨1, 0, 0, 0xC0, 1, 0, 8, 0, 0, 0, 0⟩,
    .packRev ⟨true, 9, 0, 5⟩ ⟨1, 0, 0, 0, 7, 0, 8, 0, 0, 0, 0⟩,
    .packRev ⟨true, 9, 0, 5⟩ ⟨1, 0, 0, 0, 1, 3, 8, 0, 0, 0, 0⟩,
    .packRev ⟨true, 9, 0, 5⟩ ⟨1, 0, 0, 0, 1, 0, 0xF, 0, 0, 0, 0⟩,
    .packRev ⟨true, 9, 0, 5⟩ ⟨1, 0, 0, 0, 1, 0, 8, 0x1FF, 0, 0, 0⟩,
    .packRev ⟨true, 9, 0, 5⟩ ⟨1, 0, 0, 0, 1, 0, 8, 0, 7, 0, 0⟩,
    .packRev ⟨true, 9, 0, 5⟩ ⟨1, 0, 0, 0, 1, 0, 8, 0, 0, 1, 0⟩,
    .packRev ⟨true, 9, 0, 5⟩ ⟨1, 0, 0, 0, 1, 0, 8, 0, 0, 0, 1⟩,
    .packLimb ⟨true, 9, 5, 0⟩ ⟨0, 0, 0, 0x185, 2, 0, 0, 0, 0, 0, 0⟩,
    .packLimb ⟨true, 9, 0, 0⟩ ⟨0xFF, 0, 0, 0x185, 2, 0, 0, 0, 0, 0, 0⟩,
    .packLimb ⟨true, 9, 0, 0⟩ ⟨0, 0xFF, 0, 0x185, 2, 0, 0, 0, 0, 0, 0⟩,
    .packLimb ⟨true, 9, 0, 0⟩ ⟨0, 0, 0xFF, 0x185, 2, 0, 0, 0, 0, 0, 0⟩,
    .packLimb ⟨true, 9, 0, 0⟩ ⟨0, 0, 0, 0xC0, 2, 0, 0, 0, 0, 0, 0⟩,
    .packLimb ⟨true, 9, 0, 0⟩ ⟨0, 0, 0, 0x185, 7, 0, 0, 0, 0, 0, 0⟩,
    .packLimb ⟨true, 9, 0, 0⟩ ⟨0, 0, 0, 0x185, 2, 3, 0, 0, 0, 0, 0⟩,
    .packLimb ⟨true, 9, 0, 0⟩ ⟨0, 0, 0, 0x185, 2, 0, 0xF, 0, 0, 0, 0⟩] : List Instr), wellFormed i = false := by decide

theorem test_ill_formed_words_30 : ∀ i ∈ ([
    .packLimb ⟨true, 9, 0, 0⟩ ⟨0, 0, 0, 0x185, 2, 0, 0, 0x1FF, 0, 0, 0⟩,
    .packLimb ⟨true, 9, 0, 0⟩ ⟨0, 0, 0, 0x185, 2, 0, 0, 0, 7, 0, 0⟩,
    .packLimb ⟨true, 9, 0, 0⟩ ⟨0, 0, 0, 0x185, 2, 0, 0, 0, 0, 1, 0⟩,
    .packLimb ⟨true, 9, 0, 0⟩ ⟨0, 0, 0, 0x185, 2, 0, 0, 0, 0, 0, 1⟩,
    .wmulConv ⟨true, 0, 5, 5⟩ ⟨0x21, 3, 0, 0, 0, 1, 0, 0, 0, 0, 0⟩,
    .wmulConv ⟨true, 0, 0, 5⟩ ⟨0xFF, 3, 0, 0, 0, 1, 0, 0, 0, 0, 0⟩,
    .wmulConv ⟨true, 0, 0, 5⟩ ⟨0x21, 0xFF, 0, 0, 0, 1, 0, 0, 0, 0, 0⟩,
    .wmulConv ⟨true, 0, 0, 5⟩ ⟨0x21, 3, 0xFF, 0, 0, 1, 0, 0, 0, 0, 0⟩,
    .wmulConv ⟨true, 0, 0, 5⟩ ⟨0x21, 3, 0, 0x1FF, 0, 1, 0, 0, 0, 0, 0⟩,
    .wmulConv ⟨true, 0, 0, 5⟩ ⟨0x21, 3, 0, 0, 7, 1, 0, 0, 0, 0, 0⟩,
    .wmulConv ⟨true, 0, 0, 5⟩ ⟨0x21, 3, 0, 0, 0, 1, 0xF, 0, 0, 0, 0⟩,
    .wmulConv ⟨true, 0, 0, 5⟩ ⟨0x21, 3, 0, 0, 0, 1, 0, 0x1FF, 0, 0, 0⟩,
    .wmulConv ⟨true, 0, 0, 5⟩ ⟨0x21, 3, 0, 0, 0, 1, 0, 0, 7, 0, 0⟩,
    .wmulConv ⟨true, 0, 0, 5⟩ ⟨0x21, 3, 0, 0, 0, 1, 0, 0, 0, 1, 0⟩,
    .wmulConv ⟨true, 0, 0, 5⟩ ⟨0x21, 3, 0, 0, 0, 1, 0, 0, 0, 0, 1⟩,
    .wmulCorr ⟨true, 0, 5, 0⟩ ⟨0x20, 0, 0, 0, 1, 3, 0, 0, 0, 0, 0⟩,
    .wmulCorr ⟨true, 0, 0, 0⟩ ⟨0xFF, 0, 0, 0, 1, 3, 0, 0, 0, 0, 0⟩,
    .wmulCorr ⟨true, 0, 0, 0⟩ ⟨0x20, 0xFF, 0, 0, 1, 3, 0, 0, 0, 0, 0⟩,
    .wmulCorr ⟨true, 0, 0, 0⟩ ⟨0x20, 0, 0xFF, 0, 1, 3, 0, 0, 0, 0, 0⟩,
    .wmulCorr ⟨true, 0, 0, 0⟩ ⟨0x20, 0, 0, 0x1FF, 1, 3, 0, 0, 0, 0, 0⟩,
    .wmulCorr ⟨true, 0, 0, 0⟩ ⟨0x20, 0, 0, 0, 7, 3, 0, 0, 0, 0, 0⟩,
    .wmulCorr ⟨true, 0, 0, 0⟩ ⟨0x20, 0, 0, 0, 1, 3, 0xF, 0, 0, 0, 0⟩,
    .wmulCorr ⟨true, 0, 0, 0⟩ ⟨0x20, 0, 0, 0, 1, 3, 0, 0x1FF, 0, 0, 0⟩,
    .wmulCorr ⟨true, 0, 0, 0⟩ ⟨0x20, 0, 0, 0, 1, 3, 0, 0, 7, 0, 0⟩] : List Instr), wellFormed i = false := by decide

theorem test_ill_formed_words_31 : ∀ i ∈ ([
    .wmulCorr ⟨true, 0, 0, 0⟩ ⟨0x20, 0, 0, 0, 1, 3, 0, 0, 0, 1, 0⟩,
    .wmulCorr ⟨true, 0, 0, 0⟩ ⟨0x20, 0, 0, 0, 1, 3, 0, 0, 0, 0, 1⟩,
    .wmulLimb ⟨true, 0, 5, 5⟩ ⟨0x22, 0, 0, 0, 2, 0, 0, 0, 0, 0, 0⟩,
    .wmulLimb ⟨true, 0, 0, 5⟩ ⟨0xFF, 0, 0, 0, 2, 0, 0, 0, 0, 0, 0⟩,
    .wmulLimb ⟨true, 0, 0, 5⟩ ⟨0x22, 0xFF, 0, 0, 2, 0, 0, 0, 0, 0, 0⟩,
    .wmulLimb ⟨true, 0, 0, 5⟩ ⟨0x22, 0, 0xFF, 0, 2, 0, 0, 0, 0, 0, 0⟩,
    .wmulLimb ⟨true, 0, 0, 5⟩ ⟨0x22, 0, 0, 0x1FF, 2, 0, 0, 0, 0, 0, 0⟩,
    .wmulLimb ⟨true, 0, 0, 5⟩ ⟨0x22, 0, 0, 0, 7, 0, 0, 0, 0, 0, 0⟩,
    .wmulLimb ⟨true, 0, 0, 5⟩ ⟨0x22, 0, 0, 0, 2, 0, 0xF, 0, 0, 0, 0⟩,
    .wmulLimb ⟨true, 0, 0, 5⟩ ⟨0x22, 0, 0, 0, 2, 0, 0, 0x1FF, 0, 0, 0⟩,
    .wmulLimb ⟨true, 0, 0, 5⟩ ⟨0x22, 0, 0, 0, 2, 0, 0, 0, 7, 0, 0⟩,
    .wmulLimb ⟨true, 0, 0, 5⟩ ⟨0x22, 0, 0, 0, 2, 0, 0, 0, 0, 1, 0⟩,
    .wmulLimb ⟨true, 0, 0, 5⟩ ⟨0x22, 0, 0, 0, 2, 0, 0, 0, 0, 0, 1⟩,
    .wmulOuter ⟨true, 3, 5, 5⟩ ⟨0x43, 0, 0, 0x1FD, 3, 1, 0, 9, 0, 0, 0⟩,
    .wmulOuter ⟨true, 3, 0, 5⟩ ⟨0xFF, 0, 0, 0x1FD, 3, 1, 0, 9, 0, 0, 0⟩,
    .wmulOuter ⟨true, 3, 0, 5⟩ ⟨0x43, 0xFF, 0, 0x1FD, 3, 1, 0, 9, 0, 0, 0⟩,
    .wmulOuter ⟨true, 3, 0, 5⟩ ⟨0x43, 0, 0xFF, 0x1FD, 3, 1, 0, 9, 0, 0, 0⟩,
    .wmulOuter ⟨true, 3, 0, 5⟩ ⟨0x43, 0, 0, 0xC0, 3, 1, 0, 9, 0, 0, 0⟩,
    .wmulOuter ⟨true, 3, 0, 5⟩ ⟨0x43, 0, 0, 0x1FD, 7, 1, 0, 9, 0, 0, 0⟩,
    .wmulOuter ⟨true, 3, 0, 5⟩ ⟨0x43, 0, 0, 0x1FD, 3, 1, 0xF, 9, 0, 0, 0⟩,
    .wmulOuter ⟨true, 3, 0, 5⟩ ⟨0x43, 0, 0, 0x1FD, 3, 1, 0, 0x1FF, 0, 0, 0⟩,
    .wmulOuter ⟨true, 3, 0, 5⟩ ⟨0x43, 0, 0, 0x1FD, 3, 1, 0, 9, 7, 0, 0⟩,
    .wmulOuter ⟨true, 3, 0, 5⟩ ⟨0x43, 0, 0, 0x1FD, 3, 1, 0, 9, 0, 1, 0⟩,
    .wmulOuter ⟨true, 3, 0, 5⟩ ⟨0x43, 0, 0, 0x1FD, 3, 1, 0, 9, 0, 0, 1⟩] : List Instr), wellFormed i = false := by decide

theorem test_ill_formed_words_32 : ∀ i ∈ ([
    .wmulOuterSp ⟨true, 9, 5, 5⟩ ⟨0x40, 0, 0xA0, 0, 4, 0, 0, 0, 0, 0, 0⟩,
    .wmulOuterSp ⟨true, 9, 0, 5⟩ ⟨0xFF, 0, 0xA0, 0, 4, 0, 0, 0, 0, 0, 0⟩,
    .wmulOuterSp ⟨true, 9, 0, 5⟩ ⟨0x40, 0xFF, 0xA0, 0, 4, 0, 0, 0, 0, 0, 0⟩,
    .wmulOuterSp ⟨true, 9, 0, 5⟩ ⟨0x40, 0, 0xFF, 0, 4, 0, 0, 0, 0, 0, 0⟩,
    .wmulOuterSp ⟨true, 9, 0, 5⟩ ⟨0x40, 0, 0xA0, 0xC0, 4, 0, 0, 0, 0, 0, 0⟩,
    .wmulOuterSp ⟨true, 9, 0, 5⟩ ⟨0x40, 0, 0xA0, 0, 7, 0, 0, 0, 0, 0, 0⟩,
    .wmulOuterSp ⟨true, 9, 0, 5⟩ ⟨0x40, 0, 0xA0, 0, 4, 0, 0xF, 0, 0, 0, 0⟩,
    .wmulOuterSp ⟨true, 9, 0, 5⟩ ⟨0x40, 0, 0xA0, 0, 4, 0, 0, 0x1FF, 0, 0, 0⟩,
    .wmulOuterSp ⟨true, 9, 0, 5⟩ ⟨0x40, 0, 0xA0, 0, 4, 0, 0, 0, 7, 0, 0⟩,
    .wmulOuterSp ⟨true, 9, 0, 5⟩ ⟨0x40, 0, 0xA0, 0, 4, 0, 0, 0, 0, 1, 0⟩,
    .wmulOuterSp ⟨true, 9, 0, 5⟩ ⟨0x40, 0, 0xA0, 0, 4, 0, 0, 0, 0, 0, 1⟩,
    .extrDigm ⟨true, 9, 5, 5⟩ ⟨0xFF, 0x20, 0xC0, 0, 0, 0, 0xB, 0, 0, 0, 0⟩,
    .extrDigm ⟨true, 9, 5, 5⟩ ⟨0, 0xFF, 0xC0, 0, 0, 0, 0xB, 0, 0, 0, 0⟩,
    .extrDigm ⟨true, 9, 5, 5⟩ ⟨0, 0x20, 0xFF, 0, 0, 0, 0xB, 0, 0, 0, 0⟩,
    .extrDigm ⟨true, 9, 5, 5⟩ ⟨0, 0x20, 0xC0, 0xC0, 0, 0, 0xB, 0, 0, 0, 0⟩,
    .extrDigm ⟨true, 9, 5, 5⟩ ⟨0, 0x20, 0xC0, 0, 7, 0, 0xB, 0, 0, 0, 0⟩,
    .extrDigm ⟨true, 9, 5, 5⟩ ⟨0, 0x20, 0xC0, 0, 0, 0, 0xF, 0, 0, 0, 0⟩,
    .extrDigm ⟨true, 9, 5, 5⟩ ⟨0, 0x20, 0xC0, 0, 0, 0, 0xB, 0x1FF, 0, 0, 0⟩,
    .extrDigm ⟨true, 9, 5, 5⟩ ⟨0, 0x20, 0xC0, 0, 0, 0, 0xB, 0, 7, 0, 0⟩,
    .extrDigm ⟨true, 9, 5, 5⟩ ⟨0, 0x20, 0xC0, 0, 0, 0, 0xB, 0, 0, 1, 0⟩,
    .extrDigm ⟨true, 9, 5, 5⟩ ⟨0, 0x20, 0xC0, 0, 0, 0, 0xB, 0, 0, 0, 1⟩,
    .extrDigs ⟨true, 0, 0, 5⟩ ⟨0xC0, 0x23, 0, 0, 1, 3, 0, 5, 0, 0, 0⟩,
    .extrDigs ⟨true, 0, 5, 5⟩ ⟨0xFF, 0x23, 0, 0, 1, 3, 0, 5, 0, 0, 0⟩,
    .extrDigs ⟨true, 0, 5, 5⟩ ⟨0xC0, 0xFF, 0, 0, 1, 3, 0, 5, 0, 0, 0⟩] : List Instr), wellFormed i = false := by decide

theorem test_ill_formed_words_33 : ∀ i ∈ ([
    .extrDigs ⟨true, 0, 5, 5⟩ ⟨0xC0, 0x23, 0xFF, 0, 1, 3, 0, 5, 0, 0, 0⟩,
    .extrDigs ⟨true, 0, 5, 5⟩ ⟨0xC0, 0x23, 0, 0x1FF, 1, 3, 0, 5, 0, 0, 0⟩,
    .extrDigs ⟨true, 0, 5, 5⟩ ⟨0xC0, 0x23, 0, 0, 7, 3, 0, 5, 0, 0, 0⟩,
    .extrDigs ⟨true, 0, 5, 5⟩ ⟨0xC0, 0x23, 0, 0, 1, 3, 0xF, 5, 0, 0, 0⟩,
    .extrDigs ⟨true, 0, 5, 5⟩ ⟨0xC0, 0x23, 0, 0, 1, 3, 0, 0x1FF, 0, 0, 0⟩,
    .extrDigs ⟨true, 0, 5, 5⟩ ⟨0xC0, 0x23, 0, 0, 1, 3, 0, 5, 7, 0, 0⟩,
    .extrDigs ⟨true, 0, 5, 5⟩ ⟨0xC0, 0x23, 0, 0, 1, 3, 0, 5, 0, 1, 0⟩,
    .extrDigs ⟨true, 0, 5, 5⟩ ⟨0xC0, 0x23, 0, 0, 1, 3, 0, 5, 0, 0, 1⟩,
    .extrLimb ⟨true, 3, 2, 0⟩ ⟨0xFF, 0x20, 0xC0, 0x185, 2, 2, 0, 0, 0, 0, 0⟩,
    .extrLimb ⟨true, 3, 2, 0⟩ ⟨0, 0xFF, 0xC0, 0x185, 2, 2, 0, 0, 0, 0, 0⟩,
    .extrLimb ⟨true, 3, 2, 0⟩ ⟨0, 0x20, 0xFF, 0x185, 2, 2, 0, 0, 0, 0, 0⟩,
    .extrLimb ⟨true, 3, 2, 0⟩ ⟨0, 0x20, 0xC0, 0xC0, 2, 2, 0, 0, 0, 0, 0⟩,
    .extrLimb ⟨true, 3, 2, 0⟩ ⟨0, 0x20, 0xC0, 0x185, 7, 2, 0, 0, 0, 0, 0⟩,
    .extrLimb ⟨true, 3, 2, 0⟩ ⟨0, 0x20, 0xC0, 0x185, 2, 2, 0xF, 0, 0, 0, 0⟩,
    .extrLimb ⟨true, 3, 2, 0⟩ ⟨0, 0x20, 0xC0, 0x185, 2, 2, 0, 0x1FF, 0, 0, 0⟩,
    .extrLimb ⟨true, 3, 2, 0⟩ ⟨0, 0x20, 0xC0, 0x185, 2, 2, 0, 0, 7, 0, 0⟩,
    .extrLimb ⟨true, 3, 2, 0⟩ ⟨0, 0x20, 0xC0, 0x185, 2, 2, 0, 0, 0, 1, 0⟩,
    .extrLimb ⟨true, 3, 2, 0⟩ ⟨0, 0x20, 0xC0, 0x185, 2, 2, 0, 0, 0, 0, 1⟩,
    .extrTile ⟨true, 0, 5, 0⟩ ⟨0xFF, 0x43, 0xC0, 0x1FD, 3, 0, 0, 0, 0, 0, 0⟩,
    .extrTile ⟨true, 0, 5, 0⟩ ⟨0, 0xFF, 0xC0, 0x1FD, 3, 0, 0, 0, 0, 0, 0⟩,
    .extrTile ⟨true, 0, 5, 0⟩ ⟨0, 0x43, 0xFF, 0x1FD, 3, 0, 0, 0, 0, 0, 0⟩,
    .extrTile ⟨true, 0, 5, 0⟩ ⟨0, 0x43, 0xC0, 0xC0, 3, 0, 0, 0, 0, 0, 0⟩,
    .extrTile ⟨true, 0, 5, 0⟩ ⟨0, 0x43, 0xC0, 0x1FD, 7, 0, 0, 0, 0, 0, 0⟩,
    .extrTile ⟨true, 0, 5, 0⟩ ⟨0, 0x43, 0xC0, 0x1FD, 3, 0, 0xF, 0, 0, 0, 0⟩] : List Instr), wellFormed i = false := by decide

theorem test_ill_formed_words_34 : ∀ i ∈ ([
    .extrTile ⟨true, 0, 5, 0⟩ ⟨0, 0x43, 0xC0, 0x1FD, 3, 0, 0, 0x1FF, 0, 0, 0⟩,
    .extrTile ⟨true, 0, 5, 0⟩ ⟨0, 0x43, 0xC0, 0x1FD, 3, 0, 0, 0, 7, 0, 0⟩,
    .extrTile ⟨true, 0, 5, 0⟩ ⟨0, 0x43, 0xC0, 0x1FD, 3, 0, 0, 0, 0, 1, 0⟩,
    .extrTile ⟨true, 0, 5, 0⟩ ⟨0, 0x43, 0xC0, 0x1FD, 3, 0, 0, 0, 0, 0, 1⟩,
    .extrTileClr ⟨true, 0, 2, 0⟩ ⟨0xFF, 0x40, 0xC0, 0, 4, 0, 0, 0, 0, 0, 0⟩,
    .extrTileClr ⟨true, 0, 2, 0⟩ ⟨0, 0xFF, 0xC0, 0, 4, 0, 0, 0, 0, 0, 0⟩,
    .extrTileClr ⟨true, 0, 2, 0⟩ ⟨0, 0x40, 0xFF, 0, 4, 0, 0, 0, 0, 0, 0⟩,
    .extrTileClr ⟨true, 0, 2, 0⟩ ⟨0, 0x40, 0xC0, 0xC0, 4, 0, 0, 0, 0, 0, 0⟩,
    .extrTileClr ⟨true, 0, 2, 0⟩ ⟨0, 0x40, 0xC0, 0, 7, 0, 0, 0, 0, 0, 0⟩,
    .extrTileClr ⟨true, 0, 2, 0⟩ ⟨0, 0x40, 0xC0, 0, 4, 0, 0xF, 0, 0, 0, 0⟩,
    .extrTileClr ⟨true, 0, 2, 0⟩ ⟨0, 0x40, 0xC0, 0, 4, 0, 0, 0x1FF, 0, 0, 0⟩,
    .extrTileClr ⟨true, 0, 2, 0⟩ ⟨0, 0x40, 0xC0, 0, 4, 0, 0, 0, 7, 0, 0⟩,
    .extrTileClr ⟨true, 0, 2, 0⟩ ⟨0, 0x40, 0xC0, 0, 4, 0, 0, 0, 0, 1, 0⟩,
    .extrTileClr ⟨true, 0, 2, 0⟩ ⟨0, 0x40, 0xC0, 0, 4, 0, 0, 0, 0, 0, 1⟩,
    .wclr ⟨true, 3, 5, 5⟩ ⟨5, 0, 0, 0, 0, 0, 0, 0, 0, 0, 0⟩,
    .wclr ⟨true, 3, 0, 5⟩ ⟨0xFF, 0, 0, 0, 0, 0, 0, 0, 0, 0, 0⟩,
    .wclr ⟨true, 3, 0, 5⟩ ⟨5, 0xFF, 0, 0, 0, 0, 0, 0, 0, 0, 0⟩,
    .wclr ⟨true, 3, 0, 5⟩ ⟨5, 0, 0xFF, 0, 0, 0, 0, 0, 0, 0, 0⟩,
    .wclr ⟨true, 3, 0, 5⟩ ⟨5, 0, 0, 0x1FF, 0, 0, 0, 0, 0, 0, 0⟩,
    .wclr ⟨true, 3, 0, 5⟩ ⟨5, 0, 0, 0, 7, 0, 0, 0, 0, 0, 0⟩,
    .wclr ⟨true, 3, 0, 5⟩ ⟨5, 0, 0, 0, 0, 3, 0, 0, 0, 0, 0⟩,
    .wclr ⟨true, 3, 0, 5⟩ ⟨5, 0, 0, 0, 0, 0, 0xF, 0, 0, 0, 0⟩,
    .wclr ⟨true, 3, 0, 5⟩ ⟨5, 0, 0, 0, 0, 0, 0, 0x1FF, 0, 0, 0⟩,
    .wclr ⟨true, 3, 0, 5⟩ ⟨5, 0, 0, 0, 0, 0, 0, 0, 7, 0, 0⟩] : List Instr), wellFormed i = false := by decide

theorem test_ill_formed_words_35 : ∀ i ∈ ([
    .wclr ⟨true, 3, 0, 5⟩ ⟨5, 0, 0, 0, 0, 0, 0, 0, 0, 1, 0⟩,
    .wclr ⟨true, 3, 0, 5⟩ ⟨5, 0, 0, 0, 0, 0, 0, 0, 0, 0, 1⟩,
    .wmov ⟨true, 9, 5, 5⟩ ⟨4, 0, 0, 0, 0, 1, 0, 0, 0, 0, 0⟩,
    .wmov ⟨true, 9, 0, 5⟩ ⟨0xFF, 0, 0, 0, 0, 1, 0, 0, 0, 0, 0⟩,
    .wmov ⟨true, 9, 0, 5⟩ ⟨4, 0xFF, 0, 0, 0, 1, 0, 0, 0, 0, 0⟩,
    .wmov ⟨true, 9, 0, 5⟩ ⟨4, 0, 0xFF, 0, 0, 1, 0, 0, 0, 0, 0⟩,
    .wmov ⟨true, 9, 0, 5⟩ ⟨4, 0, 0, 0x1FF, 0, 1, 0, 0, 0, 0, 0⟩,
    .wmov ⟨true, 9, 0, 5⟩ ⟨4, 0, 0, 0, 7, 1, 0, 0, 0, 0, 0⟩,
    .wmov ⟨true, 9, 0, 5⟩ ⟨4, 0, 0, 0, 0, 1, 0xF, 0, 0, 0, 0⟩,
    .wmov ⟨true, 9, 0, 5⟩ ⟨4, 0, 0, 0, 0, 1, 0, 0x1FF, 0, 0, 0⟩,
    .wmov ⟨true, 9, 0, 5⟩ ⟨4, 0, 0, 0, 0, 1, 0, 0, 7, 0, 0⟩,
    .wmov ⟨true, 9, 0, 5⟩ ⟨4, 0, 0, 0, 0, 1, 0, 0, 0, 1, 0⟩,
    .wmov ⟨true, 9, 0, 5⟩ ⟨4, 0, 0, 0, 0, 1, 0, 0, 0, 0, 1⟩,
    .sbindA ⟨true, 3, 5, 5⟩ ⟨0, 0x8E, 0, 0, 0, 0, 0, 0, 0, 0, 0⟩,
    .sbindA ⟨true, 3, 0, 5⟩ ⟨0xFF, 0x8E, 0, 0, 0, 0, 0, 0, 0, 0, 0⟩,
    .sbindA ⟨true, 3, 0, 5⟩ ⟨0, 0xFF, 0, 0, 0, 0, 0, 0, 0, 0, 0⟩,
    .sbindA ⟨true, 3, 0, 5⟩ ⟨0, 0x8E, 0xFF, 0, 0, 0, 0, 0, 0, 0, 0⟩,
    .sbindA ⟨true, 3, 0, 5⟩ ⟨0, 0x8E, 0, 0x1FF, 0, 0, 0, 0, 0, 0, 0⟩,
    .sbindA ⟨true, 3, 0, 5⟩ ⟨0, 0x8E, 0, 0, 7, 0, 0, 0, 0, 0, 0⟩,
    .sbindA ⟨true, 3, 0, 5⟩ ⟨0, 0x8E, 0, 0, 0, 0, 0xF, 0, 0, 0, 0⟩,
    .sbindA ⟨true, 3, 0, 5⟩ ⟨0, 0x8E, 0, 0, 0, 0, 0, 0x1FF, 0, 0, 0⟩,
    .sbindA ⟨true, 3, 0, 5⟩ ⟨0, 0x8E, 0, 0, 0, 0, 0, 0, 7, 0, 0⟩,
    .sbindA ⟨true, 3, 0, 5⟩ ⟨0, 0x8E, 0, 0, 0, 0, 0, 0, 0, 1, 0⟩,
    .sbindA ⟨true, 3, 0, 5⟩ ⟨0, 0x8E, 0, 0, 0, 0, 0, 0, 0, 0, 1⟩] : List Instr), wellFormed i = false := by decide

theorem test_ill_formed_words_36 : ∀ i ∈ ([
    .sbindB ⟨true, 3, 5, 0⟩ ⟨0, 0x95, 0, 0, 1, 0, 0, 0, 0, 0, 0⟩,
    .sbindB ⟨true, 3, 0, 0⟩ ⟨0xFF, 0x95, 0, 0, 1, 0, 0, 0, 0, 0, 0⟩,
    .sbindB ⟨true, 3, 0, 0⟩ ⟨0, 0xFF, 0, 0, 1, 0, 0, 0, 0, 0, 0⟩,
    .sbindB ⟨true, 3, 0, 0⟩ ⟨0, 0x95, 0xFF, 0, 1, 0, 0, 0, 0, 0, 0⟩,
    .sbindB ⟨true, 3, 0, 0⟩ ⟨0, 0x95, 0, 0x1FF, 1, 0, 0, 0, 0, 0, 0⟩,
    .sbindB ⟨true, 3, 0, 0⟩ ⟨0, 0x95, 0, 0, 7, 0, 0, 0, 0, 0, 0⟩,
    .sbindB ⟨true, 3, 0, 0⟩ ⟨0, 0x95, 0, 0, 1, 0, 0xF, 0, 0, 0, 0⟩,
    .sbindB ⟨true, 3, 0, 0⟩ ⟨0, 0x95, 0, 0, 1, 0, 0, 0x1FF, 0, 0, 0⟩,
    .sbindB ⟨true, 3, 0, 0⟩ ⟨0, 0x95, 0, 0, 1, 0, 0, 0, 7, 0, 0⟩,
    .sbindB ⟨true, 3, 0, 0⟩ ⟨0, 0x95, 0, 0, 1, 0, 0, 0, 0, 1, 0⟩,
    .sbindB ⟨true, 3, 0, 0⟩ ⟨0, 0x95, 0, 0, 1, 0, 0, 0, 0, 0, 1⟩,
    .sbindUnbind ⟨true, 9, 5, 5⟩ ⟨0, 0, 0, 0, 2, 2, 0, 0, 0, 0, 0⟩,
    .sbindUnbind ⟨true, 9, 0, 5⟩ ⟨0xFF, 0, 0, 0, 2, 2, 0, 0, 0, 0, 0⟩,
    .sbindUnbind ⟨true, 9, 0, 5⟩ ⟨0, 0xFF, 0, 0, 2, 2, 0, 0, 0, 0, 0⟩,
    .sbindUnbind ⟨true, 9, 0, 5⟩ ⟨0, 0, 0xFF, 0, 2, 2, 0, 0, 0, 0, 0⟩,
    .sbindUnbind ⟨true, 9, 0, 5⟩ ⟨0, 0, 0, 0x1FF, 2, 2, 0, 0, 0, 0, 0⟩,
    .sbindUnbind ⟨true, 9, 0, 5⟩ ⟨0, 0, 0, 0, 7, 2, 0, 0, 0, 0, 0⟩,
    .sbindUnbind ⟨true, 9, 0, 5⟩ ⟨0, 0, 0, 0, 2, 2, 0xF, 0, 0, 0, 0⟩,
    .sbindUnbind ⟨true, 9, 0, 5⟩ ⟨0, 0, 0, 0, 2, 2, 0, 0x1FF, 0, 0, 0⟩,
    .sbindUnbind ⟨true, 9, 0, 5⟩ ⟨0, 0, 0, 0, 2, 2, 0, 0, 7, 0, 0⟩,
    .sbindUnbind ⟨true, 9, 0, 5⟩ ⟨0, 0, 0, 0, 2, 2, 0, 0, 0, 1, 0⟩,
    .sbindUnbind ⟨true, 9, 0, 5⟩ ⟨0, 0, 0, 0, 2, 2, 0, 0, 0, 0, 1⟩,
    .mcall ⟨true, 9, 0, 5⟩ ⟨0xC0, 0, 0, 0, 0, 2, 0, 0x52, 4, 0, 1⟩,
    .mcall ⟨true, 9, 2, 5⟩ ⟨0xFF, 0, 0, 0, 0, 2, 0, 0x52, 4, 0, 1⟩] : List Instr), wellFormed i = false := by decide

theorem test_ill_formed_words_37 : ∀ i ∈ ([
    .mcall ⟨true, 9, 2, 5⟩ ⟨0xC0, 0xFF, 0, 0, 0, 2, 0, 0x52, 4, 0, 1⟩,
    .mcall ⟨true, 9, 2, 5⟩ ⟨0xC0, 0, 0xFF, 0, 0, 2, 0, 0x52, 4, 0, 1⟩,
    .mcall ⟨true, 9, 2, 5⟩ ⟨0xC0, 0, 0, 0x1FF, 0, 2, 0, 0x52, 4, 0, 1⟩,
    .mcall ⟨true, 9, 2, 5⟩ ⟨0xC0, 0, 0, 0, 7, 2, 0, 0x52, 4, 0, 1⟩,
    .mcall ⟨true, 9, 2, 5⟩ ⟨0xC0, 0, 0, 0, 0, 2, 0xF, 0x52, 4, 0, 1⟩,
    .mcall ⟨true, 9, 2, 5⟩ ⟨0xC0, 0, 0, 0, 0, 2, 0, 0x1FF, 4, 0, 1⟩,
    .mcall ⟨true, 9, 2, 5⟩ ⟨0xC0, 0, 0, 0, 0, 2, 0, 0x52, 7, 0, 1⟩,
    .mcall ⟨true, 9, 2, 5⟩ ⟨0xC0, 0, 0, 0, 0, 2, 0, 0x52, 4, 0, 0⟩,
    .mpld ⟨true, 0, 5, 5⟩ ⟨0x67, 0, 0, 0x51, 0, 0, 0, 0, 0, 0, 0⟩,
    .mpld ⟨true, 0, 0, 5⟩ ⟨0xFF, 0, 0, 0x51, 0, 0, 0, 0, 0, 0, 0⟩,
    .mpld ⟨true, 0, 0, 5⟩ ⟨0x67, 0xFF, 0, 0x51, 0, 0, 0, 0, 0, 0, 0⟩,
    .mpld ⟨true, 0, 0, 5⟩ ⟨0x67, 0, 0xFF, 0x51, 0, 0, 0, 0, 0, 0, 0⟩,
    .mpld ⟨true, 0, 0, 5⟩ ⟨0x67, 0, 0, 0xC0, 0, 0, 0, 0, 0, 0, 0⟩,
    .mpld ⟨true, 0, 0, 5⟩ ⟨0x67, 0, 0, 0x51, 7, 0, 0, 0, 0, 0, 0⟩,
    .mpld ⟨true, 0, 0, 5⟩ ⟨0x67, 0, 0, 0x51, 0, 3, 0, 0, 0, 0, 0⟩,
    .mpld ⟨true, 0, 0, 5⟩ ⟨0x67, 0, 0, 0x51, 0, 0, 0xF, 0, 0, 0, 0⟩,
    .mpld ⟨true, 0, 0, 5⟩ ⟨0x67, 0, 0, 0x51, 0, 0, 0, 0x1FF, 0, 0, 0⟩,
    .mpld ⟨true, 0, 0, 5⟩ ⟨0x67, 0, 0, 0x51, 0, 0, 0, 0, 7, 0, 0⟩,
    .mpld ⟨true, 0, 0, 5⟩ ⟨0x67, 0, 0, 0x51, 0, 0, 0, 0, 0, 1, 0⟩,
    .mpld ⟨true, 0, 0, 5⟩ ⟨0x67, 0, 0, 0x51, 0, 0, 0, 0, 0, 0, 1⟩,
    .mldr ⟨true, 9, 0, 5⟩ ⟨0xFF, 0xCB, 0, 0, 0, 0, 0, 0, 0, 0, 0⟩,
    .mldr ⟨true, 9, 0, 5⟩ ⟨0, 0xFF, 0, 0, 0, 0, 0, 0, 0, 0, 0⟩,
    .mldr ⟨true, 9, 0, 5⟩ ⟨0, 0xCB, 0xFF, 0, 0, 0, 0, 0, 0, 0, 0⟩,
    .mldr ⟨true, 9, 0, 5⟩ ⟨0, 0xCB, 0, 0xC0, 0, 0, 0, 0, 0, 0, 0⟩] : List Instr), wellFormed i = false := by decide

theorem test_ill_formed_words_38 : ∀ i ∈ ([
    .mldr ⟨true, 9, 0, 5⟩ ⟨0, 0xCB, 0, 0, 7, 0, 0, 0, 0, 0, 0⟩,
    .mldr ⟨true, 9, 0, 5⟩ ⟨0, 0xCB, 0, 0, 0, 3, 0, 0, 0, 0, 0⟩,
    .mldr ⟨true, 9, 0, 5⟩ ⟨0, 0xCB, 0, 0, 0, 0, 0xF, 0, 0, 0, 0⟩,
    .mldr ⟨true, 9, 0, 5⟩ ⟨0, 0xCB, 0, 0, 0, 0, 0, 0x1FF, 0, 0, 0⟩,
    .mldr ⟨true, 9, 0, 5⟩ ⟨0, 0xCB, 0, 0, 0, 0, 0, 0, 7, 0, 0⟩,
    .mldr ⟨true, 9, 0, 5⟩ ⟨0, 0xCB, 0, 0, 0, 0, 0, 0, 0, 1, 0⟩,
    .mldr ⟨true, 9, 0, 5⟩ ⟨0, 0xCB, 0, 0, 0, 0, 0, 0, 0, 0, 1⟩,
    .mldrEntries ⟨true, 9, 2, 5⟩ ⟨0xFF, 0, 0, 0, 1, 0, 0, 0, 0, 0, 0⟩,
    .mldrEntries ⟨true, 9, 2, 5⟩ ⟨0, 0xFF, 0, 0, 1, 0, 0, 0, 0, 0, 0⟩,
    .mldrEntries ⟨true, 9, 2, 5⟩ ⟨0, 0, 0xFF, 0, 1, 0, 0, 0, 0, 0, 0⟩,
    .mldrEntries ⟨true, 9, 2, 5⟩ ⟨0, 0, 0, 0xC0, 1, 0, 0, 0, 0, 0, 0⟩,
    .mldrEntries ⟨true, 9, 2, 5⟩ ⟨0, 0, 0, 0, 7, 0, 0, 0, 0, 0, 0⟩,
    .mldrEntries ⟨true, 9, 2, 5⟩ ⟨0, 0, 0, 0, 1, 3, 0, 0, 0, 0, 0⟩,
    .mldrEntries ⟨true, 9, 2, 5⟩ ⟨0, 0, 0, 0, 1, 0, 0xF, 0, 0, 0, 0⟩,
    .mldrEntries ⟨true, 9, 2, 5⟩ ⟨0, 0, 0, 0, 1, 0, 0, 0x1FF, 0, 0, 0⟩,
    .mldrEntries ⟨true, 9, 2, 5⟩ ⟨0, 0, 0, 0, 1, 0, 0, 0, 7, 0, 0⟩,
    .mldrEntries ⟨true, 9, 2, 5⟩ ⟨0, 0, 0, 0, 1, 0, 0, 0, 0, 1, 0⟩,
    .mldrEntries ⟨true, 9, 2, 5⟩ ⟨0, 0, 0, 0, 1, 0, 0, 0, 0, 0, 1⟩,
    .ftld ⟨true, 3, 5, 5⟩ ⟨0, 0, 0, 0x185, 0, 0, 0, 0, 0, 0, 0⟩,
    .ftld ⟨true, 3, 0, 5⟩ ⟨0xFF, 0, 0, 0x185, 0, 0, 0, 0, 0, 0, 0⟩,
    .ftld ⟨true, 3, 0, 5⟩ ⟨0, 0xFF, 0, 0x185, 0, 0, 0, 0, 0, 0, 0⟩,
    .ftld ⟨true, 3, 0, 5⟩ ⟨0, 0, 0xFF, 0x185, 0, 0, 0, 0, 0, 0, 0⟩,
    .ftld ⟨true, 3, 0, 5⟩ ⟨0, 0, 0, 0xC0, 0, 0, 0, 0, 0, 0, 0⟩,
    .ftld ⟨true, 3, 0, 5⟩ ⟨0, 0, 0, 0x185, 7, 0, 0, 0, 0, 0, 0⟩] : List Instr), wellFormed i = false := by decide

theorem test_ill_formed_words_39 : ∀ i ∈ ([
    .ftld ⟨true, 3, 0, 5⟩ ⟨0, 0, 0, 0x185, 0, 3, 0, 0, 0, 0, 0⟩,
    .ftld ⟨true, 3, 0, 5⟩ ⟨0, 0, 0, 0x185, 0, 0, 0xF, 0, 0, 0, 0⟩,
    .ftld ⟨true, 3, 0, 5⟩ ⟨0, 0, 0, 0x185, 0, 0, 0, 0x1FF, 0, 0, 0⟩,
    .ftld ⟨true, 3, 0, 5⟩ ⟨0, 0, 0, 0x185, 0, 0, 0, 0, 7, 0, 0⟩,
    .ftld ⟨true, 3, 0, 5⟩ ⟨0, 0, 0, 0x185, 0, 0, 0, 0, 0, 1, 0⟩,
    .ftld ⟨true, 3, 0, 5⟩ ⟨0, 0, 0, 0x185, 0, 0, 0, 0, 0, 0, 1⟩,
    .scld ⟨true, 9, 5, 5⟩ ⟨0, 0xDE, 0, 0x185, 0, 0, 0, 0, 0, 0, 0⟩,
    .scld ⟨true, 9, 0, 5⟩ ⟨0xFF, 0xDE, 0, 0x185, 0, 0, 0, 0, 0, 0, 0⟩,
    .scld ⟨true, 9, 0, 5⟩ ⟨0, 0xFF, 0, 0x185, 0, 0, 0, 0, 0, 0, 0⟩,
    .scld ⟨true, 9, 0, 5⟩ ⟨0, 0xDE, 0xFF, 0x185, 0, 0, 0, 0, 0, 0, 0⟩,
    .scld ⟨true, 9, 0, 5⟩ ⟨0, 0xDE, 0, 0xC0, 0, 0, 0, 0, 0, 0, 0⟩,
    .scld ⟨true, 9, 0, 5⟩ ⟨0, 0xDE, 0, 0x185, 7, 0, 0, 0, 0, 0, 0⟩,
    .scld ⟨true, 9, 0, 5⟩ ⟨0, 0xDE, 0, 0x185, 0, 0, 0xF, 0, 0, 0, 0⟩,
    .scld ⟨true, 9, 0, 5⟩ ⟨0, 0xDE, 0, 0x185, 0, 0, 0, 0x1FF, 0, 0, 0⟩,
    .scld ⟨true, 9, 0, 5⟩ ⟨0, 0xDE, 0, 0x185, 0, 0, 0, 0, 7, 0, 0⟩,
    .scld ⟨true, 9, 0, 5⟩ ⟨0, 0xDE, 0, 0x185, 0, 0, 0, 0, 0, 1, 0⟩,
    .scld ⟨true, 9, 0, 5⟩ ⟨0, 0xDE, 0, 0x185, 0, 0, 0, 0, 0, 0, 1⟩,
    .scldRd ⟨true, 9, 0, 5⟩ ⟨0xC5, 0xC9, 0, 0, 1, 3, 0, 0, 0, 0, 0⟩,
    .scldRd ⟨true, 9, 2, 5⟩ ⟨0xFF, 0xC9, 0, 0, 1, 3, 0, 0, 0, 0, 0⟩,
    .scldRd ⟨true, 9, 2, 5⟩ ⟨0xC5, 0xFF, 0, 0, 1, 3, 0, 0, 0, 0, 0⟩,
    .scldRd ⟨true, 9, 2, 5⟩ ⟨0xC5, 0xC9, 0xFF, 0, 1, 3, 0, 0, 0, 0, 0⟩,
    .scldRd ⟨true, 9, 2, 5⟩ ⟨0xC5, 0xC9, 0, 0x1FF, 1, 3, 0, 0, 0, 0, 0⟩,
    .scldRd ⟨true, 9, 2, 5⟩ ⟨0xC5, 0xC9, 0, 0, 7, 3, 0, 0, 0, 0, 0⟩,
    .scldRd ⟨true, 9, 2, 5⟩ ⟨0xC5, 0xC9, 0, 0, 1, 3, 0xF, 0, 0, 0, 0⟩] : List Instr), wellFormed i = false := by decide

theorem test_ill_formed_words_40 : ∀ i ∈ ([
    .scldRd ⟨true, 9, 2, 5⟩ ⟨0xC5, 0xC9, 0, 0, 1, 3, 0, 0x1FF, 0, 0, 0⟩,
    .scldRd ⟨true, 9, 2, 5⟩ ⟨0xC5, 0xC9, 0, 0, 1, 3, 0, 0, 7, 0, 0⟩,
    .scldRd ⟨true, 9, 2, 5⟩ ⟨0xC5, 0xC9, 0, 0, 1, 3, 0, 0, 0, 1, 0⟩,
    .scldRd ⟨true, 9, 2, 5⟩ ⟨0xC5, 0xC9, 0, 0, 1, 3, 0, 0, 0, 0, 1⟩,
    .metaqPush ⟨true, 3, 0, 0⟩ ⟨0xC1, 0xA0, 0, 0, 0, 0, 0, 0, 0, 0, 0⟩,
    .metaqPush ⟨true, 3, 2, 0⟩ ⟨0xFF, 0xA0, 0, 0, 0, 0, 0, 0, 0, 0, 0⟩,
    .metaqPush ⟨true, 3, 2, 0⟩ ⟨0xC1, 0xFF, 0, 0, 0, 0, 0, 0, 0, 0, 0⟩,
    .metaqPush ⟨true, 3, 2, 0⟩ ⟨0xC1, 0xA0, 0xFF, 0, 0, 0, 0, 0, 0, 0, 0⟩,
    .metaqPush ⟨true, 3, 2, 0⟩ ⟨0xC1, 0xA0, 0, 0xC0, 0, 0, 0, 0, 0, 0, 0⟩,
    .metaqPush ⟨true, 3, 2, 0⟩ ⟨0xC1, 0xA0, 0, 0, 7, 0, 0, 0, 0, 0, 0⟩,
    .metaqPush ⟨true, 3, 2, 0⟩ ⟨0xC1, 0xA0, 0, 0, 0, 3, 0, 0, 0, 0, 0⟩,
    .metaqPush ⟨true, 3, 2, 0⟩ ⟨0xC1, 0xA0, 0, 0, 0, 0, 0xF, 0, 0, 0, 0⟩,
    .metaqPush ⟨true, 3, 2, 0⟩ ⟨0xC1, 0xA0, 0, 0, 0, 0, 0, 0x1FF, 0, 0, 0⟩,
    .metaqPush ⟨true, 3, 2, 0⟩ ⟨0xC1, 0xA0, 0, 0, 0, 0, 0, 0, 7, 0, 0⟩,
    .metaqPush ⟨true, 3, 2, 0⟩ ⟨0xC1, 0xA0, 0, 0, 0, 0, 0, 0, 0, 1, 0⟩,
    .metaqPush ⟨true, 3, 2, 0⟩ ⟨0xC1, 0xA0, 0, 0, 0, 0, 0, 0, 0, 0, 1⟩,
    .metaqClear ⟨true, 3, 5, 5⟩ ⟨0, 0xA2, 0, 0, 0, 0, 0, 0, 0, 0, 0⟩,
    .metaqClear ⟨true, 3, 0, 5⟩ ⟨0xFF, 0xA2, 0, 0, 0, 0, 0, 0, 0, 0, 0⟩,
    .metaqClear ⟨true, 3, 0, 5⟩ ⟨0, 0xFF, 0, 0, 0, 0, 0, 0, 0, 0, 0⟩,
    .metaqClear ⟨true, 3, 0, 5⟩ ⟨0, 0xA2, 0xFF, 0, 0, 0, 0, 0, 0, 0, 0⟩,
    .metaqClear ⟨true, 3, 0, 5⟩ ⟨0, 0xA2, 0, 0x1FF, 0, 0, 0, 0, 0, 0, 0⟩,
    .metaqClear ⟨true, 3, 0, 5⟩ ⟨0, 0xA2, 0, 0, 7, 0, 0, 0, 0, 0, 0⟩,
    .metaqClear ⟨true, 3, 0, 5⟩ ⟨0, 0xA2, 0, 0, 0, 3, 0, 0, 0, 0, 0⟩,
    .metaqClear ⟨true, 3, 0, 5⟩ ⟨0, 0xA2, 0, 0, 0, 0, 0xF, 0, 0, 0, 0⟩] : List Instr), wellFormed i = false := by decide

theorem test_ill_formed_words_41 : ∀ i ∈ ([
    .metaqClear ⟨true, 3, 0, 5⟩ ⟨0, 0xA2, 0, 0, 0, 0, 0, 0x1FF, 0, 0, 0⟩,
    .metaqClear ⟨true, 3, 0, 5⟩ ⟨0, 0xA2, 0, 0, 0, 0, 0, 0, 7, 0, 0⟩,
    .metaqClear ⟨true, 3, 0, 5⟩ ⟨0, 0xA2, 0, 0, 0, 0, 0, 0, 0, 1, 0⟩,
    .metaqClear ⟨true, 3, 0, 5⟩ ⟨0, 0xA2, 0, 0, 0, 0, 0, 0, 0, 0, 1⟩,
    .wstat ⟨true, 3, 0, 5⟩ ⟨0xC0, 0, 0, 0, 0, 2, 0, 0, 0, 0, 0⟩,
    .wstat ⟨true, 3, 5, 5⟩ ⟨0xFF, 0, 0, 0, 0, 2, 0, 0, 0, 0, 0⟩,
    .wstat ⟨true, 3, 5, 5⟩ ⟨0xC0, 0xFF, 0, 0, 0, 2, 0, 0, 0, 0, 0⟩,
    .wstat ⟨true, 3, 5, 5⟩ ⟨0xC0, 0, 0xFF, 0, 0, 2, 0, 0, 0, 0, 0⟩,
    .wstat ⟨true, 3, 5, 5⟩ ⟨0xC0, 0, 0, 0x1FF, 0, 2, 0, 0, 0, 0, 0⟩,
    .wstat ⟨true, 3, 5, 5⟩ ⟨0xC0, 0, 0, 0, 7, 2, 0, 0, 0, 0, 0⟩,
    .wstat ⟨true, 3, 5, 5⟩ ⟨0xC0, 0, 0, 0, 0, 2, 0xF, 0, 0, 0, 0⟩,
    .wstat ⟨true, 3, 5, 5⟩ ⟨0xC0, 0, 0, 0, 0, 2, 0, 0x1FF, 0, 0, 0⟩,
    .wstat ⟨true, 3, 5, 5⟩ ⟨0xC0, 0, 0, 0, 0, 2, 0, 0, 7, 0, 0⟩,
    .wstat ⟨true, 3, 5, 5⟩ ⟨0xC0, 0, 0, 0, 0, 2, 0, 0, 0, 1, 0⟩,
    .wstat ⟨true, 3, 5, 5⟩ ⟨0xC0, 0, 0, 0, 0, 2, 0, 0, 0, 0, 1⟩,
    .mloop ⟨true, 3, 5, 5⟩ ⟨0, 0, 0, 0, 0, 0, 0, 0x10B, 0, 0, 0⟩,
    .mloop ⟨true, 3, 0, 5⟩ ⟨0xFF, 0, 0, 0, 0, 0, 0, 0x10B, 0, 0, 0⟩,
    .mloop ⟨true, 3, 0, 5⟩ ⟨0, 0xFF, 0, 0, 0, 0, 0, 0x10B, 0, 0, 0⟩,
    .mloop ⟨true, 3, 0, 5⟩ ⟨0, 0, 0xFF, 0, 0, 0, 0, 0x10B, 0, 0, 0⟩,
    .mloop ⟨true, 3, 0, 5⟩ ⟨0, 0, 0, 0xC0, 0, 0, 0, 0x10B, 0, 0, 0⟩,
    .mloop ⟨true, 3, 0, 5⟩ ⟨0, 0, 0, 0, 7, 0, 0, 0x10B, 0, 0, 0⟩,
    .mloop ⟨true, 3, 0, 5⟩ ⟨0, 0, 0, 0, 0, 3, 0, 0x10B, 0, 0, 0⟩,
    .mloop ⟨true, 3, 0, 5⟩ ⟨0, 0, 0, 0, 0, 0, 0xF, 0x10B, 0, 0, 0⟩,
    .mloop ⟨true, 3, 0, 5⟩ ⟨0, 0, 0, 0, 0, 0, 0, 0, 0, 0, 0⟩] : List Instr), wellFormed i = false := by decide

theorem test_ill_formed_words_42 : ∀ i ∈ ([
    .mloop ⟨true, 3, 0, 5⟩ ⟨0, 0, 0, 0, 0, 0, 0, 0x10B, 7, 0, 0⟩,
    .mloop ⟨true, 3, 0, 5⟩ ⟨0, 0, 0, 0, 0, 0, 0, 0x10B, 0, 1, 0⟩,
    .mloop ⟨true, 3, 0, 5⟩ ⟨0, 0, 0, 0, 0, 0, 0, 0x10B, 0, 0, 1⟩,
    .mjmp ⟨true, 3, 5, 5⟩ ⟨0, 0, 0, 0, 2, 0, 0, 0, 0, 0, 0⟩,
    .mjmp ⟨true, 3, 0, 5⟩ ⟨0xFF, 0, 0, 0, 2, 0, 0, 0, 0, 0, 0⟩,
    .mjmp ⟨true, 3, 0, 5⟩ ⟨0, 0xFF, 0, 0, 2, 0, 0, 0, 0, 0, 0⟩,
    .mjmp ⟨true, 3, 0, 5⟩ ⟨0, 0, 0xFF, 0, 2, 0, 0, 0, 0, 0, 0⟩,
    .mjmp ⟨true, 3, 0, 5⟩ ⟨0, 0, 0, 0x1FF, 2, 0, 0, 0, 0, 0, 0⟩,
    .mjmp ⟨true, 3, 0, 5⟩ ⟨0, 0, 0, 0, 7, 0, 0, 0, 0, 0, 0⟩,
    .mjmp ⟨true, 3, 0, 5⟩ ⟨0, 0, 0, 0, 2, 3, 0, 0, 0, 0, 0⟩,
    .mjmp ⟨true, 3, 0, 5⟩ ⟨0, 0, 0, 0, 2, 0, 0xF, 0, 0, 0, 0⟩,
    .mjmp ⟨true, 3, 0, 5⟩ ⟨0, 0, 0, 0, 2, 0, 0, 0, 7, 0, 0⟩,
    .mjmp ⟨true, 3, 0, 5⟩ ⟨0, 0, 0, 0, 2, 0, 0, 0, 0, 1, 0⟩,
    .mjmp ⟨true, 3, 0, 5⟩ ⟨0, 0, 0, 0, 2, 0, 0, 0, 0, 0, 1⟩,
    .mret ⟨true, 3, 5, 5⟩ ⟨0, 0, 0, 0, 0, 0, 0, 0, 0, 0, 0⟩,
    .mret ⟨true, 3, 0, 5⟩ ⟨0xFF, 0, 0, 0, 0, 0, 0, 0, 0, 0, 0⟩,
    .mret ⟨true, 3, 0, 5⟩ ⟨0, 0xFF, 0, 0, 0, 0, 0, 0, 0, 0, 0⟩,
    .mret ⟨true, 3, 0, 5⟩ ⟨0, 0, 0xFF, 0, 0, 0, 0, 0, 0, 0, 0⟩,
    .mret ⟨true, 3, 0, 5⟩ ⟨0, 0, 0, 0x1FF, 0, 0, 0, 0, 0, 0, 0⟩,
    .mret ⟨true, 3, 0, 5⟩ ⟨0, 0, 0, 0, 7, 0, 0, 0, 0, 0, 0⟩,
    .mret ⟨true, 3, 0, 5⟩ ⟨0, 0, 0, 0, 0, 3, 0, 0, 0, 0, 0⟩,
    .mret ⟨true, 3, 0, 5⟩ ⟨0, 0, 0, 0, 0, 0, 0xF, 0, 0, 0, 0⟩,
    .mret ⟨true, 3, 0, 5⟩ ⟨0, 0, 0, 0, 0, 0, 0, 0x1FF, 0, 0, 0⟩,
    .mret ⟨true, 3, 0, 5⟩ ⟨0, 0, 0, 0, 0, 0, 0, 0, 7, 0, 0⟩] : List Instr), wellFormed i = false := by decide

theorem test_ill_formed_words_43 : ∀ i ∈ ([
    .mret ⟨true, 3, 0, 5⟩ ⟨0, 0, 0, 0, 0, 0, 0, 0, 0, 1, 0⟩,
    .mret ⟨true, 3, 0, 5⟩ ⟨0, 0, 0, 0, 0, 0, 0, 0, 0, 0, 1⟩,
    .apxb ⟨true, 9, 5, 5⟩ ⟨0, 0, 0, 0, 0, 0, 0, 0, 0, 0, 0⟩,
    .apxb ⟨true, 9, 0, 5⟩ ⟨0xFF, 0, 0, 0, 0, 0, 0, 0, 0, 0, 0⟩,
    .apxb ⟨true, 9, 0, 5⟩ ⟨0, 0xFF, 0, 0, 0, 0, 0, 0, 0, 0, 0⟩,
    .apxb ⟨true, 9, 0, 5⟩ ⟨0, 0, 0xFF, 0, 0, 0, 0, 0, 0, 0, 0⟩,
    .apxb ⟨true, 9, 0, 5⟩ ⟨0, 0, 0, 0x1FF, 0, 0, 0, 0, 0, 0, 0⟩,
    .apxb ⟨true, 9, 0, 5⟩ ⟨0, 0, 0, 0, 7, 0, 0, 0, 0, 0, 0⟩,
    .apxb ⟨true, 9, 0, 5⟩ ⟨0, 0, 0, 0, 0, 3, 0, 0, 0, 0, 0⟩,
    .apxb ⟨true, 9, 0, 5⟩ ⟨0, 0, 0, 0, 0, 0, 0xF, 0, 0, 0, 0⟩,
    .apxb ⟨true, 9, 0, 5⟩ ⟨0, 0, 0, 0, 0, 0, 0, 0x1FF, 0, 0, 0⟩,
    .apxb ⟨true, 9, 0, 5⟩ ⟨0, 0, 0, 0, 0, 0, 0, 0, 7, 0, 0⟩,
    .apxb ⟨true, 9, 0, 5⟩ ⟨0, 0, 0, 0, 0, 0, 0, 0, 0, 1, 0⟩,
    .apxb ⟨true, 9, 0, 5⟩ ⟨0, 0, 0, 0, 0, 0, 0, 0, 0, 0, 1⟩,
    .apxc ⟨true, 9, 5, 5⟩ ⟨0, 0, 0, 0, 0, 0, 0, 0, 0, 0, 0⟩,
    .apxc ⟨true, 9, 0, 5⟩ ⟨0xFF, 0, 0, 0, 0, 0, 0, 0, 0, 0, 0⟩,
    .apxc ⟨true, 9, 0, 5⟩ ⟨0, 0xFF, 0, 0, 0, 0, 0, 0, 0, 0, 0⟩,
    .apxc ⟨true, 9, 0, 5⟩ ⟨0, 0, 0xFF, 0, 0, 0, 0, 0, 0, 0, 0⟩,
    .apxc ⟨true, 9, 0, 5⟩ ⟨0, 0, 0, 0x1FF, 0, 0, 0, 0, 0, 0, 0⟩,
    .apxc ⟨true, 9, 0, 5⟩ ⟨0, 0, 0, 0, 7, 0, 0, 0, 0, 0, 0⟩,
    .apxc ⟨true, 9, 0, 5⟩ ⟨0, 0, 0, 0, 0, 3, 0, 0, 0, 0, 0⟩,
    .apxc ⟨true, 9, 0, 5⟩ ⟨0, 0, 0, 0, 0, 0, 0xF, 0, 0, 0, 0⟩,
    .apxc ⟨true, 9, 0, 5⟩ ⟨0, 0, 0, 0, 0, 0, 0, 0x1FF, 0, 0, 0⟩,
    .apxc ⟨true, 9, 0, 5⟩ ⟨0, 0, 0, 0, 0, 0, 0, 0, 7, 0, 0⟩] : List Instr), wellFormed i = false := by decide

theorem test_ill_formed_words_44 : ∀ i ∈ ([
    .apxc ⟨true, 9, 0, 5⟩ ⟨0, 0, 0, 0, 0, 0, 0, 0, 0, 1, 0⟩,
    .apxc ⟨true, 9, 0, 5⟩ ⟨0, 0, 0, 0, 0, 0, 0, 0, 0, 0, 1⟩,
    .apxsRd ⟨true, 3, 0, 0⟩ ⟨0xC1, 0, 0, 0, 0, 0, 0, 0x25, 0, 0, 0⟩,
    .apxsRd ⟨true, 3, 5, 0⟩ ⟨0xFF, 0, 0, 0, 0, 0, 0, 0x25, 0, 0, 0⟩,
    .apxsRd ⟨true, 3, 5, 0⟩ ⟨0xC1, 0xFF, 0, 0, 0, 0, 0, 0x25, 0, 0, 0⟩,
    .apxsRd ⟨true, 3, 5, 0⟩ ⟨0xC1, 0, 0xFF, 0, 0, 0, 0, 0x25, 0, 0, 0⟩,
    .apxsRd ⟨true, 3, 5, 0⟩ ⟨0xC1, 0, 0, 0x1FF, 0, 0, 0, 0x25, 0, 0, 0⟩,
    .apxsRd ⟨true, 3, 5, 0⟩ ⟨0xC1, 0, 0, 0, 7, 0, 0, 0x25, 0, 0, 0⟩,
    .apxsRd ⟨true, 3, 5, 0⟩ ⟨0xC1, 0, 0, 0, 0, 3, 0, 0x25, 0, 0, 0⟩,
    .apxsRd ⟨true, 3, 5, 0⟩ ⟨0xC1, 0, 0, 0, 0, 0, 0xF, 0x25, 0, 0, 0⟩,
    .apxsRd ⟨true, 3, 5, 0⟩ ⟨0xC1, 0, 0, 0, 0, 0, 0, 0x1FF, 0, 0, 0⟩,
    .apxsRd ⟨true, 3, 5, 0⟩ ⟨0xC1, 0, 0, 0, 0, 0, 0, 0x25, 7, 0, 0⟩,
    .apxsRd ⟨true, 3, 5, 0⟩ ⟨0xC1, 0, 0, 0, 0, 0, 0, 0x25, 0, 1, 0⟩,
    .apxsRd ⟨true, 3, 5, 0⟩ ⟨0xC1, 0, 0, 0, 0, 0, 0, 0x25, 0, 0, 1⟩,
    .apxsWr ⟨true, 3, 5, 5⟩ ⟨0, 0, 0, 0x8F, 0, 0, 0, 0x21, 0, 0, 0⟩,
    .apxsWr ⟨true, 3, 0, 5⟩ ⟨0xFF, 0, 0, 0x8F, 0, 0, 0, 0x21, 0, 0, 0⟩,
    .apxsWr ⟨true, 3, 0, 5⟩ ⟨0, 0xFF, 0, 0x8F, 0, 0, 0, 0x21, 0, 0, 0⟩,
    .apxsWr ⟨true, 3, 0, 5⟩ ⟨0, 0, 0xFF, 0x8F, 0, 0, 0, 0x21, 0, 0, 0⟩,
    .apxsWr ⟨true, 3, 0, 5⟩ ⟨0, 0, 0, 0xC0, 0, 0, 0, 0x21, 0, 0, 0⟩,
    .apxsWr ⟨true, 3, 0, 5⟩ ⟨0, 0, 0, 0x8F, 7, 0, 0, 0x21, 0, 0, 0⟩,
    .apxsWr ⟨true, 3, 0, 5⟩ ⟨0, 0, 0, 0x8F, 0, 3, 0, 0x21, 0, 0, 0⟩,
    .apxsWr ⟨true, 3, 0, 5⟩ ⟨0, 0, 0, 0x8F, 0, 0, 0xF, 0x21, 0, 0, 0⟩,
    .apxsWr ⟨true, 3, 0, 5⟩ ⟨0, 0, 0, 0x8F, 0, 0, 0, 0x1FF, 0, 0, 0⟩,
    .apxsWr ⟨true, 3, 0, 5⟩ ⟨0, 0, 0, 0x8F, 0, 0, 0, 0x21, 7, 0, 0⟩] : List Instr), wellFormed i = false := by decide

theorem test_ill_formed_words_45 : ∀ i ∈ ([
    .apxsWr ⟨true, 3, 0, 5⟩ ⟨0, 0, 0, 0x8F, 0, 0, 0, 0x21, 0, 1, 0⟩,
    .apxsWr ⟨true, 3, 0, 5⟩ ⟨0, 0, 0, 0x8F, 0, 0, 0, 0x21, 0, 0, 1⟩,
    .csrRd ⟨true, 3, 0, 5⟩ ⟨7, 0, 0⟩,
    .csrRd ⟨true, 3, 2, 5⟩ ⟨0xFF, 0, 0⟩,
    .csrRd ⟨true, 3, 2, 5⟩ ⟨7, 0x1FF, 0⟩,
    .csrRd ⟨true, 3, 2, 5⟩ ⟨7, 0, 0xFFF⟩,
    .csrWr ⟨true, 9, 5, 5⟩ ⟨0, 1, 0⟩,
    .csrWr ⟨true, 9, 0, 5⟩ ⟨0xFF, 1, 0⟩,
    .csrWr ⟨true, 9, 0, 5⟩ ⟨0, 0xC0, 0⟩,
    .csrWr ⟨true, 9, 0, 5⟩ ⟨0, 1, 0xFFF⟩,
    .tlbiAll ⟨true, 3, 0, 5⟩ ⟨0x3F, 0, 0, 0, 0, 0, 0⟩,
    .tlbiAll ⟨true, 3, 2, 5⟩ ⟨0xFF, 0, 0, 0, 0, 0, 0⟩,
    .tlbiAll ⟨true, 3, 2, 5⟩ ⟨0x3F, 0x1FF, 0, 0, 0, 0, 0⟩,
    .tlbiAll ⟨true, 3, 2, 5⟩ ⟨0x3F, 0, 0x1FF, 0, 0, 0, 0⟩,
    .tlbiAll ⟨true, 3, 2, 5⟩ ⟨0x3F, 0, 0, 0x1FF, 0, 0, 0⟩,
    .tlbiAll ⟨true, 3, 2, 5⟩ ⟨0x3F, 0, 0, 0, 0xFF, 0, 0⟩,
    .tlbiAll ⟨true, 3, 2, 5⟩ ⟨0x3F, 0, 0, 0, 0, 0xF, 0⟩,
    .tlbiAll ⟨true, 3, 2, 5⟩ ⟨0x3F, 0, 0, 0, 0, 0, 0x1FF⟩,
    .tlbiAddr ⟨true, 3, 0, 5⟩ ⟨5, 0x185, 0, 0, 0, 0, 0⟩,
    .tlbiAddr ⟨true, 3, 2, 5⟩ ⟨0xFF, 0x185, 0, 0, 0, 0, 0⟩,
    .tlbiAddr ⟨true, 3, 2, 5⟩ ⟨5, 0xC0, 0, 0, 0, 0, 0⟩,
    .tlbiAddr ⟨true, 3, 2, 5⟩ ⟨5, 0x185, 0xC0, 0, 0, 0, 0⟩,
    .tlbiAddr ⟨true, 3, 2, 5⟩ ⟨5, 0x185, 0, 0x1FF, 0, 0, 0⟩,
    .tlbiAddr ⟨true, 3, 2, 5⟩ ⟨5, 0x185, 0, 0, 0xFF, 0, 0⟩] : List Instr), wellFormed i = false := by decide

theorem test_ill_formed_words_46 : ∀ i ∈ ([
    .tlbiAddr ⟨true, 3, 2, 5⟩ ⟨5, 0x185, 0, 0, 0, 0xF, 0⟩,
    .tlbiAddr ⟨true, 3, 2, 5⟩ ⟨5, 0x185, 0, 0, 0, 0, 0x1FF⟩,
    .tlbiCtx ⟨true, 9, 0, 5⟩ ⟨0, 0, 5, 0, 0, 0, 0⟩,
    .tlbiCtx ⟨true, 9, 2, 5⟩ ⟨0xFF, 0, 5, 0, 0, 0, 0⟩,
    .tlbiCtx ⟨true, 9, 2, 5⟩ ⟨0, 0x1FF, 5, 0, 0, 0, 0⟩,
    .tlbiCtx ⟨true, 9, 2, 5⟩ ⟨0, 0, 0xC0, 0, 0, 0, 0⟩,
    .tlbiCtx ⟨true, 9, 2, 5⟩ ⟨0, 0, 5, 0x1FF, 0, 0, 0⟩,
    .tlbiCtx ⟨true, 9, 2, 5⟩ ⟨0, 0, 5, 0, 0xFF, 0, 0⟩,
    .tlbiCtx ⟨true, 9, 2, 5⟩ ⟨0, 0, 5, 0, 0, 0xF, 0⟩,
    .tlbiCtx ⟨true, 9, 2, 5⟩ ⟨0, 0, 5, 0, 0, 0, 0x1FF⟩,
    .ctxSave ⟨true, 3, 0, 0⟩ ⟨0x44, 0x185, 0, 0, 0, 0, 0⟩,
    .ctxSave ⟨true, 3, 2, 0⟩ ⟨0xFF, 0x185, 0, 0, 0, 0, 0⟩,
    .ctxSave ⟨true, 3, 2, 0⟩ ⟨0x44, 0xC0, 0, 0, 0, 0, 0⟩,
    .ctxSave ⟨true, 3, 2, 0⟩ ⟨0x44, 0x185, 0x1FF, 0, 0, 0, 0⟩,
    .ctxSave ⟨true, 3, 2, 0⟩ ⟨0x44, 0x185, 0, 0x1FF, 0, 0, 0⟩,
    .ctxSave ⟨true, 3, 2, 0⟩ ⟨0x44, 0x185, 0, 0, 0xFF, 0, 0⟩,
    .ctxSave ⟨true, 3, 2, 0⟩ ⟨0x44, 0x185, 0, 0, 0, 0xF, 0⟩,
    .ctxSave ⟨true, 3, 2, 0⟩ ⟨0x44, 0x185, 0, 0, 0, 0, 0x1FF⟩] : List Instr), wellFormed i = false := by decide

theorem test_ill_formed_events_1 : ∀ i ∈ ([
    .resultLanding 1024 0,
    .resultLanding 0 4,
    .loadReturn 0 0 8,
    .waitTimeout 0 4,
    .monitorScan 8,
    .copyLineFill 1024 0,
    .qpostEntryFire 128 0,
    .egressAccept 128 .mailbox,
    .streamFetch 0 4 0,
    .streamFetch 0 0 2,
    .routineStart 0 4,
    .equinoxBatchUpdate 128 0,
    .preempt 8 0 0 0,
    .preempt 0 0 0 130,
    .gangFrameWrite 8 0 0,
    .registerWrite 130 .jobBase 0,
    .registerWrite 0 (.march 8 0 0) 0,
    .registerWrite 0 (.qcfg 0 8) 0,
    .registerWrite 0 (.pasidTab 0 0 16) 0,
    .registerWrite 0 (.hostMap 32) 0,
    .registerWrite 0 (.extentWord 1024 0) 0,
    .registerWrite 0 (.extentWord 0 4) 0,
    .registerWrite 0 (.record 0 16 0 0) 0,
    .springFill 16 0,
    .fallDrain 0 256,
    .laneFailure 0 16 false,
    .cpsem 2 0 none,
    .hostLinkDown 2,
    .evtdoor 0 8,
    .qerrClear 0 8,
    .atsInvalidation 2 0 0,
    .hostFlagAccess 32 0 0 .read,
    .hostFlagAccess 0 0 65536 .read,
    .hostExtentAccess 0 1024 0 .read] : List Instr), wellFormed i = false := by decide

/-! ### Witnesses: encoding and issue -/

theorem witness_EncodedWordDecodes : wellFormed (.add hd (.ri ri0)) = true ∧ isWord (.add hd (.ri ri0)) = true := by decide
theorem witness_DecodedWordEncodes : decodeWord 0x9A1000FFFFFFF8000000 = .ok (.br ⟨true, 1, 0, 0⟩ ⟨0xFFFFFFF8⟩) := by decide

/-- NOP placed at the PC, with nothing on the agenda. -/
def fetched : State := { State.reset.withFetchWord 80 0x80000000000000000000 with agenda := [] }

theorem witness_StepRunsFetchedWord :
    fetched.fw.shutdown = false ∧ fetched.agenda = [] ∧ fetched.fw.boot = 6 ∧ fetched.runnable fetched.cur.1 fetched.cur.2 = true ∧
    fetched.me.pre = none ∧ fetched.me.walk = none ∧ fetched.me.grp = none ∧ fetched.me.pc.toNat < fetched.me.code.2 ∧
    (fetched.me.code.1 + BitVec.ofNat 64 (10 * fetched.me.pc.toNat)).toNat = 0x10080 ∧
    (fetched.choreDue = true → fetched.nextChore = none) ∧
    (match resolve fetched (fetched.myAgent 0) .exec 0x10080 10 with
      | .ok segs s => decide (s = fetched ∧ poisonAt fetched 0x10080 segs = none) &&
        (match Machine.fetched fetched.me 0x10080 0x10080 segs fetched with | .ok bs => wordOfBytes bs == nopWord | .error _ => false)
      | _ => false) = true := by decide +kernel
theorem witness_StepRunsFetchedWord_group :
    nopWord.getLsbD 79 = true ∧ decodeWord nopWord = .ok (.nop hd) ∧ checkGroup fetched.me [nopWord] fetched.me.pc = .ok [.nop hd] ∧
    fetched.me.tagStall (.nop hd) = false ∧ fetched.me.acqHeld (.nop hd) = false ∧ fetched.wordHeld (0, .nop hd) = false ∧ fetched.me.loopDepth (.nop hd) = false ∧
    queueHeld [(0, .nop hd)] fetched (fetched.issueGroup [nopWord] [.nop hd]) = false := by decide +kernel
theorem witness_StepRunsNextWord :
    let s := at_ fun l => { l with grp := some { grp0 with checked := true } }
    s.fw.shutdown = false ∧ s.agenda = [] ∧ s.fw.boot = 6 ∧ s.runnable s.cur.1 s.cur.2 = true ∧ s.me.pre = none ∧ s.me.walk = none ∧
    s.me.grp = some { grp0 with checked := true } ∧ ({ grp0 with checked := true } : Group).word = some (.nop hd) ∧ grp0.rptM = 0 ∧
    queueHeld [(0, .nop hd)] s s = false := by decide +kernel
theorem witness_PrivilegedWordsTrap :
    let w : IWord := 0xF5000000000000000000
    w.getLsbD 79 = true ∧ decodeWord w = .ok (.rft hd) ∧ privBad slot0.level (.rft hd) = true ∧ mseqWord w = false ∧
    groupBad [.rft hd] 0 = false ∧ ((uses (.rft hd)).any fun u => u.over slot0.id.hdr slot0.level) = false ∧
    ((uses (.rft hd)).findSome? fun u => match u with | .bar b => if slot0.id.hdr.nbar ≤ b then some b else none | _ => none) = none := by
  decide +kernel
/-- RFT is the group at the PC of a task of level T. -/
theorem witness_PrivilegedWordsTrap_group :
    let s := State.reset.withFetchWord 80 0xF5000000000000000000
    let t := s.setMe { s.me with level := .t }
    t.me.level = .t ∧ (match fetchGroup t with | .ok ws u => ws == [0xF5000000000000000000] && decide (u = t) | _ => false) = true := by
  decide +kernel
theorem witness_GroupGoesOn :
    let g : Group := { pc := 0, words := [0, nopWord] }
    (at_ fun l => { l with grp := some g }).me.grp = some g ∧ g.after = some 1 := by decide +kernel
theorem witness_GroupCloses : Closing (at_ id).me :=
  ⟨grp0, by decide +kernel, by decide, rfl, rfl, rfl, rfl, rfl, rfl, rfl, rfl, rfl, rfl, by decide +kernel, by decide, by decide +kernel,
    by decide +kernel, by decide +kernel⟩
/-- A result of two cycles for s5. -/
def result0 : Landing := ⟨0, .s 5, 2, 9, 0xFFFF, some 9, 0, 0, 0⟩
theorem witness_ResultLandsInTime : (slot0.setBank { slot0.bank with inflight := [result0] }).bank.inflight = [result0] ∧
    result0.left = 1 + 1 := by decide +kernel
theorem witness_ResultLanding :
    let finish : IWord := (encode (.suspFinish hd ⟨0, 0, 0, 0, 0, 0, 0, 0⟩)).getD 0
    let s := at_ fun l => { l with grp := some { grp0 with words := [finish] } }.setBank { l.bank with inflight := [result0] }
    s.drains 0 0 = true ∧ (s.slot 0 0).endCycle.2 = [] ∧ (at_ id).drains 0 0 = false := by decide +kernel
theorem witness_LookAhead : ∀ h f, Instr.nop hd = .apxb h f → ((at_ id).me.enabled h && ((at_ id).substitutes f).isSome) = false := by
  intro h f e; cases e
theorem witness_EnabledRule : slot0.capture = none ∧ (hd.pr = 0 ∧ slot0.enabled hd = true) ∧ hdOff.pr = 8 := by decide
/-- What was captured for the group's word. -/
def capture0 : Capture := ⟨true, 0x10, [], [], []⟩
theorem witness_EnabledRule_captures :
    let g := { grp0 with caps := [(0, capture0)], reissue := true }
    ({ slot0 with grp := some g } : Slot).capture = some capture0 ∧ 0 < g.words.length ∧ g.perf.getLsbD 0 = false ∧
    decodeWord (g.words.getD 0 0) = .ok (.nop hd) ∧ Sparse.find g.caps 0 = some capture0 ∧ Sparse.find grp0.caps 0 = none := by
  decide +kernel

/-! ### Witnesses: scalar words -/

theorem witness_enabled : (at_ id).me.enabled hd = true ∧ (at_ id).me.enabled hdOff = false := by decide +kernel
theorem witness_IntegerWords : WellFormed.tyInt (rriTy (.rr rr0)) = true ∧ WellFormed.tyInt (rriTy (.ri ri0)) = true := by decide
theorem witness_BitCounts : clz 8 (0x13#8).toNat < 8 ∧ ctz 8 (0x18#8).toNat < 8 := by decide
theorem witness_SelectWord :
    let s := at_ fun l => l.wrP .t 3 true
    s.me.enabled hd = true ∧ s.me.rdP s.me.level 3 = true ∧ s.me.rdP s.me.level 2 = false ∧
    wellFormed (.sel hd { rr0 with aux := 3 }) = true := by decide +kernel
theorem witness_MoveHighWord : wellFormed (.movhi hd { ri0 with ty := 1 }) = true ∧ wellFormed (.movhi hd { ri0 with ty := 3 }) = true := by
  decide
theorem witness_MoveAndAddressWords : ri0.modLow = 0 ∧ { ri0 with modLow := 6 }.modLow ≠ 0 := by decide
theorem witness_BitsWords_field : WellFormed.tyWidth 0 ≤ (0x820 : Word).toNat % 128 ∧ ¬ WellFormed.tyWidth 0 ≤ (0x81F : Word).toNat % 128 := by
  decide
theorem witness_ScalarWordsLand : (at_ id).me.bank.inflight = [] ∧ (at_ id).me.group.target = none ∧ (at_ id).me.group.bubble = false := by
  decide +kernel
theorem witness_FloatWords : tyIsFloat 4 = true ∧ WellFormed.tyInt 3 = true := by decide
theorem witness_FloatRepresentable :
    fmtF32.value 0x3FC00000 = .fin false 12582912 (-23) ∧ (0x3FC00000 < 2 ^ fmtF32.w) ∧ fmtE2m1.value 1 ≠ .nan := by decide +kernel
theorem witness_FloatNaNs : fmtF32.snan 0x7F800001 = true ∧ FpOp.fma ∈ [FpOp.fma, .fms, .fnma] ∧ FpOp.add ≠ .sqrt ∧
    fmtF32.value ((fctx 0x10).op fmtF32 .add 0x7F800000 0xFF800000 0).1 = .nan := by decide +kernel

/-! ### Witnesses: control words and traps -/

theorem witness_BranchesLand : (at_ id).me.bank.inflight = [] ∧ (at_ id).me.group.target = none := by decide +kernel
theorem witness_LoopWords :
    let s := at_ fun l => l.setBank { l.bank with loops := [⟨0, 0, 1, 0⟩] }
    s.me.enabled hd = true ∧ (readSpec s.me 2).setWidth 32 ≠ (0 : BitVec 32) ∧ (readSpec s.me 0).setWidth 32 = (0 : BitVec 32) ∧
    s.me.bank.loops.getLast? = some ⟨0, 0, 1, 0⟩ := by decide +kernel
theorem witness_LoopRunsNTimes : ∀ f : LoopFrame, f = ⟨0, 4, 2, 0⟩ → f.k = 0 ∧ (∀ g ∈ ([] : List LoopFrame).head?, g.e ≠ f.e) ∧
    0 + 1 < f.n.toNat ∧ 0 < f.n.toNat := by rintro _ rfl; decide
theorem witness_RepeatWord :
    let s := at_ fun l => { l with rptResume := true, csr := { l.csr with rptrem := 1 } }
    s.me.enabled hd = true ∧ s.me.rptResume = true ∧ s.me.csr.rptrem ≠ 0 ∧ (at_ id).me.rptResume = false := by decide +kernel
theorem witness_TrapEntry :
    mapped.me.level ≠ .s ∧ Cause.priv ≠ .pageNotPresent ∧ Cause.priv ≠ .ownership ∧
    (mapped.handler mapped.me.id.part (mapped.jobOf mapped.me.id.part mapped.me.id.handle)).isSome = true := by decide +kernel
theorem witness_ReturnFromTrap :
    let s := at_ fun l => { l with level := .s }
    s.me.csr.unhold = none ∧ s.me.rpl.valid = false ∧ s.me.csr.rptrem = 0 ∧ s.me.wait = none ∧ s.me.ends = .next ∧
    s.me.sb.inflight = [] ∧ s.me.sb.tags = [] := by decide +kernel
theorem witness_ReplayedGroup : ∃ l : Slot, l.rpl.valid = true ∧ l.rpl.left = [(0, nopWord)] :=
  ⟨{ slot0 with rpl := { slot0.rpl with valid := true, words := [nopWord], perf := 0 } }, by decide +kernel, by decide +kernel⟩

/-! ### Witnesses: vector words -/

theorem witness_VectorElements : 63 < 512 / 8 ∧ 7 < 512 / 64 := by decide
theorem witness_VectorLandingFrame : ∃ x : Landing, x.unit = 7 + 1 ∧ x.dst = .v (1 <<< 7) 63 :=
  ⟨⟨8, .v (1 <<< 7) 63, 1, 0, 0, none, 0, 0, 0⟩, rfl, rfl⟩
theorem witness_VectorConversions : WellFormed.tyWidth 4 = WellFormed.tyWidth 0 ∧ WellFormed.tyWidth 6 < WellFormed.tyWidth 4 ∧
    WellFormed.tyWidth 4 < WellFormed.tyWidth 5 := by decide
/-- hf4 on clusters 0 and 1. -/
def bs0 : FmtRR := ⟨6, 2, 3, 0, 3, 4, 9⟩
theorem witness_BlockScaleWords :
    let s := at_ fun l => (l.wrV 1 3 0x8000).wrV 1 2 0x8000
    bsCode bs0 = 9 ∧ bs0.aux.getLsbD 6 = false ∧ { bs0 with aux := 73 }.aux.getLsbD 6 = true ∧
    ((clusters bs0.cmask).any fun c => c % 2 = 0 && bsOn s.me hd c &&
      xvBad ((lane (readVSpec s.me (c / 2 * 2 + 1) bs0.b) 0).toNat / 256 % 256)) = true ∧
    ((clusters bs0.cmask).any fun c => c % 2 = 0 && bsOn s.me hd c &&
      xvBad ((lane (readVSpec s.me (c / 2 * 2 + 1) bs0.a) 0).toNat / 256 % 256)) = true ∧
    ((clusters bs0.cmask).any fun c => c % 2 = 0 && bsOn s.me hdOff c &&
      xvBad ((lane (readVSpec s.me (c / 2 * 2 + 1) bs0.b) 0).toNat / 256 % 256)) = false := by decide +kernel
theorem witness_ReductionWords : ((at_ id).me.laneMask hd 0).getLsbD 15 = true ∧ tyIsFloat 3 = false ∧ tyIsFloat 5 = true := by
  decide +kernel
theorem witness_ReductionSums : [some (1 : Int), none].length = 2 ^ 1 := by decide

/-! ### Witnesses: memory words -/

theorem witness_MemoryReadAfterWrite :
    plainSeg ⟨.scr 0 0, 2⟩ = true ∧ plainSeg ⟨.hbm 0, 2⟩ = true ∧ [(1 : Byte), 2].length = 2 ∧ t1.unitFrozen (0 / 2 ^ 30) = false ∧
    inRun (.scr 0 1) ⟨.scr 0 0, 2⟩ = true ∧ inRun (.scr 0 2) ⟨.scr 0 0, 2⟩ = false ∧ t1.frozenBy 0 [1, 2] = [] := by decide +kernel
/-- The first two bytes belong to a frozen table. -/
theorem witness_MemoryReadAfterWrite_frozen :
    let s := t1.setPart 0 { t1.part 0 with tables := [(0, 2)] }
    s.unitFrozen (0 / 2 ^ 30) = false ∧ 0 ∈ s.frozenBy 0 [1, 2] ∧ s.frozenBy 2 [1, 2] = [] := by decide +kernel
theorem witness_memoriesWf : memoriesWf t1 = true ∧ memoriesWf mapped = true := by decide +kernel
theorem witness_StepKeepsMemories : memoriesWf fetched = true ∧ (match step fetched with | .next _ => true | _ => false) = true := by
  decide +kernel
theorem witness_LocalWindow :
    t1.myCore.region t1.me.id.handle = some ⟨0, 0, 1048576⟩ ∧ (0xFF00000000000000 + 1048572) % 4 = 0 ∧
    1048572 + 4 ≤ t1.me.id.hdr.scratch ∧ t1.me.id.hdr.scratch ≤ 1048576 ∧ 1048576 + 4 ≤ 0x800000 := by decide +kernel
theorem witness_WindowFaults :
    winOf 0xFF00000000800000 = none ∧ winOf 0x0100000000000000 = none ∧ winOf 0xFF000000007FFFFF = some (.loc, 0x7FFFFF) ∧
    winOf (0xFF000000007FFFFF + 2 - 1) = none ∧ winOf 0xFE00000003FFFFFF ≠ none ∧ winOf 0xFE00000004000200 = none := by decide
theorem witness_AlignmentFaults :
    (at_ id).me.enabled hd = true ∧ addrM (at_ id).me { mm0 with base := 3 } % sizeBytes 2 ≠ 0 ∧
    addrM (at_ id).me { mm0 with base := 3 } % 4 ≠ 0 ∧ (readSpec (at_ id).me 3).toNat % sizeBytes 3 ≠ 0 := by decide +kernel
theorem witness_LoadWords :
    accessOk (t1.access .load (addrM t1.me mm0) 4 4 false) (fun g s => g.all plainSeg && decide (poisonAt s (addrM t1.me mm0) g = none)) = true ∧
    accessOk (t1.access .load (addrM t1.me { mm0 with size := 5 }) 512 4 true)
      (fun g s => g.all plainSeg && decide (poisonAt s (addrM t1.me mm0) g = none)) = true := by decide +kernel
theorem witness_LoadReturns : ∃ s : State, ∀ op, op = TagOp.value 5 none ∨ op = TagOp.value 5 (some 8) →
    ∃ t : State, t = s.setMe (slot0.setBankOf .t { slot0.tb with tags := [(1, [⟨.s 5, op, 0⟩])] }) ∧
      Sparse.find ((t.slot 0 0).bankOf (t.slot 0 0).level).tags 1 = some [⟨.s 5, op, 0⟩] :=
  ⟨t1, by rintro _ (rfl | rfl) <;> exact ⟨_, rfl, by decide +kernel⟩⟩
theorem witness_StoreWords :
    accessOk (t1.access .store (addrM t1.me mm0) 4 4 false) (fun g _ => g.all plainSeg) = true ∧
    accessOk (t1.access .store (addrM t1.me { mm0 with size := 4 }) 64 4 true) (fun g _ => g.all plainSeg) = true := by decide +kernel
def g0 : FmtG := ⟨5, 1, 2, 0, 2, 0, 0, 1⟩
theorem witness_GatherScatterWords :
    let s := at_ fun l => l.wrV 0 2 8
    let t := at_ fun l => l.wrV 0 2 1
    (match gatherCheck .load 4 (gatherAddrs s.me g0) s [] with | .ok _ => true | _ => false) = true ∧
    (match gatherCheck .store 4 (gatherAddrs s.me g0) s [] with
      | .ok (ps, _) => !ps.isEmpty && ps.all fun p => p.runs.all plainSeg | _ => false) = true ∧
    (match gatherCheck .load 4 (gatherAddrs t.me g0) t [] with | .error (.trap _ _ _) => true | _ => false) = true ∧
    (match gatherCheck .store 4 (gatherAddrs t.me g0) t [] with | .error (.trap _ _ _) => true | _ => false) = true := by decide +kernel
/-- A leaf that no write has marked, of one unmarked entry; a line of the flag window that the host has modified. -/
theorem witness_StoreFrame :
    let s := t1.setMyCore { t1.myCore with tlb := [{ identityEntry with dirty := false, leafAddr := 0x4000 }] }
    let u := t1.setPart 0 { t1.part 0 with flagHost := [1], flagMod := [1] }
    markedByte s (.hbm 0x4007) = true ∧ markedByte s (.hbm 0x4008) = false ∧ markedByte s (.hbm 0x3FFF) = false ∧
    markedByte u (.flag 0 64) = true ∧ markedByte u (.flag 0 63) = false ∧ ({ mm0 with size := 4 } : FmtM).size = 4 := by decide +kernel
theorem witness_AtomicWords :
    accessOk (t1.access .atomic (readSpec t1.me at0.a).toNat 8 8 false) (fun g s => g.all plainSeg &&
      !((inScratch g || inLocal (readSpec t1.me at0.a).toNat) && !AtomOp.add.bank) && !(inCounter g && decide (8 ≤ AtomOp.add.code)) &&
      decide (poisonAt s (readSpec t1.me at0.a).toNat g = none)) = true := by decide +kernel
/-- An atomic that no bank performs completes in memory. -/
theorem witness_AtomicWords_hbm :
    let s := mapped.setMe (slot0.wrS .t 1 0x4000)
    accessOk (s.access .atomic 0x4000 8 8 false) (fun g s => g.all plainSeg &&
      !((inScratch g || inLocal 0x4000) && !AtomOp.cas.bank) && !(inCounter g && decide (8 ≤ AtomOp.cas.code)) &&
      decide (poisonAt s 0x4000 g = none)) = true := by decide +kernel
theorem witness_FenceFlushPrefetchWords :
    let t := at_ fun l => { l.wrS .t 1 0x4000 with refused := 2, first := 8 }
    let s := { t with host := { t.host with posted := [⟨0, 1, some 0, some 0, false⟩] } }
    (2 : BitVec 3).toNat < 3 ∧ 3 ≤ (3 : BitVec 3).toNat ∧ dstRef (xDst mm0.x) ≠ .s 0 ∧ t1.me.refused = 0 ∧
    dstRef (xDst 0) = .s 0 ∧ s.me.refused ≠ 0 ∧
    winOf (addrM s.me mm0) = some (.global, 0x4000) ∧ (readSpec s.me mm0.x).toNat % 2 ^ 32 = 0 ∧
    (readSpec s.me 2).toNat % 2 ^ 32 ≠ 0 ∧ s.host.posted ≠ [] := by decide +kernel
theorem witness_FlagWord :
    let a := (readSpec t1.me at0.a).toNat
    let s := at_ fun l => l.wrS .t 1 0x4000
    a % 8 = 0 ∧ checkWin a 8 = .ok (.loc, 0) ∧ accessOk (t1.access .store a 8 8 false) (fun g _ => g.all plainSeg) = true ∧
    (readSpec s.me at0.a).toNat % 8 = 0 ∧ checkWin (readSpec s.me at0.a).toNat 8 = .ok (.global, 0x4000) := by
  refine ⟨by decide +kernel, rfl, by decide +kernel, by decide +kernel, rfl⟩
theorem witness_WaitWords :
    accessOk (t1.access .load (readSpec t1.me 1).toNat 8 8 false) (fun g _ => g == [⟨.scr 0 0, 8⟩]) = true ∧
    plainSeg ⟨.scr 0 0, 8⟩ = true ∧ waitHolds 0 0 5 = false ∧ waitHolds 0 5 5 = true ∧ waitHolds 1 5 5 = true ∧ waitHolds 2 0 5 = true ∧
    (readSpec t1.me 0).toNat % 2 ^ 32 = 0 ∧ (readSpec t1.me 2).toNat % 2 ^ 32 ≠ 0 ∧
    poisonAt t1 0xFF00000000000000 [⟨.scr 0 0, 8⟩] = none := by decide +kernel
theorem witness_WaitWords_poison :
    let s := t1.setMyCore { t1.myCore with lines := [(0, 3)] }
    accessOk (s.access .load (readSpec s.me 1).toNat 8 8 false) (fun g u => g == [⟨.scr 0 0, 8⟩] &&
      (poisonAt u (readSpec s.me 1).toNat g).isSome) = true := by decide +kernel
def wait0 : Wait := ⟨.waitfT, 0xFF00000000000000, 5, 0, .scr 0 0, some 0, 1, .table, 0, 0, 0⟩
theorem witness_WaitEvents :
    let s := at_ fun l => { l with wait := some wait0 }
    (s.slot 0 0).wait = some wait0 ∧ wait0.kind = .waitfT ∧ wait0.deadline = some 0 ∧ 0 ≤ s.cycle ∧ wait0.place = .table ∧
    s.testWait (.slot 0 0) wait0 = none ∧
    ((at_ fun l => { l with wait := some { wait0 with place := .overflow } }).slot 0 0).wait = some { wait0 with place := .overflow } := by
  decide +kernel
/-- A spilled monitor of die 0: its scan is due 4,096 cycles on, and is not where it has just been. -/
theorem witness_WaitEvents_due :
    let s : State := { (at_ fun l => { l with wait := some { wait0 with place := .overflow } }) with cycle := 4096 }
    let u := s.setDie 0 { s.die 0 with scanned := 4097 }
    (s.scanDue 0 = true ∧ 0 ≤ s.cycle) ∧ u.scanDue 0 = false := by
  refine ⟨⟨?_, Nat.zero_le _⟩, ?_⟩
  · have h : (Config.scanPhase 0 % 4096 ≤ 4096) := by omega
    have e : ((({ (at_ fun l => { l with wait := some { wait0 with place := .overflow } }) with cycle := 4096 } : State).waiters.filter
      fun (x, w) => x.die = 0 && (w.place = .overflow || w.place = .deferred)) = [(.slot 0 0, { wait0 with place := .overflow })]) := by decide +kernel
    have d : (({ (at_ fun l => { l with wait := some { wait0 with place := .overflow } }) with cycle := 4096 } : State).die 0).scanned = 0 := by
      decide +kernel
    simp only [State.scanDue, e, d, State.scanPoint]
    rw [if_neg (by omega)]
    simp [wait0]
  · have d : ((({ (at_ fun l => { l with wait := some { wait0 with place := .overflow } }) with cycle := 4096 } : State).setDie 0
        { ({ (at_ fun l => { l with wait := some { wait0 with place := .overflow } }) with cycle := 4096 } : State).die 0 with
          scanned := 4097 }).die 0).scanned = 4097 := by decide +kernel
    simp only [State.scanDue, d, State.scanPoint]
    split
    · rename_i p h
      split at h
      · cases h
      · simp only [Option.some.injEq] at h
        have : p ≤ 4096 := by rw [← h]; exact Nat.sub_le _ _
        simp; intros; omega
    · simp
theorem witness_WaitEvents_wfe :
    let s := at_ fun l => { l with wfe := some (0, 0) }
    (s.slot 0 0).wfe = some (0, 0) ∧ 0 ≤ s.cycle := by decide +kernel
theorem witness_WaitEvents_scan : ∃ s : State, s.cycle % 4096 = Config.scanPhase 0 % 4096 := ⟨{ t1 with cycle := Config.scanPhase 0 }, rfl⟩

/-! ### Witnesses: copies, rings and tasks -/

theorem witness_CopyWords :
    (readSpec t1.me 0).toNat % 64 = 0 ∧ (readSpec t1.me 2).toNat % 64 ≠ 0 ∧ (readSpec t1.me 1).toNat % 128 = 0 ∧
    inLocal (readSpec t1.me 1).toNat = true ∧ (readSpec t1.me 3).toNat % 128 ≠ 0 ∧ (readSpec t1.me 0).toNat % 128 = 0 ∧
    inLocal (readSpec t1.me 0).toNat = false ∧ (readSpec t1.me 2).toNat % 32 ≠ 0 ∧ t1.myCore.copies = [] := by decide +kernel
def copy0 : CopyCmd :=
  { own := ⟨0, 0, 0, 0, .t⟩, tag := 1, dst := .s 5, wpc := 0, isScale := false, d := 0, s := 0, lines := 0, lay := [], t := 0,
    acq := false, rel := false, scope := 0, engine := none, pos := 0, doneN := 0, code := 0, finished := false, handle := 0, scratch := 0,
    job := 0, part := 0 }
theorem witness_CopyEvents :
    let s := t1.setMyCore { t1.myCore with copies := [(0, copy0)] }
    ((s.core 0).copies.find? fun y => y.2.engine.isNone) = some (0, copy0) ∧ (s.core 0).freeEngine.isSome = true ∧
    Sparse.find [(0, { copy0 with engine := some 0 })] 0 = some { copy0 with engine := some 0 } ∧
    0 < { copy0 with finished := true, outs := 1 }.outs ∧ copy0.outs = 0 ∧ copy0.rel = false ∧ copy0.due = [] ∧
    3 ≤ (3 : BitVec 3).toNat ∧ ({ core0 with acks := 1 } : Core).acks ≠ 0 := by decide +kernel
/-- Core 0 with ring handle 0: unbound, a producer's, a consumer's, one at its end. -/
def ringed (x : Word) : State := t1.setMyCore { t1.myCore with rh := [(0, x)], lines := [(0, 1)] }
theorem witness_RingWords :
    ((ringed 1).ring { tt0 with imm := 0 } = 1 ∧ rhBound 1 = true ∧ rhRole 1 = 0 ∧ rhEos 1 = false ∧ rhBound 0 = false) ∧
    rhRole 0x11 = 1 ∧ rhRole 0x21 = 2 ∧ ringHolds 0x11 ((ringed 0x11).ringStates 0x11) = true ∧
    ringHolds 1 ((ringed 1).ringStates 1) = false := by decide +kernel
theorem witness_RingWords_bind_refused :
    (readSpec t1.me 3).toNat % 128 ≠ 0 ∧ 12 < 13 % 16 ∧ fld 0xC00 11 10 = 3 ∧ 2 ^ 12 ≤ 0x1000 ∧
    t1.me.id.hdr.scratch < 0 + 2 ^ (0x3FC % 16) * (fld 0x3FC 9 4 + 1) * 128 := by decide +kernel
theorem witness_RingWords_end : ∃ x, rhBound x = true ∧ rhEos x = true ∧ rhRole x = 0 := ⟨rhEnd 1, by decide +kernel⟩
theorem witness_RingWords_end1 : ∃ x, rhBound x = true ∧ rhEos x = true ∧ rhRole x = 1 := ⟨rhEnd 0x11, by decide +kernel⟩
theorem witness_RingWords_bind :
    let a := (readSpec t1.me 1).toNat - 0xFF00000000000000
    a % 128 = 0 ∧ 12 % 16 ≤ 12 ∧ fld 12 11 10 ≠ 3 ∧ 12 < 2 ^ 12 ∧ a + 2 ^ (12 % 16) * (fld 12 9 4 + 1) * 128 ≤ t1.me.id.hdr.scratch := by
  decide +kernel
/-- A free record at 0x2000, which names partition 0's word of version 1. -/
def recorded : State := { mapped.setMe (slot0.wrS .t 1 0x2000) with hbm := Memory.write mapped.hbm 0x2004 [1] }
theorem witness_SpawnWords :
    accessOk (recorded.recordAccess 0x2000 256 256 .atomic) (fun g s => decide (s.me.id = recorded.me.id ∧
      s.recAt 0 (s.jobOf 0 0) 0x2000 = none ∧ recState (readSegs s g) = 0 ∧ recVer (readSegs s g) = 1)) = true ∧
    accessOk (recorded.recordAccess 0x2000 128 128 .load) (fun _ _ => true) = true ∧
    accessOk (mapped.recordAccess 0x2000 256 256 .atomic) (fun g s => decide (recVer (readSegs s g) ≠ 1)) = true := by decide +kernel
/-- The record's first line is poisoned. -/
theorem witness_SpawnWords_poison :
    let s := { recorded with hbmPoison := [0x2000 / 64] }
    accessOk (s.recordAccess 0x2000 256 256 .atomic) (fun g u => (poisonAt u 0x2000 g).isSome &&
      (poisonAt u 0x2000 (g.map fun x => { x with len := min 16 x.len })).isSome) = true ∧
    accessOk (recorded.recordAccess 0x2000 256 256 .atomic) (fun g u => decide (poisonAt u 0x2000 g = none ∧
      poisonAt u 0x2000 (g.map fun x => { x with len := min 16 x.len }) = none)) = true := by decide +kernel
theorem witness_SuspendWords :
    accessOk (recorded.recordAccess (readSpec recorded.me 1).toNat 256 256 .atomic) (fun _ _ => true) = true := by decide +kernel
def trapsOk (r : ARes) (p : Cause → Bool) : Bool := match r with | .trap c _ _ => p c | _ => false
theorem witness_RecordFaults :
    (readSpec t1.me 3).toNat % 256 ≠ 0 ∧ (readSpec t1.me 3).toNat % 128 ≠ 0 ∧ (readSpec t1.me 1).toNat % 256 = 0 ∧
    winOf (readSpec t1.me 1).toNat = some (.loc, 0) ∧ Win.loc ≠ .global ∧
    trapsOk (t1.recordAccess 0x0100000000000000 256 256 .atomic) (· == .addrUnmapped) = true := by decide +kernel
/-- A PENDING record at 0x2000 that March holds. -/
def rec0 : TRec :=
  { addr := 0x2000, part := 0, st := .pending, prio := 0, handle := 0, since := 0, arrival := 0, coord := 0, affinity := 0, kernel := 0x1000,
    cont := false, seq := 1, place := none, held := none, cell := none, wait := none, inSram := true, member := false, dispAt := 0,
    pre := none, side := {}, copy := [] }
def withRec (r : TRec) : State := recorded.setDie 0 { recorded.die 0 with recs := [r] }
theorem witness_DoubleTrap :
    let p := { t1.part 0 with errBase := 0x5000, errCnt := 4 }
    let s := ((withRec { rec0 with st := .running, place := some (0, 0) }).setPart 0 p).setMe { slot0 with level := .s, id := { taskOf with seq := 1 } }
    s.me.level = .s ∧ (s.part s.me.id.part).errCnt ≠ 0 ∧ (t1.part 0).errCnt = 0 ∧ (s.part 0).errBase.toNat + 32 * (0 % 4) = 0x5000 ∧
    (match interAddr s 0 0x5000 with | .ok q => q == 0x5000 | .error _ => false) = true ∧ s.unitOwner (0x5000 / 2 ^ 30) = some 0 ∧
    s.unitFrozen (0x5000 / 2 ^ 30) = false ∧ s.frozenBy 0x5000 (errBytes s 1 1 6 s.cur.1 0) = [] ∧
    (s.slotRec 0 0).isSome = true := by decide +kernel
theorem witness_DependenceCounters :
    ((withRec rec0).recAt 0 0 0x2000).map (·.2) = some rec0 ∧ rec0.st = .pending ∧
    natOfBytes (((withRec rec0).marchRead 0 0 0x2008 4).getD []) = 0 ∧
    ((withRec { rec0 with st := .ready }).recAt 0 0 0x2000).map (·.2) = some { rec0 with st := .ready } ∧
    recorded.recAt 0 0 0x2000 = none ∧ recState ((recorded.marchRead 0 0 0x2000 16).getD []) = 0 ∧
    recorded.launch? 0 0 = some launchOf := by decide +kernel
theorem witness_DependenceCounters_counts :
    let s := { recorded with hbm := Memory.write recorded.hbm 0x2008 [2] }
    let t := { recorded with hbm := Memory.write recorded.hbm 0x2000 [1] }
    recF ((s.marchRead 0 0 0x2000 16).getD []) 8 4 = 2 ∧ 1 < 2 ∧ 2 + 0xFFFFFFFD ≤ 0xFFFFFFFF ∧ 0xFFFFFFFF < 2 + 0xFFFFFFFE ∧
    recState ((t.marchRead 0 0 0x2000 16).getD []) ≠ 0 := by decide +kernel
/-- The task of slot 0 is March's record at 0x2100; the one at 0x2000 is free, or PENDING. -/
theorem witness_SuspendedGroups :
    let l : Slot := { slot0 with id := { taskOf with seq := 1 }, files := { s := [(1, 0x2000)] } }
    let s := (withRec { rec0 with addr := 0x2100, st := .running, place := some (0, 0) }).setMe l
    let v := s.marchLook 0 (s.jobOf 0 0) 0x2000 256
    let bs := (v.marchRead 0 (s.jobOf 0 0) 0x2000 256).getD (List.replicate 256 0)
    let u := s.setDie 0 { s.die 0 with recs := (s.die 0).recs ++ [{ rec0 with seq := 2 }] }
    grp0.user = none ∧ s.cur.2 < 4 ∧ s.me.pre = none ∧
    (match s.slotRec 0 0 with | some (d, r) => r.st != .pending && decide ((s.die d).recs.find? (fun y => y.seq = r.seq) = some r) | none => false) = true ∧
    (v.recAt 0 (s.jobOf 0 0) 0x2000).isSome = false ∧ recState bs = 0 ∧
    ((u.marchLook 0 (u.jobOf 0 0) 0x2000 256).recAt 0 (u.jobOf 0 0) 0x2000).isSome = true := by decide +kernel
theorem witness_FinishedTask : ({ grp0 with fin := .finish } : Group).user = none ∧ t1.cur.2 < 4 ∧ routinesOf t1.myCore t1.me.id = [] := by
  decide +kernel
theorem witness_BarrierWords : ∃ s : State, ∃ k g m, s.myGang = some (k, g, m) ∧
    (Sparse.get 0 (Sparse.get {} g.bars 0 : Barrier).arrived m ≤ (Sparse.get {} g.bars 0 : Barrier).phase) :=
  ⟨t1.setBlock 0 { t1.block 0 with gangs := [⟨0, 0, 0, 2, 1, [], [], false, []⟩] }, 0, ⟨0, 0, 0, 2, 1, [], [], false, []⟩, 0, by decide +kernel,
    by decide⟩
theorem witness_BarrierWords_waits : t1.myGang = none ∧ ∃ s : State, ∃ k g m, s.myGang = some (k, g, m) ∧
    ((Sparse.get {} g.bars 0 : Barrier).phase < Sparse.get 0 (Sparse.get {} g.bars 0 : Barrier).arrived m) :=
  ⟨by decide +kernel, t1.setBlock 0 { t1.block 0 with gangs := [⟨0, 0, 0, 2, 1, [], [(0, { arrived := [(0, 1)], phase := 0 })], false, []⟩] }, 0,
    ⟨0, 0, 0, 2, 1, [], [(0, { arrived := [(0, 1)], phase := 0 })], false, []⟩, 0, by decide +kernel, by decide⟩
theorem witness_BarrierPhases : (∃ m, m < 2 ∧ [1].contains m = false) ∧
    ∀ m, m < 2 → [1].contains m = false → Sparse.get 0 [(0, 1)] m ≤ 0 + 1 := ⟨⟨0, by decide⟩, by decide⟩
theorem witness_GetConstantWords : t1.launch? t1.me.id.part t1.me.id.handle = some launchOf := by decide +kernel

/-! ### Witnesses: the fabric -/

/-- Registers for remote words: s1 a pod address, s2 a local one, s3 a length, s4 a flag. -/
def podded : State := at_ fun l => { l with files := { s := [(1, 0xF000000000000000), (2, 0xFF00000000000080), (3, 128), (4, 0xF000000000000100)] } }
def ff0 : FmtF := ⟨1, 2, 3, 4, 0, 0, 0, 0, 0⟩
theorem witness_RemoteWords :
    (askPut ff0 false podded.me).check = none ∧ (askPut { ff0 with opt := 1 } true podded.me).check = none ∧
    (askCopy { ff0 with c := 2 } false podded.me).check = none ∧ (askCopy { ff0 with c := 2 } true podded.me).check = none ∧
    (askRed { ff0 with ty := 4 } podded.me).check = none ∧ (askRed { ff0 with ty := 4, opt := 4 } podded.me).check = none ∧
    (askMcred { ff0 with ty := 4 } podded.me).check = none ∧ (askMcred { ff0 with ty := 4, opt := 4 } podded.me).check = none ∧
    ({ a := 0xF000000000000000, n := 8, locals := [], odd := none } : RemoteAsk).check = none ∧
    (askPut { ff0 with a := 2 } false podded.me).check ≠ none := by decide +kernel
/-- The queue toward the egress unit with room, and without, on the August core and on another. -/
theorem witness_RemoteWords_queue :
    let w := RemoteWord.blank podded opPut
    let full := podded.setBlock 0 { podded.block 0 with augQ := List.replicate 16 w, mailbox := List.replicate 16 (.sw 0 5) }
    podded.isAugust = true ∧ (podded.block 0).queued true < 16 ∧ (podded.block 0).queued false < 16 ∧ 16 ≤ (full.block 0).queued true ∧
    16 ≤ (full.block 0).queued false ∧ ({ full with cur := (1, 0) } : State).isAugust = false ∧
    (List.replicate 15 w).length < 16 := by decide +kernel
theorem witness_august : t1.isAugust = true ∧ ({ t1 with cur := (1, 0) } : State).isAugust = false := by decide +kernel
theorem witness_MailboxWords : takeSw [.sw 0 5] = some (5, []) ∧ takeSw [] = none ∧ dstRef tt0.dst ≠ .s 0 ∧ dstRef 0 = .s 0 ∧
    t1.me.refused = 0 ∧ (at_ fun l => { l with refused := 2 }).me.refused ≠ 0 := by decide +kernel
theorem witness_MailboxOrder : ∀ e ∈ ([] : List MbxEntry), ∃ w, e = .hw w := by simp
/-- A put of 128 bytes from the block window to this chip. -/
def qeBytes : List Byte := [1, 0, 0, 0, 128, 0, 0, 0] ++ bytesOfNat 8 0xFE00000000000080 ++ bytesOfNat 8 0xF000000000000000 ++ List.replicate 40 0
theorem witness_WorkEntries :
    let s := t1.setMyCore { t1.myCore with scr := Memory.write [] 0 qeBytes }
    accessOk (s.access .load 0xFF00000000000000 64 64 false) (fun g u => g.all plainSeg &&
      decide (poisonAt u 0xFF00000000000000 g = none ∧ readSegs u g = qeBytes ∧ qeOk (readSegs u g) = true) && decide ((u.block 0).qtab.length < 64)) = true ∧
    qeOk (List.replicate 64 0) = false ∧ (readSpec t1.me 3).toNat % 64 ≠ 0 ∧ (readSpec t1.me 0).toNat % 64 = 0 ∧
    inLocal (readSpec t1.me 0).toNat = false := by decide +kernel
def qe0 : QEntry :=
  { bytes := qeBytes, watch := .oor, cpl := .oor, own := ⟨0, 0, 0, 0, .t⟩, part := 0, job := 0, ready := some 0, sent := false, late := false,
    skew := false, order := 0, handle := 0, scratch := 0 }
theorem witness_WorkEntries_fire :
    let s := t1.setBlock 0 { t1.block 0 with qtab := [(0, qe0)] }
    Sparse.find (s.block 0).qtab 0 = some qe0 ∧ qe0.ready = some 0 ∧ qe0.sent = false ∧ qeTimed qe0.bytes = false ∧
    s.earlierReady 0 qe0 = false ∧ qeTimed (setAt qeBytes 2 4) = true ∧ 0 ≤ s.podNow.toNat := by decide +kernel
/-- The August core's put stands in the mailbox. -/
def queued : State :=
  podded.setBlock 0 { podded.block 0 with mailbox := [.hw { RemoteWord.blank podded opPut with a := 0xF000000000000000, b := 0xFF00000000000080, c := 128 }] }
theorem witness_EgressAccepts : ∃ src w, (queued.block 0).egressHead src = some w ∧ w.parts.all partOk = true ∧
    (w.op = opRcopy || w.op = opRcopySig) = false := ⟨.mailbox, _, rfl, by decide +kernel, by decide +kernel⟩
def pkt0 : Packet := ⟨1, 0x18, 0, 0, 0, 0, 0, 0, 0, 0, 4, 0, 4, 0, 0, false, [1, 2, 3, 4], 0⟩
theorem witness_PacketOrder :
    seqBefore { pkt0 with pseq := 0xFFFFFFFF }.pseq (t1.rxPair (rxKey pkt0)).next = true ∧ (t1.rxPair (rxKey pkt0)).held = [] ∧
    { pkt0 with pseq := 1 }.pseq ≠ (t1.rxPair (rxKey pkt0)).next ∧ seqBefore 1 (t1.rxPair (rxKey pkt0)).next = false ∧
    pkt0.pseq = (t1.rxPair (rxKey pkt0)).next := by decide +kernel
/-- A segment of 256 bytes of local scratchpad, and what its runs answer. -/
def seg0 : SegEnt := ⟨0, 256, 0xFF, false, 0, 0⟩
def answersOk (r : SegAns) (p : List Seg → State → Bool) : Bool := match r with | .yes g s => p g s | _ => false
theorem witness_WordsApplied :
    let q := { pkt0 with flags := 0x1C, fofs := 8 }
    pkt0.op = pkPut ∧ pktFill pkt0 = false ∧ pktSig pkt0 = false ∧ pkt0.poison = false ∧
    answersOk (t1.wordRuns (pktAsk pkt0) seg0 [] [(pkt0.ofs.toNat, pkt0.data.length)]) (fun _ _ => true) = true ∧
    ({ ent := some seg0, code := 3 } : RxPair).code ≠ 0 ∧ seg0.limit < ({ q with fofs := 256 } : Packet).fofs.toNat + 8 ∧
    (seg0.base + 12) % 8 ≠ 0 ∧ ({ pkt0 with poison := true } : Packet).poison = true ∧
    pktSig q = true ∧ pktFill q = false ∧ q.fofs.toNat + 8 ≤ seg0.limit ∧ (seg0.base + q.fofs.toNat) % 8 = 0 ∧ q.poison = false ∧
    answersOk (t1.wordRuns (pktAsk q) seg0 [] [(q.ofs.toNat, q.data.length)]) (fun _ s =>
      answersOk (s.segXlate { pktAsk q with acc := .atomic } seg0 q.fofs.toNat 8) fun g _ => g != []) = true := by decide +kernel


/-! ### Witnesses: engine words of a task -/

def e0 : FmtE := ⟨0, 0, 0, 1, 0, 0, 4, 0, 0, 0, 0⟩
theorem witness_EngineSetWords :
    let s := at_ fun l => l.wrS .t 6 0x2FDF000C
    t1.inRoutine = none ∧ cfgOk ((readSpec s.me 6).setWidth 32) = true ∧ cfgOk ((readSpec s.me 1).setWidth 32) = false ∧
    cfgOk ((s.me.cfg 0 &&& ~~~(0x1FF : BitVec 32)) ||| (12 : BitVec 9).setWidth 32) = true ∧
    cfgOk ((s.me.cfg 0 &&& ~~~(0x1FF : BitVec 32)) ||| (0 : BitVec 9).setWidth 32) = false ∧
    (s.me.rdS s.me.level 0).toNat % 8 = 0 ∧ (s.me.rdS s.me.level 2).toNat % 8 ≠ 0 ∧ rhRole 0x21 = 2 ∧ rhBound 0x21 = true ∧
    rhBound 0 = false := by decide +kernel
/-- Core 0's first line holds poison. -/
def poisoned : State := t1.setMyCore { t1.myCore with lines := [(0, 3)] }
def okSegs (x : Except Cause (List Seg)) (p : List Seg → Bool) : Bool := match x with | .ok g => p g | .error _ => false
theorem witness_EngineMoveWords :
    let a := (readSpec t1.me 1).toNat
    okSegs (t1.padAccess .load a 2 2) (fun g => (poisonAt t1 a g).isNone) = true ∧
    okSegs (poisoned.padAccess .load a 2 2) (fun g => (poisonAt poisoned a g).isSome) = true ∧
    t1.padAccess .load (readSpec t1.me 3).toNat 2 2 = .error .misalign ∧
    engFile 0 = 0 ∧ engFile 0x20 = 1 ∧ engFile 0x40 = 2 ∧ min (0 + 1) (16 - ([] : List Nat).length) ≠ 0 ∧
    okSegs (t1.padAccess .load a 144 16) (fun g => (poisonAt t1 a g).isNone) = true ∧
    min (0 + 1) (16 - (List.replicate 16 0).length) = 0 ∧ okSegs (t1.padAccess .load a 1 16) (fun _ => true) = true := by decide +kernel
/-- Three digits of 2047 in each of w0 and w1. -/
def digits : Core := (core0.setW 0 (List.replicate 3 2047)).setW 1 (List.replicate 3 2047)
/-- Digits of 12 bits, no guard bits, three of each operand. -/
def cfg3 : BitVec 32 := 0x0102000C
def digitsOk (x : Except (Cause × Word) (Core × Bool)) (p : Core → Bool → Bool) : Bool := match x with | .ok (c, b) => p c b | .error _ => false
theorem witness_DigitWords :
    digitsOk (digitProduct core0 0 .conv false cfg3 0 0 1) (fun _ b => !b) = true ∧
    digitsOk (digitProduct digits 0 .conv false (cfg3 ||| 0x800) 0 0 1) (fun _ b => b) = true ∧
    (match digitProduct digits 0 .conv false cfg3 0 0 1 with | .error (c, i) => c == .guardOverflow && i == 2 | .ok _ => false) = true := by
  decide +kernel
theorem witness_DigitProducts :
    let t (c : Core) (d : Nat) : Int := digitOf .conv (c.wElems 0 3 12 false) (c.wElems 1 3 12 false) d
    cfgOk cfg3 = true ∧ cfgGsat cfg3 = false ∧ cfgF cfg3 = 24 ∧ (∀ d, d < 192 → minInt 24 ≤ t core0 d ∧ t core0 d ≤ maxInt 24) ∧
    ¬ t digits 2 ≤ maxInt 24 ∧ ∀ k, k < 2 → minInt 24 ≤ t digits k ∧ t digits k ≤ maxInt 24 := by decide +kernel
theorem witness_DigitsMultiply : ([3, -2, 1, 4] : List Int).length ≤ 96 := by decide
/-- Format-table entry 0 names operands of 96 bytes a step; both ports of multiplier 0 read full slots. -/
def ported (q : List (List (BitVec 12))) (x : BitVec 2) : State :=
  let s := at_ fun l => { l with ports := [(0, { h := 0x21 }), (1, { h := 0x00100021 })] }
  s.setMyCore { s.myCore with ft := [(0, 1740)], sq := if q = [] then [] else [(0, q)],
                              lines := if x = 0 then [] else (List.range 32).map fun i => (i, x) }
def portOk (x : PortRes) : Nat := match x with | .ready _ _ _ => 0 | .empty _ => 1 | .fault _ _ => 2
def rt0 : Routine :=
  { own := ⟨0, 0, 0, 0, .t⟩, rpc := 0, entry := 0, tag := 1, token := .s 5, wmcfg := 0x2FDF000C, fpc := 0x10, steps := 0, callPc := 0,
    kcap := List.replicate 6 0, mloops := [], mp := List.replicate 8 0, acq := false, rel := false, scope := 0, done := false,
    order := 0, added := [] }
/-- A step of a sparse queue. -/
def sq0 : List (BitVec 12) := List.replicate 96 3
theorem witness_OuterWords :
    let s := ported [sq0] 1
    let g := s.me.eng 0
    (ftEntry g e0 s).isSome = true ∧ (ftEntry g { e0 with aux := 1 } s).isNone = true ∧
    portOk (portReady s (Sparse.get {} s.me.ports 0) 96) = 0 ∧ portOk (portReady s (Sparse.get {} s.me.ports 1) 96) = 0 ∧
    portOk (portReady s {} 96) = 2 ∧ portOk (portReady (ported [] 0) (Sparse.get {} s.me.ports 0) 96) = 1 ∧
    (ported [] 1).myCore.sq = [] ∧ s.myCore.sq = [(0, [sq0])] := by decide +kernel
/-- Port A has its bytes, and port B's stream has ended, or is not bound. -/
theorem witness_OuterWords_portB :
    let s := (ported [] 1).setMe { (ported [] 1).me with ports := [(0, { h := 0x21 }), (1, { h := rhEnd 0x00100021, idx := 3 })] }
    portOk (portReady s (Sparse.get {} s.me.ports 0) 96) ≠ 2 ∧ portOk (portReady s (Sparse.get {} s.me.ports 1) 96) = 2 ∧
    portOk (portReady s {} 96) = 2 := by decide +kernel
theorem witness_OuterWords_steps :
    let s := ported [] 1
    (match ftDecode 1740 with
      | some e => (stepOps s.myCore 0 e (readSpec s.me 1) 0 none (portBits s { h := 0x21 } 0x21 0 96) (portBits s { h := 0x00100021 } 0x00100021 0 96)).isSome && e.aBytes == 96
      | none => false) = true := by decide +kernel
theorem witness_ExtractWords :
    let s := (ported [] 1).setMe ((ported [] 1).me.wrS .t 5 (384 * 65536))
    let ctl := s.me.rdS .t 5
    digitControl (s.me.rdS .t 0) = some (0, 1) ∧ digitControl (s.me.rdS .t 1) = none ∧
    okSegs (s.padAccess .store (readSpec s.me 1).toNat 4 4) (fun _ => true) = true ∧
    s.padAccess .store (readSpec s.me 3).toNat 4 4 = .error .misalign ∧
    ((ftEntry (s.me.eng 0) e0 s).any fun e => (e.control 0x8000).isNone) = true ∧
    (ftEntry (s.me.eng 0) { e0 with aux := 1 } s).isNone = true ∧
    (match ftEntry (s.me.eng 0) e0 s with
      | some e => e.control ctl == some (0, 1, 384) && (match tileRuns s (readSpec s.me 1) 384 e.rowBytes [0] with | .ok _ => true | _ => false) &&
          (match tileRuns s (readSpec s.me 3) 384 e.rowBytes [0] with | .error _ => true | _ => false)
      | none => false) = true := by decide +kernel

/-! ### Witnesses: routines -/

theorem witness_RoutineWords :
    let ctl : Nat := 65536
    let a := (readSpec t1.me 1).toNat
    fld ctl 15 12 = 0 ∧ fld ctl 63 29 = 0 ∧ fld ctl 28 16 = 1 ∧ ctl % 2 ^ 12 + 1 ≤ 4096 ∧ fld 0 28 16 = 0 ∧ a % 2 = 0 ∧ inLocal a = true ∧
    checkWin a 512 = .ok (.loc, 0) ∧
    accessOk (t1.access .load a 10 2 true) (fun g s => g.length == 1 && g.all (fun g => !isPeer g) && (poisonAt s a g).isNone) = true ∧
    accessOk (t1.access .load a 512 2 true) (fun g s => g.length == 1 && g.all (fun g => !isPeer g) && (poisonAt s a g).isNone) = true ∧
    ((core0.setWm 0 { core0.wm 0 with pend := some rt0 }).wm 0).pend.isSome = true ∧ (core0.wm 0).pend = none ∧
    fld 0 15 12 ≠ 8 ∧ fld 0x8000 15 12 = 8 := by
  refine ⟨by decide, by decide, by decide, by decide, by decide, by decide +kernel, by decide +kernel, rfl, ?_⟩
  decide +kernel
theorem witness_RoutineStoreLoads : (List.replicate 20 (7 : Byte)).length = 10 * 2 ∧ 1 < 2 ∧ ((0 < 5 ∨ 5 + 2 ≤ 0) ∨ 7 < 5 ∨ 5 + 2 ≤ 7) := by
  decide
/-- A routine runs in multiplier 0 of core 0, and its word's turn it is. -/
def inStore (r : Routine) : State :=
  { t1.setMyCore (t1.myCore.setWm 0 { t1.myCore.wm 0 with run := some r }) with inRoutine := some (0, 0) }
theorem witness_SequencingWords :
    let s := inStore rt0
    s.inRoutine = some (0, 0) ∧ s.running 0 0 = some rt0 ∧ (((rt0.eng 0).val s.me 0).setWidth 32 : BitVec 32) = 0 ∧
    ((({ rt0 with mp := [0, 0, 5] } : Routine).eng 0).val s.me 2).setWidth 32 ≠ (0 : BitVec 32) ∧ rt0.mloops.length < 4 ∧ t1.inRoutine = none ∧
    rhEos (Sparse.get {} s.me.ports 0 : Port).h = false ∧ ({ e0 with aux := -1 } : FmtE).aux.toInt < 0 ∧
    0 ≤ (rt0.rpc : Int) + e0.aux.toInt := by decide +kernel
theorem witness_SequencingWords_depth : (List.replicate 4 (⟨0, 1, 2, 0⟩ : MFrame)).length = 4 := by decide
/-- 11 R355: an outer body that ends with an inner MLOOP of zero runs begins its next run there, and after its last goes on behind. -/
theorem witness_SequencingWords_close :
    closeMloops 1 [(⟨0, 1, 2, 0⟩ : MFrame)] = ([⟨0, 1, 2, 1⟩], 0) ∧ closeMloops 1 [(⟨0, 1, 2, 1⟩ : MFrame)] = ([], 2) := by decide
theorem witness_RoutineLoopRuns : ({ rt0 with mloops := [⟨0, 0, 2, 0⟩] } : Routine).mloops = [⟨rt0.rpc, rt0.rpc, 2, 0⟩] ∧ (2 : BitVec 32) ≠ 0 := by
  decide
theorem witness_RoutineWordsStep :
    let s := inStore { rt0 with wmcfg := cfg3 }
    digitsOk (digitProduct s.myCore 0 .conv false cfg3 0 0 1) (fun _ b => !b) = true ∧
    (match digitProduct digits 0 .conv false cfg3 0 0 1 with | .error _ => true | .ok _ => false) = true := by decide +kernel
theorem witness_SequencerEvents :
    let s := t1.setMyCore (core0.setWm 0 { core0.wm 0 with pend := some rt0 })
    let t := inStore { rt0 with done := true }
    ((s.core 0).wm 0).run = none ∧ ((s.core 0).wm 0).pend = some rt0 ∧ (s.core 0).earlier rt0.own rt0.order = false ∧
    (s.core 0).loading = 0 ∧ t.running 0 0 = some { rt0 with done := true } ∧ rt0.rel = false := by decide +kernel
/-- The word WMAC.OUTER of the routine store. -/
def eOut : FmtE := { e0 with ed := 0x40, mode := 3, ty := 0, sa := 0x180 }
def outerRun : State :=
  let s := ported [] 1
  s.setMyCore ({ s.myCore with store := [(0, (encode (.wmacOuter hd eOut)).getD 0)] }.setWm 0 { core0.wm 0 with run := some rt0 })
theorem witness_SequencerEvents_fetch :
    let t := { outerRun with cur := (0, 0) }
    let p : Port := Sparse.get {} t.me.ports 0
    outerRun.running 0 0 = some rt0 ∧ (match outerRun.routineWord rt0 with | .ok i => i == .wmacOuter hd eOut | .error _ => false) = true ∧
    (match ftEntry (rt0.eng 0) eOut t with
      | some e => decide (e.aBytes ≤ portBytes p.h) && decide (((p.place e.aBytes).2.2 / 128 + p.fetched (p.place e.aBytes).2.1 (p.place e.aBytes).2.2) ≤ ((p.place e.aBytes).2.2 + e.aBytes - 1) / 128) &&
          t.myCore.line (t.regionLine (rhFirst (p.place e.aBytes).2.1 + 0)) == lnFull
      | none => false) = true ∧ rhBound p.h = true ∧ rhEos p.h = false := by decide +kernel

/-! ### Witnesses: system words -/

/-- `t1` with its task at level S. -/
def supervised : State := at_ fun l => { l with level := .s }
theorem witness_CsrWords :
    csrOpen 0 t1.me.level = true ∧ t1.me.enabled hd = true ∧ csrOpen 0x44 t1.me.level = false ∧ csrOpen 0x44 supervised.me.level = true := by
  decide +kernel
theorem witness_CsrReads : t1.me.level = .t ∧ supervised.me.level = .s ∧ (at_ fun l => { l with level := .f }).me.level = .f := by
  decide +kernel
theorem witness_CsrWrites : t1.me.level = .t ∧ supervised.me.level ≠ .t ∧ supervised.me.level ≠ .f ∧
    (at_ fun l => { l with level := .f }).me.level = .f := by decide +kernel
theorem witness_SystemWords :
    supervised.me.level = .s ∧ supervised.me.enabled hd = true ∧ (at_ fun l => { l with level := .f }).me.enabled hd = true ∧
    t1.me.level = .t := by decide +kernel
theorem witness_DroppedTranslations : identityEntry ∈ (t1.core 0).tlb ∧ identityEntry.part ≠ 1 := by decide +kernel
/-- A handler at level S of a kernel with a small header; s1 is a frame's address, s3 one that no table maps. -/
def smallHdr : Header := { fullHeader with ns := 8, nq := 0, nv := 0, nvq := 0, nw := 0, nacc := 0, nta := 0, nrh := 0, scratch := 128 }
def framed : State :=
  mapped.setMe { slot0 with level := .s, id := { taskOf with hdr := smallHdr }, files := { s := [(1, 0x8000), (2, 5), (3, 0x10000000)] } }
def ctxOk (x : Option (List Seg × State)) (p : List Seg → State → Bool) : Bool := match x with | some (g, s) => p g s | none => false
theorem witness_ContextWords :
    let n := (buildFrame framed 0 0).2
    framed.me.level ≠ .t ∧ framed.me.enabled hd = true ∧ (readSpec framed.me 2).toNat % 256 ≠ 0 ∧ (readSpec framed.me 1).toNat % 256 = 0 ∧
    (readSpec framed.me 3).toNat % 256 = 0 ∧ (framed.ctxAccess .store 0x10000000 n 16).isNone = true ∧
    (framed.ctxAccess .load 0x10000000 4096 16).isNone = true ∧ ctxOk (framed.ctxAccess .store 0x8000 n 16) (fun _ _ => true) = true ∧
    framed.walkFree (coreDie framed.cur.1) = true := by
  decide +kernel
/-- The die runs 128 walks, and the frame's page is in no TLB. -/
theorem witness_ContextWords_walk :
    let s := framed.setMyCore { framed.myCore with tlb := [] }
    let t := s.setDie 0 { s.die 0 with misses := List.replicate 128 ⟨0, 1, 0, 0, 0, 0⟩ }
    t.walkFree (coreDie t.cur.1) = false ∧ t.me.level ≠ .t ∧
    (match resolve t (t.myAgent 0) .store 0x8000 4096 with | .walk _ _ => true | _ => false) = true ∧
    (match resolve t (t.myAgent 0) .load 0x8000 4096 with | .walk _ _ => true | _ => false) = true := by decide +kernel
/-- `framed` with the head of a frame of CONTROL and SCALAR alone at 0x8000. -/
def saved : State :=
  { framed with hbm := Memory.write framed.hbm 0x8000 ([1, 0, 3, 0] ++ bytesOfNat 4 (frameSize 3) ++ List.replicate 10 0 ++ [1]) }
theorem witness_ContextWords_restore :
    ctxOk (saved.ctxAccess .load 0x8000 4096 16) (fun g t => !g.any (segPoison t) &&
      (let head := Memory.write [] 0 (readOwns t g).1
       checkFrame head saved.me.id == none && checkFrame head { saved.me.id with kernel := 0x20000 } == some .mismatch &&
       ctxOk (saved.ctxAccess .load 0x8000 (frameSize (getF head 2 2)) 16) fun g t => !g.any (segPoison t) &&
        (let body := Memory.write [] 0 (readOwns t g).1
         checkFrame body saved.me.id == none && checkFrame body { saved.me.id with kernel := 0x20000 } == some .mismatch))) = true := by
  decide +kernel
/-- A frame that is poisoned, one that is none, and one whose task waits at an address that is no multiple of 8, or not at all. -/
theorem witness_ContextWords_refused :
    let bad := { saved with hbmPoison := [0x8000 / 64] }
    let head (k : Byte) (a : Nat) := Memory.write (Memory.write [] 0x1F [k]) 0x58 (bytesOfNat 8 a)
    ctxOk (bad.ctxAccess .load 0x8000 4096 16) (fun g t => g.any (segPoison t)) = true ∧
    ctxOk (framed.ctxAccess .load 0x8000 4096 16) (fun g t => !g.any (segPoison t) &&
      checkFrame (Memory.write [] 0 (readOwns t g).1) framed.me.id == some .bad) = true ∧
    (framed.waitPlace (head 1 4)).isNone = true ∧ (framed.waitPlace (head 0 0)).isSome = true := by decide +kernel
def walk0 : Machine.Walk := ⟨0x4000, false, false, false, 0, 0⟩
/-- A frame whose WIDE part has a routine in WM 0's sequencer finds that WM free, or taken by one that runs. -/
theorem witness_ContextWords_routines :
    let head := bytesOfNat 2 1 ++ bytesOfNat 2 0x13
    let m := Memory.write (Memory.write [] 0 head) (sectionAt 0x13 4 + 5840) [1]
    frameRoutine m 0 ≠ 0 ∧ frameRoutine m 1 = 0 ∧ core0.wmFree 0 = true ∧
    (core0.setWm 0 { core0.wm 0 with run := some rt0 }).wmFree 0 = false := by decide +kernel
/-- A word of the group waits for a walk. -/
def walking (a : Word) : State :=
  let s := mapped.setMe { slot0 with walk := some { walk0 with addr := a } }
  s.setMyCore { s.myCore with tlb := [] }
theorem witness_PageWalks :
    let acc : Acc := { rd := true, wr := false, atom := false, fetch := false }
    let q (a : Word) := (walking a).setSlot 0 0 { (walking a).slot 0 0 with walk := none }
    ((walking 0x4000).slot 0 0).walk = some walk0 ∧ (walking 0x4000).walkRuns 0 0 walk0 = true ∧ inPod 0x4000 = false ∧ walk0.fetch = false ∧
    (match walkInstall (q 0x4000) ((walking 0x4000).agent 0 0 0) 0x4000 acc with
      | .ok _ s => (s.slot 0 0).grp == some grp0 | _ => false) = true ∧
    (match walkInstall (q 0x10000000) ((walking 0x10000000).agent 0 0 0) 0x10000000 acc with | .absent _ _ => true | _ => false) = true ∧
    ((walking 0x10000000).slot 0 0).atCtx = false ∧ ((walking 0x10000000).slot 0 0).group.defer = [] ∧
    (({ slot0 with grp := some { grp0 with words := [(encode (.ctxSave hdT ⟨5, 1, 0, 0, 0, 0, 0⟩)).getD 0] } } : Slot).atCtx) = true := by
  decide +kernel

/-! ### Witnesses: approximable regions -/

def region0 : RSlot :=
  { part := 0, kernel := 0x10000, region := 0, state := 1, bpc := 0, epc := 4, nin := 1, nout := 1, hid := 0, inreg := [2], outreg := [3],
    batch := 1, lr := 4, samp := 4, thresh := 0x3F800000, weights := [], buffer := [], window := [], exec := 1, subst := 0, ctxs := [0],
    table := [], gen := 0 }
/-- Block 0 holds region 0 of the task's kernel; the sample of it is open. -/
def regioned (r : RSlot) (mode : BitVec 7) : State :=
  let s := t1.setMe { slot0 with apx := some ⟨0, [5], 0⟩, csr := { slot0.csr with apxregion := mode } }
  s.setBlock 0 { s.block 0 with eqx := [(0, r)] }
theorem witness_RegionBegins :
    let s := regioned { region0 with state := 3 } 0
    s.me.enabled hd = true ∧ apxOpen s.me = false ∧ (s.rslotOf 0).map (·.2) = some { region0 with state := 3 } ∧ region0.state ≠ 3 ∧
    ((regionVals s.me [2]).any (fun v => !eqxFinite v) || decide ((1 : BitVec 32).toNat % 2 ^ (4 : BitVec 4).toNat = 0)) = false := by
  decide +kernel
theorem witness_RegionWords :
    let open_ := regioned region0 0x10
    let sampled := regioned { region0 with state := 3 } 0x30
    t1.rslotOf 0 = none ∧ apxOpen t1.me = false ∧ apxOpen open_.me = true ∧ apxNo open_.me = 0 ∧ apxMode open_.me = 0 ∧
    (open_.rslotOf 0).map (·.2) = some region0 ∧ open_.me.apx = some ⟨0, [5], 0⟩ ∧ apxOpen sampled.me = true ∧ apxMode sampled.me = 1 ∧
    apxNo (regioned region0 0x11).me ≠ 0 := by decide +kernel
theorem witness_RecordedPairs :
    (([0x7F800000] ++ [0] : List (BitVec 32)).any (fun v => !eqxFinite v)) = true ∧
    (([0x3F800000] ++ [0] : List (BitVec 32)).any (fun v => !eqxFinite v)) = false ∧ 64 ≤ (List.replicate 64 ([0], [0]) : List (List (BitVec 32) × List (BitVec 32))).length := by
  decide +kernel
theorem witness_BatchUpdates :
    let r := { region0 with state := 2, buffer := List.replicate 4 ([5], [5]) }
    Sparse.find ((regioned r 0).block 0).eqx 0 = some r ∧ r.batchSize ≤ r.buffer.length := by decide +kernel

/-! ### Witnesses: March, launches, Spring and Fall -/

/-- A descriptor of one task of the kernel at 0x1000. -/
def descBytes (records : Nat) : List Byte :=
  [1, 0, 0, 0, 0, 1, 1, 0, 1, 0, 0, 0, 1, 0, 0, 0] ++ bytesOfNat 8 0x1000 ++ List.replicate 32 0 ++ bytesOfNat 8 0x8000 ++ bytesOfNat 8 records ++
  List.replicate 56 0
def intake0 : Intake := { part := 0, addr := 0x3000, ctx := 0, core := none, host := none, cpl := 0, tag := 0, flags := 0, vec := 0 }
def submitted (bs : List Byte) (i : Intake) : State :=
  { mapped with hbm := Memory.write mapped.hbm 0x3000 bs, intake := [i], dies := [(0, { regs := [(0, { ovfSet := true, monovfcnt := 512 })] })] }
theorem witness_LaunchIntake :
    let s := submitted (descBytes 1) intake0
    s.intake = [intake0] ∧ s.fw.boot = 6 ∧ s.descriptor intake0 = some (descBytes 1) ∧ s.descriptor { intake0 with addr := 0x10000000 } = none ∧
    intake0.addr.toNat % 128 = 0 ∧ ({ intake0 with addr := 0x3001 } : Intake).addr.toNat % 128 ≠ 0 ∧
    (match s.checkLaunch 0 (descBytes 0) with | .error c => c == 4 | .ok _ => false) = true ∧
    (match s.checkLaunch 0 (descBytes 1) with
      | .ok h => (s.makeLaunch intake0 (descBytes 1) h).isSome
      | .error _ => false) = true := by decide +kernel
theorem witness_LaunchChecks :
    descOk (List.replicate 128 0) = false ∧
    (match (submitted (descBytes 1) intake0).checkLaunch 0 (descBytes 1) with | .ok _ => true | .error _ => false) = true := by decide +kernel
theorem witness_LaunchCompletes :
    let s := { t1 with launches := [{ launchOf with live := 0 }] }
    s.launches.find? (fun x => x.handle = 0 && !x.completed) = some { launchOf with live := 0 } ∧ s.sf = [] := by decide +kernel
theorem witness_DispatchDecisions :
    let r := { rec0 with st := .ready }
    let s := withRec r
    let none_ := { withRec r with launches := [] }
    s.workOrder 0 = [⟨r, false⟩] ∧ (s.die 0).reserve = none ∧ (s.die 0).decided ≤ s.cycle ∧
    s.cycle < ((s.setDie 0 { s.die 0 with decided := 1 }).die 0).decided ∧ (s.tryWork 0 ⟨r, false⟩).isSome = true ∧
    none_.workOrder 0 = [⟨r, false⟩] ∧ (none_.tryWork 0 ⟨r, false⟩).isSome = false := by decide +kernel
theorem witness_WorkOrder :
    let a : Work := ⟨{ rec0 with prio := 9 }, false⟩
    let b : Work := ⟨{ rec0 with prio := 5, addr := 0x2100 }, false⟩
    let c : Work := ⟨{ rec0 with addr := 0x2200 }, false⟩
    t1.before a b = true ∧ t1.before b c = true ∧ a.lead.addr ≠ b.lead.addr := by decide +kernel
theorem witness_ReadyRecords :
    let r := { rec0 with st := .ready, inSram := false }
    let s := withRec r
    ((((s.die 0).recs.filter fun r => r.st = .ready).filter fun r => !r.inSram).map fun r => (⟨r, false⟩ : Work)).foldr s.insertWork [] = [⟨r, false⟩] ∧
    (((s.die 0).recs.filter fun r => r.st = .ready).filter fun r => r.inSram).length < 65536 := by decide +kernel
theorem witness_ReadyRecords_aging :
    let r := { rec0 with st := .ready }
    let s := { withRec r with cycle := 2 ^ 20 }
    (s.die 0).recs.find? (fun r => r.seq = 1) = some r ∧ r.arrival < s.arrivedAt r := by decide +kernel
theorem witness_MarchCommands :
    let r := { rec0 with st := .running, place := some (0, 0) }
    let p := { rec0 with st := .parked }
    (withRec r).reaches 0 0 = true ∧ (withRec r).reaches 2 0 = false ∧ (withRec r).host.owner ≠ fnPort 0 + 1 ∧
    ((withRec r).setOwner 1).host.owner = fnPort 0 + 1 ∧
    ((withRec p).updMarch 0 0 fun x => { x with resume := 0x2000 }).taskRecordHeld 0 0x2000 = false ∧
    ((withRec r).updMarch 0 0 fun x => { x with preempt := 0x2000 }).dieRec 0 0 0x2000 = some r ∧
    ((withRec r).updMarch 0 0 fun x => { x with preempt := 0x2000 }).coresident r.part r.handle r.member = false ∧
    ((withRec p).updMarch 0 0 fun x => { x with resume := 0x2000 }).dieRec 0 0 0x2000 = some p := by decide +kernel
/-- A RUNNING task of a small kernel, its pre-emption window at an end; die 0 has a cell for its frame. -/
def expired (landed : Bool) (nbar : Nat) : State :=
  let r := { rec0 with st := .running, place := some (0, 0), member := true }
  let s := (withRec r).setDie 0 { (withRec r).die 0 with regs := [(0, { framebase := 1, framecnt := 1, pwin := 0 })] }
  let l : Slot := { slot0 with id := { taskOf with hdr := { smallHdr with nbar := nbar }, seq := 1 }, grp := none, files := {},
                               pre := some { counting := true, landed := landed } }
  { s.setMe l with launches := [{ launchOf with hdr := { smallHdr with nbar := nbar } }] }
theorem witness_PreemptionEnds :
    let s := expired false 0
    (s.slot 0 0).pre = some { counting := true, landed := false } ∧ (s.slot 0 0).level = .t ∧ (s.slot 0 0).grp = none ∧
    (s.slot 0 0).st = .running ∧ ((s.die (coreDie 0)).march (s.slot 0 0).id.part).pwin.toNat ≤ ({ counting := true } : PreReq).now s.cycle ∧
    s.coresident (s.slot 0 0).id.part (s.slot 0 0).id.handle (s.slot 0 0).id.member = false ∧ s.settled 0 0 = true ∧
    (s.moveOut 0 0 .ready).isSome = true := by decide +kernel
/-- A load from a peer chip is in flight. -/
theorem witness_PreemptionEnds_loads :
    let s := expired false 0
    (s.setSlot 0 0 ((s.slot 0 0).setBankOf .t { (s.slot 0 0).tb with tags := [(1, [⟨.s 5, .remote 0 false, 0⟩])] })).settled 0 0 = false := by
  decide +kernel
theorem witness_PreemptionEnds_gang :
    let s := expired true 1
    (match (s.die 0).recs.find? fun r => r.member && r.handle = 0 && (s.gangOf r.part r.handle r.coord).1 = 0 && r.place.isSome with
      | some r =>
        let seats := s.gangSeats 0 r
        (seats.any fun x => (s.slot x.2.1 x.2.2).pre.isSome) &&
        (seats.all fun x => (s.slot x.2.1 x.2.2).level = .t && (x.1.st = .waiting || x.1.st = .parked ||
          (s.slot x.2.1 x.2.2).pre.any fun p => p.landed)) &&
        s.coresident r.part r.handle r.member &&
        (seats.foldl (fun o x => o.bind fun s => s.memberOut 0 x.1 x.2.1 x.2.2) (some s)).isSome
      | none => false) = true := by decide +kernel
theorem witness_FirstContext : rec0.cont = false := rfl
/-- Stack 0's record 0, bound to core 0: two lines between the stream at its region and memory at 0. -/
def sf0 (kind : Byte) : SfRec :=
  { bytes := [kind, 0, 0, 1, 0, 1, 2, 0] ++ List.replicate 24 0 ++ bytesOfNat 4 256 ++ bytesOfNat 4 1 ++ bytesOfNat 4 1 ++ List.replicate 20 0,
    part := 0, bound := some (0, 0, 0), pos := 0, poison := false, ended := false }
def streaming (kind : Byte) (x : BitVec 2) : State :=
  let s := { t1 with sf := [(0, sf0 kind)] }
  let s := s.setMyCore { s.myCore with lines := if x = 0 then [] else [(0, x), (1, x)] }
  s.setDie 0 { s.die 0 with l2tlb := [identityEntry] }
theorem witness_SpringFills :
    let s := streaming 1 0
    let r := sf0 1
    Sparse.find s.sf (256 * 0 + 0) = some r ∧ r.bound = some (0, 0, 0) ∧ r.runs = true ∧ r.kind = 1 ∧ r.pos < r.total ∧
    (s.core 0).line (0 / 128) = lnEmpty ∧
    (match sfRuns (r.agent s 0 0) .load 0 r 129 r.pos 128 s with | .ok _ _ => true | _ => false) = true := by decide +kernel
theorem witness_FallDrains :
    let s := streaming 2 1
    let r := sf0 2
    Sparse.find s.sf (256 * 0 + 0) = some r ∧ r.bound = some (0, 0, 0) ∧ r.runs = true ∧ r.kind = 2 ∧ r.pos < r.total ∧
    ((s.core 0).slotStates 0 (r.f 4 1 + 1)).any (· == lnEmpty) = false ∧
    (match slotRuns (r.agent s 0 0) 0 r (r.f 4 1 + 1) r.pos s with | .ok _ => true | .error _ => false) = true := by decide +kernel

/-! ### Witnesses: links and pod time -/

def link0 : Link := { lanes := [0, 1], rxLanes := [0, 1], up := true, rxKeys := [(0, ⟨1, 2, 3⟩)], txKeys := [(0, ⟨1, 2, 3⟩)] }
def linked (l : Link) : State := t1.setLink 0 l
def flit0 : Flit := { hdr := 0, payload := List.replicate 236 0, tag := 0 }
theorem witness_FlitsReceived :
    ((linked link0).link 0).up = true ∧ ((linked link0).link 0).retraining = false ∧ ((linked link0).link 0).fenced = false ∧
    flitSeq flit0 = ((linked link0).link 0).rxNext ∧ flitSeq { flit0 with hdr := 0xFFFFFFFF } ≠ ((linked link0).link 0).rxNext ∧
    Sparse.find ((linked link0).link 0).rxKeys (if flitK flit0 then 1 else 0) = some ⟨1, 2, 3⟩ := by decide +kernel
/-- A flit with the tag that its key gives, and one with another. -/
theorem witness_FlitsReceived_tags : ∀ b : KeyBank, b = ⟨1, 2, 3⟩ → ∃ x y : Flit,
    (flitSeq x = 0 ∧ Config.gcmTag b.key b.salt b.ctr x.hdr (Config.gcmStream b.key b.salt b.ctr x.payload) = x.tag) ∧
    flitSeq y = 0 ∧ Config.gcmTag b.key b.salt b.ctr y.hdr (Config.gcmStream b.key b.salt b.ctr y.payload) ≠ y.tag := by
  rintro b -
  let t := Config.gcmTag b.key b.salt b.ctr 0 (Config.gcmStream b.key b.salt b.ctr flit0.payload)
  have h : flitSeq flit0 = 0 := by decide +kernel
  refine ⟨{ flit0 with tag := t }, { flit0 with tag := t + 1 }, ⟨h, rfl⟩, h, ?_⟩
  show t ≠ t + 1
  exact fun h => absurd h (by simp)
theorem witness_LinkRecovery :
    let l := { link0 with retraining := true }
    (linked l).link 0 = l ∧ l.fenced = false ∧ l.lanes.contains 1 = true ∧ l.rxLanes.contains 1 = true ∧ (linked link0).link 0 = link0 ∧
    link0.retraining = false ∧ (linked l).attemptOver l = false ∧ ({ linked l with cycle := 1701 } : State).attemptOver l = true ∧
    ({ linked l with cycle := 1700 } : State).attemptOver l = false := by decide +kernel
theorem witness_LinkRecovery_lanes :
    let l := { link0 with retraining := true, ports := [0, 1] }
    l.lanes ≠ [] ∧ l.ports.Nodup ∧ l.remain l.ports l.lanes [3, 0, 1] = [0, 1] ∧ l.remain l.ports l.rxLanes [3, 2] = [] := by decide +kernel
/-- Bytes of a stream on the working lanes 0, 1 and 3 of two ports (20 R507, the example). -/
theorem test_striping :
    let l : Link := { ports := [0, 1], lanes := Link.physical { ports := [0, 1] } [3, 1, 0] }
    [0, 1, 2, 255, 256, 257, 258, 767, 768].map l.place =
      [(0, 0), (1, 0), (3, 0), (0, 85), (1, 85), (3, 85), (0, 86), (3, 255), (0, 256)] := by decide +kernel
/-- Local ports 3j to 3j + 2 of a chip lead to the j-th other member of its group (20 R502). -/
theorem test_local_links :
    memberIndex 33 32 = some 0 ∧ memberIndex 33 34 = some 1 ∧ memberIndex 33 63 = some 30 ∧ memberIndex 33 64 = none ∧
    localLeads [3, 4, 5] = [1] ∧ localLeads [64, 65] = [16] ∧ bondable [3, 4, 109] = true ∧ bondable [2, 3] = false ∧
    bondable [48, 49] = true ∧ bondable [47, 48] = false := by decide +kernel
theorem witness_Rekeying : ((linked link0).link 0).rxKeys.length ≠ 2 ∧ ((linked link0).link 0).oldLast = none ∧
    ((linked link0).link 0).keyDone = none ∧ ((linked link0).link 0).ctrl.any (fun x => x.1 = ctlKeydone) = false ∧
    (Sparse.find (linked link0).fab.links 0).isSome = true ∧ (linked link0).fw.boot = 6 ∧ ((linked link0).spdmOf 0).session = false ∧
    (({ linked link0 with fw := { (linked link0).fw with spdm := [(0, { session := true })] } } : State).spdmOf 0).session = true := by
  decide +kernel
/-- A trained chip whose parent link is link 0, with port 0; 65,536 ns after its last exchange, and one less. -/
def child (t : Word) (l : Link) : State :=
  let s := linked { l with ports := [0] }
  { s with fab := { s.fab with trained := true, podTime := t } }
theorem witness_TimeSync :
    (child 65536 link0).fab.timeCtl.getLsbD 17 = false ∧ (child 65536 link0).parentDown = false ∧ (child 65536 link0).parentLink = some 0 ∧
    (child 65536 link0).fab.syncAt + 65536 ≤ (child 65536 link0).podNow.toNat ∧
    (child 65535 link0).podNow.toNat < (child 65535 link0).fab.syncAt + 65536 ∧ (child 65535 link0).fab.trained = true ∧
    (child 0 { link0 with up := false }).parentDown = true ∧ (child 0 { link0 with up := false }).fab.downAt = none := by decide +kernel

/-! ### Witnesses: the host -/

theorem witness_Semaphore : t1.host.owner = 0 ∧ (1 : Word).toNat % 4 = 0 + 1 ∧ (2 : Word).toNat % 4 = 1 + 1 ∧ (t1.setOwner 1).host.owner = 0 + 1 ∧
    (t1.setOwner 2).host.owner ≠ 0 + 1 ∧ (t1.setOwner 2).host.owner ≠ 0 := by decide +kernel
/-- Port 0 holds the semaphore. -/
def owned : State := t1.setOwner 1
theorem witness_ControlPlane :
    let s := owned.setExt 3 { owned.ext 3 with state := 1 }
    owned.host.owner = fnPort 0 + 1 ∧ owned.reaches 0 0 = true ∧ owned.reaches 2 0 = false ∧ (s.ext 3).state = 1 ∧ (owned.ext 3).state ≠ 1 ∧
    writerPort owned 0 .jobBase = some 0 ∧ writerPort owned 2 .jobBase = none ∧ writerPort owned 0 (.march 0 0 0) = some 0 ∧
    writerPort owned 1 (.qcfg 0 0) = none ∧ t1.host.owner ≠ 0 + 1 := by
  decide +kernel
theorem witness_FaultQueue :
    let p := { t1.part 0 with fltqBase := 0x3004, held := [⟨[1]⟩] }
    (t1.part 0).held = [] ∧ p.held = ⟨[1]⟩ :: [] ∧ faultSlots p = some 16 ∧ (p.tail - p.head).toNat ≠ 16 ∧
    ((({ p with tail := 16 } : Partition).tail - p.head).toNat = 16) := by decide +kernel
def qpkt (op : BitVec 8) : ReqPacket := ⟨true, some 0, op, 0, 0, 0, 0, 0, 0, 0⟩
/-- Interface 0 enabled for partition 0, with PASID 0 in context 0. -/
def enabledQ (q : List ReqPacket) : State := t1.setQif 0 { qcfg := 0x10, pasid := [(0, 0x40000000)], queue := q }
theorem witness_RequestPackets :
    qifEnable ((enabledQ []).qif (8 * 0 + 0)) = true ∧ ((enabledQ []).part (qifPart ((enabledQ []).qif 0))).tdi ≠ TdiState.error ∧
    packetCheck ((enabledQ []).qif 0) (qpkt 4) = none ∧ packetCheck ((enabledQ []).qif 0) { qpkt 4 with whole := false } = some 3 ∧
    qifEnable (t1.qif 0) = false := by decide +kernel
theorem witness_PacketEffects :
    let s := enabledQ [{ qpkt 3 with arg0 := 8 }]
    ((enabledQ [qpkt 4]).qif 0).queue = [qpkt 4] ∧ ((enabledQ [qpkt 4]).qif 0).busy = false ∧ (s.flagaddLoc (qifPart (s.qif 0)) 0xFFFFFFFFFF).isNone = true := by
  decide +kernel
theorem witness_CompletionRecords :
    let p := { qpkt 4 with cpl := 0x1000 }
    ((enabledQ [p]).qif 0).queue = [p] ∧ p.cpl ≠ 0 ∧ p.cpl.toNat % 16 = 0 ∧ ((enabledQ [p]).part (qifPart ((enabledQ [p]).qif 0))).tdi ≠ TdiState.error ∧
    (enabledQ [p]).dmaPage 0 0 1 = some 1 ∧ p.flags.getLsbD 0 = false ∧ ({ p with flags := 1 } : ReqPacket).flags.getLsbD 0 = true ∧
    (({ enabledQ [p] with host := { (enabledQ [p]).host with noXlate := [(0, 0, 1)] } } : State).dmaPage 0 0 1).isNone = true := by
  decide +kernel
theorem witness_FlagWindowAccess : ∃ h k p, Sparse.find t1.parts 0 = some p ∧ h = Config.flagHost 0 ∧ k ≠ Config.flagHost 0 :=
  ⟨_, Config.flagHost 0 + 1, _, rfl, rfl, Nat.succ_ne_self _⟩
theorem witness_FlagWindowAccess_recall :
    let p := { t1.part 0 with flagHost := [2, 3], flagMod := [3] }
    let s := t1.setPart 0 p
    Sparse.find s.parts 0 = some p ∧ p.flagHost.contains 2 = true ∧ p.flagMod.contains 2 = false ∧ p.flagMod.contains 3 = true ∧
    (lines64 64 8).all (fun l => !p.flagHost.contains l && !p.flagMod.contains l) = true := by decide +kernel
def extended (e : Extent) : State := t1.setExt 3 e
/-- An ACTIVE extent of hosts 0 and 1; line 5 modified by host 1.  Unit 3 is partition 0's in `granted`. -/
def granted (e : Extent) : State := (t1.setPart 0 { t1.part 0 with units := [0, 3] }).setExt 3 e
def ext0 : Extent := { state := 1, hosts := 3, dir := [(5, .modified 1)] }
theorem witness_ExtentAccess :
    let s := extended ext0
    let e := s.ext 3
    e.state = 1 ∧ e.hosts.getLsbD 0 = true ∧ s.fw.unitFenced.contains 3 = false ∧ e.hosts.getLsbD 7 = false ∧ e.mode ≠ 1 ∧
    Sparse.find e.pins 0 = none ∧ blockers (Sparse.find e.dir 4) 0 .read = [] ∧ blockers (Sparse.find e.dir 5) 0 .read ≠ [] ∧
    s.unitOwner 3 ≠ some e.part ∧ (granted ext0).unitOwner 3 = some e.part ∧ (granted ext0).ext 3 = ext0 := by decide +kernel
theorem witness_ExtentAccess_pinned :
    let e := (extended { ext0 with mode := 1, pins := [(0, 2)] }).ext 3
    e.state = 1 ∧ e.hosts.getLsbD 0 = true ∧ e.mode = 1 ∧ Sparse.find e.pins 0 = some 2 := by decide +kernel
theorem witness_DirectoryBlocks : (1 : Nat) ≠ 0 := by decide
theorem witness_ExtentEvents :
    let e := { ext0 with mode := 1 }
    (extended e).ext 3 = e ∧ e.state = 1 ∧ e.mode = 1 ∧ e.hosts.getLsbD 0 = true ∧ Sparse.find e.pins 0 = none ∧ e.pinWait = [] ∧
    e.modified = true ∧ ({ e with dir := [(5, .shared [1])] } : Extent).modified = false ∧
    Sparse.find { e with pins := [(0, 2)] }.pins 0 = some 2 := by decide +kernel
theorem witness_ExtentEvents_recall :
    let e := { ext0 with recalls := [⟨5, [1], some (0, .read), 0⟩] }
    let s := { extended e with cycle := 10 ^ 9 }
    e.recalls.any (fun r => r.line = 5 && r.from_.contains 1) = true ∧ Sparse.find e.dir 5 = some (.modified 1) ∧ s.ext 3 = e ∧
    ((s.setExt 3 { e with dir := dropHolder e.dir 5 1, recalls := [⟨5, [], some (0, .read), 0⟩] }).snapFull (extLine 3 5) 64) = false ∧
    e.recalls.any (fun r => r.line = 5 && !r.from_.isEmpty && s.elapsed r.since e.recallUs 100) = true := by decide +kernel
theorem witness_ExtentEvents_drain :
    let e := { ext0 with state := 2 }
    let s := { extended e with cycle := 10 ^ 9 }
    s.ext 3 = e ∧ e.state = 2 ∧ s.elapsed e.revokedAt e.drainUs 1000 = true ∧ e.recalls = [] ∧
    e.dir.any (fun d => !(holders (some d.2)).isEmpty) = true ∧
    ({ e with dir := [(5, .lost)] } : Extent).dir.any (fun d => !(holders (some d.2)).isEmpty) = false ∧
    ((extended { e with state := 3 }).ext 3).state = 3 := by decide +kernel

/-! ### Witnesses: firmware -/

def assign0 : AssignReq := ⟨1, 2, [5], [0], [0], 0, 0, 0, true⟩
theorem witness_FirmwareRequests :
    let s := owned
    s.host.owner = 0 + 1 ∧ s.fw.boot = 6 ∧ s.nameable 0 = true ∧ s.allFree (namedUnits 2 [5]) = true ∧
    ([5].all fun x => decide (x < 1024)) = true ∧
    ((namedUnits 1 [0]).all fun u => s.ownerOf u = some 0 && !s.fw.leaving.any fun x => x.1 = u) = true ∧
    (s.fw.leaving.any fun x => x.1 = .core 3) = false ∧ s.isFenced (.core 3) = false ∧
    (s.setFence true (.core 3)).isFenced (.core 3) = true ∧ (s.setFence true (.core 3)).host.owner = 0 + 1 ∧ s.fw.kept = [] ∧
    (s.fence (.core 3)).fw.kept.contains (.core 3) = true := by decide +kernel
/-- What firmware refuses: a partition that does not exist, resources that are not free or not the partition's, a unit beyond the last, a
policy and an image without shape. -/
theorem witness_FirmwareRequests_refused :
    let s := owned
    s.assignOk { assign0 with reservedZero := false } = false ∧ s.nameable 5 = false ∧ s.allFree (namedUnits 1 [0]) = false ∧
    ([1024].all fun x => decide (x < 1024)) = false ∧ s.policyOk 0 ⟨false, 0, 0, 0, [], []⟩ = false ∧
    imageOk 0 ⟨0, 1, 3, true, 0, [1], []⟩ = false ∧
    ((namedUnits 2 []).all fun u => s.ownerOf u = some 0 && !s.fw.leaving.any fun x => x.1 = u) = false := by decide +kernel
theorem witness_FirmwareRequests_serving :
    let x : Serving := { part := 0, units := [.block 0] }
    let s := { owned with fw := { owned.fw with serving := some x, leaving := [(.block 0, true)] } }
    owned.fw.serving = none ∧ s.fw.serving ≠ none ∧ s.host.owner = 0 + 1 ∧ s.fw.boot = 6 ∧ s.busyWith x = true ∧ owned.busyWith x = false := by
  decide +kernel
theorem witness_NewPartition :
    assign0.reservedZero = true ∧ assign0.part < 8 ∧ Sparse.find owned.parts assign0.part = none ∧
    owned.allFree (namedUnits assign0.blocks assign0.units) = true ∧ assign0.units.all (fun u => decide (u < 1024)) = true ∧
    owned.assignOk assign0 = true := by decide +kernel
theorem witness_InterfaceStates :
    t1.interface 0 = true ∧ (t1.part 0).tdi = .unlocked ∧
    ((t1.setPart 0 { t1.part 0 with tdi := .locked }).part 0).tdi = .locked ∧
    (t1.setPart 0 { t1.part 0 with tdi := .locked }).interface 0 = true ∧ t1.ideStreams 0 < 8 ∧
    (let s := { t1 with parts := (List.range 9).map fun i => (i, { tdi := if i = 0 then .unlocked else .locked }) }
     s.interface 0 = true ∧ (s.part 0).tdi = .unlocked ∧ 8 ≤ s.ideStreams (s.part 0).port) := by decide +kernel
theorem witness_FrozenConfiguration :
    let s := t1.setPart 0 { t1.part 0 with tables := [(0x4000, 32)] }
    (t1.part 0).tdi = .unlocked ∧ ((t1.setPart 0 { t1.part 0 with tdi := .run }).part 0).tdi ≠ .unlocked ∧
    s.frozenBy 0x401F [1] = [0] ∧ s.frozenBy 0x4020 [1] = [] ∧ s.frozenBy 0x401F [0] = [] := by
  decide +kernel
theorem witness_AttestationMessages :
    let s := { t1 with fw := { t1.fw with spdm := [(0, { version := true, caps := true, algs := true, keyed := true, session := true })] } }
    let x : Spdm := Sparse.get {} s.fw.spdm 0
    s.fw.boot = 6 ∧ x.version = true ∧ x.caps = true ∧ x.algs = true ∧ x.keyed = true ∧ x.session = true := by
  decide +kernel
theorem witness_ClockGovernor : 3600 < 3601 ∧ 3599 < 3600 ∧ 104 < 105 ∧ 115 < 116 ∧
    ({ t1 with fw := { t1.fw with shutdown := true } } : State).fw.shutdown = true ∧ t1.resetNext = false ∧
    ({ t1 with agenda := [.event .resetDev] } : State).resetNext = true ∧ max 425 (425 - 25) = 425 ∧ min 850 (850 + 25) = 850 := by decide +kernel
def image0 : FwImage := ⟨0x57464E4B, 1, 3, true, 0, [1], []⟩
theorem witness_ResetAndBoot : t1.fw.shutdown = false ∧ t1.fw.flash = none ∧ image0.raiseMin = true ∧
    ({ t1 with fw := { t1.fw with flash := some image0 } } : State).fw.flash = some image0 ∧
    ({ t1 with fw := { t1.fw with waitsImage := true } } : State).fw.waitsImage = true := by decide +kernel

/-! ### Values that the manual works out -/

/-- What an instruction has in flight after it. -/
def results (i : Instr) (s : State) : List (Nat × Nat) :=
  match exec i s with
  | .next t => t.me.bank.inflight.map fun x => (x.val.toNat, x.flags.toNat)
  | _ => []
def scalars (x : List (Nat × Word)) : State := at_ fun l => { l with files := { s := x } }

/-- What s5 holds after an instruction whose result lands in its own cycle. -/
def s5After (i : Instr) (s : State) : Option Word :=
  match exec i s with
  | .next t => some (t.me.rdS .t 5)
  | _ => none
/-- 07's example: add.i32 widens by sign and add.n32 by zero. -/
theorem test_add_wraps :
    s5After (.add hd (.ri ⟨5, 6, 1, 0, 0⟩)) (scalars [(6, 0x000000017FFFFFFF)]) = some 0xFFFFFFFF80000000 ∧
    s5After (.add hd (.ri ⟨5, 6, 1, 2, 0⟩)) (scalars [(6, 0x000000017FFFFFFF)]) = some 0x0000000080000000 := by decide +kernel
/-- 07's example: the field 0xBC at position 4, widened by sign. -/
theorem test_bfx_field :
    s5After (.bitsBfx hd ⟨5, 6, 0, 7, 0, 1, 0⟩) (scalars [(6, 0xABCD), (7, 0x804)]) = some 0xFFFFFFFFFFFFFFBC := by decide +kernel
/-- 07's example: MOVHI puts its immediate above the low half. -/
theorem test_movhi_high :
    s5After (.movhi hd ⟨5, 5, 0x01234567, 1, 0⟩) (scalars [(5, 0x89ABCDEF)]) = some 0x0123456789ABCDEF := by decide +kernel
/-- 07's example: −5.5 toward zero gives −5 with NX, 2^32 gives the bound with NV; the flags stand as FPC's [9:5] does. -/
theorem test_fcvt_f32_to_i32 :
    (results (.fcvt hd ⟨4, 5, 0, 0, 0, 0, 0x54⟩) (scalars [(5, 0xC0B00000)])).map (·.1) = [0xFFFFFFFFFFFFFFFB] ∧
    (results (.fcvt hd ⟨4, 5, 0, 0, 0, 0, 0x54⟩) (scalars [(5, 0x4F800000)])).map (·.1) = [0x7FFFFFFF] := by decide +kernel
/-- 08's example: four sums of bytes, clamped and not. -/
theorem test_vadd_i8 :
    let s := at_ fun l => (l.wrV 5 2 0x7F800102).wrV 5 3 0x01FF0101
    results (.vadd hd ⟨1, 2, 3, 0, 0x20, 10, 1⟩) s = [(0x7F800203, 0)] ∧
    results (.vadd hd ⟨1, 2, 3, 0, 0x20, 10, 0⟩) s = [(0x807F0203, 0)] := by decide +kernel
/-- 08's example: the mixing function with key 3. -/
theorem test_vrng_mixes : [0, 1, 2, 3, 600].map (fun x => rngMix x 3) = [418, 310, 198, 90, 283] := by decide +kernel
/-- The block of 04's example: −11, 7, 9, 5, −10, 3 and 0.5. -/
def block0 : Vec := 0x3F00000040400000C120000040A000004110000040E00000C1300000
/-- 08's example: the block packed to hf4 with a computed scale, and what it unpacks to. -/
theorem test_hf4_pack :
    (results (.vcvtBsPack hd ⟨6, 2, 0, 0, 3, 4, 73⟩) (at_ fun l => l.wrV 0 2 block0)).map (·.1) = [0x0038466F, 0x3680] := by decide +kernel
theorem test_hf4_unpack :
    ((results (.vcvtBsUnpack hd ⟨7, 6, 0, 0, 3, 4, 9⟩) (at_ fun l => (l.wrV 0 6 0x0038466F).wrV 1 6 0x3680)).map (·.1)) =
      [0x40400000C1200000408000004100000041000000C1400000, 0] := by decide +kernel
/-- 04's example: a bf16 group of 1, −1 and −2^−41 sums to −2^−40. -/
theorem test_bf16_group :
    let p : TileP := { prods := [(.fin false 1 0, 0), (.fin true 1 0, 0), (.fin true 1 (-41), -41)], trunc := true }
    (Tile.closeElem { p := [(0, p)] } 0 0).1.s = [(0, 0xAB800000)] := by decide +kernel
/-- 10's example: the digits of CONV and CORR for a = (3, −2, 1, 4) and b = (2, 1, −1, 5). -/
theorem test_digits :
    (List.range 8).map (digitOf .conv [3, -2, 1, 4] [2, 1, -1, 5]) = [6, -1, -3, 26, -7, 1, 20, 0] ∧
    (List.range 7).map (digitOf .corr [3, -2, 1, 4] [2, 1, -1, 5]) = [15, -13, 10, 23, -7, 6, 8] := by decide +kernel
/-- 10's example: every element −8 with F = 9 overflows in digit 3 first, and saturates it to 255. -/
theorem test_guard_overflow :
    let c := (core0.setW 0 (List.replicate 4 0xFF8)).setW 1 (List.replicate 4 0xFF8)
    let cfg : BitVec 32 := 0x01830014
    (match digitProduct c 0 .conv false cfg 0 0 1 with | .error (c, i) => c == .guardOverflow && i == 3 | .ok _ => false) = true ∧
    digitsOk (digitProduct c 0 .conv false (cfg ||| 0x800) 0 0 1) (fun c b => b && c.lane48 0 3 == 255 && c.lane48 0 2 == 192 &&
      (c.wm 0).gdig == 3) = true ∧
    digitsOk (digitProduct c 0 .conv false (cfg + 0x10) 0 0 1) (fun c b => !b && c.lane48 0 3 == 256) = true := by decide +kernel
/-- 03's example: index 0xB of a ring at 0x4000 with n = 3 and L = 4 addresses slot 3, at 0x4600. -/
theorem test_ring_slot :
    let h : Word := 0x0000000B008030C1
    rhSlot h = 3 ∧ rhFirst h * 128 = 0x4600 ∧ rhSlot 0xFFFFFFFF008030C1 = 7 ∧ rhSlot (rhNext 0xFFFFFFFF008030C1) = 0 := by decide +kernel
/-- 02's example: a task of PRIO 40 that has waited 5,000,000 cycles. -/
theorem test_priority_ages : ({ t1 with cycle := 5000000 } : State).effPrio { rec0 with prio := 40 } = 44 := by decide +kernel

/-! P7 of 16: the fit of y = 2·x0 + x1 + 0.5 in five batches (Table 16-8), and its substitution (Table 16-9). -/

def fitPairs : List (List (BitVec 32) × List (BitVec 32)) :=
  [([0x40000000, 0x40000000], [0x40D00000]), ([0x40000000, 0xC0000000], [0x40200000]), ([0xC0000000, 0x40000000], [0xBFC00000]), ([0xC0000000, 0xC0000000], [0xC0B00000])]
def fit0 : RSlot := { region0 with nin := 2, lr := 3, samp := 2, state := 1, inreg := [10, 11], outreg := [12] }
def fitted : Nat → RSlot
  | 0 => fit0
  | n + 1 => ({ fitted n with buffer := fitPairs } : RSlot).train
theorem test_fit_batches :
    [1, 2, 3, 4, 5].map (fun n => ((fitted n).weights, (fitted n).mean, (fitted n).state)) =
    [([(0, 0x3D800000), (1, 0x3F800000), (2, 0x3F000000)], 0x00000000, 2),
     ([(0, 0x3DF00000), (1, 0x3FC00000), (2, 0x3F400000)], 0x00000000, 2),
     ([(0, 0x3E290000), (1, 0x3FE00000), (2, 0x3F600000)], 0x00000000, 2),
     ([(0, 0x3E53E000), (1, 0x3FF00000), (2, 0x3F700000)], 0x3FF15C00, 2),
     ([(0, 0x3E796400), (1, 0x3FF80000), (2, 0x3F780000)], 0x3F781900, 3)] := by decide +kernel
theorem test_fit_substitutes :
    (fitted 5).net [0x40000000, 0xC0000000] = [0x400B9640] ∧ (fitted 5).net [0xC0000000, 0x40000000] = [0xBFD8D380] ∧
    (fitted 5).net [0x41800000, 0xC1000000] = [0x41BBF2C8] := by decide +kernel
theorem test_fit_falls_back :
    let r := (fitted 5).compare [0x40000000, 0x40000000] [0x40D00000]
    (r.mean, r.state) = (0x3F483370, 3) ∧
    (r.compare [0x41800000, 0xC1000000] [0x41C40000]).state = 1 ∧ (r.compare [0x41800000, 0xC1000000] [0x41C40000]).weights = (fitted 5).weights ∧
    (r.compare [0x41800000, 0xC1000000] [0x41C40000]).mean = 0 := by decide +kernel

/-! Steps: an instruction placed at the pc runs. -/

/-- An ADD of the immediate 1 to s6, which is zero after reset. -/
theorem test_step_runs_add :
    ((encode (.add hd (.ri ⟨5, 6, 1, 0, 0⟩))).map fun w =>
      match step (State.reset.withFetchWord 80 w.toNat) with
      | .next t => t.me.rdS .t 5
      | _ => 0) = some 1 := by decide +kernel
/-- RFT at level S returns to level T, and MRET in the routine store ends its routine. -/
theorem test_step_runs_rft_mret :
    (match step (State.reset.withFetchWord 80 0xF5000000000000000000) with | .next t => decide (t.me.level = .t) | _ => false) = true ∧
    ((encode (.mret hd ⟨0, 0, 0, 0, 2, 0, 0, 0, 0, 0, 0⟩)).map fun w =>
      match step (State.reset.withFetchWord 80 w.toNat) with
      | .next t => (t.running 0 0).isNone && t.me.csr.heldRoutine.isNone
      | _ => false) = some true := by decide +kernel

end Tests
end Sys2Proof
end

section
/-! SUPPORT. What a byte reads at each kind of place, and the frame of what writes bytes: the places that a write to a run of plain
memory, a write to HBM or a DIRTY mark may change, and that it leaves the cores and the clock alone. -/

namespace Sys2Proof
namespace Machine
open Safety

/-! ### The byte at a place -/

@[simp] theorem byteAt_scr (s : State) (c o : Nat) : byteAt s (.scr c o) = Memory.byte (s.core c).scr o := rfl
@[simp] theorem byteAt_sync (s : State) (d o : Nat) : byteAt s (.sync d o) = Memory.byte (s.die d).sync o := rfl
@[simp] theorem byteAt_flag (s : State) (p o : Nat) : byteAt s (.flag p o) = Memory.byte (s.part p).flagRam o := rfl
@[simp] theorem byteAt_hbm (s : State) (a : Nat) : byteAt s (.hbm a) = Memory.byte s.hbm a := rfl
@[simp] theorem byteAt_ext (s : State) (a : Nat) : byteAt s (.ext a) = Memory.byte s.hbm a := rfl
@[simp] theorem byteAt_host (s : State) (a : Nat) : byteAt s (.host a) = s.hostByte a (Memory.byte s.host.mem a) := rfl

/-- A byte of a block's counters: counter o / 8 holds it, lowest byte first (03 R84). -/
def Block.ctrByte (b : Block) (o : Nat) : Byte := (Sparse.get 0 b.ctr (o / 8) >>> (8 * (o % 8))).setWidth 8

@[simp] theorem byteAt_ctr (s : State) (b o : Nat) : byteAt s (.ctr b o) = (s.block b).ctrByte o := by
  apply BitVec.eq_of_toNat_eq
  simp [byteAt, readSeg, ctrBytes, Block.ctrByte]

/-- Two places lie in one run only where they name bytes of one space. -/
theorem inRun_iff {l : Loc} {g : Seg} : inRun l g = true ↔
    (locKey l).1 = (locKey g.loc).1 ∧ (locKey g.loc).2 ≤ (locKey l).2 ∧ (locKey l).2 < (locKey g.loc).2 + g.len := by
  simp only [inRun, Bool.and_eq_true, decide_eq_true_eq, and_assoc]

/-! ### Frames -/

/-- From `s` to `t` the bytes at places that `p` picks may change, and of the cores the scratchpads and the TLBs; no other byte, nothing
else of a core, and not the clock. -/
structure Within (p : Loc → Prop) (s t : State) : Prop where
  bytes : ∀ l, ¬ p l → byteAt t l = byteAt s l
  cores : ∀ c, t.core c = { s.core c with scr := (t.core c).scr, tlb := (t.core c).tlb }
  cycle : t.cycle = s.cycle

theorem Within.slot {p : Loc → Prop} {s t : State} (h : Within p s t) (c k : Nat) : t.slot c k = s.slot c k := by
  rw [State.slot, h.cores c]; rfl

theorem Within.refl (p : Loc → Prop) (s : State) : Within p s s := ⟨fun _ _ => rfl, fun _ => rfl, rfl⟩

theorem Within.trans {p : Loc → Prop} {s t u : State} (h : Within p s t) (h' : Within p t u) : Within p s u where
  bytes l hl := (h'.bytes l hl).trans (h.bytes l hl)
  cores c := by rw [h'.cores c, h.cores c]
  cycle := h'.cycle.trans h.cycle

theorem Within.mono {p q : Loc → Prop} {s t : State} (h : Within p s t) (hpq : ∀ l, p l → q l) : Within q s t :=
  ⟨fun l hl => h.bytes l fun hp => hl (hpq l hp), h.cores, h.cycle⟩

/-- A fold of steps that stay within a set of places stays within it. -/
theorem Within.foldl {α : Type} {p : Loc → Prop} {f : State → α → State} (xs : List α) (hf : ∀ t, ∀ x ∈ xs, Within p t (f t x))
    (s : State) : Within p s (xs.foldl f s) :=
  List.foldlRecOn (motive := Within p s) xs f (.refl p s) fun t ht x hx => ht.trans (hf t x hx)

/-! ### Writes to HBM -/

theorem wrHbm_cores (s : State) (a : Nat) (bs : List Byte) : (s.wrHbm a bs).cores = s.cores := by
  unfold State.wrHbm; split <;> rfl
theorem wrHbm_dies (s : State) (a : Nat) (bs : List Byte) : (s.wrHbm a bs).dies = s.dies := by
  unfold State.wrHbm; split <;> rfl
theorem wrHbm_parts (s : State) (a : Nat) (bs : List Byte) : (s.wrHbm a bs).parts = s.parts := by
  unfold State.wrHbm; split <;> rfl
theorem wrHbm_host (s : State) (a : Nat) (bs : List Byte) : (s.wrHbm a bs).host = s.host := by
  unfold State.wrHbm; split <;> rfl
theorem wrHbm_cycle (s : State) (a : Nat) (bs : List Byte) : (s.wrHbm a bs).cycle = s.cycle := by
  unfold State.wrHbm; split <;> rfl
theorem wrHbm_cur (s : State) (a : Nat) (bs : List Byte) : (s.wrHbm a bs).cur = s.cur := by
  unfold State.wrHbm; split <;> rfl
theorem wrHbm_hbm (s : State) (a : Nat) (bs : List Byte) : (s.wrHbm a bs).hbm = Memory.write s.hbm a bs := by
  unfold State.wrHbm; split <;> rfl

/-- What a map of a record's values leaves of each of them, it leaves of the value that a key reads. -/
theorem Sparse.proj_get_map {β γ : Type} (d : β) (π : β → γ) (f : Nat × β → Nat × β) (hk : ∀ x, (f x).1 = x.1)
    (hp : ∀ x, π (f x).2 = π x.2) (m : SMap β) (a : Nat) : π (Sparse.get d (m.map f) a) = π (Sparse.get d m a) := by
  induction m with
  | nil => rfl
  | cons c r ih =>
    simp only [List.map_cons, Sparse.get, hk]
    split
    · exact hp c
    · exact ih

/-- A write to a region's code makes the region invalid and leaves the counters of its block. -/
theorem touchCode_ctr (s : State) (host : Bool) (a n b : Nat) : ((touchCode s host a n).block b).ctr = (s.block b).ctr := by
  simp only [State.block, touchCode]
  refine Sparse.proj_get_map {} Block.ctr _ ?_ ?_ s.blocks b
  · exact fun _ => rfl
  · exact fun _ => rfl

theorem wrHbm_ctr (s : State) (a : Nat) (bs : List Byte) (b : Nat) : ((s.wrHbm a bs).block b).ctr = (s.block b).ctr := by
  unfold State.wrHbm
  split
  · rfl
  · exact touchCode_ctr s false a bs.length b

theorem wrHbm_within (s : State) (a : Nat) (bs : List Byte) :
    Within (fun l => inRun l ⟨.hbm a, bs.length⟩ = true) s (s.wrHbm a bs) where
  bytes l hl := by
    have hbm (x : Nat) (hx : ¬ (a ≤ x ∧ x < a + bs.length)) : Memory.byte (s.wrHbm a bs).hbm x = Memory.byte s.hbm x := by
      rw [wrHbm_hbm, Memory.byte_write, if_neg hx]
    cases l with
    | hbm x => exact hbm x (by simpa [inRun_iff, locKey] using hl)
    | ext x => exact hbm x (by simpa [inRun_iff, locKey] using hl)
    | scr c o => simp only [byteAt_scr, State.core, wrHbm_cores]
    | sync d o => simp only [byteAt_sync, State.die, wrHbm_dies]
    | flag p o => simp only [byteAt_flag, State.part, wrHbm_parts]
    | ctr b o => simp only [byteAt_ctr, Block.ctrByte, wrHbm_ctr]
    | host x => simp only [byteAt_host, State.hostByte, wrHbm_host]
    | oor | denied | peer => rfl
  cores c := by simp only [State.core, wrHbm_cores]
  cycle := wrHbm_cycle s a bs

/-! ### Writes to partitions, dies, blocks and cores -/

/-- An update of a partition changes bytes of its flag window only. -/
theorem setPart_within (s : State) (i : Nat) (x : Partition) {p : Loc → Prop}
    (h : ∀ o, ¬ p (.flag i o) → Memory.byte x.flagRam o = Memory.byte (s.part i).flagRam o) : Within p s (s.setPart i x) where
  bytes l hl := by
    cases l with
    | flag j o =>
      rw [byteAt_flag, State.part_setPart]
      split
      · subst_vars; exact h o hl
      · rfl
    | _ => rfl
  cores _ := rfl
  cycle := rfl

/-- An update of a die changes bytes of its sync memory only. -/
theorem setDie_within (s : State) (d : Nat) (x : Die) {p : Loc → Prop}
    (h : ∀ o, ¬ p (.sync d o) → Memory.byte x.sync o = Memory.byte (s.die d).sync o) : Within p s (s.setDie d x) where
  bytes l hl := by
    cases l with
    | sync e o =>
      rw [byteAt_sync, State.die_setDie]
      split
      · subst_vars; exact h o hl
      · rfl
    | _ => rfl
  cores _ := rfl
  cycle := rfl

/-- An update of a block changes bytes of its counters only. -/
theorem setBlock_within (s : State) (b : Nat) (x : Block) {p : Loc → Prop}
    (h : ∀ o, ¬ p (.ctr b o) → x.ctrByte o = (s.block b).ctrByte o) : Within p s (s.setBlock b x) where
  bytes l hl := by
    cases l with
    | ctr e o =>
      rw [byteAt_ctr, State.block_setBlock]
      split
      · subst_vars; exact (h o hl).trans (byteAt_ctr s _ o).symm
      · exact (byteAt_ctr s e o).symm
    | _ => rfl
  cores _ := rfl
  cycle := rfl

/-- An update of a core's scratchpad and TLB changes bytes of its scratchpad only. -/
theorem setCore_within (s : State) (c : Nat) (x : Core) {p : Loc → Prop}
    (hx : x = { s.core c with scr := x.scr, tlb := x.tlb })
    (h : ∀ o, ¬ p (.scr c o) → Memory.byte x.scr o = Memory.byte (s.core c).scr o) : Within p s (s.setCore c x) where
  bytes l hl := by
    cases l with
    | scr e o =>
      rw [byteAt_scr, State.core_setCore]
      split
      · subst_vars; exact h o hl
      · rfl
    | _ => rfl
  cores e := by
    rw [State.core_setCore]
    split
    · subst_vars; exact hx
    · rfl
  cycle := rfl

/-! ### Writes to runs -/

/-- A byte put into a block counter leaves every other byte of the counters. -/
theorem ctrByte_setCtrByte_ne (b : Block) (i o : Nat) (x : Byte) (h : o ≠ i) : (setCtrByte b i x).ctrByte o = b.ctrByte o := by
  rw [Block.ctrByte, setCtrByte, Sparse.get_set]
  split
  next he =>
    ext j hj
    have hin : 8 * (o % 8) + j < 64 := by omega
    have hout : 8 * (o % 8) + j < 8 * (i % 8) ∨ 8 ≤ 8 * (o % 8) + j - 8 * (i % 8) := by omega
    have hmask {m : Nat} (hm : 8 ≤ m) : BitVec.getLsbD (0xFF : Word) m = false := by
      rw [BitVec.ofNat_eq_ofNat, BitVec.getLsbD_ofNat, Nat.testBit_lt_two_pow, Bool.and_false]
      exact Nat.lt_of_lt_of_le (by decide) (Nat.pow_le_pow_right Nat.two_pos hm)
    simp only [Block.ctrByte, ← he, BitVec.getElem_setWidth, BitVec.getLsbD_ushiftRight, BitVec.getLsbD_or, BitVec.getLsbD_and,
      BitVec.getLsbD_not, BitVec.getLsbD_shiftLeft, BitVec.getLsbD_setWidth]
    rcases hout with hout | hout
    · simp [hin, hout]
    · simp only [hmask hout, BitVec.getLsbD_of_ge x _ hout, hin, decide_true, Bool.and_false, Bool.not_false, Bool.and_self, Bool.and_true,
        Bool.or_false]
  · rfl

/-- A write to a run of plain memory changes no byte outside the run, nothing else of a core, and not the clock. -/
theorem writeSeg_within (s : State) (g : Seg) (bs : List Byte) (hg : plainSeg g = true) (hn : bs.length ≤ g.len) :
    Within (fun l => inRun l g = true) s (writeSeg s g bs) := by
  obtain ⟨loc, n⟩ := g
  have outside {l : Loc} (hl : ¬ inRun l ⟨loc, n⟩ = true) (hs : (locKey l).1 = (locKey loc).1) :
      ¬ ((locKey loc).2 ≤ (locKey l).2 ∧ (locKey l).2 < (locKey loc).2 + bs.length) :=
    fun ⟨hlo, hhi⟩ => hl (inRun_iff.2 ⟨hs, hlo, hhi.trans_le (Nat.add_le_add_left hn _)⟩)
  cases loc with
  | scr c a => exact setCore_within s c _ rfl fun o ho => (Memory.byte_write ..).trans (if_neg (outside ho rfl))
  | sync d a => exact setDie_within s d _ fun o ho => (Memory.byte_write ..).trans (if_neg (outside ho rfl))
  | flag p a => exact setPart_within s p _ fun o ho => (Memory.byte_write ..).trans (if_neg (outside ho rfl))
  | ctr b a =>
    refine setBlock_within s b _ fun o ho => ?_
    have hout : ¬ (a ≤ o ∧ o < a + bs.length) := outside ho rfl
    refine List.foldlRecOn (motive := fun x : Block => x.ctrByte o = (s.block b).ctrByte o) _ _ rfl fun x hx y hy => ?_
    have hy := List.snd_lt_of_mem_zipIdx hy
    exact (ctrByte_setCtrByte_ne x _ o _ (by omega)).trans hx
  | hbm a =>
    simp only [writeSeg, State.wrOpen]
    split
    · exact .refl _ s
    split
    · refine (wrHbm_within s a bs).mono fun l hl => ?_
      rw [inRun_iff] at hl ⊢
      exact ⟨hl.1, hl.2.1, hl.2.2.trans_le (Nat.add_le_add_left hn a)⟩
    · refine .foldl _ (fun t p _ => ?_) s
      exact setPart_within t p _ fun _ _ => rfl
  | oor | denied | ext | host | peer => simp [plainSeg] at hg

theorem writeSegs_within (s : State) (segs : List Seg) (bs : List Byte) (hp : segs.all plainSeg = true) :
    Within (fun l => ∃ g ∈ segs, inRun l g = true) s (writeSegs s segs bs) := by
  induction segs generalizing s bs with
  | nil => exact .refl _ s
  | cons g r ih =>
    rw [List.all_cons, Bool.and_eq_true] at hp
    have first := writeSeg_within s g (bs.take g.len) hp.1 (List.length_take_le _ _)
    exact (first.mono fun l hl => ⟨g, List.mem_cons_self, hl⟩).trans
      ((ih (writeSeg s g (bs.take g.len)) (bs.drop g.len) hp.2).mono fun l ⟨x, hx, hl⟩ => ⟨x, List.mem_cons_of_mem g hx, hl⟩)

end Machine
end Sys2Proof
end

section
/-! SUPPORT. What the translation of a store leaves: it changes the bytes that it marks, of tables' leaves and of lines that come back
from a host, the TLBs, and nothing else that a program reads. -/

namespace Sys2Proof
namespace Machine
open Safety

/-! ### Marks -/

/-- The entries that the slot's core reaches: of its own TLB and of its die's. -/
def State.tlbsHere (s : State) : List TlbEntry := s.myCore.tlb ++ (s.die (coreDie s.cur.1)).l2tlb

/-- A place of HBM is marked by an entry here whose DIRTY is clear and one of whose leaves lies there. -/
theorem markedByte_hbm_iff {s : State} {a : Nat} :
    markedByte s (.hbm a) = true ↔ ∃ e ∈ s.tlbsHere, e.dirty = false ∧ ∃ x ∈ e.leaves, x ≤ a ∧ a < x + 8 := by
  show (s.tlbsHere.any fun e => !e.dirty && e.leaves.any fun x => decide (x ≤ a) && decide (a < x + 8)) = true ↔ _
  simp

/-- Marks only go: where every entry here that is not yet dirty was here before, and every modified line of a flag window was. -/
theorem markedByte_mono {s t : State} (htlb : ∀ e ∈ t.tlbsHere, e.dirty = false → e ∈ s.tlbsHere)
    (hflag : ∀ p, (t.part p).flagMod ⊆ (s.part p).flagMod) (l : Loc) (h : markedByte t l = true) : markedByte s l = true := by
  have hbm (a : Nat) (h : markedByte t (.hbm a) = true) : markedByte s (.hbm a) = true := by
    rw [markedByte_hbm_iff] at h ⊢
    obtain ⟨e, he, hd, hx⟩ := h
    exact ⟨e, htlb e he hd, hd, hx⟩
  cases l with
  | hbm a => exact hbm a h
  | ext a => exact hbm a h
  | flag p o => exact List.contains_iff_mem.2 (hflag p (List.contains_iff_mem.1 h))
  | oor | denied | scr | sync | ctr | host | peer => exact h

/-- A translation of a store: it changes marked bytes only, of the cores scratchpads and TLBs at most, and marks no more than was
marked. -/
structure Translates (s t : State) : Prop where
  within : Within (fun l => markedByte s l = true) s t
  cur : t.cur = s.cur
  marks : ∀ l, markedByte t l = true → markedByte s l = true

theorem Translates.refl (s : State) : Translates s s := ⟨.refl _ s, rfl, fun _ h => h⟩

theorem Translates.trans {s t u : State} (h : Translates s t) (h' : Translates t u) : Translates s u :=
  ⟨h.within.trans (h'.within.mono h.marks), h'.cur.trans h.cur, fun l hl => h.marks l (h'.marks l hl)⟩

/-! ### DIRTY -/

/-- A mark in tables from `s` to `t`: bytes at places that `p` picks may change; cores, dies, partitions and who issues stay. -/
structure LeafMarked (p : Loc → Prop) (s t : State) : Prop where
  within : Within p s t
  cores : t.cores = s.cores
  dies : t.dies = s.dies
  parts : t.parts = s.parts
  cur : t.cur = s.cur

/-- A bit set in an entry's leaves changes the low 8 bytes of each of them only. -/
theorem setLeafBit_marked (s : State) (e : TlbEntry) (bit : Nat) :
    LeafMarked (fun l => ∃ a ∈ e.leaves, inRun l ⟨.hbm a, 8⟩ = true) s (setLeafBit s e bit) := by
  refine List.foldlRecOn (motive := LeafMarked _ s) _ _ ⟨.refl _ s, rfl, rfl, rfl, rfl⟩ fun t ht a ha => ?_
  split
  · exact ht
  · have hw := wrHbm_within t a (bytesOfNat 8 (t.rdHbm a 8 ||| bit))
    rw [bytesOfNat_length] at hw
    exact ⟨ht.within.trans (hw.mono fun l hl => ⟨a, ha, hl⟩), (wrHbm_cores ..).trans ht.cores, (wrHbm_dies ..).trans ht.dies,
      (wrHbm_parts ..).trans ht.parts, (wrHbm_cur ..).trans ht.cur⟩

/-- The leaves of an entry here whose DIRTY is clear are marked. -/
theorem markedByte_of_leaf {s : State} {e : TlbEntry} (he : e ∈ s.tlbsHere) (hd : e.dirty = false) {l : Loc}
    (hl : ∃ a ∈ e.leaves, inRun l ⟨.hbm a, 8⟩ = true) : markedByte s l = true := by
  obtain ⟨a, ha, hl⟩ := hl
  rw [inRun_iff] at hl
  obtain ⟨hspace, hlo, hhi⟩ := hl
  cases l with
  | hbm x => exact markedByte_hbm_iff.2 ⟨e, he, hd, a, ha, hlo, hhi⟩
  | ext x => exact markedByte_hbm_iff.2 ⟨e, he, hd, a, ha, hlo, hhi⟩
  | oor | denied | scr | sync | flag | ctr | host | peer => simp only [locKey] at hspace; omega

theorem mem_tlbPut {size : Nat} {tlb : List TlbEntry} {e x : TlbEntry} (h : x ∈ tlbPut size tlb e) : x = e ∨ x ∈ tlb := by
  rcases List.mem_cons.1 (List.mem_of_mem_take h) with h | h
  · exact .inl h
  · exact .inr (List.mem_of_mem_filter h)

/-- An entry put into the TLBs of the core and its die, and nothing else, adds no mark where the entry is dirty. -/
theorem tlbPut_translates (s : State) (e : TlbEntry) (he : e.dirty = true) :
    let d := coreDie s.cur.1
    let t := s.setDie d { s.die d with l2tlb := tlbPut 4096 (s.die d).l2tlb e }
    Translates s (t.setCore s.cur.1 { t.core s.cur.1 with tlb := tlbPut 64 (t.core s.cur.1).tlb e }) := by
  intro d t
  have hdie : Within (fun l => markedByte s l = true) s t := setDie_within s d _ fun _ _ => rfl
  refine ⟨hdie.trans (setCore_within t _ _ rfl fun _ _ => rfl), rfl, markedByte_mono (fun x hx hd => ?_) fun _ => List.Subset.refl _⟩
  have hne : x ≠ e := fun h => by rw [h, he] at hd; exact Bool.noConfusion hd
  have hx : x ∈ tlbPut 64 s.myCore.tlb e ++ tlbPut 4096 (s.die d).l2tlb e := by
    simpa [State.tlbsHere, State.myCore, t, d] using hx
  rw [State.tlbsHere, List.mem_append]
  exact (List.mem_append.1 hx).imp (fun h => (mem_tlbPut h).resolve_left hne) fun h => (mem_tlbPut h).resolve_left hne

/-- A bit set in the leaves of an entry here whose DIRTY is clear changes marked bytes only. -/
theorem setLeafBit_translates {s : State} {e : TlbEntry} (he : e ∈ s.tlbsHere) (hd : e.dirty = false) (bit : Nat) :
    Translates s (setLeafBit s e bit) := by
  have hm := setLeafBit_marked s e bit
  refine ⟨hm.within.mono fun l hl => markedByte_of_leaf he hd hl, hm.cur, markedByte_mono (fun x hx _ => ?_) fun p => ?_⟩
  · simpa only [State.tlbsHere, State.myCore, State.core, State.die, hm.cores, hm.dies, hm.cur] using hx
  · simp only [State.part, hm.parts, List.Subset.refl]

/-- The first write of the slot that issues through an entry changes the entry's leaves and the TLBs only. -/
theorem markDirty_translates {s t : State} {g : Agent} {e e' : TlbEntry} (hg : g.core = s.cur.1) (hw : g.engine = 0)
    (he : e ∈ s.tlbsHere) (h : markDirty s g e = (some e', t)) : Translates s t := by
  cases hd : e.dirty with
  | true =>
    simp only [markDirty, hd, if_true] at h
    cases h
    exact .refl s
  | false =>
    have hsu := setLeafBit_translates he hd 0x400
    rw [← hsu.cur] at hg
    simp only [markDirty, hd, hg, hw, Bool.false_eq_true, if_false, if_true] at h
    split at h
    next => cases h
    next =>
      cases h
      exact hsu.trans (tlbPut_translates _ _ rfl)

/-! ### Translation and recalls -/

theorem tlbFind_mem {tlb : List TlbEntry} {part ctx v : Nat} {e : TlbEntry} (h : tlbFind tlb part ctx v = some e) : e ∈ tlb :=
  List.mem_of_find?_eq_some h

/-- A core word's store is translated through an entry of the core's TLB or its die's, which it marks DIRTY. -/
theorem xlate_ok_entry {s t : State} {g : Agent} {k : Acc} {v : Nat} {e' : TlbEntry} (hg : g.core = s.cur.1) (hw : g.engine = 0)
    (hk : k.wr = true) (h : xlate s g k v = .ok e' t) : ∃ e ∈ s.tlbsHere, markDirty s g e = (some e', t) := by
  simp only [xlate, hw, hk, hg, if_true] at h
  split at h
  next e u hfirst =>
    split at hfirst
    next hit =>
      split at hfirst
      next => cases hfirst
      next =>
        cases hfirst
        split at h
        next hd =>
          cases h
          refine ⟨e, List.mem_append.2 ?_, hd⟩
          split at hit
          next hl => cases hit; exact .inl (tlbFind_mem hl)
          next => exact .inr (tlbFind_mem hit)
        next => cases h
    next => cases hfirst
  next hno => exact absurd h (hno _ _)

theorem xlate_translates {s t : State} {g : Agent} {k : Acc} {v : Nat} {e : TlbEntry} (hg : g.core = s.cur.1) (hw : g.engine = 0)
    (hk : k.wr = true) (h : xlate s g k v = .ok e t) : Translates s t := by
  obtain ⟨x, hx, hd⟩ := xlate_ok_entry hg hw hk h
  exact markDirty_translates hg hw hx hd

/-- Where a translated byte lies is found without a change of the machine, or lies in no memory that the partition reaches. -/
theorem entryLoc_same_or_denied (s : State) (part : Nat) (e : TlbEntry) (v : Nat) :
    (entryLoc s part e v).2 = s ∨ ∃ a, (entryLoc s part e v).1 = .denied a := by
  unfold entryLoc
  simp only
  split
  · split
    · exact .inl rfl
    · exact .inr ⟨_, rfl⟩
  · exact .inl rfl
  · exact .inl rfl
  · split
    · split
      · exact .inl rfl
      · exact .inr ⟨_, rfl⟩
    · exact .inr ⟨_, rfl⟩

theorem entryLoc_of_plain {s : State} {part : Nat} {e : TlbEntry} {v n : Nat} (h : plainSeg ⟨(entryLoc s part e v).1, n⟩ = true) :
    (entryLoc s part e v).2 = s := by
  refine (entryLoc_same_or_denied s part e v).resolve_right fun ⟨a, ha⟩ => ?_
  rw [ha] at h
  cases h

/-- An update of a partition that puts no line of its flag window among the modified, and changes bytes of modified lines only. -/
theorem setPart_translates (s : State) (i : Nat) (x : Partition) (hm : x.flagMod ⊆ (s.part i).flagMod)
    (hb : ∀ o, o / 64 ∉ (s.part i).flagMod → Memory.byte x.flagRam o = Memory.byte (s.part i).flagRam o) :
    Translates s (s.setPart i x) := by
  refine ⟨setPart_within s i x fun o ho => hb o fun h => ho (List.contains_iff_mem.2 h), rfl,
    markedByte_mono (fun _ he _ => he) fun p => ?_⟩
  rw [State.part_setPart]
  split
  · subst_vars; exact hm
  · exact List.Subset.refl _

theorem freeCtr_translates (s : State) (n : Nat) : Translates s { s with freeCtr := n } where
  within := ⟨fun l _ => by cases l <;> rfl, fun _ => rfl, rfl⟩
  cur := rfl
  marks _ h := h

/-- Of a flag window the lines that come back from its host change, which are marked, and no other byte. -/
theorem flagRecall_translates (s : State) (p o n : Nat) (wr : Bool) : Translates s (s.flagRecall p o n wr) := by
  unfold State.flagRecall
  split
  · exact .refl s
  refine List.foldlRecOn (motive := Translates s) _ _ (.refl s) fun t ht l _ => ht.trans ?_
  have away : (t.part p).flagMod.filter (· ≠ l) ⊆ (t.part p).flagMod := List.filter_subset_self _
  simp only
  split
  next hl =>
    refine (freeCtr_translates t (t.freeCtr + 8)).trans (setPart_translates _ p _ away fun o ho => ?_)
    have hne : l ≠ o / 64 := fun h => ho (h ▸ List.contains_iff_mem.1 hl)
    rw [Memory.byte_write, if_neg]
    · rfl
    · simp only [List.length_flatMap, bytesOfNat_length, List.map_const', List.length_range, List.sum_replicate_nat]
      omega
  next =>
    split
    · exact setPart_translates t p _ away fun _ _ => rfl
    · exact .refl t

/-- The runs of a store of the slot that issues, granule by granule: each translation changes what it marks only. -/
theorem globalSegs_translates {k : Acc} (hk : k.wr = true) {g : Agent} (hw : g.engine = 0) {fuel v n : Nat} {s t : State}
    {segs : List Seg} (hg : g.core = s.cur.1) (hp : segs.all plainSeg = true) (h : globalSegs s g k fuel v n = .ok segs t) :
    Translates s t := by
  induction fuel generalizing v n s segs with
  | zero => cases h; exact .refl _
  | succ fuel ih =>
    rw [globalSegs] at h
    split at h
    next => cases h; exact .refl _
    split at h
    next => cases h
    next => cases h
    next => cases h
    next e u hx =>
      have hsu : Translates s u := xlate_translates hg hw hk hx
      have hgu : g.core = u.cur.1 := by rw [hsu.cur, hg]
      simp only at h
      split at h
      next => cases h
      split at h
      next r w hr =>
        cases h
        rw [List.all_cons, Bool.and_eq_true] at hp
        rw [entryLoc_of_plain hp.1] at hr
        exact hsu.trans (ih hgu hp.2 hr)
      next hno => exact absurd h (hno _ _)

/-- What a store of the slot that issues changes before it writes, where its runs are plain memory. -/
theorem resolve_translates {s t : State} {k : Acc} {g : Agent} {a n : Nat} {segs : List Seg} (hk : k.wr = true) (hw : g.engine = 0)
    (hg : g.core = s.cur.1) (hp : segs.all plainSeg = true) (h : resolve s g k a n = .ok segs t) : Translates s t := by
  unfold resolve at h
  split at h
  next => cases h
  next v _ =>
    split at h
    next segs' u hu =>
      split at h
      next => cases h
      next => cases h; exact globalSegs_translates hk hw hg hp hu
    next hno => exact absurd h (hno _ _)
  next => cases h
  next => cases h; exact flagRecall_translates ..
  next => cases h; exact .refl s
  next => cases h; exact .refl s
  next => cases h; exact .refl s
  next => cases h; exact .refl s

/-- A store that comes to runs of plain memory comes to what the resolution of its address gives: it is no store to the pod window. -/
theorem access_store_resolve {s t : State} {a n align : Nat} {vector : Bool} {segs : List Seg}
    (hp : segs.all plainSeg = true) (h : s.access .store a n align vector = .ok segs t) :
    resolve s (s.myAgent 0) .store a n = .ok segs t := by
  unfold State.access at h
  simp only at h
  split at h
  next => cases h
  split at h
  next => cases h
  next => cases h; cases hp
  next =>
    split at h
    next => cases h
    split at h
    next hr => cases h; exact hr
    next => cases h
  next =>
    split at h
    next hr => cases h; exact hr
    all_goals cases h

/-- The access of a store to plain memory changes no byte that it does not mark, no register and not the clock. -/
theorem access_store_translates {s t : State} {a n align : Nat} {vector : Bool} {segs : List Seg} (hp : segs.all plainSeg = true)
    (h : s.access .store a n align vector = .ok segs t) : Translates s t :=
  resolve_translates rfl rfl rfl hp (access_store_resolve hp h)

end Machine
end Sys2Proof
end

section
/-! Settles the statements on the state after reset and on the stores, gathers and scatters. -/

namespace Sys2Proof
namespace Machine
open Safety

/-! ### Runs of plain memory -/

theorem oorAt_plain {segs : List Seg} (hp : segs.all plainSeg = true) (a : Nat) : oorAt a segs = none := by
  induction segs generalizing a with
  | nil => rfl
  | cons g r ih =>
    rw [List.all_cons, Bool.and_eq_true] at hp
    have hg : g.loc ≠ .oor := fun h => by simp [plainSeg, h] at hp
    rw [oorAt, if_neg hg, ih hp.2]

/-- An access to plain memory is in range. -/
theorem noteRange_plain {segs : List Seg} (hp : segs.all plainSeg = true) (s : State) (a : Nat) : s.noteRange a segs = s := by
  rw [State.noteRange, oorAt_plain hp]

theorem writeOwn_plain {g : Seg} (hp : plainSeg g = true) (s : State) (bs : List Byte) : s.writeOwn g bs = writeSeg s g bs := by
  obtain ⟨loc, n⟩ := g
  cases loc with
  | scr | sync | flag | ctr | hbm => rfl
  | oor | denied | ext | host | peer => cases hp

/-- A task's write to plain memory is performed where the bytes lie. -/
theorem writeOwns_plain {segs : List Seg} (hp : segs.all plainSeg = true) (s : State) (bs : List Byte) :
    s.writeOwns segs bs = writeSegs s segs bs := by
  induction segs generalizing s bs with
  | nil => rfl
  | cons g r ih =>
    rw [List.all_cons, Bool.and_eq_true] at hp
    rw [State.writeOwns, writeSegs, writeOwn_plain hp.1, ih hp.2]

theorem storeBytes_plain {s s' : State} {a n align : Nat} {vector : Bool} {bs : List Byte} {segs : List Seg} (hn : bs.length = n)
    (hp : segs.all plainSeg = true) (h : s.access .store a n align vector = .ok segs s') :
    s.storeBytes a align vector bs = .ok (writeSegs s' segs bs) := by
  subst hn
  simp only [State.storeBytes, h, noteRange_plain hp, writeOwns_plain hp]

/-! ### What the words come to -/

theorem exec_st_plain {h : Hdr} {f : FmtM} {s s' : State} {segs : List Seg} (he : s.me.enabled h = true) (hp : segs.all plainSeg = true)
    (ha : s.access .store (addrM s.me f) (sizeBytes f.size) (sizeBytes f.size) false = .ok segs s') :
    exec (.st h f) s = did (writeSegs s' segs (bytesOfNat (sizeBytes f.size) (readSpec s.me f.x).toNat)) := by
  rw [exec_st, execSt, runPlain_enabled _ _ _ he]
  simp only [storeBytes_plain (bytesOfNat_length _ _) hp ha, ended]

/-- One cluster at SIZE 4, all eight at SIZE 5. -/
theorem vecBytes_length (f : FmtM) (hz : f.size = 4 ∨ f.size = 5) (x : Nat → Nat) :
    ((clusters (vecClusters f)).flatMap fun c => bytesOfNat 64 (x c)).length = sizeBytes f.size := by
  have hone : ∀ i : BitVec 3, (clusters (1 <<< i.toNat)).length = 1 := by decide
  have hall : (clusters 0xFF).length = 8 := by decide
  simp only [List.length_flatMap, bytesOfNat_length, List.map_const', List.sum_replicate_nat]
  rcases hz with hz | hz
  · rw [vecClusters, if_pos hz, hone, hz]; rfl
  · rw [vecClusters, hz, if_neg (by decide), hall]; rfl

theorem exec_stv_plain {h : Hdr} {f : FmtM} {s s' : State} {segs : List Seg} (he : s.me.enabled h = true) (hp : segs.all plainSeg = true)
    (hz : f.size = 4 ∨ f.size = 5) (ha : s.access .store (addrM s.me f) (sizeBytes f.size) 4 true = .ok segs s') :
    exec (.stv h f) s = did (writeSegs s' segs
      ((clusters (vecClusters f)).flatMap fun c => bytesOfNat 64 (readVSpec s.me c f.x).toNat)) := by
  rw [exec_stv, execStv, runPlain_enabled _ _ _ he]
  simp only [storeBytes_plain (vecBytes_length f hz fun c => (readVSpec s.me c f.x).toNat) hp ha, ended]

theorem exec_vgath_checked {h : Hdr} {f : FmtG} {s : State} (he : s.me.enabled h = true) :
    (∀ ps s', gatherCheck .load (2 ^ f.size.toNat) (gatherAddrs s.me f) s [] = .ok (ps, s') →
      exec (.vgath h f) s = did (s'.loadPieces (hdrTag h) (vdstRef f.cmask (xDst f.x)) (f.ord.getLsbD 0) ps)) ∧
    (∀ r, gatherCheck .load (2 ^ f.size.toNat) (gatherAddrs s.me f) s [] = .error r → exec (.vgath h f) s = ended r) := by
  rw [exec_vgath, execVgath, runPlain_enabled _ _ _ he]
  exact ⟨fun ps s' hc => by simp only [hc, ended], fun r hc => by simp only [hc]⟩

theorem exec_vscat_checked {h : Hdr} {f : FmtG} {s : State} (he : s.me.enabled h = true) :
    (∀ ps s', gatherCheck .store (2 ^ f.size.toNat) (gatherAddrs s.me f) s [] = .ok (ps, s') →
      exec (.vscat h f) s = did (ps.foldl (fun t p => (t.noteRange p.addr p.runs).writeOwns p.runs
        (bytesOfNat (2 ^ f.size.toNat) (lane (readVSpec s.me (p.pos / 64) f.x) (p.pos % 64 / 4)).toNat)) s')) ∧
    (∀ r, gatherCheck .store (2 ^ f.size.toNat) (gatherAddrs s.me f) s [] = .error r → exec (.vscat h f) s = ended r) := by
  rw [exec_vscat, execVscat, runPlain_enabled _ _ _ he]
  exact ⟨fun ps s' hc => by simp only [hc, ended], fun r hc => by simp only [hc]⟩

/-! ### What stores leave -/

/-- A check of a scatter's elements keeps the pieces that it has, and its accesses change what they mark only. -/
theorem gatherCheck_store_translates {n : Nat} {xs : List (Nat × Nat × Nat)} {s s' : State} {acc ps : List Piece}
    (hp : (ps.all fun p => p.runs.all plainSeg) = true) (h : gatherCheck .store n xs s acc = .ok (ps, s')) :
    acc ⊆ ps ∧ Translates s s' := by
  induction xs generalizing s acc with
  | nil => cases h; exact ⟨List.Subset.refl _, .refl _⟩
  | cons x r ih =>
    obtain ⟨c, i, a⟩ := x
    rw [gatherCheck] at h
    split at h
    next => cases h
    next => cases h
    next segs u hu =>
      obtain ⟨hsub, ht⟩ := ih h
      have hseg := List.all_eq_true.1 hp _ (hsub (List.mem_append_right _ List.mem_cons_self))
      exact ⟨fun _ hx => hsub (List.mem_append_left _ hx), (access_store_translates hseg hu).trans ht⟩

/-- A translation, then writes to runs: what a store leaves. -/
theorem storeKept_of_writes {s u t : State} {segs : List Seg} (h : Translates s u)
    (h' : Within (fun l => ∃ g ∈ segs, inRun l g = true) u t) : StoreKept s t segs := by
  have hall : Within (fun l => markedByte s l = true ∨ ∃ g ∈ segs, inRun l g = true) s t :=
    (h.within.mono fun _ => .inl).trans (h'.mono fun _ => .inr)
  refine ⟨fun l hout hm => hall.bytes l ?_, hall.slot, hall.cores, hall.cycle⟩
  rintro (hl | ⟨g, hg, hl⟩)
  · rw [hm] at hl; cases hl
  · have := List.all_eq_true.1 hout g hg
    rw [hl] at this; cases this

/-- A scatter's pieces are written in their order, each to its own runs. -/
theorem scatter_within (data : Piece → List Byte) {ps : List Piece} (hp : (ps.all fun p => p.runs.all plainSeg) = true) (s : State) :
    Within (fun l => ∃ g ∈ ps.flatMap fun p => p.runs, inRun l g = true) s
      (ps.foldl (fun t p => (t.noteRange p.addr p.runs).writeOwns p.runs (data p)) s) := by
  refine Within.foldl ps (fun t p hmem => ?_) s
  have hruns := List.all_eq_true.1 hp p hmem
  rw [noteRange_plain hruns, writeOwns_plain hruns]
  exact (writeSegs_within t p.runs (data p) hruns).mono fun l ⟨g, hg, hl⟩ => ⟨g, List.mem_flatMap.2 ⟨p, hmem, hg⟩, hl⟩

/-! ### The statements -/

theorem storeWords_complete : Claims.StoreWords := fun _ _ _ _ _ he hp =>
  ⟨exec_st_plain he hp, exec_stv_plain he hp⟩

theorem storeFrame : Claims.StoreFrame := by
  intro h f g s s' segs ps he
  refine ⟨fun hp ha => ⟨_, exec_st_plain he hp ha, ?_⟩, fun hp hz ha => ⟨_, exec_stv_plain he hp hz ha, ?_⟩,
    fun hp hc => ⟨_, (exec_vscat_checked he).1 ps s' hc, ?_⟩⟩
  · exact storeKept_of_writes (access_store_translates hp ha) (writeSegs_within s' segs _ hp)
  · exact storeKept_of_writes (access_store_translates hp ha) (writeSegs_within s' segs _ hp)
  · exact storeKept_of_writes (gatherCheck_store_translates hp hc).2 (scatter_within _ hp s')

theorem gatherScatterWords : Claims.GatherScatterWords := fun _ _ _ s' ps he =>
  ⟨(exec_vgath_checked he).1 ps s', (exec_vscat_checked he).1 ps s', fun _ _ _ => (exec_vgath_checked he).2 _,
    fun _ _ _ => (exec_vscat_checked he).2 _⟩

theorem byteAt_reset (l : Loc) : byteAt State.reset l = 0 := by
  cases l with
  | ctr b o => rw [byteAt_ctr]; simp [Block.ctrByte, State.block, State.reset, Sparse.get]
  | _ => rfl

end Machine

/-- Settles O8: a place of any kind reads the zero of a fresh record, and the rest is the reset record's fields. -/
theorem resetState : Obligations.ResetState :=
  ⟨Machine.byteAt_reset, fun _ _ => rfl, ⟨rfl, rfl⟩, rfl, rfl, rfl, rfl, rfl, Safety.memoriesWf_reset⟩

/-- Settles O29: a store is a translation, which changes what it marks, and then a write to its runs. -/
theorem storeWords : Obligations.StoreWords :=
  ⟨Machine.storeWords_complete, Machine.storeFrame, Machine.gatherScatterWords⟩

end Sys2Proof
end

section
/-! SUPPORT. How a step comes to the word that runs: the agents beside the slots, the opening of a group of one word, and the next
word of an open group. -/

namespace Sys2Proof
namespace Machine

/-- The booted machine with an empty agenda, no other agent's turn due and a slot that can issue: the step is that slot's. -/
theorem step_issueTurn {s t : State} (hon : s.fw.shutdown = false) (hag : s.agenda = []) (hboot : s.fw.boot = 6)
    (hrun : s.runnable s.cur.1 s.cur.2 = true) (hchore : s.choreDue = true → s.nextChore = none) (ht : issueTurn s = .next t) :
    step s = .next t.after := by
  have hnone : (if s.choreDue then s.nextChore else none) = none := by
    split
    · exact hchore ‹_›
    · rfl
  have hturn : turn s = .next t := by simp only [turn, hag, defaultTurn, hboot, hnone, hrun]; exact ht
  simp [step, hon, hturn]

/-- A slot that has opened its group at a word, which no queue holds, runs it. -/
theorem issueTurn_run {s u t : State} {i : Instr} {ws : List (Nat × Instr)} (ho : s.openSlot = .run i ws u)
    (hq : queueHeld ws s u = false) (ht : exec i (foresee i u) = .next t) : issueTurn s = .next t := by
  simp [issueTurn, issueBy, ho, hq, ht]

/-- Without a pre-emption request nothing freezes. -/
theorem freeze_of_no_request {s : State} (hpre : s.me.pre = none) : s.freeze = none := by
  simp [State.freeze, State.windowOver, hpre]

/-- The group at the PC is one word where the bytes there have S = 1. -/
theorem fetchGroup_single {s : State} {segs : List Seg} {bs : List Byte} (hpc : s.me.pc.toNat < s.me.code.2)
    (hres : resolve s (s.myAgent 0) .exec (s.me.code.1 + BitVec.ofNat 64 (10 * s.me.pc.toNat)).toNat 10 = .ok segs s)
    (hclean : poisonAt s (s.me.code.1 + BitVec.ofNat 64 (10 * s.me.pc.toNat)).toNat segs = none)
    (hbytes : fetched s.me (s.me.code.1 + BitVec.ofNat 64 (10 * s.me.pc.toNat)).toNat
      (s.me.code.1 + BitVec.ofNat 64 (10 * s.me.pc.toNat)).toNat segs s = .ok bs) (hs : (wordOfBytes bs).getLsbD 79 = true) :
    fetchGroup s = .ok [wordOfBytes bs] s := by
  obtain ⟨n, hn⟩ : ∃ n, s.me.code.2 - s.me.pc.toNat = n + 1 := ⟨s.me.code.2 - s.me.pc.toNat - 1, by omega⟩
  simp only [fetchGroup, hn, fetchWords, hres, hclean, hbytes, hs, if_true]

/-- A group of one word that passes its checks and waits for nothing issues. -/
theorem openGroup_single {s : State} {w : IWord} {i : Instr} (hf : fetchGroup s = .ok [w] s)
    (hc : checkGroup s.me [w] s.me.pc = .ok [i]) (htag : s.me.tagStall i = false) (hacq : s.me.acqHeld i = false)
    (hheld : s.wordHeld (0, i) = false) (hloop : s.me.loopDepth i = false) :
    s.openGroup = .run i [(0, i)] (s.issueGroup [w] [i]) := by
  have hrep : repeats [w] [i] = [] := by simp [repeats]
  simp [State.openGroup, hf, hc, hrep, htag, hacq, hheld, hloop, firstBad]

theorem stepRunsFetchedWord : Claims.StepRunsFetchedWord := by
  rintro s t segs bs w i hon hag hboot hrun hchore hpre hwalk hgrp hpc hres hclean hbytes rfl hs - hcheck htag hacq hheld hloop hq ht
  have hopen : s.openSlot = .run i [(0, i)] (s.issueGroup [wordOfBytes bs] [i]) := by
    simp only [State.openSlot, hwalk, hgrp, freeze_of_no_request hpre]
    exact openGroup_single (fetchGroup_single hpc hres hclean hbytes hs) hcheck htag hacq hheld hloop
  exact step_issueTurn hon hag hboot hrun hchore (issueTurn_run hopen hq ht)

theorem stepRunsNextWord : Claims.StepRunsNextWord := by
  intro s t g i hon hag hboot hrun _ hwalk hgrp hchecked hrpt hword hq ht
  have hopen : s.openSlot = .run i [(g.idx, i)] s := by
    simp [State.openSlot, hwalk, hgrp, hchecked, hword, Group.betweenRepeats, hrpt]
  have hchore : s.choreDue = false := by simp [State.choreDue, hgrp]
  exact step_issueTurn hon hag hboot hrun (by simp [hchore]) (issueTurn_run hopen hq ht)

theorem lookAhead : Claims.LookAhead := by
  intro s i
  constructor
  · intro hi
    unfold foresee
    split
    next h f => rw [hi h f rfl]; rfl
    next => rfl
  · unfold foresee
    split
    next h f =>
      split
      · exact ⟨s.trueCode h f, .inl rfl⟩
      · exact ⟨none, .inr rfl⟩
    next => exact ⟨none, .inr rfl⟩

end Machine

/-- Settles O4: the turn is the issuing slot's, its group opens at the fetched word or goes on at the next, and `foresee` sets one
field. -/
theorem stepRunsDecodedWord : Obligations.StepRunsDecodedWord :=
  ⟨Machine.stepRunsFetchedWord, Machine.stepRunsNextWord, Machine.lookAhead⟩

end Sys2Proof
end

section
/-! SUPPORT. The frame of what March and Solstice do to memory: a write of bytes, a recall of a host's copies and the record of a denied
access leave every slot, every die's records and the slot that issues as they are. -/

namespace Sys2Proof
namespace Machine

/-- From `s` to `t` every slot and the choice of the slot that issues are as they were. -/
structure SlotsKept (s t : State) : Prop where
  cur : t.cur = s.cur
  slot : ∀ c k, t.slot c k = s.slot c k

namespace SlotsKept

theorem refl (s : State) : SlotsKept s s := ⟨rfl, fun _ _ => rfl⟩

theorem trans {s t u : State} (h : SlotsKept s t) (h' : SlotsKept t u) : SlotsKept s u :=
  ⟨h'.cur.trans h.cur, fun c k => (h'.slot c k).trans (h.slot c k)⟩

theorem me {s t : State} (h : SlotsKept s t) : t.me = s.me := by rw [State.me, h.cur, h.slot]; rfl

/-- What leaves the cores leaves the slots. -/
theorem of_cores {s t : State} (hcores : t.cores = s.cores) (hcur : t.cur = s.cur) : SlotsKept s t :=
  ⟨hcur, fun c k => by simp only [State.slot, State.core, hcores]⟩

end SlotsKept

/-- From `s` to `t` the slots and the records of the dies are as they were. -/
structure TasksKept (s t : State) : Prop extends SlotsKept s t where
  recs : ∀ d, (t.die d).recs = (s.die d).recs

namespace TasksKept

theorem refl (s : State) : TasksKept s s := ⟨.refl s, fun _ => rfl⟩

theorem trans {s t u : State} (h : TasksKept s t) (h' : TasksKept t u) : TasksKept s u :=
  ⟨h.toSlotsKept.trans h'.toSlotsKept, fun d => (h'.recs d).trans (h.recs d)⟩

/-- What leaves the cores and the dies leaves the tasks. -/
theorem of_eq {s t : State} (hcores : t.cores = s.cores) (hdies : t.dies = s.dies) (hcur : t.cur = s.cur) : TasksKept s t :=
  ⟨.of_cores hcores hcur, fun d => by simp only [State.die, hdies]⟩

theorem foldl {α : Type} {f : State → α → State} (hf : ∀ t x, TasksKept t (f t x)) (xs : List α) (s : State) :
    TasksKept s (xs.foldl f s) :=
  List.foldlRecOn (motive := TasksKept s) xs f (.refl s) fun t ht x _ => ht.trans (hf t x)

theorem setPart (s : State) (i : Nat) (x : Partition) : TasksKept s (s.setPart i x) := of_eq rfl rfl rfl

theorem setBlock (s : State) (b : Nat) (x : Block) : TasksKept s (s.setBlock b x) := of_eq rfl rfl rfl

theorem setCore (s : State) (c : Nat) {x : Core} (hx : x.slots = (s.core c).slots) : TasksKept s (s.setCore c x) where
  cur := rfl
  slot d k := by
    simp only [State.slot, State.core_setCore]
    split
    · subst_vars; rw [hx]
    · rfl
  recs _ := rfl

theorem setDie (s : State) (d : Nat) {x : Die} (hx : x.recs = (s.die d).recs) : TasksKept s (s.setDie d x) where
  cur := rfl
  slot _ _ := rfl
  recs e := by
    rw [State.die_setDie]
    split
    · subst_vars; exact hx
    · rfl

/-! ### Writes -/

theorem wrHbm (s : State) (a : Nat) (bs : List Byte) : TasksKept s (s.wrHbm a bs) :=
  of_eq (wrHbm_cores s a bs) (wrHbm_dies s a bs) (wrHbm_cur s a bs)

theorem wrOpen (s : State) (a : Nat) (bs : List Byte) : TasksKept s (s.wrOpen a bs) := by
  unfold State.wrOpen
  split
  · exact wrHbm s a bs
  · exact foldl (fun t p => setPart t p _) _ s

theorem wrInter (s : State) (part a : Nat) (bs : List Byte) : TasksKept s (s.wrInter part a bs) := by
  unfold State.wrInter
  split
  · exact .refl s
  · split
    · exact wrOpen s _ bs
    · exact .refl s

theorem postHost (s : State) (part task : Option Nat) (a : Nat) (bs : List Byte) (bad : Bool) :
    TasksKept s (s.postHost part task a bs bad) := by
  unfold State.postHost
  split <;> exact of_eq rfl rfl rfl

theorem snapCopy (s : State) (x page : Nat) : TasksKept s (s.snapCopy x page) := by
  unfold State.snapCopy
  simp only
  split
  · split
    · exact .refl s
    · generalize hu : s.wrHbm _ _ = u
      have hw : TasksKept s u := hu ▸ wrHbm s _ _
      exact hw.trans (of_eq rfl rfl rfl)
  · exact .refl s

theorem writeSeg (s : State) (g : Seg) (bs : List Byte) : TasksKept s (writeSeg s g bs) := by
  unfold Machine.writeSeg
  split
  · exact .refl s
  · exact .refl s
  · exact .refl s
  · exact setCore s _ rfl
  · exact setDie s _ rfl
  · exact setPart s _ _
  · exact setBlock s _ _
  · split
    · exact .refl s
    · exact wrOpen s _ bs
  · split
    · exact .refl s
    · split
      · exact of_eq rfl rfl rfl
      · exact ((foldl (fun t p => snapCopy t _ p) _ s).trans (wrOpen _ _ bs)).trans (of_eq rfl rfl rfl)
  · exact postHost s _ _ _ bs _

theorem writeSegs (s : State) (segs : List Seg) (bs : List Byte) : TasksKept s (writeSegs s segs bs) := by
  induction segs generalizing s bs with
  | nil => exact .refl s
  | cons g r ih => exact (writeSeg s g _).trans (ih _ _)

/-! ### Records of errors, and copies that hosts hold -/

theorem signal (s : State) (part : Nat) : TasksKept s (s.signal part) := by
  unfold State.signal
  split <;> exact of_eq rfl rfl rfl

theorem errRecord (s : State) (part : Option Nat) (unit sev code loc : Nat) (addr : Word) :
    TasksKept s (s.errRecord part unit sev code loc addr) := by
  unfold State.errRecord
  simp only
  split
  · exact of_eq rfl rfl rfl
  · split
    · exact signal s _
    · exact ((wrInter s _ _ _).trans (setPart _ _ _)).trans (signal _ _)

theorem walkDenied (s : State) (part : Nat) (trail : List Nat) : TasksKept s (s.walkDenied part trail) :=
  foldl (fun t _ => errRecord t _ _ _ _ _ _) _ s

theorem entryLoc (s : State) (part : Nat) (e : TlbEntry) (v : Nat) : TasksKept s (entryLoc s part e v).2 := by
  unfold Machine.entryLoc
  simp only
  split
  · split
    · exact .refl s
    · exact errRecord s (some part) 6 1 3 _ _
  · exact .refl s
  · exact .refl s
  · split
    · split
      · exact .refl s
      · exact errRecord s (some part) 6 1 3 _ _
    · exact of_eq rfl rfl rfl

theorem flagRecall (s : State) (p o n : Nat) (wr : Bool) : TasksKept s (s.flagRecall p o n wr) := by
  unfold State.flagRecall
  split
  · exact .refl s
  · refine foldl (fun t l => ?_) _ s
    simp only
    split
    · exact of_eq rfl rfl rfl
    · split
      · exact setPart t p _
      · exact .refl t

theorem hostCopies (s : State) (l : Loc) (n : Nat) (wr : Bool) : TasksKept s (s.hostCopies l n wr) := by
  unfold State.hostCopies
  split
  · exact flagRecall s _ _ n wr
  · refine foldl (fun t i => ?_) _ s
    simp only
    split
    · exact .refl t
    · split
      · refine TasksKept.trans ?_ (writeSeg _ _ _)
        exact of_eq rfl rfl rfl
      · exact of_eq rfl rfl rfl
  · exact .refl s

/-! ### What March reads and writes -/

theorem marchSee (s : State) (part ctx : Nat) (wr : Bool) (fuel a n : Nat) : TasksKept s (s.marchSee part ctx wr fuel a n) := by
  induction fuel generalizing s a n with
  | zero => exact .refl s
  | succ fuel ih =>
    unfold State.marchSee
    split
    · exact .refl s
    · split
      · split
        · exact walkDenied s part _
        · simp only
          split
          · exact .refl s
          · exact ((entryLoc s part _ _).trans (hostCopies _ _ _ wr)).trans (ih _ _ _)
      · exact .refl s

theorem marchLook (s : State) (part ctx a n : Nat) : TasksKept s (s.marchLook part ctx a n) := marchSee s part ctx false _ a n

theorem marchWrite (s : State) (part ctx a : Nat) (bs : List Byte) : TasksKept s (s.marchWrite part ctx a bs) := by
  unfold State.marchWrite
  simp only
  split
  · exact (marchSee s part ctx true _ a _).trans (writeSegs _ _ bs)
  · exact marchSee s part ctx true _ a _

theorem exactRec (s : State) (r : TRec) (st : TState) : TasksKept s (s.exactRec r st) := marchWrite s _ _ _ _

theorem blurRec (s : State) (r : TRec) : TasksKept s (s.blurRec r) :=
  TasksKept.trans (t := s.free.2.free.2) (of_eq rfl rfl rfl) (marchWrite _ _ _ _ _)

theorem updLaunch (s : State) (part handle : Nat) (f : Launch → Launch) : TasksKept s (s.updLaunch part handle f) := of_eq rfl rfl rfl

end TasksKept

end Machine
end Sys2Proof
end

section
/-! SUPPORT. The words of tasks: what a word makes of the access to its record, the faults of that access, and the rules of SPAWN, DEP,
SUSP and GETC (09 R292 to R298). -/

namespace Sys2Proof
namespace Machine
open Safety

/-! ### A word's effect -/

theorem runPlain_did {h : Hdr} {s t : State} {eff : State → WRes} (he : s.me.enabled h = true) (heff : eff s = .ok t) :
    runPlain h s eff = did t := by rw [runPlain_enabled h s eff he, heff]; rfl

theorem runPlain_faulted {h : Hdr} {s t : State} {eff : State → WRes} {c : Cause} {x : Word} (he : s.me.enabled h = true)
    (heff : eff s = .trap c x t) : runPlain h s eff = faulted c x t := by rw [runPlain_enabled h s eff he, heff]; rfl

@[simp] theorem ARes.word_ok (segs : List Seg) (s : State) (f : List Seg → State → WRes) : (ARes.ok segs s).word f = f segs s := rfl
@[simp] theorem ARes.word_trap (c : Cause) (a : Nat) (s : State) (f : List Seg → State → WRes) :
    (ARes.trap c a s).word f = .trap c (BitVec.ofNat 64 a) s := rfl

theorem unpoisoned_clean {s : State} {a : Nat} {segs : List Seg} (hp : poisonAt s a segs = none) (f : State → WRes) :
    s.unpoisoned a segs f = f s := by simp only [State.unpoisoned, hp]

theorem unpoisoned_bad {s : State} {a x : Nat} {segs : List Seg} (hp : poisonAt s a segs = some x) (f : State → WRes) :
    s.unpoisoned a segs f = .trap .dataPoison (BitVec.ofNat 64 x) s := by simp only [State.unpoisoned, hp]

/-! ### The access to a record -/

theorem recordAccess_misaligned {s : State} {a align : Nat} (n : Nat) (k : Acc) (ha : a % align ≠ 0) :
    s.recordAccess a n align k = .trap .misalign a s := by
  unfold State.recordAccess
  split
  · simp only [State.access, ha, ne_eq, not_false_eq_true, if_true]
  · rw [if_pos ha]

theorem recordAccess_otherWindow {s : State} {a align o : Nat} {w : Win} (n : Nat) (k : Acc) (ha : a % align = 0)
    (hw : winOf a = some (w, o)) (hg : w ≠ .global) : s.recordAccess a n align k = .trap .perm a s := by
  unfold State.recordAccess
  rw [hw]
  split
  next h => cases h; exact absurd rfl hg
  next => simp [ha]

/-- The bytes of the record or descriptor that a word names. -/
def recordSpan (h : Hdr) (f : FmtT) (i : Instr) : Nat := if i = .spawnL h f then 128 else 256
/-- How the word reaches them: a Solstice step on a record, a read of a descriptor. -/
def recordAcc (h : Hdr) (f : FmtT) (i : Instr) : Acc := if i = .spawnL h f then .load else .atomic

/-- A word whose access to its record traps raises that trap. -/
theorem recordWord_faulted {h : Hdr} {f : FmtT} {s t : State} {i : Instr} {c : Cause} {x : Nat} (he : s.me.enabled h = true)
    (hi : i ∈ [Instr.spawn h f, .depAdd h f, .depSignal h f, .suspSuspend h f, .spawnL h f])
    (ha : s.recordAccess (readSpec s.me f.a).toNat (recordSpan h f i) (recordSpan h f i) (recordAcc h f i) = .trap c x t) :
    exec i s = faulted c (BitVec.ofNat 64 x) t := by
  have heff (g : List Seg → State → WRes) : (s.recordAccess (readSpec s.me f.a).toNat (recordSpan h f i) (recordSpan h f i)
      (recordAcc h f i)).word g = .trap c (BitVec.ofNat 64 x) t := by rw [ha, ARes.word_trap]
  simp only [List.mem_cons, List.not_mem_nil, or_false] at hi
  rcases hi with rfl | rfl | rfl | rfl | rfl
  · rw [exec_spawn, execSpawn]; exact runPlain_faulted he (heff _)
  · rw [exec_depAdd, execDepAdd, runDep]; exact runPlain_faulted he (heff _)
  · rw [exec_depSignal, execDepSignal, runDep]; exact runPlain_faulted he (heff _)
  · rw [exec_suspSuspend, execSuspSuspend]; exact runPlain_faulted he (heff _)
  · rw [recordSpan, recordAcc, if_pos rfl, if_pos rfl] at heff
    rw [exec_spawnL, execSpawnL]; exact runPlain_faulted he (heff _)

theorem recordFaults : Claims.RecordFaults := by
  intro h f s he a i hi n
  have hreg : BitVec.ofNat 64 a = readSpec s.me f.a := by simp [a]
  refine ⟨fun ha => ?_, fun w o ha hw hg => ?_, fun c x t ha => recordWord_faulted he hi ha⟩
  · rw [← hreg]; exact recordWord_faulted he hi (recordAccess_misaligned _ _ ha)
  · rw [← hreg]; exact recordWord_faulted he hi (recordAccess_otherWindow _ _ ha hw hg)

/-! ### SPAWN and DEP -/

section
variable {h : Hdr} {f : FmtT} {s s' : State} {segs : List Seg} (he : s.me.enabled h = true)
  (ha : s.recordAccess (readSpec s.me f.a).toNat 256 256 .atomic = .ok segs s')
include he ha

theorem exec_spawn_poisoned {y : Nat} (hp : poisonAt s' (readSpec s.me f.a).toNat segs = some y) :
    exec (.spawn h f) s = faulted .dataPoison (BitVec.ofNat 64 y) s' := by
  rw [exec_spawn, execSpawn]
  exact runPlain_faulted he (by simp only [ha, ARes.word_ok, unpoisoned_bad hp])

theorem exec_dep_poisoned {y : Nat}
    (hp : poisonAt s' (readSpec s.me f.a).toNat (segs.map fun g => { g with len := min 16 g.len }) = some y) {i : Instr}
    (hi : i ∈ [Instr.depAdd h f, .depSignal h f]) : exec i s = faulted .dataPoison (BitVec.ofNat 64 y) s' := by
  have hdep (add : Slot → Option Nat) : runDep h f s add = faulted .dataPoison (BitVec.ofNat 64 y) s' :=
    runPlain_faulted he (by simp only [ha, ARes.word_ok, unpoisoned_bad hp])
  simp only [List.mem_cons, List.not_mem_nil, or_false] at hi
  rcases hi with rfl | rfl
  · rw [exec_depAdd, execDepAdd]; exact hdep _
  · rw [exec_depSignal, execDepSignal]; exact hdep _

theorem runDep_did (hp : poisonAt s' (readSpec s.me f.a).toNat (segs.map fun g => { g with len := min 16 g.len }) = none)
    (add : Slot → Option Nat) : runDep h f s add = did (s'.depOp s.me.id.part (s'.jobOf s.me.id.part s.me.id.handle) s.me.id.handle
      (readSpec s.me f.a).toNat (add s.me)) :=
  runPlain_did he (by simp only [ha, ARes.word_ok, unpoisoned_clean hp])

end

/-- SPAWN.L hands its descriptor to launch intake for its own partition and core. -/
theorem exec_spawnL_did {h : Hdr} {f : FmtT} {s s' : State} {segs : List Seg} (he : s.me.enabled h = true)
    (ha : s.recordAccess (readSpec s.me f.a).toNat 128 128 .load = .ok segs s') :
    exec (.spawnL h f) s = did { s' with intake := s'.intake ++ [{
      part := s.me.id.part, addr := readSpec s.me f.a, ctx := s'.jobOf s.me.id.part s.me.id.handle, core := some s'.cur.1, host := none,
      cpl := 0, tag := 0, flags := 0, vec := 0 }] } := by
  rw [exec_spawnL, execSpawnL]
  exact runPlain_did he (by simp only [ha, ARes.word_ok, BitVec.ofNat_toNat, BitVec.setWidth_eq])

theorem spawnWords : Claims.SpawnWords := by
  intro h f s s' segs he
  dsimp only
  refine ⟨fun ha => ⟨fun y => exec_spawn_poisoned he ha, fun hp hheld => ?_, fun hp hfree hst hver => ?_, fun hp => ?_, fun hp => ?_,
    fun y hp i => exec_dep_poisoned he ha hp⟩, fun ha => ⟨_, exec_spawnL_did he ha, rfl, rfl, rfl⟩⟩
  · rw [exec_spawn, execSpawn]
    refine runPlain_did he ?_
    simp only [ha, ARes.word_ok, unpoisoned_clean hp]
    exact if_pos (by simpa [or_assoc] using hheld)
  · rw [exec_spawn, execSpawn]
    refine runPlain_did he ?_
    simp only [ha, ARes.word_ok, unpoisoned_clean hp]
    exact if_neg (by rw [hfree, hst, hver]; decide)
  · rw [exec_depAdd, execDepAdd]; exact runDep_did he ha hp _
  · rw [exec_depSignal, execDepSignal]; exact runDep_did he ha hp _

/-! ### SUSP and GETC -/

theorem suspendWords : Claims.SuspendWords := by
  intro h f s s' segs he
  refine ⟨?_, ?_, fun ha => ?_⟩
  · rw [exec_suspYield, execSuspYield]; exact runPlain_did he rfl
  · rw [exec_suspFinish, execSuspFinish]; exact runPlain_did he rfl
  · rw [exec_suspSuspend, execSuspSuspend]
    refine runPlain_did he ?_
    simp only [ha, ARes.word_ok, State.endWith, BitVec.ofNat_toNat, BitVec.setWidth_eq]

theorem getConstantWords : Claims.GetConstantWords := by
  intro h f s x he hx
  have hjob : s.jobOf s.me.id.part s.me.id.handle = x.job := by simp only [State.jobOf, hx]
  refine ⟨?_, ?_, ?_, ?_⟩
  · rw [exec_getcCoord, execGetcCoord, runGetc]; exact runPlain_did he (by rw [BitVec.ofNat_toNat])
  · rw [exec_getcShape, execGetcShape, runGetc]; exact runPlain_did he (by simp only [hx])
  · rw [exec_getcLaunch, execGetcLaunch, runGetc]; exact runPlain_did he (by simp only [hjob])
  · rw [exec_getcCore, execGetcCore, runGetc]; exact runPlain_did he rfl

end Machine
end Sys2Proof
end

section
/-! SUPPORT. Error counts of launches, and the counters of records (02 R37 to R39; 09 R294). -/

namespace Sys2Proof
namespace Machine

/-- An update that leaves what names a launch changes that launch where it is looked up. -/
theorem launch?_updLaunch (s : State) (part handle : Nat) {f : Launch → Launch} (hpart : ∀ x, (f x).part = x.part)
    (hhandle : ∀ x, (f x).handle = x.handle) :
    (s.updLaunch part handle f).launch? part handle = (s.launch? part handle).map f := by
  simp only [State.launch?, State.updLaunch]
  induction s.launches with
  | nil => rfl
  | cons x r ih =>
    simp only [List.map_cons, List.find?_cons]
    cases hx : decide (x.part = part) && decide (x.handle = handle)
    · simpa [hx] using ih
    · simp [hx, hpart, hhandle]

theorem launch?_launchErr (s : State) (part handle n : Nat) :
    (s.launchErr part handle n).launch? part handle =
      (s.launch? part handle).map fun x => { x with errcnt := min 0xFFFFFFFF (x.errcnt + n) } :=
  launch?_updLaunch s part handle (fun _ => rfl) fun _ => rfl

section
variable {s : State} {part ctx handle a : Nat}

/-- A counter operation on a record that March holds PENDING with the count `n`. -/
theorem depOp_pending {d n : Nat} {r : TRec} (hr : s.recAt part ctx (BitVec.ofNat 64 a) = some (d, r)) (hp : r.st = .pending)
    (hn : natOfBytes ((s.marchRead part ctx (a + 8) 4).getD []) = n) :
    (∀ k, s.depOp part ctx handle a (some k) =
      if 0xFFFFFFFF < n + k then (s.marchWrite part ctx (a + 8) (bytesOfNat 4 0xFFFFFFFF)).launchErr part r.handle 1
      else s.marchWrite part ctx (a + 8) (bytesOfNat 4 (n + k))) ∧
    s.depOp part ctx handle a none =
      if n = 0 then s.launchErr part r.handle 1
      else if n = 1 then (s.marchWrite part ctx (a + 8) (bytesOfNat 4 (n - 1))).readyRec d r.seq
      else s.marchWrite part ctx (a + 8) (bytesOfNat 4 (n - 1)) := by
  simp only [State.depOp, hr, hp, hn, if_true, implies_true, and_self]

theorem depOp_readied {d : Nat} {r : TRec} (hr : s.recAt part ctx (BitVec.ofNat 64 a) = some (d, r)) (hp : r.st ≠ .pending)
    (add : Option Nat) : s.depOp part ctx handle a add = s.launchErr part r.handle 1 := by
  simp only [State.depOp, hr, hp, if_false]

/-- A counter operation on a record that is March's no more, or not yet. -/
theorem depOp_unheld (hr : s.recAt part ctx (BitVec.ofNat 64 a) = none) :
    let bs := (s.marchRead part ctx a 16).getD (List.replicate 16 0)
    (recState bs = 0 →
      (∀ k, s.depOp part ctx handle a (some k) =
        if 0xFFFFFFFF < recF bs 8 4 + k then (s.marchWrite part ctx (a + 8) (bytesOfNat 4 0xFFFFFFFF)).launchErr part handle 1
        else s.marchWrite part ctx (a + 8) (bytesOfNat 4 (recF bs 8 4 + k))) ∧
      s.depOp part ctx handle a none =
        if recF bs 8 4 = 0 then s.launchErr part handle 1 else s.marchWrite part ctx (a + 8) (bytesOfNat 4 (recF bs 8 4 - 1))) ∧
    (recState bs ≠ 0 → ∀ add, s.depOp part ctx handle a add = s.launchErr part (fld (recF bs 0 8) 31 16) 1) := by
  intro bs
  refine ⟨fun h0 => ?_, fun h0 add => ?_⟩
  · simp only [State.depOp, hr, bs, h0, if_true, implies_true, and_self]
  · simp only [State.depOp, hr, bs, h0, if_false]

end

theorem dependenceCounters : Claims.DependenceCounters := by
  intro s part ctx handle a put
  refine ⟨fun d r hr => ?_, fun hr => ?_, fun x hx => ⟨?_, rfl⟩⟩
  · intro n
    have hcount : natOfBytes ((s.marchRead part ctx (a + 8) 4).getD []) = n := rfl
    clear_value n
    refine ⟨fun hp => ?_, fun hp => depOp_readied hr hp⟩
    obtain ⟨hadd, hsignal⟩ := depOp_pending (handle := handle) hr hp hcount
    refine ⟨fun k hk => ?_, fun k hk => ?_, fun hn => ?_, fun hn => ?_, fun hn => ?_⟩
    · rw [hadd, if_neg (Nat.not_lt.2 hk)]
    · rw [hadd, if_pos hk]
    · rw [hsignal, if_neg (Nat.ne_of_gt (Nat.zero_lt_of_lt hn)), if_neg (Nat.ne_of_gt hn)]
    · rw [hsignal, if_neg (by omega), if_pos hn, hn]
    · rw [hsignal, if_pos hn]
  · intro bs n
    obtain ⟨hfree, htaken⟩ := depOp_unheld (handle := handle) hr
    refine ⟨fun h0 => ?_, htaken⟩
    obtain ⟨hadd, hsignal⟩ := hfree h0
    refine ⟨fun k hk => ?_, fun k hk => ?_, fun hn => ?_, fun hn => ?_⟩
    · rw [hadd, if_neg (Nat.not_lt.2 hk)]
    · rw [hadd, if_pos hk]
    · rw [hsignal, if_neg hn]
    · rw [hsignal, if_pos hn]
  · rw [launch?_launchErr, hx]; rfl

end Machine

/-- Settles O36: an operation on a counter is the change of one record, and the errors it counts are its launch's. -/
theorem dependenceCounters : Obligations.DependenceCounters := Machine.dependenceCounters

end Sys2Proof
end

section
/-! SUPPORT. Barriers: how far the phases of a barrier come, what ARRIVE records and what WAIT waits for (02 R53; 09 R297). -/

namespace Sys2Proof
namespace Machine
open Safety

/-! ### The phases of a barrier -/

/-- A member of a gang that is not DONE. -/
def LiveMember (size : Nat) (done : List Nat) (j : Nat) : Prop := j < size ∧ done.contains j = false

/-- Every member that is not DONE has arrived in the barrier's current phase, and there is one. -/
def AllArrived (size : Nat) (done : List Nat) (x : Barrier) : Prop :=
  (∃ j, LiveMember size done j) ∧ ∀ j, LiveMember size done j → x.phase < Sparse.get 0 x.arrived j

/-- One phase more where all have arrived, none where not. -/
theorem Barrier.advance_succ_of_all {size : Nat} {done : List Nat} {x : Barrier} (fuel : Nat) (h : AllArrived size done x) :
    x.advance size done (fuel + 1) = Barrier.advance size done fuel { x with phase := x.phase + 1 } := by
  obtain ⟨⟨j, hj⟩, hall⟩ := h
  rw [Barrier.advance]
  refine if_pos ?_
  simp only [Bool.and_eq_true, Bool.not_eq_true', List.isEmpty_eq_false_iff_exists_mem, List.all_eq_true, List.mem_filter, List.mem_range,
    decide_eq_true_eq]
  exact ⟨⟨j, hj⟩, hall⟩

theorem Barrier.advance_of_not_all {size : Nat} {done : List Nat} {x : Barrier} (fuel : Nat) (h : ¬ AllArrived size done x) :
    x.advance size done fuel = x := by
  cases fuel with
  | zero => rfl
  | succ fuel =>
    unfold Barrier.advance
    refine if_neg fun hc => h ?_
    simp only [Bool.and_eq_true, Bool.not_eq_true', List.isEmpty_eq_false_iff_exists_mem, List.all_eq_true, List.mem_filter,
      List.mem_range, decide_eq_true_eq] at hc
    exact hc

theorem Barrier.advance_arrived (size : Nat) (done : List Nat) (fuel : Nat) (x : Barrier) :
    (x.advance size done fuel).arrived = x.arrived := by
  induction fuel generalizing x with
  | zero => rfl
  | succ fuel ih =>
    by_cases h : AllArrived size done x
    · rw [advance_succ_of_all fuel h, ih]
    · rw [advance_of_not_all _ h]

theorem Barrier.phase_le_advance (size : Nat) (done : List Nat) (fuel : Nat) (x : Barrier) :
    x.phase ≤ (x.advance size done fuel).phase := by
  induction fuel generalizing x with
  | zero => exact Nat.le_refl _
  | succ fuel ih =>
    by_cases h : AllArrived size done x
    · rw [advance_succ_of_all fuel h]; exact (Nat.le_succ _).trans (ih { x with phase := x.phase + 1 })
    · rw [advance_of_not_all _ h]

/-- In every phase that has become complete all members that are not DONE have arrived. -/
theorem Barrier.arrived_of_advance {size : Nat} {done : List Nat} {p j : Nat} (hj : LiveMember size done j) (fuel : Nat) (x : Barrier)
    (hlo : x.phase ≤ p) (hhi : p < (x.advance size done fuel).phase) : p < Sparse.get 0 x.arrived j := by
  induction fuel generalizing x with
  | zero => exact absurd hhi (Nat.not_lt.2 hlo)
  | succ fuel ih =>
    by_cases h : AllArrived size done x
    · rw [advance_succ_of_all fuel h] at hhi
      rcases Nat.eq_or_lt_of_le hlo with rfl | hlo
      · exact h.2 j hj
      · exact ih { x with phase := x.phase + 1 } hlo hhi
    · rw [advance_of_not_all _ h] at hhi
      exact absurd hhi (Nat.not_lt.2 hlo)

/-- Phases complete as far as they can: with fuel beyond every arrival, somebody has not arrived in the phase that is current then. -/
theorem Barrier.advance_stops {size : Nat} {done : List Nat} (hlive : ∃ j, LiveMember size done j) (fuel : Nat) (x : Barrier)
    (hfuel : ∀ j, Sparse.get 0 x.arrived j < x.phase + fuel) :
    ∃ j, LiveMember size done j ∧ Sparse.get 0 x.arrived j ≤ (x.advance size done fuel).phase := by
  induction fuel generalizing x with
  | zero =>
    obtain ⟨j, hj⟩ := hlive
    exact ⟨j, hj, (hfuel j).le⟩
  | succ fuel ih =>
    by_cases h : AllArrived size done x
    · rw [advance_succ_of_all fuel h]
      exact ih { x with phase := x.phase + 1 } fun j => (hfuel j).trans_eq (by simp only; omega)
    · rw [advance_of_not_all _ h]
      have : ∃ j, LiveMember size done j ∧ ¬ x.phase < Sparse.get 0 x.arrived j := by
        by_contra hn
        exact h ⟨hlive, fun j hj => by_contra fun hlt => hn ⟨j, hj, hlt⟩⟩
      obtain ⟨j, hj, hlt⟩ := this
      exact ⟨j, hj, Nat.not_lt.1 hlt⟩

theorem barrierPhases : Claims.BarrierPhases := by
  intro size done b hlive hnext
  have hall : AllArrived size done b ↔ ∀ m, m < size → done.contains m = false → Sparse.get 0 b.arrived m = b.phase + 1 :=
    ⟨fun h m hm hd => Nat.le_antisymm (hnext m hm hd) (h.2 m ⟨hm, hd⟩), fun h => ⟨hlive, fun m hm => by rw [h m hm.1 hm.2]; omega⟩⟩
  split
  next h => rw [Barrier.advance_succ_of_all 0 (hall.2 h)]; rfl
  next h => rw [Barrier.advance_of_not_all 1 fun ha => h (hall.1 ha)]

/-! ### The barriers of a gang -/

/-- No value of a map lies above the greatest that the fold finds. -/
theorem Sparse.get_le_foldl_max (m : SMap Nat) (j : Nat) : Sparse.get 0 m j ≤ m.foldl (fun n a => max n a.2) 0 := by
  have hmem (l : SMap Nat) (n : Nat) : n ≤ l.foldl (fun n a => max n a.2) n ∧ ∀ c ∈ l, c.2 ≤ l.foldl (fun n a => max n a.2) n := by
    induction l generalizing n with
    | nil => simp
    | cons c r ih =>
      obtain ⟨hstart, hrest⟩ := ih (max n c.2)
      refine ⟨(Nat.le_max_left _ _).trans hstart, fun e he => ?_⟩
      rcases List.mem_cons.1 he with rfl | he
      · exact (Nat.le_max_right _ _).trans hstart
      · exact hrest e he
  rw [Sparse.get_eq_find]
  cases hf : Sparse.find m j with
  | none => exact Nat.zero_le _
  | some v => exact (hmem m 0).2 (j, v) (Sparse.mem_of_find hf)

/-- A barrier that stands in a gang comes as far as the arrivals allow. -/
theorem Gang.bar_advance {g : Gang} {b : Nat} {x : Barrier} (hx : Sparse.find g.bars b = some x) :
    Sparse.get {} g.advance.bars b = x.advance g.size g.done (x.arrived.foldl (fun n a => max n a.2) 0 + 1) := by
  have hmap := Sparse.find_map (fun x : Barrier => x.advance g.size g.done (x.arrived.foldl (fun n a => max n a.2) 0 + 1)) g.bars b
  rw [hx] at hmap
  rw [Sparse.get_eq_find]
  exact congrArg (fun o => Option.getD o {}) hmap

/-! ### ARRIVE and WAIT -/

/-- The barrier as ARRIVE records member `m` in it: in the current phase, or in the next where it is recorded already. -/
def Barrier.arrive (x : Barrier) (m : Nat) : Barrier :=
  { x with arrived := Sparse.put x.arrived m (max (Sparse.get 0 x.arrived m) x.phase + 1) }

/-- The gang in whose barrier `b` member `m` arrives. -/
def Gang.arrive (g : Gang) (b m : Nat) : Gang :=
  Gang.advance { g with bars := Sparse.put g.bars b ((Sparse.get {} g.bars b : Barrier).arrive m) }

theorem Gang.bar_arrive (g : Gang) (b m : Nat) :
    let x := (Sparse.get {} g.bars b : Barrier).arrive m
    Sparse.get {} (g.arrive b m).bars b = x.advance g.size g.done (x.arrived.foldl (fun n a => max n a.2) 0 + 1) :=
  Gang.bar_advance (Sparse.find_put_self _ _ _)

section
variable {s : State} {k m : Nat} {g : Gang} (hg : s.myGang = some (k, g, m)) (b : Nat)
include hg

theorem barArrive_gang : s.barArrive b = s.setBlock k ((s.block k).updGang g.part g.handle g.index fun _ => g.arrive b m) := by
  simp only [State.barArrive, hg]; rfl

theorem barWait_complete (h : Sparse.get 0 (Sparse.get {} g.bars b : Barrier).arrived m ≤ (Sparse.get {} g.bars b : Barrier).phase) :
    s.barWait b = s := by
  simp only [State.barWait, hg]; exact if_pos h

theorem barWait_waits (h : (Sparse.get {} g.bars b : Barrier).phase < Sparse.get 0 (Sparse.get {} g.bars b : Barrier).arrived m) :
    s.barWait b = s.startWait .bar (BitVec.ofNat 64 b) (BitVec.ofNat 64 (Sparse.get 0 (Sparse.get {} g.bars b : Barrier).arrived m)) 0
      (.ctr k 0) none 0 := by
  simp only [State.barWait, hg]; exact if_neg (Nat.not_le.2 h)

end

/-- A wait at a barrier needs no monitor: the slot waits, and beside it only its die's count of waits goes on. -/
theorem startWait_bar (s : State) (addr val : Word) (loc : Loc) :
    ∃ (x : Die) (w : Wait), s.startWait .bar addr val 0 loc none 0 = (s.setDie (coreDie s.cur.1) x).setMe { s.me with wait := some w } ∧
      w.kind = .bar ∧ w.addr = addr ∧ w.val = val ∧ w.deadline = none :=
  ⟨_, _, rfl, rfl, rfl, rfl, rfl⟩

theorem barrierWords : Claims.BarrierWords := by
  intro h f s he b
  refine ⟨?_, ?_, ?_, fun hg => ?_, fun k g m hg => ?_⟩
  · rw [exec_barArrive, execBarArrive]; exact runPlain_did he rfl
  · rw [exec_barWait, execBarWait]; exact runPlain_did he rfl
  · rw [exec_barBoth, execBarBoth]; exact runPlain_did he rfl
  · simp only [State.barArrive, State.barWait, hg, and_self]
  · intro x live
    refine ⟨⟨g.arrive b m, barArrive_gang hg b, ?_⟩, barWait_complete hg b, fun hlt => ?_⟩
    · rw [Gang.bar_arrive]
      refine ⟨Barrier.advance_arrived _ _ _ _, Barrier.phase_le_advance _ _ _ (x.arrive m), fun p hlo hhi j hj => ?_, fun hlive => ?_⟩
      · rw [Barrier.advance_arrived]; exact Barrier.arrived_of_advance hj _ _ hlo hhi
      · rw [Barrier.advance_arrived]
        exact Barrier.advance_stops hlive _ _ fun j =>
          (Nat.lt_succ_of_le (Sparse.get_le_foldl_max _ j)).trans_le (Nat.le_add_left _ _)
    · rw [barWait_waits hg b hlt]
      obtain ⟨d, w, hw, hkind, haddr, hval, hdeadline⟩ := startWait_bar s (BitVec.ofNat 64 b) (BitVec.ofNat 64 (Sparse.get 0 x.arrived m)) (.ctr k 0)
      refine ⟨w, ?_, hkind, haddr, hval, hdeadline, ?_⟩
      · rw [hw, State.me_setMe]
      · rw [hw]; rfl

end Machine

/-- Settles O37: the phases of a barrier by induction on how many are complete, and what ARRIVE and WAIT make of them. -/
theorem barrierAndConstantWords : Obligations.BarrierAndConstantWords :=
  ⟨Machine.barrierWords, Machine.barrierPhases, Machine.getConstantWords⟩

end Sys2Proof
end

section
/-! SUPPORT. Records as March takes, readies and adds them, and what closing a group with SUSP does (02 R26, R38; 09 R295, R296). -/

namespace Sys2Proof
namespace Machine

/-! ### Records that are readied and added -/

/-- A note of whether a record stands in the ready queue's SRAM (18 R459). -/
def noteSram (b : Bool) (r : TRec) : TRec := { r with inSram := b }

/-- A record enters the SRAM; of a full one another leaves it, chained through memory. -/
theorem enterSram_cases (s : State) (d q : Nat) :
    s.enterSram d q = s.updRec d q (noteSram true) ∨
    ∃ (w part ctx a : Nat) (bs : List Byte),
      s.enterSram d q = (((s.updRec d q (noteSram true)).updRec d w (noteSram false)).free.2).marchWrite part ctx a bs := by
  unfold State.enterSram
  simp only
  split
  · exact .inl rfl
  · split
    next w _ => exact .inr ⟨w.seq, _, _, _, _, rfl⟩
    next => exact .inl rfl

theorem SlotsKept.updRec (s : State) (d q : Nat) (f : TRec → TRec) : SlotsKept s (s.updRec d q f) := .of_cores rfl rfl

theorem TasksKept.free (s : State) : TasksKept s s.free.2 := .of_eq rfl rfl rfl

theorem SlotsKept.enterSram (s : State) (d q : Nat) : SlotsKept s (s.enterSram d q) := by
  rcases enterSram_cases s d q with h | ⟨w, part, ctx, a, bs, h⟩
  · rw [h]; exact updRec s d q _
  · rw [h]
    exact ((updRec s d q _).trans (updRec _ d w _)).trans ((TasksKept.free _).trans (TasksKept.marchWrite _ part ctx a bs)).toSlotsKept

/-- Noting where records stand leaves each record with its number and state. -/
theorem noteSram_rec {s : State} (d q : Nat) (b : Bool) {e : Nat} {y : TRec} (hy : y ∈ (s.die e).recs) :
    ∃ z ∈ ((s.updRec d q (noteSram b)).die e).recs, z.seq = y.seq ∧ z.st = y.st := by
  rw [State.updRec, State.die_setDie]
  split
  · subst_vars
    refine ⟨_, List.mem_map_of_mem hy, ?_⟩
    split <;> exact ⟨rfl, rfl⟩
  · exact ⟨y, hy, rfl, rfl⟩

theorem enterSram_rec {s : State} (d q : Nat) {e : Nat} {y : TRec} (hy : y ∈ (s.die e).recs) :
    ∃ z ∈ ((s.enterSram d q).die e).recs, z.seq = y.seq ∧ z.st = y.st := by
  obtain ⟨z, hz, hseq, hst⟩ := noteSram_rec d q true hy
  rcases enterSram_cases s d q with h | ⟨w, part, ctx, a, bs, h⟩
  · rw [h]; exact ⟨z, hz, hseq, hst⟩
  · obtain ⟨x, hx, hseq', hst'⟩ := noteSram_rec d w false hz
    rw [h, ((TasksKept.free _).trans (TasksKept.marchWrite _ part ctx a bs)).recs]
    exact ⟨x, hx, hseq'.trans hseq, hst'.trans hst⟩

/-- A record's entry goes from one die's records to the end of another's, changed. -/
def State.moveRec (s : State) (d q tgt : Nat) (r : TRec) : State :=
  let u := s.setDie d { s.die d with recs := (s.die d).recs.filter fun y => y.seq ≠ q }
  u.setDie tgt { u.die tgt with recs := (u.die tgt).recs ++ [r] }

theorem mem_moveRec (s : State) (d q tgt : Nat) (r : TRec) : r ∈ ((s.moveRec d q tgt r).die tgt).recs := by
  rw [State.moveRec, State.die_setDie_self]
  exact List.mem_append_right _ (List.mem_singleton_self r)

/-- A record that was READY or dispatched before is readied on its die as it stands (18 R460). -/
theorem readyRec_of_not_pending {s : State} {d q : Nat} {r : TRec} (hr : (s.die d).recs.find? (fun y => y.seq = q) = some r)
    (hst : r.st ≠ .pending) :
    s.readyRec d q = (s.moveRec d q d { r with st := .ready, since := s.cycle, arrival := s.cycle }).enterSram d q := by
  simp only [State.readyRec, hr, hst, State.takeCopy, if_false, if_true, decide_false, Bool.and_false, Bool.false_and, Bool.false_eq_true,
    State.moveRec]

theorem readyRec_ready {s : State} {d q : Nat} {r : TRec} (hr : (s.die d).recs.find? (fun y => y.seq = q) = some r)
    (hst : r.st ≠ .pending) : ∃ y ∈ ((s.readyRec d q).die d).recs, y.seq = q ∧ y.st = .ready := by
  have hq : r.seq = q := by simpa using List.find?_some hr
  obtain ⟨y, hy, hseq, hready⟩ := enterSram_rec d q (mem_moveRec s d q d { r with st := .ready, since := s.cycle, arrival := s.cycle })
  rw [readyRec_of_not_pending hr hst]
  exact ⟨y, hy, hseq.trans hq, hready⟩

theorem SlotsKept.ite {s t u : State} {p : Prop} [Decidable p] (ht : SlotsKept s t) (hu : SlotsKept s u) :
    SlotsKept s (if p then t else u) := by split <;> assumption

theorem SlotsKept.setDie (s : State) (d : Nat) (x : Die) : SlotsKept s (s.setDie d x) := .of_cores rfl rfl

theorem SlotsKept.updLaunch (s : State) (part handle : Nat) (f : Launch → Launch) : SlotsKept s (s.updLaunch part handle f) :=
  .of_cores rfl rfl

/-- Readying a record, wherever it goes and whatever March writes of it, leaves every slot. -/
theorem SlotsKept.readyRec (s : State) (d q : Nat) : SlotsKept s (s.readyRec d q) := by
  unfold State.readyRec
  split
  · exact .refl s
  next r _ =>
    have hlook := SlotsKept.ite (p := r.st = .pending)
      (TasksKept.marchLook s r.part (s.jobOf r.part r.handle) r.addr.toNat 256).toSlotsKept (.refl s)
    refine .trans ?_ (enterSram _ _ _)
    refine .trans ?_ (.ite (TasksKept.blurRec _ _).toSlotsKept (.refl _))
    refine hlook.trans ?_
    refine .trans (.ite (.refl _) ?_) ((setDie _ _ _).trans (setDie _ _ _))
    exact (updLaunch _ _ _ _).trans (updLaunch _ _ _ _)

theorem SlotsKept.addRec (s : State) (d part handle : Nat) (a : Word) (prio : Nat) (coord : BitVec 32) (aff kernel : Word)
    (cont member : Bool) (held : Option (Nat × Nat)) (dep : Nat) :
    SlotsKept s (s.addRec d part handle a prio coord aff kernel cont member held dep) := by
  unfold State.addRec
  refine .trans ?_ (.ite (readyRec _ _ _) (.refl _))
  exact .of_cores rfl rfl

/-- A new record whose counter is not zero stands PENDING on its die (02 R38). -/
theorem addRec_pending (s : State) (d part handle : Nat) (a : Word) (prio : Nat) (coord : BitVec 32) (aff kernel : Word)
    (cont member : Bool) (held : Option (Nat × Nat)) {dep : Nat} (hdep : dep ≠ 0) :
    ∃ y ∈ ((s.addRec d part handle a prio coord aff kernel cont member held dep).die d).recs,
      y.addr = a ∧ y.cont = cont ∧ y.st = .pending ∧ y.handle = handle := by
  unfold State.addRec
  rw [if_neg hdep]
  have hdie (x : Die) (n : Nat) (f : Launch → Launch) : (({ s.setDie d x with nextSeq := n } : State).updLaunch part handle f).die d = x :=
    State.die_setDie_self s d x
  rw [hdie]
  exact ⟨_, List.mem_append_right _ (List.mem_singleton_self _), rfl, rfl, rfl, rfl⟩

/-! ### The end of a group -/

/-- A group with no trap that ends or suspends its task, or yields, does so as it closes. -/
theorem afterGroup_leaves {s : State} {g : Group} (point : Bool) (hu : g.user = none) (hnext : g.fin ≠ .next) (hrft : g.fin ≠ .rft) :
    s.afterGroup g [] [] point = s.leaveSlot s.cur.1 s.cur.2 s.me.pc g.fin := by
  simp only [State.afterGroup, hu, pickTrap, List.isEmpty_nil, if_true]
  cases hfin : g.fin with
  | next => exact absurd hfin hnext
  | rft => exact absurd hfin hrft
  | finish | halt | suspend | yield => rfl

theorem landPre_without_request {s : State} {c k : Nat} (st : TState) (hpre : (s.slot c k).pre = none) : s.landPre c k st = s := by
  simp only [State.landPre, hpre]

theorem slotRec_setSlot {s : State} {c k : Nat} {l : Slot} (hid : l.id = (s.slot c k).id) :
    (s.setSlot c k l).slotRec c k = s.slotRec c k := by
  rw [State.slotRec, State.slot_setSlot_self, hid]; rfl

/-- A yield without a request leaves the slot READY, and its record, where March holds it, readied (09 R296). -/
theorem yieldTask_held {s : State} {c k d : Nat} {r : TRec} (hpre : (s.slot c k).pre = none) (hr : s.slotRec c k = some (d, r)) :
    s.yieldTask c k = (s.setSlot c k { s.slot c k with st := .ready }).readyRec d r.seq := by
  simp only [State.yieldTask, slotRec_setSlot, hr]
  refine landPre_without_request _ ?_
  rw [(SlotsKept.readyRec _ d r.seq).slot, State.slot_setSlot_self]
  exact hpre

theorem yieldTask_unheld {s : State} {c k : Nat} (hpre : (s.slot c k).pre = none) (hr : s.slotRec c k = none) :
    s.yieldTask c k = s.setSlot c k { s.slot c k with st := .ready } := by
  simp only [State.yieldTask, slotRec_setSlot, hr]
  refine landPre_without_request _ ?_
  rw [State.slot_setSlot_self]
  exact hpre

/-! ### SUSP.SUSPEND (09 R295) -/

/-- March holds the record that a task suspends to, or its STATE is not EMPTY. -/
theorem suspendTask_refused {s : State} {c k : Nat} {a : Word} (pc : BitVec 32) {id : TaskId} {v : State} {bs : List Byte}
    (hid : (s.slot c k).id = id) (hv : s.marchLook id.part (s.jobOf id.part id.handle) a.toNat 256 = v)
    (hbs : (v.marchRead id.part (s.jobOf id.part id.handle) a.toNat 256).getD (List.replicate 256 0) = bs)
    (h : (v.recAt id.part (s.jobOf id.part id.handle) a).isSome = true ∨ recState bs ≠ 0) :
    s.suspendTask c k a pc = (v.launchErr id.part id.handle 1).endTask c k .done := by
  subst hid hv hbs
  exact if_pos (by rw [Bool.or_eq_true, decide_eq_true_eq]; exact h)

/-- A record that is taken frees the slot and is added for its continuation; what was written before left the slots. -/
theorem suspendTask_taken {s : State} {c k : Nat} {a : Word} (pc : BitVec 32) {id : TaskId} {v : State} {bs : List Byte}
    (hid : (s.slot c k).id = id) (hv : s.marchLook id.part (s.jobOf id.part id.handle) a.toNat 256 = v)
    (hbs : (v.marchRead id.part (s.jobOf id.part id.handle) a.toNat 256).getD (List.replicate 256 0) = bs)
    (hheld : (v.recAt id.part (s.jobOf id.part id.handle) a).isSome = false) (hst : recState bs = 0) :
    ∃ (u : State) (held : Option (Nat × Nat)) (f : Launch → Launch), SlotsKept s u ∧
      s.suspendTask c k a pc = ((u.clearSlot c k).addRec (coreDie c) id.part id.handle a id.prio id.coord id.affinity id.kernel true
        id.member held (recF bs 8 4)).updLaunch id.part id.handle f := by
  subst hid hv hbs
  refine ⟨_, _, _, ?_, if_neg (by rw [hheld, Bool.false_or, decide_eq_true_eq, not_not]; exact hst)⟩
  split
  · exact (((TasksKept.marchLook s _ _ _ _).trans (TasksKept.marchWrite _ _ _ _ _)).trans (TasksKept.exactRec _ _ _)).toSlotsKept.trans
      (.setDie _ _ _)
  · exact ((TasksKept.marchLook s _ _ _ _).trans (TasksKept.marchWrite _ _ _ _ _)).toSlotsKept

theorem suspendedGroups : Claims.SuspendedGroups := by
  intro s g point hu _ t
  refine ⟨fun hfin hpre hrec => ?_, fun a rpc hfin => ?_⟩
  · have ht : t = s.yieldTask s.cur.1 s.cur.2 := by
      have := afterGroup_leaves (s := s) point hu (by simp [hfin]) (by simp [hfin])
      rwa [hfin] at this
    cases hr : s.slotRec s.cur.1 s.cur.2 with
    | none =>
      rw [ht, yieldTask_unheld hpre hr]
      exact ⟨State.me_setMe s _, by simp⟩
    | some x =>
      obtain ⟨d, r⟩ := x
      obtain ⟨hst, hfind⟩ := hrec d r hr
      rw [ht, yieldTask_held hpre hr]
      refine ⟨(SlotsKept.readyRec _ d r.seq).me.trans (State.me_setMe s _), fun e y he => ?_⟩
      cases he
      exact readyRec_ready hfind hst
  · intro id ctx v bs held
    have ht : t = s.suspendTask s.cur.1 s.cur.2 a (rpc.getD s.me.pc) := by
      have := afterGroup_leaves (s := s) point hu (by simp [hfin]) (by simp [hfin])
      rwa [hfin] at this
    refine ⟨fun h => ht.trans (suspendTask_refused _ rfl rfl rfl h), fun hheld hst => ?_⟩
    obtain ⟨u, cell, f, hu, hsusp⟩ := suspendTask_taken (rpc.getD s.me.pc) (c := s.cur.1) (k := s.cur.2) rfl rfl rfl hheld hst
    rw [ht, hsusp]
    refine ⟨?_, fun hdep => addRec_pending _ _ _ _ _ _ _ _ _ _ _ _ hdep⟩
    rw [((SlotsKept.addRec _ _ _ _ _ _ _ _ _ _ _ _ _).trans (.updLaunch _ _ _ f)).me]
    show (u.setSlot s.cur.1 s.cur.2 {}).slot u.cur.1 u.cur.2 = {}
    rw [hu.cur, State.slot_setSlot_self]

end Machine

/-- Settles O35: the words themselves by the access to their record, and the close of a group by what it leaves of its slot. -/
theorem spawnAndSuspendWords : Obligations.SpawnAndSuspendWords :=
  ⟨Machine.spawnWords, Machine.recordFaults, Machine.suspendWords, Machine.suspendedGroups⟩

end Sys2Proof
end

section
/-! SUPPORT. Launches: what intake makes of a descriptor, the codes of its checks, a task that has finished, and the completion of a
launch (02 R40 to R43; 09 R296; 16 R422, R425; 22 R560). -/

namespace Sys2Proof
namespace Machine

/-! ### Intake -/

theorem launchIntake : Claims.LaunchIntake := by
  intro s i rest hi hboot t
  have ht : { s with intake := rest } = t := rfl
  clear_value t
  have hbooted : ¬ s.fw.boot < 6 := by omega
  have hexec : exec .launchIntake s = execLaunchIntake s := exec_launchIntake s
  simp only [execLaunchIntake, hi, hbooted, if_false, ht] at hexec
  refine ⟨fun hnone => ?_, fun bs hbs => ⟨fun ha => ?_, fun c ha hc => ?_, fun h ha hc hm => ?_, fun h n u ha hc hm => ?_⟩⟩
  · rw [hexec, hnone]
  · simp only [hexec, hbs, ha, ne_eq, not_false_eq_true, if_true]
  · simp only [hexec, hbs, ha, hc, ne_eq, not_true_eq_false, if_false]
  · simp only [hexec, hbs, ha, hc, hm, ne_eq, not_true_eq_false, if_false]
  · simp only [hexec, hbs, ha, hc, hm, ne_eq, not_true_eq_false, if_false]

/-! ### The checks of a launch -/

/-- The checks refuse with one of four codes, or a launch passes all of them with the header that its kernel names. -/
theorem checkLaunch_outcome (s : State) (part : Nat) (bs : List Byte) :
    (∃ c, s.checkLaunch part bs = .error c ∧ (c = 1 ∨ c = 2 ∨ c = 3 ∨ c = 4)) ∨
    ∃ hb, s.checkLaunch part bs = .ok (headerOf hb) ∧ descOk bs = true ∧ s.marchRead part (recF bs 0xE 2) (recF bs 0x10 8) 128 = some hb ∧
      headerOk hb = true ∧ (headerOf hb).stages = recF bs 0xC 1 ∧ recF bs 0xC 1 * recF bs 6 2 * recF bs 5 1 ≤ recF bs 0x40 4 ∧
      gangFits (headerOf hb) (recF bs 5 1) = true := by
  unfold State.checkLaunch
  simp only
  split
  · exact .inl ⟨1, rfl, by decide⟩
  next hdesc =>
    split
    · exact .inl ⟨2, rfl, by decide⟩
    next hb hread =>
      split
      · exact .inl ⟨2, rfl, by decide⟩
      next hheader =>
        split
        · exact .inl ⟨1, rfl, by decide⟩
        next hstages =>
          split
          · exact .inl ⟨2, rfl, by decide⟩
          next tab _ =>
            split
            · exact .inl ⟨2, rfl, by decide⟩
            split
            · exact .inl ⟨4, rfl, by decide⟩
            next hroom =>
              split
              · exact .inl ⟨3, rfl, by decide⟩
              next hfits =>
                simp only [Bool.or_eq_true, Bool.not_eq_true', not_or, Bool.not_eq_false] at hdesc hheader hfits
                exact .inr ⟨hb, rfl, hdesc.1, hread, hheader, not_not.1 hstages, Nat.not_lt.1 hroom, hfits⟩

theorem launchChecks : Claims.LaunchChecks := by
  intro s part bs
  refine ⟨fun h => ?_, fun c hc => ?_, fun h hh => ?_⟩
  · unfold State.checkLaunch
    exact if_pos (by simpa using h)
  · rcases checkLaunch_outcome s part bs with ⟨c', hcode, hmem⟩ | ⟨hb, hok, _⟩
    · obtain rfl : c' = c := Except.error.inj (hcode.symm.trans hc)
      exact hmem
    · exact absurd (hok.symm.trans hc) (by simp)
  · rcases checkLaunch_outcome s part bs with ⟨c, hcode, _⟩ | ⟨hb, hok, hdesc, hread, hheader, hstages, hroom, hfits⟩
    · exact absurd (hcode.symm.trans hh) (by simp)
    · obtain rfl : headerOf hb = h := Except.ok.inj (hok.symm.trans hh)
      exact ⟨hdesc, hstages, hroom, hfits, hb, hread, hheader, rfl⟩

/-! ### A task that has finished -/

theorem leaveRoutines_of_none {s : State} {c k : Nat} (h : routinesOf (s.core c) (s.slot c k).id = []) : s.leaveRoutines c k = s := by
  simp only [State.leaveRoutines, h, List.isEmpty_nil, if_true]

theorem SlotsKept.dropScales (s : State) (q : Nat) : SlotsKept s (s.dropScales q) := by
  unfold State.dropScales
  split
  · refine ⟨rfl, fun c k => ?_⟩
    have hslots := Sparse.proj_get_map {} Core.slots
      (fun x : Nat × Core => (x.1, { x.2 with scaleDue := x.2.scaleDue.filter fun d => d.seq ≠ q })) (fun _ => rfl) (fun _ => rfl) s.cores c
    exact congrArg (fun m => Sparse.get {} m k) hslots
  · exact .refl s

theorem SlotsKept.memberGone (s : State) (part handle : Nat) (coord : BitVec 32) (member isDone : Bool) :
    SlotsKept s (s.memberGone part handle coord member isDone) := by
  unfold State.memberGone
  simp only
  split
  · exact .refl s
  · exact .refl s
  · exact .of_cores rfl rfl

/-- The slot of a task that has ended keeps its stream ports and nothing else (02 R43; 16 R425). -/
theorem endTask_slot {s : State} {c k : Nat} (st : TState) (h : routinesOf (s.core c) (s.slot c k).id = []) :
    (s.endTask c k st).slot c k = { ports := (s.slot c k).ports } := by
  unfold State.endTask
  simp only [leaveRoutines_of_none h]
  rw [(SlotsKept.memberGone _ _ _ _ _ _).slot]
  split
  next he =>
    rw [(SlotsKept.dropScales _ _).slot, State.clearSlot, State.slot_setSlot_self, List.isEmpty_iff.1 he]
  next => rw [State.slot_setSlot_self]

theorem finishedTask : Claims.FinishedTask := by
  intro s g hu hfin _ hroutines
  rw [afterGroup_leaves false hu (by simp [hfin]) (by simp [hfin]), hfin]
  exact endTask_slot .done hroutines

/-! ### Completion -/

theorem launchCompletes : Claims.LaunchCompletes := by
  intro s handle x hx hlive hbound
  dsimp only
  rw [exec_launchCompletion, execLaunchCompletion, State.tryComplete]
  simp only [hx, hlive, ne_eq, not_true_eq_false, decide_false, Bool.false_or]
  exact congrArg _ (if_neg (Bool.eq_false_iff.1 hbound))

end Machine

/-- Settles O49: intake by the outcome of its checks, and a finished task by the slot it leaves. -/
theorem launches : Obligations.Launches :=
  ⟨Machine.launchIntake, Machine.launchChecks, Machine.finishedTask, Machine.launchCompletes⟩

end Sys2Proof
end

section
/-! SUPPORT. Dispatch: what a die's decision does in a cycle, the order of ready work, and the context of a first dispatch
(18 R459 to R467; 02 R33, R34). -/

namespace Sys2Proof
namespace Machine

/-- A die with the target reserved of work that is first and cannot be placed, where it has one (18 R465). -/
def State.reserveFor (s : State) (d : Nat) (w : Work) : State :=
  match s.target d w with
  | some x => s.setDie d { s.die d with reserve := some (w.lead.seq, x) }
  | none => s

section
variable {s : State} {d : Nat} {w : Work} {rest : List Work} (hw : s.workOrder d = w :: rest) (hres : (s.die d).reserve = none)
include hw hres

theorem dieDecision_placed {t : State} (ht : s.tryWork d w = some t) : s.dieDecision d = t := by
  simp [State.dieDecision, hw, hres, ht]

/-- Where the first work cannot be placed, room is made, and the first that can be placed then is. -/
theorem dieDecision_makesRoom (ht : s.tryWork d w = none) :
    s.dieDecision d = ((w :: rest).findSome? fun v => ((s.reserveFor d w).makeRoom d w).tryWork d v).getD
      ((s.reserveFor d w).makeRoom d w) := by
  simp only [State.dieDecision, hw, hres, Option.any_none, Bool.false_eq_true, if_false, ht]
  rfl

end

/-- A decision that is due is the die's, and no other follows in the cycle if it changes anything. -/
theorem exec_dispatchDecision_due {s t : State} {d : Nat} (hc : (s.die d).decided ≤ s.cycle) (ht : s.dieDecision d = t) :
    exec (.dispatchDecision d) s = .next (if t = s then s else t.setDie d { t.die d with decided := s.cycle + 1 }) := by
  rw [exec_dispatchDecision, execDispatchDecision, if_neg (Nat.not_lt.2 hc), ht]

theorem dispatchDecisions : Claims.DispatchDecisions := by
  intro s d w rest hw hres decided
  refine ⟨fun hc => ?_, fun hc => ⟨fun t ht => exec_dispatchDecision_due hc (dieDecision_placed hw hres ht), fun ht => ?_⟩⟩
  · rw [exec_dispatchDecision, execDispatchDecision, if_pos hc]
  · exact exec_dispatchDecision_due hc (dieDecision_makesRoom hw hres ht)

/-- The order of R460 is that of three numbers, one after the other. -/
theorem before_iff (s : State) (a b : Work) : s.before a b = true ↔ s.effPrio b.lead < s.effPrio a.lead ∨
    (s.effPrio a.lead = s.effPrio b.lead ∧ (s.arrivedAt a.lead < s.arrivedAt b.lead ∨
      (s.arrivedAt a.lead = s.arrivedAt b.lead ∧ a.lead.addr.toNat < b.lead.addr.toNat))) := by
  simp only [State.before, Bool.or_eq_true, Bool.and_eq_true, decide_eq_true_eq]

theorem workOrder : Claims.WorkOrder := by
  intro s a b c
  refine ⟨before_iff s a b, ?_, fun hab hbc => ?_, fun hne => ?_⟩
  · rw [← Bool.not_eq_true, before_iff]; omega
  · rw [before_iff] at *; omega
  · have hne : a.lead.addr.toNat ≠ b.lead.addr.toNat := fun h => hne (BitVec.eq_of_toNat_eq h)
    rw [before_iff, before_iff]; omega

/-- The context of a record that is no continuation: its own fields, and every other register as after reset (02 R33, R34). -/
theorem freshSlot_initial (id : TaskId) {r : TRec} (hc : r.cont = false) :
    freshSlot id r =
      { st := .running, id := id, codeBase := id.kernel + 128, pc := BitVec.ofNat 32 (recF r.copy 0x20 4),
        tb := { fpc := BitVec.ofNat 32 (recF r.copy 0x38 4) &&& fpcMask },
        files := { s := Sparse.set 0 [] 1 (BitVec.ofNat 64 (recF r.copy 0x28 8)) } } := by
  simp [freshSlot, hc, Slot.wrS]

theorem firstContext : Claims.FirstContext := by
  intro id r hc
  rw [freshSlot_initial id hc]
  refine ⟨rfl, rfl, rfl, rfl, rfl, ?_, fun i hi => ?_, fun i => rfl, fun i hi => ?_, rfl, rfl⟩
  · simp [Slot.rdS]
  · unfold Slot.rdS
    split
    · rfl
    · split
      · exact Sparse.get_set_ne 0 [] _ hi
      · rfl
  · rw [Slot.rdP, if_neg hi]
    show (1 : BitVec 8).getLsbD i = false
    simpa [BitVec.getLsbD_one] using hi

end Machine

/-- Settles O50: a decision by whether the first work can be placed, the order as that of three numbers, and a first context field
by field. -/
theorem dispatch : Obligations.Dispatch := ⟨Machine.dispatchDecisions, Machine.workOrder, Machine.firstContext⟩

end Sys2Proof
end

section
/-! SUPPORT. The register files: what a register reads after a write to one of its file, level by level and cluster by cluster
(03 R61). -/

namespace Sys2Proof
namespace Machine
open Safety

@[simp] theorem setBankOf_files (l : Slot) (v : Level) (b : Bank) : (l.setBankOf v b).files = l.files := by
  unfold Slot.setBankOf; split <;> rfl

/-- The s file of a level is the task's registers up to s119 and the bank's from s120 on. -/
theorem rdS_wrS (l : Slot) (v : Level) (i j : Nat) (x : Word) :
    (l.wrS v i x).rdS v j = if j = i ∧ i ≠ 0 then x else l.rdS v j := by
  by_cases hi : i = 0
  · simp [Slot.wrS, hi]
  by_cases hlow : i < 120
  · have hbank (y : Files) : ({ l with files := y } : Slot).bankOf v = l.bankOf v := rfl
    by_cases hj : j = i
    · simp [Slot.wrS, Slot.rdS, hi, hlow, hj]
    · simp [Slot.wrS, Slot.rdS, hi, hlow, hj, hbank, Sparse.get_set_ne]
  · by_cases hj : j = i
    · simp [Slot.wrS, Slot.rdS, hi, hlow, hj, setBankOf_bank]
    · simp [Slot.wrS, Slot.rdS, hi, hlow, hj, setBankOf_bank, Sparse.get_set_ne]

theorem rdQ_wrQ (l : Slot) (i j : Nat) (x : Word) : (l.wrQ i x).rdQ j = if j = i then x else l.rdQ j :=
  Sparse.get_set ..

/-- A predicate past p7 has no bit: a write to it is lost. -/
theorem rdP_wrP (l : Slot) (v : Level) (i j : Nat) (b : Bool) :
    (l.wrP v i b).rdP v j = if j = i ∧ i ≠ 0 ∧ i < 8 then b else l.rdP v j := by
  by_cases hi : i = 0
  · simp [Slot.wrP, hi]
  by_cases hj : j = 0
  · simp [Slot.rdP, hj, Ne.symm hi]
  have hbit : ((1 <<< i : Nat) : BitVec 8).getLsbD j = decide (j = i ∧ i < 8) := by
    rw [BitVec.natCast_eq_ofNat, BitVec.getLsbD_ofNat, Nat.one_shiftLeft, Nat.testBit_two_pow, ← Bool.decide_and, decide_eq_decide]
    omega
  have hfile : ((l.bankOf v).p.getLsbD j && decide (j < 8)) = (l.bankOf v).p.getLsbD j := by
    rw [Bool.and_eq_left_iff_imp, decide_eq_true_eq]; exact BitVec.lt_of_getLsbD
  simp only [Slot.wrP, Slot.rdP, hi, hj, if_false, setBankOf_bank]
  cases b
  · simp only [Bool.false_eq_true, if_false, BitVec.getLsbD_and, BitVec.getLsbD_not, hbit, ← Bool.and_assoc, hfile]
    by_cases hji : j = i ∧ i < 8 <;> simp [hi, hji]
  · simp only [if_true, BitVec.getLsbD_or, hbit]
    by_cases hji : j = i ∧ i < 8 <;> simp [hi, hji]

/-- Cluster c holds its n registers at the keys from n · c on. -/
theorem cluster_key {n c d i j : Nat} (hi : i < n) (hj : j < n) : n * d + j = n * c + i ↔ d = c ∧ j = i := by
  constructor
  · intro h
    have hd : d = c := by
      have := congrArg (· / n) h
      have hn : 0 < n := by omega
      simpa [Nat.mul_add_div hn, Nat.div_eq_of_lt hi, Nat.div_eq_of_lt hj] using this
    subst hd; exact ⟨rfl, by omega⟩
  · rintro ⟨rfl, rfl⟩; rfl

theorem rdV_wrV (l : Slot) (c d : Nat) {i j : Nat} (y : Vec) (hi : i < 64) (hj : j < 64) :
    (l.wrV c i y).rdV d j = if d = c ∧ j = i then y else l.rdV d j := by
  simp only [Slot.wrV, Slot.rdV, Sparse.get_set, cluster_key hi hj]

theorem rdVq_wrVq (l : Slot) (c d : Nat) {i j : Nat} (y : Vec) (hi : i < 8) (hj : j < 8) :
    (l.wrVq c i y).rdVq d j = if d = c ∧ j = i then y else l.rdVq d j := by
  simp only [Slot.wrVq, Slot.rdVq, Sparse.get_set, cluster_key hi hj]

theorem rdVp_wrVp (l : Slot) (c d : Nat) {i j : Nat} (m : BitVec 16) (hi : i < 8) (hj : j < 8) :
    (l.wrVp c i m).rdVp d j = if d = c ∧ j = i ∧ i ≠ 0 then m else l.rdVp d j := by
  by_cases hi0 : i = 0
  · simp [Slot.wrVp, hi0]
  by_cases hj0 : j = 0
  · simp [Slot.rdVp, hj0, Ne.symm hi0]
  · simp only [Slot.wrVp, Slot.rdVp, hi0, hj0, if_false, Sparse.get_set, cluster_key hi hj, ne_eq, not_false_eq_true, and_true]

end Machine

/-- Settles O7: each file is a sparse map with one key for each register, but for the predicates, which are bits. -/
theorem registerReadAfterWrite : Obligations.RegisterReadAfterWrite := fun l v i j c d x b y m =>
  ⟨Machine.rdS_wrS l v i j x, Machine.rdQ_wrQ l i j x, fun hi => by simp [Machine.rdP_wrP, hi], Machine.rdV_wrV l c d y,
    Machine.rdVq_wrVq l c d y, Machine.rdVp_wrVp l c d m, rfl, rfl, rfl⟩

end Sys2Proof
end

section
/-! SUPPORT. What plain memory reads after a write: the bytes of the run as written, in a counter's word too, and what a write to a
frozen table comes to (03 R68 to R74; 22 R551, R563). -/

namespace Sys2Proof
namespace Machine
open Safety

/-! ### Counters -/

theorem ctrByte_setCtrByte_self (b : Block) (i : Nat) (x : Byte) : (setCtrByte b i x).ctrByte i = x := by
  have hmask : ∀ j < 8, BitVec.getLsbD (0xFF : Word) j = true := by decide
  ext j hj
  have hin : 8 * (i % 8) + j < 64 := by omega
  simp only [Block.ctrByte, setCtrByte, Sparse.get_set_self, BitVec.getElem_setWidth, BitVec.getLsbD_ushiftRight, BitVec.getLsbD_or,
    BitVec.getLsbD_and, BitVec.getLsbD_not, BitVec.getLsbD_shiftLeft, BitVec.getLsbD_setWidth, Nat.add_sub_cancel_left, hmask j hj]
  simp [hin, hj.trans (by decide : 8 < 64), BitVec.getLsbD_eq_getElem hj]

/-- The bytes of a run put into the counters stand there, each where the run has it. -/
theorem ctrByte_foldl_zipIdx (o : Nat) (bs : List Byte) (b : Block) (k i : Nat) (hi : i < bs.length) :
    ((bs.zipIdx k).foldl (fun x y => setCtrByte x (o + y.2) y.1) b).ctrByte (o + k + i) = bs[i] := by
  induction bs generalizing b k i with
  | nil => exact absurd hi (Nat.not_lt_zero i)
  | cons x r ih =>
    rw [List.zipIdx_cons, List.foldl_cons]
    cases i with
    | zero =>
      refine List.foldlRecOn (motive := fun y : Block => y.ctrByte (o + k + 0) = x) _ _ (ctrByte_setCtrByte_self b (o + k) x)
        fun y hy z hz => ?_
      have hz := List.le_snd_of_mem_zipIdx hz
      exact (ctrByte_setCtrByte_ne y (o + z.2) (o + k + 0) z.1 (by omega)).trans hy
    | succ i =>
      rw [List.getElem_cons_succ, ← ih (setCtrByte b (o + k) x) (k + 1) i (Nat.lt_of_succ_lt_succ hi)]
      congr 1; omega

theorem ctrBytes_eq (b : Block) (o n : Nat) : ctrBytes b o n = (List.range n).map fun i => b.ctrByte (o + i) := by
  apply List.map_congr_left
  intro i _
  apply BitVec.eq_of_toNat_eq
  simp [Block.ctrByte]

theorem readSeg_writeSeg_ctr (s : State) (b o : Nat) (bs : List Byte) :
    readSeg (writeSeg s ⟨.ctr b o, bs.length⟩ bs) ⟨.ctr b o, bs.length⟩ = bs := by
  have hw : writeSeg s ⟨.ctr b o, bs.length⟩ bs =
      s.setBlock b (bs.zipIdx.foldl (fun x y => setCtrByte x (o + y.2) y.1) (s.block b)) := rfl
  rw [hw]
  simp only [readSeg, State.block_setBlock_self, ctrBytes_eq]
  apply List.ext_getElem
  · simp
  · intro i _ hi
    rw [List.getElem_map, List.getElem_range]
    exact ctrByte_foldl_zipIdx o bs (s.block b) 0 i hi

/-! ### Frozen tables -/

/-- The partitions whose tables a write would change are all moved to ERROR. -/
theorem foldl_tdi_error (ps : List Nat) (s : State) (p : Nat) (hp : p ∈ ps ∨ (s.part p).tdi = .error) :
    ((ps.foldl (fun s p => s.setPart p { s.part p with tdi := .error }) s).part p).tdi = .error := by
  induction ps generalizing s with
  | nil => simpa using hp
  | cons q r ih =>
    refine ih _ ?_
    by_cases h : p = q
    · right; rw [h, State.part_setPart, if_pos rfl]
    · rw [State.part_setPart, if_neg h]
      simpa [h] using hp

theorem foldl_tdi_hbm (ps : List Nat) (s : State) :
    (ps.foldl (fun s p => s.setPart p { s.part p with tdi := .error }) s).hbm = s.hbm :=
  List.foldlRecOn (motive := fun t : State => t.hbm = s.hbm) ps _ rfl fun _ ht _ _ => ht

theorem wrOpen_frozen {s : State} {a p : Nat} {bs : List Byte} (hp : p ∈ s.frozenBy a bs) :
    (s.wrOpen a bs).hbm = s.hbm ∧ ((s.wrOpen a bs).part p).tdi = .error := by
  have heq : s.wrOpen a bs = (s.frozenBy a bs).foldl (fun s p => s.setPart p { s.part p with tdi := .error }) s := by
    rw [State.wrOpen]
    split
    next h => rw [h] at hp; cases hp
    next => rfl
  rw [heq]
  exact ⟨foldl_tdi_hbm _ s, foldl_tdi_error _ s p (.inl hp)⟩

/-! ### Runs -/

theorem readSeg_writeSeg {s : State} {g : Seg} {bs : List Byte} (hg : plainSeg g = true) (hn : bs.length = g.len)
    (hopen : ∀ a, g.loc = .hbm a → s.unitFrozen (a / 2 ^ 30) = false ∧ s.frozenBy a bs = []) : readSeg (writeSeg s g bs) g = bs := by
  obtain ⟨loc, n⟩ := g
  subst hn
  cases loc with
  | scr c o => simp only [writeSeg, readSeg, State.core_setCore_self, Memory.read_write_same]
  | sync d o => simp only [writeSeg, readSeg, State.die_setDie_self, Memory.read_write_same]
  | flag p o => simp only [writeSeg, readSeg, State.part_setPart_self, Memory.read_write_same]
  | ctr b o => exact readSeg_writeSeg_ctr s b o bs
  | hbm a =>
    obtain ⟨hunit, htab⟩ := hopen a rfl
    simp only [writeSeg, readSeg, hunit, State.wrOpen, htab, Bool.false_eq_true, if_false, wrHbm_hbm, Memory.read_write_same]
  | oor | denied | ext | host | peer => cases hg

theorem memoryReadAfterWrite_plain : Claims.MemoryReadAfterWrite := by
  intro s g bs hg hn
  refine ⟨readSeg_writeSeg hg hn, fun l hl => (writeSeg_within s g bs hg hn.le).bytes l (Bool.eq_false_iff.1 hl),
    fun a p hloc hunit hp => ?_⟩
  have heq : writeSeg s g bs = s.wrOpen a bs := by simp only [writeSeg, hloc, hunit, Bool.false_eq_true, if_false]
  rw [heq]
  exact wrOpen_frozen hp

end Machine

/-- Settles O24: a run is read back place by place, and the frame and the canonical form are those of every write. -/
theorem memoryReadAfterWrite : Obligations.MemoryReadAfterWrite :=
  ⟨Machine.memoryReadAfterWrite_plain, fun _ segs bs h => Safety.memoriesWf_writeSegs h segs bs⟩

end Sys2Proof
end

section
/-! SUPPORT. The windows and the first checks of an access: alignment, then ADDR_UNMAPPED and WINDOW_STRADDLE, then the runs of the
local window (03 R69, R71, R75, R76, R82). -/

namespace Sys2Proof
namespace Machine
open Safety

/-! ### Windows -/

/-- The gaps between the windows of 03 Table 3-2. -/
theorem winOf_eq_none_iff (a : Nat) : winOf a = none ↔
    (0x0100000000000000 ≤ a ∧ a < 0xF000000000000000) ∨ (0xF800000000000000 ≤ a ∧ a < 0xFC00000000000000) ∨
    (0xFC00000000010000 ≤ a ∧ a < 0xFD00000000000000) ∨
    (0xFD00000000000000 ≤ a ∧ a < 0xFD00000008000000 ∧ 0x400000 ≤ (a - 0xFD00000000000000) % 0x1000000) ∨
    (0xFD00000008000000 ≤ a ∧ a < 0xFE00000000000000) ∨ (0xFE00000004000200 ≤ a ∧ a < 0xFF00000000000000) ∨
    0xFF00000000800000 ≤ a := by
  simp only [winOf]
  split_ifs <;> simp only [false_iff, true_iff] <;> omega

theorem winOf_local {o : Nat} (ho : o < 0x800000) : winOf (0xFF00000000000000 + o) = some (.loc, o) := by
  rw [winOf, if_neg (by omega), if_neg (by omega), if_neg (by omega), if_neg (by omega), if_neg (by omega), if_neg (by omega),
    if_pos (by omega), Nat.add_sub_cancel_left]

/-! ### The first checks -/

theorem access_misaligned {s : State} {a align : Nat} (n : Nat) (k : Acc) (vector : Bool) (ha : a % align ≠ 0) :
    s.access k a n align vector = .trap .misalign a s := by
  simp only [State.access, if_pos ha]

theorem access_badWindow {s : State} {a n align : Nat} {c : Cause} (k : Acc) (vector : Bool) (ha : a % align = 0)
    (hc : checkWin a n = .error c) : s.access k a n align vector = .trap c a s := by
  simp only [State.access, ha, hc, ne_eq, not_true_eq_false, if_false]

theorem checkWin_unmapped {a : Nat} (n : Nat) (ha : winOf a = none) : checkWin a n = .error .addrUnmapped := by
  simp only [checkWin, ha]

theorem checkWin_straddle {a n o : Nat} {w : Win} (hn : 0 < n) (ha : winOf a = some (w, o))
    (hend : ∀ o', winOf (a + n - 1) ≠ some (w, o')) : checkWin a n = .error .windowStraddle := by
  simp only [checkWin, ha, hn.ne', if_false]
  split
  next w' o' hw =>
    refine if_neg fun h => hend o' ?_
    rw [hw, h]
  next => rfl

theorem checkWin_inside {a n o o' : Nat} {w : Win} (ha : winOf a = some (w, o)) (hend : winOf (a + n - 1) = some (w, o')) :
    checkWin a n = .ok (w, o) := by
  simp only [checkWin, ha, hend, if_true, ite_self]

theorem windowFaults : Claims.WindowFaults := by
  refine ⟨fun s k a n align v hn ha => ⟨fun hw => ?_, fun w o hw hend => ?_⟩, fun d o hd hlo hhi => ?_, fun p hp a hlo hhi => ?_⟩
  · exact access_badWindow k v ha (checkWin_unmapped n hw)
  · exact access_badWindow k v ha (checkWin_straddle hn hw hend)
  · rw [winOf_eq_none_iff]; omega
  · rw [winOf_eq_none_iff]
    simp only [List.mem_cons, List.not_mem_nil, or_false] at hp
    rcases hp with rfl | rfl | rfl | rfl | rfl | rfl <;> simp only at hlo hhi <;> omega

/-! ### The local window -/

theorem access_local {s : State} {o n align : Nat} (k : Acc) (vector : Bool) (hn : 0 < n) (hin : o + n ≤ 0x800000)
    (ha : (0xFF00000000000000 + o) % align = 0) :
    s.access k (0xFF00000000000000 + o) n align vector = .ok (regionSegs s (s.myAgent 0) s.cur.1 o n) s := by
  have hend : winOf (0xFF00000000000000 + o + n - 1) = some (.loc, o + n - 1) := by
    rw [show 0xFF00000000000000 + o + n - 1 = 0xFF00000000000000 + (o + n - 1) by omega]
    exact winOf_local (by omega)
  have hwin := checkWin_inside (winOf_local (by omega)) hend
  simp only [State.access, ha, ne_eq, not_true_eq_false, if_false, hwin, resolve]
  rfl

/-- A region's bytes below SCRATCH are its scratchpad's, all others out of range. -/
theorem regionSegs_held {s : State} {g : Agent} {core o n : Nat} {r : Region} (hn : 0 < n)
    (hr : (s.core core).region g.handle = some r) :
    (o + n ≤ g.scratch → regionSegs s g core o n = [⟨.scr core (r.base + o), n⟩]) ∧
    (g.scratch ≤ o → regionSegs s g core o n = [⟨.oor, n⟩]) := by
  simp only [regionSegs, hr]
  constructor
  · intro h
    have hk : min n (g.scratch - o) = n := by omega
    simp [hk, hn.ne']
  · intro h
    have hk : min n (g.scratch - o) = 0 := by omega
    simp [hk, hn.ne]

theorem localWindow : Claims.LocalWindow := by
  intro s k o n align v r hn hin ha hr
  rw [access_local k v hn hin ha]
  have held := regionSegs_held (s := s) (g := s.myAgent 0) (o := o) hn hr
  exact ⟨fun h => by rw [held.1 h], fun h => by rw [held.2 h]⟩

/-! ### Misaligned accesses -/

theorem storeBytes_misaligned {s : State} {a align : Nat} (vector : Bool) (bs : List Byte) (ha : a % align ≠ 0) :
    s.storeBytes a align vector bs = .trap .misalign (BitVec.ofNat 64 a) s := by
  simp only [State.storeBytes, access_misaligned bs.length .store vector ha]

theorem runAtom_misaligned {h : Hdr} {f : FmtAT} {s : State} (o : AtomOp) (he : s.me.enabled h = true)
    (ha : (readSpec s.me f.a).toNat % sizeBytes f.size ≠ 0) : runAtom o h f s = faulted .misalign (readSpec s.me f.a) s := by
  refine runPlain_faulted he ?_
  simp only [access_misaligned (sizeBytes f.size) .atomic false ha, BitVec.ofNat_toNat, BitVec.setWidth_eq]

/-- The atomics are one word with ten operations. -/
theorem exec_atom_eq_runAtom (h : Hdr) (f : FmtAT) (s : State) {i : Instr}
    (hi : i ∈ [Instr.atomAdd h f, .atomAnd h f, .atomOr h f, .atomXor h f, .atomMin h f, .atomMax h f, .atomSwap h f, .atomCas h f,
      .atomFadd h f, .atomBfadd h f]) : ∃ o, exec i s = runAtom o h f s := by
  simp only [List.mem_cons, List.not_mem_nil, or_false] at hi
  rcases hi with rfl | rfl | rfl | rfl | rfl | rfl | rfl | rfl | rfl | rfl <;> exact ⟨_, rfl⟩

theorem alignmentFaults : Claims.AlignmentFaults := by
  intro h f g s he
  refine ⟨fun ha i hi => ?_, fun ha i hi => ?_, fun ha i hi => ?_⟩
  · simp only [List.mem_cons, List.not_mem_nil, or_false] at hi
    rcases hi with rfl | rfl
    · rw [exec_ld, execLd]
      exact runPlain_faulted he (by simp only [access_misaligned (sizeBytes f.size) .load false ha])
    · rw [exec_st, execSt]
      exact runPlain_faulted he (storeBytes_misaligned false _ ha)
  · simp only [List.mem_cons, List.not_mem_nil, or_false] at hi
    rcases hi with rfl | rfl
    · rw [exec_ldv, execLdv]
      exact runPlain_faulted he (by simp only [access_misaligned (sizeBytes f.size) .load true ha])
    · rw [exec_stv, execStv]
      exact runPlain_faulted he (storeBytes_misaligned true _ ha)
  · obtain ⟨o, ho⟩ := exec_atom_eq_runAtom h g s hi
    rw [ho]
    exact runAtom_misaligned o he ha

end Machine

/-- Settles O26: the gaps between the windows, and what the window's check makes of the first and the last byte. -/
theorem unmappedAddresses : Obligations.UnmappedAddresses := Machine.windowFaults

/-- Settles O27: a local access resolves to its region's runs, and every access checks alignment first. -/
theorem localWindowAndAlignment : Obligations.LocalWindowAndAlignment := ⟨Machine.localWindow, Machine.alignmentFaults⟩

end Sys2Proof
end

section
/-! SUPPORT. Ring words: what a handle is refused for, what each word makes of one that it takes, and the index of a handle (03 R87 to
R89; 09 R286 to R291). -/

namespace Sys2Proof
namespace Machine
open Safety

/-! ### Handles that a word takes or refuses -/

theorem ringTrap_unfit {x : Word} {roles : Nat → Bool} (h : rhBound x = false ∨ roles (rhRole x) = false) :
    ringTrap x roles = some .perm := by
  rw [ringTrap, if_pos]
  rcases h with h | h <;> simp [h]

theorem ringTrap_ended {x : Word} {roles : Nat → Bool} (hb : rhBound x = true) (hr : roles (rhRole x) = true) (he : rhEos x = true) :
    ringTrap x roles = some .streamEosMisuse := by
  simp [ringTrap, hb, hr, he]

theorem ringTrap_fit {x : Word} {roles : Nat → Bool} (hb : rhBound x = true) (hr : roles (rhRole x) = true) (he : rhEos x = false) :
    ringTrap x roles = none := by
  simp [ringTrap, hb, hr, he]

/-! ### The words -/

section
variable {h : Hdr} {f : FmtT} {s : State} (he : s.me.enabled h = true)
include he

theorem exec_ringGet_trap {c : Cause} (ht : ringTrap (s.ring f) (fun r => r < 2) = some c) :
    exec (.ringGet h f) s = faulted c (BitVec.ofNat 64 (f.imm.extractLsb' 0 5).toNat) s := by
  rw [exec_ringGet, execRingGet]
  exact runPlain_faulted he (by simp only [ht])

theorem exec_ringGet_fit (ht : ringTrap (s.ring f) (fun r => r < 2) = none) :
    exec (.ringGet h f) s = did (if ringHolds (s.ring f) (s.ringStates (s.ring f)) then
        s.landNow (dstRef f.dst) (slotWord (s.ring f) (s.ringStates (s.ring f)))
      else (s.startWait .ringGet (s.ring f) (s.ring f) 0 (.scr s.cur.1 (128 * s.regionLine (rhFirst (s.ring f)))) none (hdrTag h)).await
        (hdrTag h) (dstRef f.dst) .wait) := by
  rw [exec_ringGet, execRingGet]
  exact runPlain_did he (by simp only [ht]; split <;> rfl)

theorem runCommit_trap {c : Cause} (eos : Bool) (ht : ringTrap (s.ring f) (fun r => r = 0) = some c) :
    runCommit h f s eos = faulted c (BitVec.ofNat 64 (f.imm.extractLsb' 0 5).toNat) s :=
  runPlain_faulted he (by simp only [ht])

theorem runCommit_fit (eos : Bool) (ht : ringTrap (s.ring f) (fun r => r = 0) = none) :
    runCommit h f s eos = did ((s.setSlotLines (s.ring f) (fun y => y == lnEmpty || y == lnFull) (if eos then lnEos else lnFull)).setRing f
      (if eos then rhEnd (rhNext (s.ring f)) else rhNext (s.ring f))) :=
  runPlain_did he (by simp only [ht])

theorem exec_ringFree_trap {c : Cause} (ht : ringTrap (s.ring f) (fun r => r = 1) = some c) :
    exec (.ringFree h f) s = faulted c (BitVec.ofNat 64 (f.imm.extractLsb' 0 5).toNat) s := by
  rw [exec_ringFree, execRingFree]
  exact runPlain_faulted he (by simp only [ht])

theorem exec_ringFree_fit (ht : ringTrap (s.ring f) (fun r => r = 1) = none) :
    exec (.ringFree h f) s = did ((s.setSlotLines (s.ring f) (fun _ => true) lnEmpty).setRing f
      (if eosSlot (s.ringStates (s.ring f)) then rhEnd (rhNext (s.ring f)) else rhNext (s.ring f))) := by
  rw [exec_ringFree, execRingFree]
  exact runPlain_did he (by simp only [ht])

theorem exec_ringStat_did : exec (.ringStat h f) s = did (s.landNow (dstRef f.dst)
    (if rhBound (s.ring f) then s.ring f ||| (statCode (s.ringStates (s.ring f)) <<< 1) else s.ring f &&& ~~~(6 : Word))) := by
  rw [exec_ringStat, execRingStat]
  exact runPlain_did he rfl

/-- COMMIT and EOS refuse the same handles. -/
theorem commitWord_trap {c : Cause} {i : Instr} (hi : i ∈ [Instr.ringCommit h f, .ringEos h f])
    (ht : ringTrap (s.ring f) (fun r => r = 0) = some c) :
    exec i s = faulted c (BitVec.ofNat 64 (f.imm.extractLsb' 0 5).toNat) s := by
  simp only [List.mem_cons, List.not_mem_nil, or_false] at hi
  rcases hi with rfl | rfl
  · exact runCommit_trap he false ht
  · exact runCommit_trap he true ht

end

/-! ### BIND -/

/-- What BIND refuses (09 R286): `a` is the range's address and `g` its geometry, log2 of the slots, lines of a slot and role. -/
def bindRefused (scratch a g : Nat) : Prop :=
  a % 128 ≠ 0 ∨ 12 < g % 16 ∨ fld g 11 10 = 3 ∨ 2 ^ 12 ≤ g ∨ scratch < a + 2 ^ (g % 16) * (fld g 9 4 + 1) * 128

/-- The bits of a geometry above its fields are zero where it is small. -/
theorem fld_geometry (g : Word) : fld g.toNat 3 0 = g.toNat % 16 ∧ (fld g.toNat 63 12 = 0 ↔ g.toNat < 2 ^ 12) := by
  have := g.isLt
  simp only [fld]
  omega

theorem exec_ringBind_did {h : Hdr} {f : FmtT} {s : State} (he : s.me.enabled h = true)
    (hn : ¬ bindRefused s.me.id.hdr.scratch (readSpec s.me f.a).toNat (readSpec s.me f.b).toNat) :
    exec (.ringBind h f) s = did (s.setRing f (BitVec.ofNat 64 ((readSpec s.me f.c).toNat % 2 ^ 32 * 2 ^ 32 +
      (readSpec s.me f.a).toNat / 128 * 2 ^ 16 + (readSpec s.me f.b).toNat % 16 * 2 ^ 12 + fld (readSpec s.me f.b).toNat 9 4 * 2 ^ 6 +
      fld (readSpec s.me f.b).toNat 11 10 * 2 ^ 4 + 1))) := by
  obtain ⟨hlog, hhigh⟩ := fld_geometry (readSpec s.me f.b)
  rw [bindRefused] at hn
  push Not at hn
  obtain ⟨ha, hslots, hrole, hg, hlen⟩ := hn
  rw [exec_ringBind, execRingBind]
  refine runPlain_did he ?_
  simp only [hlog, hhigh.2 hg, ha, hrole, hslots.not_gt, hlen.not_gt, ne_eq, not_true_eq_false, decide_false, Bool.or_self,
    Bool.false_eq_true, if_false, Nat.add_sub_cancel]

theorem exec_ringBind_faulted {h : Hdr} {f : FmtT} {s : State} (he : s.me.enabled h = true)
    (hn : bindRefused s.me.id.hdr.scratch (readSpec s.me f.a).toNat (readSpec s.me f.b).toNat) :
    exec (.ringBind h f) s = faulted .misalign (readSpec s.me f.a) s := by
  obtain ⟨hlog, hhigh⟩ := fld_geometry (readSpec s.me f.b)
  rw [exec_ringBind, execRingBind]
  refine runPlain_faulted he ?_
  simp only [hlog]
  rw [if_pos, BitVec.ofNat_toNat, BitVec.setWidth_eq]
  simp only [Bool.or_eq_true, decide_eq_true_eq, ne_eq, hhigh]
  rw [bindRefused] at hn
  omega

theorem ringWords_complete : Claims.RingWords := by
  intro h f s he x st no a g idx
  refine ⟨fun ha hslots hrole hg hlen => ?_, exec_ringBind_faulted he, fun hb hr hend hold => ?_, fun hb hr hend hold => ?_,
    fun hb hr hend => ?_, fun hb hr hend => ?_, exec_ringStat_did he, fun hu => ?_, fun hu i hi => ?_, fun hu => ?_,
    fun hb hend => ⟨fun hr => ?_, fun hr i hi => ?_, fun hr => ?_⟩⟩
  · refine exec_ringBind_did he ?_
    rw [bindRefused]; push Not; exact ⟨ha, hslots, hrole, hg, hlen⟩
  · rw [exec_ringGet_fit he (ringTrap_fit hb (decide_eq_true hr) hend), if_pos hold]
  · rw [exec_ringGet_fit he (ringTrap_fit hb (decide_eq_true hr) hend), if_neg (by rw [hold]; exact Bool.false_ne_true)]
  · have ht := ringTrap_fit (roles := fun r => r = 0) hb (decide_eq_true hr) hend
    exact ⟨runCommit_fit he false ht, runCommit_fit he true ht⟩
  · exact exec_ringFree_fit he (ringTrap_fit hb (decide_eq_true hr) hend)
  · exact exec_ringGet_trap he (ringTrap_unfit (hu.imp_right fun hr => decide_eq_false hr.not_gt))
  · exact commitWord_trap he hi (ringTrap_unfit (hu.imp_right decide_eq_false))
  · exact exec_ringFree_trap he (ringTrap_unfit (hu.imp_right decide_eq_false))
  · exact exec_ringGet_trap he (ringTrap_ended hb (decide_eq_true hr) hend)
  · exact commitWord_trap he hi (ringTrap_ended hb (decide_eq_true hr) hend)
  · exact exec_ringFree_trap he (ringTrap_ended hb (decide_eq_true hr) hend)

/-! ### The index -/

/-- INDEX is the upper half of a handle. -/
theorem rhIndex_eq (h : Word) : rhIndex h = h.toNat / 2 ^ 32 := by
  have := h.isLt
  simp only [rhIndex, fld]
  omega

theorem rhNext_toNat (h : Word) : (rhNext h).toNat = (rhIndex h + 1) % 2 ^ 32 * 2 ^ 32 + h.toNat % 2 ^ 32 := by
  have hlow : h.toNat % 2 ^ 32 < 2 ^ 32 := Nat.mod_lt _ (by decide)
  have hidx : (rhIndex h + 1) % 2 ^ 32 < 2 ^ 32 := Nat.mod_lt _ (by decide)
  rw [rhNext, BitVec.natCast_eq_ofNat, BitVec.toNat_or, BitVec.toNat_ofNat, BitVec.toNat_setWidth, BitVec.toNat_setWidth,
    Nat.mod_eq_of_lt (by omega), Nat.mod_eq_of_lt (a := h.toNat % 2 ^ 32) (by omega), mul_comm, Nat.two_pow_add_eq_or_of_lt hlow]

theorem rhIndex_rhNext (h : Word) : rhIndex (rhNext h) = (rhIndex h + 1) % 2 ^ 32 := by
  rw [rhIndex_eq, rhNext_toNat]; omega

theorem rhNext_fields (h : Word) : (rhNext h).setWidth 32 = h.setWidth 32 := by
  apply BitVec.eq_of_toNat_eq
  rw [BitVec.toNat_setWidth, BitVec.toNat_setWidth, rhNext_toNat]; omega

theorem rhIndex_iterate (h : Word) (n : Nat) : rhIndex (rhNext^[n] h) = (rhIndex h + n) % 2 ^ 32 := by
  induction n with
  | zero => have := h.isLt; rw [Function.iterate_zero_apply, rhIndex_eq]; omega
  | succ n ih => rw [Function.iterate_succ_apply', rhIndex_rhNext, ih]; omega

end Machine

/-- Settles O34: a word refuses its handle or does its one effect, and a handle's index is its upper half. -/
theorem ringWords : Obligations.RingWords :=
  ⟨Machine.ringWords_complete, fun h => ⟨Machine.rhIndex_rhNext h, Machine.rhNext_fields h, Machine.rhIndex_iterate h⟩⟩

end Sys2Proof
end

section
/-! SUPPORT. The close of a group that ends in sequence or at a branch target, and the landing of a scalar result of latency 1 in a slot
with nothing in flight: what it writes, and what it leaves (06 R178; 03 R64). -/

namespace Sys2Proof
namespace Machine
open Safety

/-! ### The close of a group -/

/-- A group that closes without incident: its cycle, then the bubble of a control transfer. -/
theorem finishWord_closed {s : State} (h : Closing s.me) : Closed s (finishWord s) := by
  obtain ⟨g, hg, hlen, htrap, hwalk, huser, hpush, hbrkl, hrpt, hfin, hdefer, hcsrs, hre, hpoint, hend, hbub, hloop, hwait, hwfe⟩ := h
  obtain ⟨hlevel, _, hloops, _, hw, hv, _⟩ := endCycle_frame s.me
  have hbank : s.me.endCycle.1.bank.loops = s.me.bank.loops := by rw [bank_eq, bank_eq, hlevel]; exact hloops _
  have hgroup := group_some hg
  rw [finishWord_closing s g hg hlen htrap hwalk hrpt hdefer hcsrs hend]
  set u := ((s.setMe s.me).setMe { s.me.endCycle.1 with grp := some { g with ctxSet := 0, ctx0 := none } }).tick with hu
  have hme : u.me = { s.me.endCycle.1 with grp := some { g with ctxSet := 0, ctx0 := none } } := by
    rw [hu, State.me_tick, State.me_setMe]
  have hkept : Kept s u := kept_trans (kept_trans (kept_setMe s _) (kept_setMe _ _)) (kept_tick _)
  rw [closeWhole_plain u { g with ctxSet := 0, ctx0 := none } hbrkl hpush hre huser hfin (by rw [hme]; exact hw.trans hwait)
    (by rw [hme]; exact hv.trans hwfe) (fun ht => by rw [hme]; exact hbank ▸ hloop ht) hpoint (fun hb => by rw [hme]; exact hbub hb)]
  rw [hme, Closed, closeOf, cyclesOf, hgroup]
  by_cases hb : g.bubble = true
  · simp only [hb, if_true]
    exact ⟨kept_trans hkept (kept_trans (kept_setMe u _) (kept_tick _)), rfl, by rw [State.me_tick, State.me_setMe]; rfl⟩
  · simp only [hb]
    exact ⟨kept_trans hkept (kept_setMe u _), rfl, State.me_setMe u _⟩

/-! ### What writes of scalar registers leave -/

/-- The registers that a result of the scalar unit lands in. -/
def RegRef.isScalar : RegRef → Bool
  | .s _ | .q _ | .p _ => true
  | _ => false

theorem dstRef_isScalar (d : BitVec 8) : (dstRef d).isScalar = true := by
  unfold dstRef; split <;> rfl

theorem slotKept_refl (l : Slot) (v : Level) (dst : RegRef) : SlotKept l l v dst :=
  ⟨fun _ _ => rfl, fun _ _ => rfl, fun _ _ => rfl, fun _ _ => rfl, fun _ _ => rfl, fun _ _ => rfl, rfl, rfl, rfl, rfl, rfl, rfl⟩

theorem slotKept_trans {l m n : Slot} {v : Level} {dst : RegRef} (h : SlotKept l m v dst) (k : SlotKept m n v dst) :
    SlotKept l n v dst := by
  obtain ⟨hs, hq, hp, hv, hvq, hvp, hf, hl, ht, hc, hlv, hst⟩ := h
  obtain ⟨ks, kq, kp, kv, kvq, kvp, kf, kl, kt, kc, klv, kst⟩ := k
  exact ⟨fun i hi => (ks i hi).trans (hs i hi), fun i hi => (kq i hi).trans (hq i hi), fun i hi => (kp i hi).trans (hp i hi),
    fun c i => (kv c i).trans (hv c i), fun c i => (kvq c i).trans (hvq c i), fun c i => (kvp c i).trans (hvp c i), kf.trans hf,
    kl.trans hl, kt.trans ht, kc.trans hc, klv.trans hlv, kst.trans hst⟩

/-- A change of a bank's scalar registers or its last-result file leaves everything else of the slot. -/
theorem slotKept_setBankOf {l : Slot} {v : Level} {b : Bank} {dst : RegRef}
    (hs : ∀ i, dst ≠ .s i → (l.setBankOf v b).rdS v i = l.rdS v i)
    (hp : ∀ i, dst ≠ .p i → (l.setBankOf v b).rdP v i = l.rdP v i)
    (hf : b.fpc = (l.bankOf v).fpc) (hl : b.loops = (l.bankOf v).loops) (ht : b.tags = (l.bankOf v).tags) :
    SlotKept l (l.setBankOf v b) v dst := by
  refine ⟨hs, fun i _ => ?_, hp, fun c i => ?_, fun c i => ?_, fun c i => ?_, ?_, ?_, ?_, ?_, setBankOf_level l v b, ?_⟩
  · rw [Slot.rdQ, setBankOf_files]; rfl
  · rw [Slot.rdV, setBankOf_files]; rfl
  · rw [Slot.rdVq, setBankOf_files]; rfl
  · rw [Slot.rdVp, setBankOf_files]; rfl
  · rw [setBankOf_bank, hf]
  · rw [setBankOf_bank, hl]
  · rw [setBankOf_bank, ht]
  · unfold Slot.setBankOf; split <;> rfl
  · unfold Slot.setBankOf; split <;> rfl

/-- A write of a scalar register leaves every other register and the last-result file. -/
theorem slotKept_writeRef (l : Slot) (v : Level) (mask : BitVec 16) (x : BitVec 4096) {dst : RegRef} (hd : dst.isScalar = true) :
    SlotKept l (writeRef l v mask x dst) v dst ∧ ((writeRef l v mask x dst).bankOf v).ds = (l.bankOf v).ds := by
  cases dst with
  | s i =>
    have hs (j : Nat) (hj : RegRef.s i ≠ .s j) : (l.wrS v i (x.setWidth 64)).rdS v j = l.rdS v j := by
      rw [rdS_wrS, if_neg fun h => hj (by rw [h.1])]
    simp only [writeRef]
    unfold Slot.wrS at hs ⊢
    split_ifs at hs ⊢ with h0 h120
    · exact ⟨slotKept_refl l v _, rfl⟩
    · exact ⟨⟨hs, fun _ _ => rfl, fun _ _ => rfl, fun _ _ => rfl, fun _ _ => rfl, fun _ _ => rfl, rfl, rfl, rfl, rfl, rfl, rfl⟩, rfl⟩
    · refine ⟨slotKept_setBankOf hs (fun j _ => ?_) rfl rfl rfl, by rw [setBankOf_bank]⟩
      rw [Slot.rdP, setBankOf_bank]; rfl
  | q i =>
    have hq (j : Nat) (hj : RegRef.q i ≠ .q j) : (l.wrQ i (x.setWidth 64)).rdQ j = l.rdQ j := by
      rw [rdQ_wrQ, if_neg fun h => hj (by rw [h])]
    exact ⟨⟨fun _ _ => rfl, hq, fun _ _ => rfl, fun _ _ => rfl, fun _ _ => rfl, fun _ _ => rfl, rfl, rfl, rfl, rfl, rfl, rfl⟩, rfl⟩
  | p i =>
    have hp (j : Nat) (hj : RegRef.p i ≠ .p j) : (l.wrP v i (x.getLsbD 0)).rdP v j = l.rdP v j := by
      rw [rdP_wrP, if_neg fun h => hj (by rw [h.1])]
    by_cases h0 : i = 0
    · simp only [writeRef, Slot.wrP, if_pos h0]
      exact ⟨slotKept_refl l v _, trivial⟩
    · simp only [writeRef, Slot.wrP, if_neg h0] at hp ⊢
      refine ⟨slotKept_setBankOf (fun j _ => ?_) hp rfl rfl rfl, by rw [setBankOf_bank]⟩
      simp only [Slot.rdS, setBankOf_bank, setBankOf_files]
  | v | vq | vp | eng | mcall | none => cases hd

/-- What a scalar register holds after a write depends on what it held before only. -/
theorem readRef_writeRef_congr {l m : Slot} {v : Level} (mask : BitVec 16) (x : BitVec 4096) {dst : RegRef} (hd : dst.isScalar = true)
    (h : readRef m v dst = readRef l v dst) : readRef (writeRef m v mask x dst) v dst = readRef (writeRef l v mask x dst) v dst := by
  cases dst with
  | s i =>
    simp only [readRef, writeRef, rdS_wrS] at h ⊢
    by_cases h0 : i = 0
    · simpa only [h0, ne_eq, not_true_eq_false, and_false, if_false] using h
    · simp only [ne_eq, h0, not_false_eq_true, and_self, if_true]
  | q i => simp only [readRef, writeRef, rdQ_wrQ, if_true]
  | p i =>
    simp only [readRef, writeRef, rdP_wrP] at h ⊢
    by_cases h0 : i ≠ 0 ∧ i < 8
    · obtain ⟨hi, h8⟩ := h0
      simp only [ne_eq, hi, h8, not_false_eq_true, and_self, if_true]
    · simpa only [h0, and_false, if_false] using h
  | v | vq | vp | eng | mcall | none => cases hd

/-! ### A scalar result in flight -/

/-- The last-result entry that a result of the scalar unit makes: none where it is a predicate (03 R64). -/
def RegRef.entryOf (dst : RegRef) (x : Word) : Option Vec :=
  match dst with
  | .s _ | .q _ => some (x.setWidth 512)
  | _ => Option.none

/-- A result of latency 1 and no flags of the scalar unit, as a word puts it in flight. -/
def Slot.scalarLanding (l : Slot) (dst : RegRef) (x : Word) : Landing :=
  ⟨0, dst, 1, x.setWidth 512, 0xFFFF, dst.entryOf x, 0, fpcEn l.fpcNow, l.wpc⟩

theorem scalarResult_eq_launch (l : Slot) (dst : RegRef) (x : Word) : l.scalarResult 1 dst x 0 = l.launch (l.scalarLanding dst x) := by
  cases dst <;> rfl

theorem setBankOf_setBankOf (l : Slot) (v : Level) (a b : Bank) : (l.setBankOf v a).setBankOf v b = l.setBankOf v b := by
  unfold Slot.setBankOf; split <;> rfl

theorem launch_keeps (l : Slot) (x : Landing) : (l.launch x).grp = l.grp ∧ (l.launch x).group = l.group ∧ (l.launch x).wait = l.wait ∧
    (l.launch x).wfe = l.wfe ∧ (l.launch x).bank.loops = l.bank.loops := by
  have hkeep (b : Bank) : (l.setBankOf l.level b).grp = l.grp ∧ (l.setBankOf l.level b).group = l.group ∧
      (l.setBankOf l.level b).wait = l.wait ∧ (l.setBankOf l.level b).wfe = l.wfe := by
    unfold Slot.setBankOf; split <;> exact ⟨rfl, rfl, rfl, rfl⟩
  obtain ⟨hgrp, hgroup, hwait, hwfe⟩ := hkeep { l.bank with inflight := l.bank.inflight ++ [x] }
  refine ⟨hgrp, hgroup, hwait, hwfe, ?_⟩
  simp only [Slot.launch, bank_eq, setBank_eq, setBankOf_level, setBankOf_bank]

theorem readRef_setGroup (l : Slot) (v : Level) (f : Group → Group) (dst : RegRef) : readRef (l.setGroup f) v dst = readRef l v dst := by
  cases dst <;> rfl

theorem setBankOf_setGroup (l : Slot) (v : Level) (b : Bank) (f : Group → Group) :
    (l.setBankOf v b).setGroup f = (l.setGroup f).setBankOf v b := by
  unfold Slot.setBankOf; split <;> rfl

theorem launch_setGroup (l : Slot) (x : Landing) (f : Group → Group) : (l.launch x).setGroup f = (l.setGroup f).launch x :=
  setBankOf_setGroup l l.level _ f

/-- The one result in flight, of latency 1, lands at the end of the cycle. -/
theorem endCycle_launch {l : Slot} {x : Landing} (hl : l.bank.inflight = []) (hx : x.left = 1) :
    (l.launch x).endCycle = (l.land l.level x, fpTraps [x]) := by
  have hbank : ({ l.bankOf l.level with inflight := [] } : Bank) = l.bankOf l.level := by rw [← hl]; rfl
  rw [bank_eq] at hl
  simp only [Slot.launch, bank_eq, setBank_eq, Slot.endCycle, setBankOf_level, setBankOf_bank, setBankOf_setBankOf, hl, List.nil_append,
    List.filter_cons, List.filter_nil, hx, le_refl, lt_self_iff_false, decide_true, decide_false, if_true, Bool.false_eq_true, if_false,
    List.map_nil, hbank, setBankOf_self, List.foldl_cons, List.foldl_nil]

theorem fpTraps_unflagged {x : Landing} (hx : x.flags = 0) : fpTraps [x] = [] := by
  simp [fpTraps, joinWord, hx]

/-- The slot with an entry, if there is one, pushed into the scalar unit's last-result file (03 R64). -/
def Slot.withEntry (l : Slot) (v : Level) (e : Option Vec) : Slot :=
  l.setBankOf v { l.bankOf v with ds := e.elim (l.bankOf v).ds fun x => (x.setWidth 64 :: (l.bankOf v).ds).take 8 }

theorem slotKept_withEntry (l : Slot) (v : Level) (e : Option Vec) (dst : RegRef) : SlotKept l (l.withEntry v e) v dst := by
  refine slotKept_setBankOf (fun i _ => ?_) (fun i _ => ?_) rfl rfl rfl
  · simp only [Slot.rdS, setBankOf_bank, setBankOf_files]
  · simp only [Slot.rdP, setBankOf_bank]

theorem readRef_withEntry (l : Slot) (v : Level) (e : Option Vec) {dst : RegRef} (hd : dst.isScalar = true) :
    readRef (l.withEntry v e) v dst = readRef l v dst := by
  -- Kept for a destination that names none of the three files, so for each of them.
  obtain ⟨hs, hq, hp, -⟩ := slotKept_withEntry l v e .none
  cases dst with
  | s i => simp only [readRef, hs i nofun]
  | q i => simp only [readRef, hq i nofun]
  | p i => simp only [readRef, hp i nofun]
  | v | vq | vp | eng | mcall | none => cases hd

/-- A scalar result without flags lands in its register, and in the last-result file where it makes an entry. -/
theorem land_scalar {l : Slot} {x : Landing} (v : Level) (hu : x.unit = 0) (hf : x.flags = 0) :
    l.land v x = (writeRef l v x.mask (x.val.setWidth 4096) x.dst).withEntry v x.entry := by
  have hfpc (b : Bank) : { b with fpc := b.fpc ||| ((0 : Fl).setWidth 32 <<< 8) } = b := by simp
  simp only [Slot.land, hu, hf, if_true, hfpc, setBankOf_self]
  cases x.entry with
  | none => exact (setBankOf_self _ v).symm
  | some e => rfl

/-! ### The word's group -/

/-- A group that would close closes with a result without flags in flight too. -/
theorem closing_launch {l : Slot} {x : Landing} {f : Group → Group} (h : Closing l) (hl : l.bank.inflight = []) (hx : x.left = 1)
    (hf : x.flags = 0) (hb : l.group.bubble = false) (hg : ∀ g : Group, ∃ p, f g = { g with perf := p }) :
    Closing ((l.launch x).setGroup f) := by
  obtain ⟨g, hgrp, hlen, htrap, hwalk, huser, hpush, hbrkl, hrpt, hfin, hdefer, hcsrs, hre, hpoint, -, -, hloop, hwait, hwfe⟩ := h
  obtain ⟨p, hp⟩ := hg g
  obtain ⟨-, -, kwait, kwfe, kloops⟩ := launch_keeps (l.setGroup f) x
  rw [group_some hgrp] at hb
  have hend := endCycle_launch (l := l.setGroup f) hl hx
  have hg' : ((l.launch x).setGroup f).grp = some { g with perf := p } := by
    rw [Slot.setGroup_grp, (launch_keeps l x).2.1, group_some hgrp, hp]
  refine ⟨_, hg', hlen, htrap, hwalk, huser, hpush, hbrkl, hrpt, hfin, hdefer, hcsrs, hre, hpoint, ?_, fun h => ?_,
    fun ht => ?_, ?_, ?_⟩
  · rw [launch_setGroup, hend, fpTraps_unflagged hf]
  · rw [hb] at h; cases h
  · rw [launch_setGroup, kloops]; exact hloop ht
  · rw [launch_setGroup, kwait]; exact hwait
  · rw [launch_setGroup, kwfe]; exact hwfe

/-- The group in progress with the word marked that has performed. -/
def Group.markWord (g : Group) : Group := { g with perf := g.perf ||| (1 <<< g.idx) }

/-- A scalar result, alone in a group that closes in sequence, lands at the group's end. -/
theorem finishWord_scalarResult {s t : State} {dst : RegRef} {x : Word} (ht : t = finishWord (result s 1 dst x 0).markPerf)
    (hc : Closing s.me) (hl : s.me.bank.inflight = []) (htarget : s.me.group.target = none) (hb : s.me.group.bubble = false) :
    Kept s t ∧ t.cycle = s.cycle + 1 ∧
    t.me = { (s.me.setGroup Group.markWord).land s.me.level (s.me.scalarLanding dst x) with
      pc := s.me.group.seqPc, grp := none, walk := none } := by
  set u := (result s 1 dst x 0).markPerf with hu
  have hme : u.me = (s.me.launch (s.me.scalarLanding dst x)).setGroup Group.markWord := by
    rw [hu, State.markPerf, result, State.me_setMe, State.me_setMe, scalarResult_eq_launch]; rfl
  have hgroup : u.me.group = s.me.group.markWord := by rw [hme, Slot.setGroup_group, (launch_keeps s.me _).2.1]
  have hclosing : Closing u.me := by rw [hme]; exact closing_launch hc hl rfl rfl hb fun g => ⟨_, rfl⟩
  have hbub : s.me.group.markWord.bubble = false := hb
  have htar : s.me.group.markWord.target = none := htarget
  obtain ⟨hkept, hcycle, hslot⟩ := finishWord_closed hclosing
  rw [ht]
  refine ⟨kept_trans (kept_trans (kept_setMe s _) (kept_setMe _ _)) hkept, ?_, ?_⟩
  · rw [hcycle, cyclesOf, hgroup, hbub, if_neg Bool.false_ne_true]; rfl
  · rw [hslot, closeOf, hgroup, hbub, htar, hme, launch_setGroup, endCycle_launch (l := s.me.setGroup Group.markWord) hl rfl]
    rfl

/-- What the landing of a scalar result leaves of the slot, and what it makes of the register and of the last-result file. -/
theorem land_scalarLanding (l m : Slot) (v : Level) {dst : RegRef} (x : Word) (hd : dst.isScalar = true) :
    SlotKept l (l.land v (m.scalarLanding dst x)) v dst ∧
    readRef (l.land v (m.scalarLanding dst x)) v dst = readRef (writeRef l v 0xFFFF (x.setWidth 4096) dst) v dst ∧
    ((l.land v (m.scalarLanding dst x)).bankOf v).ds =
      (dst.entryOf x).elim (l.bankOf v).ds fun _ => (x :: (l.bankOf v).ds).take 8 := by
  have hval : ((x.setWidth 512).setWidth 4096 : BitVec 4096) = x.setWidth 4096 := BitVec.setWidth_setWidth (h := by decide)
  have hentry : ((x.setWidth 512).setWidth 64 : Word) = x := by rw [BitVec.setWidth_setWidth (h := by decide), BitVec.setWidth_eq]
  obtain ⟨hkept, hds⟩ := slotKept_writeRef l v 0xFFFF (x.setWidth 4096) hd
  have hland : l.land v (m.scalarLanding dst x) = (writeRef l v 0xFFFF (x.setWidth 4096) dst).withEntry v (dst.entryOf x) := by
    rw [land_scalar v rfl rfl, ← hval]; rfl
  rw [hland]
  refine ⟨slotKept_trans hkept (slotKept_withEntry _ v _ dst), readRef_withEntry _ v _ hd, ?_⟩
  rw [Slot.withEntry, setBankOf_bank, hds]
  cases dst with
  | s | q => simp only [RegRef.entryOf, Option.elim_some, hentry]
  | v | vq | p | vp | eng | mcall | none => rfl

theorem readRef_closed (l : Slot) (v : Level) (pc : BitVec 32) (dst : RegRef) :
    readRef { l with pc := pc, grp := none, walk := none } v dst = readRef l v dst := by
  cases dst <;> rfl

theorem scalarResult_done {s : State} {dst : RegRef} (x : Word) (hd : dst.isScalar = true) (hc : Closing s.me)
    (hl : s.me.bank.inflight = []) (ht : s.me.group.target = none) (hb : s.me.group.bubble = false) :
    ScalarDone s (finishWord (result s 1 dst x 0).markPerf) dst x := by
  obtain ⟨hkept, hcycle, hme⟩ := finishWord_scalarResult rfl hc hl ht hb
  obtain ⟨hk, hread, hds⟩ := land_scalarLanding (s.me.setGroup Group.markWord) s.me s.me.level x hd
  have hlevel : ((s.me.setGroup Group.markWord).land s.me.level (s.me.scalarLanding dst x)).level = s.me.level :=
    (landFrame_land ..).level
  generalize (s.me.setGroup Group.markWord).land s.me.level (s.me.scalarLanding dst x) = m at hme hk hread hds hlevel
  refine ⟨hkept, hcycle, by rw [hme], by rw [hme], ?_, ?_, ?_⟩
  · have hmlevel : ({ m with pc := s.me.group.seqPc, grp := none, walk := none } : Slot).level = s.me.level := hlevel
    rw [hme, hmlevel, readRef_closed]
    exact hread.trans (readRef_writeRef_congr 0xFFFF _ hd (readRef_setGroup ..))
  · rw [hme]
    refine hds.trans ?_
    cases dst <;> rfl
  · rw [hme]
    exact hk

/-! ### The words -/

/-- LEA has one sum in each of its forms. -/
def leaValue (r : RRI) (l : Slot) : Word :=
  match r with
  | .rr f => readSpec l f.a + (readSpec l f.b <<< (f.aux.extractLsb' 0 2).toNat)
  | .ri f => readSpec l f.a + ((f.imm.signExtend 64) <<< (f.modLow.extractLsb' 0 2).toNat)

theorem exec_lea_value (h : Hdr) (r : RRI) (s : State) :
    exec (.lea h r) s = runScalar h s 1 (dstRef (rriDst r)) fun l => (leaValue r l, 0) := by
  rw [exec_lea, execLea]; cases r <;> rfl

/-- The integer words are one word with sixteen operations. -/
theorem exec_int_eq_runInt {h : Hdr} {r : RRI} {i : Instr} (s : State)
    (hi : i ∈ [Instr.add h r, .sub h r, .mul h r, .mulHi h r, .divI h r, .divRem h r, .andI h r, .orI h r, .xorI h r, .andn h r,
      .shl h r, .shr h r, .sra h r, .rot h r, .minI h r, .maxI h r]) : ∃ o, exec i s = runInt o h r s := by
  simp only [List.mem_cons, List.not_mem_nil, or_false] at hi
  rcases hi with rfl | rfl | rfl | rfl | rfl | rfl | rfl | rfl | rfl | rfl | rfl | rfl | rfl | rfl | rfl | rfl <;> exact ⟨_, rfl⟩

theorem exec_move_eq_runScalar {h : Hdr} {m : FmtRI} {i : Instr} (s : State) (hi : i ∈ [Instr.movi h m, .movhi h m]) :
    ∃ g : Slot → Word, exec i s = runScalar h s 1 (dstRef m.dst) fun l => (g l, 0) := by
  simp only [List.mem_cons, List.not_mem_nil, or_false] at hi
  rcases hi with rfl | rfl
  · exact ⟨_, exec_movi h m s⟩
  · exact ⟨_, exec_movhi h m s⟩

theorem exec_bits_eq_runBits {h : Hdr} {f : FmtRR} {i : Instr} (s : State)
    (hi : i ∈ [Instr.bitsClz h f, .bitsCtz h f, .bitsPopc h f, .bitsBrev h f, .bitsBfx h f, .bitsBfi h f, .bitsAbs h f, .bitsNeg h f]) :
    ∃ g, exec i s = runBits h f s g := by
  simp only [List.mem_cons, List.not_mem_nil, or_false] at hi
  rcases hi with rfl | rfl | rfl | rfl | rfl | rfl | rfl | rfl
  · exact ⟨_, exec_bitsClz h f s⟩
  · exact ⟨_, exec_bitsCtz h f s⟩
  · exact ⟨_, exec_bitsPopc h f s⟩
  · exact ⟨_, exec_bitsBrev h f s⟩
  · exact ⟨_, exec_bitsBfx h f s⟩
  · exact ⟨_, exec_bitsBfi h f s⟩
  · exact ⟨_, exec_bitsAbs h f s⟩
  · exact ⟨_, exec_bitsNeg h f s⟩

theorem exec_plog_eq_runPlog {h : Hdr} {f : FmtRR} {i : Instr} (s : State)
    (hi : i ∈ [Instr.plogAnd h f, .plogOr h f, .plogXor h f, .plogAndn h f]) : ∃ op, exec i s = runPlog h f s op := by
  simp only [List.mem_cons, List.not_mem_nil, or_false] at hi
  rcases hi with rfl | rfl | rfl | rfl
  · exact ⟨_, exec_plogAnd h f s⟩
  · exact ⟨_, exec_plogOr h f s⟩
  · exact ⟨_, exec_plogXor h f s⟩
  · exact ⟨_, exec_plogAndn h f s⟩

/-- Whatever its class and operands, a scalar word of latency 1 is one value for its register, without flags. -/
theorem scalarWord_runs {h : Hdr} {f : FmtRR} {r : RRI} {m : FmtRI} {cc : Cc} {p : Instr × RegRef} (hp : p ∈ scalarWords h f r m cc)
    (s : State) : p.2.isScalar = true ∧ ∃ g : Slot → Word, exec p.1 s = runScalar h s 1 p.2 fun l => (g l, 0) := by
  simp only [scalarWords, List.mem_append, List.mem_map, List.mem_singleton] at hp
  rcases hp with (((⟨i, hi, rfl⟩ | ⟨i, hi, rfl⟩) | ⟨i, hi, rfl⟩) | ⟨i, hi, rfl⟩) | rfl
  · refine ⟨dstRef_isScalar _, ?_⟩
    by_cases hlea : i = .lea h r
    · exact ⟨leaValue r, hlea ▸ exec_lea_value h r s⟩
    · obtain ⟨o, ho⟩ := exec_int_eq_runInt (h := h) (r := r) s (by simpa [hlea] using hi)
      exact ⟨_, ho⟩
  · exact ⟨dstRef_isScalar _, exec_move_eq_runScalar s hi⟩
  · refine ⟨dstRef_isScalar _, ?_⟩
    rcases List.mem_cons.1 hi with rfl | hi
    · exact ⟨_, exec_sel h f s⟩
    · obtain ⟨g, hg⟩ := exec_bits_eq_runBits s hi
      exact ⟨_, hg⟩
  · obtain ⟨op, ho⟩ := exec_plog_eq_runPlog s hi
    exact ⟨rfl, _, ho⟩
  · exact ⟨rfl, _, exec_cmp h cc r s⟩

theorem scalarWordsLand_alone : Claims.ScalarWordsLand := by
  intro s h f r m cc hc hl ht hb he p hp
  obtain ⟨hd, g, hrun⟩ := scalarWord_runs hp s
  exact ⟨_, g s.me, hrun.trans (runScalar_enabled h s 1 p.2 _ he), scalarResult_done (g s.me) hd hc hl ht hb⟩

theorem launch_inflight (l : Slot) (x : Landing) : (l.launch x).bank.inflight = l.bank.inflight ++ [x] := by
  simp only [Slot.launch, bank_eq, setBank_eq, setBankOf_level, setBankOf_bank]

/-- A nullified result writes no register: where it has an entry, that is what the register holds. -/
theorem nullResult_inflight (l : Slot) (dst : RegRef) : ∀ x ∈ (l.nullResult 1 dst).bank.inflight.drop l.bank.inflight.length,
    x.dst = .none ∧ x.flags = 0 ∧ x.entry = some (readRef l l.level dst) := by
  intro x hx
  cases dst with
  | s | q =>
    simp only [Slot.nullResult, launch_inflight, List.drop_left, List.mem_singleton] at hx
    subst hx
    exact ⟨rfl, rfl, rfl⟩
  | v | vq | p | vp | eng | mcall | none =>
    simp only [Slot.nullResult, List.drop_length] at hx
    cases hx

theorem nullifiedWords : Claims.NullifiedWords := by
  intro s h f r m cc he p hp
  obtain ⟨-, g, hrun⟩ := scalarWord_runs hp s
  exact ⟨hrun.trans (runScalar_nullified h s 1 p.2 _ he), nullResult_inflight s.me p.2⟩

end Machine

/-- Settles O14: each word is one value for its register, which lands as the group closes. -/
theorem scalarWordsLand : Obligations.ScalarWordsLand := ⟨Machine.scalarWordsLand_alone, Machine.nullifiedWords⟩

end Sys2Proof
end

section
/-! SUPPORT. Vector elements: an element of a packed value reads back, a lane of a merged value is one of the two lanes, and what the
landing of a vector result changes (08 R233, R235; 06 R189). -/

namespace Sys2Proof
namespace Machine
open Safety

/-! ### Elements -/

theorem packElems_div_mod (w : Nat) (xs : List Nat) (e : Nat) (he : e < xs.length) :
    packElems w xs / 2 ^ (w * e) % 2 ^ w = xs[e] % 2 ^ w := by
  induction xs generalizing e with
  | nil => cases he
  | cons x xs ih =>
    cases e with
    | zero => simp only [packElems, Nat.mul_zero, pow_zero, Nat.div_one, Nat.add_mul_mod_self_left, Nat.mod_mod, List.getElem_cons_zero]
    | succ e =>
      have hshift : (x % 2 ^ w + 2 ^ w * packElems w xs) / 2 ^ w = packElems w xs := by
        rw [Nat.add_mul_div_left _ _ (Nat.two_pow_pos w), Nat.div_eq_of_lt (Nat.mod_lt _ (Nat.two_pow_pos w)), Nat.zero_add]
      rw [packElems, Nat.mul_succ, Nat.add_comm (w * e), pow_add, ← Nat.div_div_eq_div_mul, hshift, List.getElem_cons_succ]
      exact ih e (Nat.lt_of_succ_lt_succ he)

/-- An element that lies in the low n bits does not see the others. -/
theorem bitsAt_ofNat {n i w : Nat} (x : Nat) (h : i + w ≤ n) : bitsAt (BitVec.ofNat n x).toNat i w = bitsAt x i w := by
  have hdvd : 2 ^ i * 2 ^ w ∣ 2 ^ n := by rw [← pow_add]; exact pow_dvd_pow 2 h
  simp only [bitsAt, BitVec.toNat_ofNat, Nat.shiftRight_eq_div_pow, ← Nat.mod_mul_right_div_self, Nat.mod_mod_of_dvd _ hdvd]

theorem elemOf_packVec {w e : Nat} (g : Nat → Nat) (he : e < 512 / w) : elemOf w (packVec w g) e = g e % 2 ^ w := by
  have hw : 0 < w := Nat.pos_of_ne_zero fun h => by simp [h] at he
  have hfit : w * e + w ≤ 512 := by
    rw [← Nat.mul_succ, Nat.mul_comm]; exact (Nat.le_div_iff_mul_le hw).1 he
  rw [elemOf, packVec, bitsAt_ofNat _ hfit, bitsAt, Nat.shiftRight_eq_div_pow,
    packElems_div_mod w _ e (by rwa [List.length_map, List.length_range]), List.getElem_map, List.getElem_range]

theorem lane_eq_elemOf (v : Vec) (n : Nat) : lane v n = BitVec.ofNat 32 (elemOf 32 v n) := by
  apply BitVec.eq_of_toNat_eq
  simp only [lane, elemOf, bitsAt, BitVec.toNat_ofNat, Nat.mod_mod]

theorem lane_vecOfLanes (f : Nat → Lane) {n : Nat} (hn : n < 16) : lane (vecOfLanes f) n = f n := by
  have hpack : vecOfLanes f = packVec 32 fun i => (f i).toNat := rfl
  rw [hpack, lane_eq_elemOf, elemOf_packVec _ hn, Nat.mod_eq_of_lt (f n).isLt, BitVec.ofNat_toNat, BitVec.setWidth_eq]

theorem lane_mergeLanes (mask : BitVec 16) (x y : Vec) {n : Nat} (hn : n < 16) :
    lane (mergeLanes mask x y) n = if mask.getLsbD n then lane x n else lane y n :=
  lane_vecOfLanes _ hn

/-! ### The landing of a vector result -/

theorem clusters_one {c : Nat} (hc : c < 8) : clusters (1 <<< c) = [c] := by
  revert c; decide

theorem extractLsb'_placeVec (c : Nat) (hc : c < 8) (x : Vec) : (placeVec (c + 1) x).extractLsb' (512 * c) 512 = x := by
  apply BitVec.eq_of_getLsbD_eq
  intro i hi
  have h1 : 512 * c + i < 4096 := by omega
  simp [placeVec, hi, h1]

/-- A slot with a vector register written and a cluster's last-result file replaced. -/
def Slot.withVector (l : Slot) (c i : Nat) (y : Vec) (dv : SMap (List Vec)) : Slot :=
  { l with files := { (l.wrV c i y).files with dv := dv } }

/-- A vector result lands as a write of the enabled lanes of its register, an entry in its cluster's last-result file and its flags. -/
theorem land_vector {l : Slot} {v : Level} {x : Landing} {c i : Nat} (hc : c < 8) (hu : x.unit = c + 1) (hd : x.dst = .v (1 <<< c) i) :
    ∃ dv, l.land v x = (l.withVector c i (mergeLanes x.mask x.val (l.rdV c i)) dv).setBankOf v
      { l.bankOf v with fpc := (l.bankOf v).fpc ||| (x.flags.setWidth 32 <<< 8) } := by
  have hwrite : writeRef l v x.mask (placeVec x.unit x.val) x.dst = l.wrV c i (mergeLanes x.mask x.val (l.rdV c i)) := by
    rw [hd, hu]; simp only [writeRef, clusters_one hc, List.foldl_cons, List.foldl_nil, extractLsb'_placeVec c hc]
  have hunit : x.unit ≠ 0 := by omega
  have hbank (y : Files) : ({ l with files := y } : Slot).bankOf v = l.bankOf v := rfl
  simp only [Slot.land, if_neg hunit, hwrite, Slot.pushEntry, Slot.wrV, Slot.withVector]
  generalize mergeLanes x.mask x.val (l.rdV c i) = y, (x.flags.setWidth 32 <<< 8 : BitVec 32) = fl
  cases x.entry with
  | none => exact ⟨l.files.dv, by simp only [hbank]⟩
  | some e => exact ⟨_, by simp only [hbank]; rfl⟩

section
variable (l : Slot) (v : Level) (c i : Nat) (y : Vec) (dv : SMap (List Vec)) (fpc : BitVec 32)

/-- The change of a flag register and of one vector register leaves every scalar register and every lane mask. -/
theorem withVector_frame :
    let m := (l.withVector c i y dv).setBankOf v { l.bankOf v with fpc := fpc }
    (∀ j, m.rdS v j = l.rdS v j) ∧ (∀ j, m.rdQ j = l.rdQ j) ∧ (∀ j, m.rdP v j = l.rdP v j) ∧ (∀ d j, m.rdVq d j = l.rdVq d j) ∧
      (∀ d j, m.rdVp d j = l.rdVp d j) := by
  refine ⟨fun j => ?_, fun j => ?_, fun j => ?_, fun d j => ?_, fun d j => ?_⟩
  · simp only [Slot.rdS, setBankOf_bank, setBankOf_files]; rfl
  · simp only [Slot.rdQ, setBankOf_files]; rfl
  · simp only [Slot.rdP, setBankOf_bank]
  · simp only [Slot.rdVq, setBankOf_files]; rfl
  · simp only [Slot.rdVp, setBankOf_files]; rfl

theorem rdV_withVector {i j : Nat} (d : Nat) (b : Bank) (hi : i < 64) (hj : j < 64) :
    ((l.withVector c i y dv).setBankOf v b).rdV d j = if d = c ∧ j = i then y else l.rdV d j := by
  rw [← rdV_wrV l c d y hi hj, Slot.rdV, setBankOf_files]; rfl

end

theorem vectorLandingFrame : Claims.VectorLandingFrame := by
  intro l v x c i hc hi hu hd
  obtain ⟨dv, hland⟩ := land_vector (l := l) (v := v) hc hu hd
  have hrest := (landFrame_land l v x).rest
  obtain ⟨hs, hq, hp, hvq, hvp⟩ := withVector_frame l v c i (mergeLanes x.mask x.val (l.rdV c i)) dv
    ((l.bankOf v).fpc ||| (x.flags.setWidth 32 <<< 8))
  rw [← hland] at hs hq hp hvq hvp
  refine ⟨fun d j n _ hj hn => ?_, hs, hq, hp, hvq, hvp, ?_, by rw [hrest], (landFrame_land l v x).level, by rw [hrest]⟩
  · rw [hland, rdV_withVector _ _ _ _ _ d _ hi hj]
    by_cases hreg : d = c ∧ j = i
    · obtain ⟨rfl, rfl⟩ := hreg
      simp only [and_self, true_and, if_true, lane_mergeLanes _ _ _ hn]
    · rw [if_neg hreg, if_neg fun ⟨hcluster, hindex, _⟩ => hreg ⟨hcluster, hindex⟩]
  · rw [hland, setBankOf_bank]

end Machine

/-- Settles O20: an element of a packed value is a digit of it, and a landing is one register write in its cluster. -/
theorem vectorElementsLand : Obligations.VectorElementsLand :=
  ⟨fun _ _ g _ he => Machine.elemOf_packVec g he, Machine.vectorLandingFrame⟩

end Sys2Proof
end

section
/-! SUPPORT. Reductions: the tree of R126 as sums of pairs, and how VEXT and the VRED words put their values in flight (08 R251, R254). -/

namespace Sys2Proof
namespace Machine
open Safety

/-- How two elements of the tree join: an absent one leaves the other as it is (04 R126). -/
def redJoin {α : Type} (op : α → α → α × Fl) : Option α → Option α → Option α × Fl
  | some a, some b => (some (op a b).1, (op a b).2)
  | some a, none => (some a, 0)
  | none, y => (y, 0)

/-- One level of the tree: the two halves join pair by pair (04 R126). -/
theorem redTree_succ {α : Type} (op : α → α → α × Fl) (k : Nat) (fl : Fl) (xs : List (Option α)) :
    redTree op (k + 1) fl xs =
      (let rs := (xs.take (2 ^ k)).zipWith (redJoin op) (xs.drop (2 ^ k))
       redTree op k (rs.foldl (fun a r => a ||| r.2) fl) (rs.map (·.1))) := by
  rw [redTree]; rfl

theorem redJoin_add (x y : Option Int) : (redJoin (fun a b => (a + b, (0 : Fl))) x y).1.getD 0 = x.getD 0 + y.getD 0 := by
  cases x <;> cases y <;> simp [redJoin]

theorem sum_zipWith_redJoin (xs ys : List (Option Int)) (h : xs.length = ys.length) :
    (((xs.zipWith (redJoin fun a b => (a + b, (0 : Fl))) ys).map (·.1)).map fun x => x.getD 0).sum =
      (xs.map fun x => x.getD 0).sum + (ys.map fun x => x.getD 0).sum := by
  induction xs generalizing ys with
  | nil => cases ys with
    | nil => rfl
    | cons => cases h
  | cons x xs ih => cases ys with
    | nil => cases h
    | cons y ys =>
      simp only [List.zipWith_cons_cons, List.map_cons, List.sum_cons, redJoin_add, ih ys (Nat.succ.inj h)]
      omega

theorem redTree_add (d : Nat) (fl : Fl) (xs : List (Option Int)) (h : xs.length = 2 ^ d) :
    ((redTree (fun a b => (a + b, (0 : Fl))) d fl xs).1).getD 0 = (xs.map fun x => x.getD 0).sum := by
  induction d generalizing fl xs with
  | zero =>
    obtain ⟨x, rfl⟩ := List.length_eq_one_iff.1 h
    simp [redTree]
  | succ k ih =>
    have htake : (xs.take (2 ^ k)).length = 2 ^ k := by rw [List.length_take]; omega
    have hdrop : (xs.drop (2 ^ k)).length = 2 ^ k := by rw [List.length_drop]; omega
    calc ((redTree (fun a b => (a + b, (0 : Fl))) (k + 1) fl xs).1).getD 0
        = _ := by rw [redTree_succ, ih _ _ (by simp only [List.length_map, List.length_zipWith, htake, hdrop, min_self])]
      _ = ((xs.take (2 ^ k)).map fun x => x.getD 0).sum + ((xs.drop (2 ^ k)).map fun x => x.getD 0).sum :=
        sum_zipWith_redJoin _ _ (htake.trans hdrop.symm)
      _ = (xs.map fun x => x.getD 0).sum := by
        rw [← List.sum_append, ← List.map_append, List.take_append_drop]

/-- A V word of fixed latency puts what it computes for each cluster in flight. -/
theorem runVector_did (h : Hdr) (s : State) (lat : Nat) (f : FmtRR) (g : Slot → Nat → BitVec 16 → Vec × Fl) :
    runVector h s lat f.cmask f.dst g = did (vectorOut h s lat f (g s.me)) := rfl

/-- VEXT puts its element in flight where the element's lowest lane is enabled, and the nullified result elsewhere. -/
theorem exec_vext_did (h : Hdr) (f : FmtRR) (s : State) :
    let w := WellFormed.tyWidth f.ty
    let c := (clusters f.cmask).headD 0
    let e := (readSpec s.me f.b).toNat % (512 / w)
    let x := vElem s.me f.ty c f.a e
    exec (.vext h f) s = did (s.setMe { (if (s.me.laneMask h c).getLsbD (w * e / 32)
      then s.me.scalarResult 2 (dstRef f.dst) (if WellFormed.tySigned f.ty then BitVec.ofInt 64 (sintNat w x) else BitVec.ofNat 64 x) 0
      else s.me.nullResult 2 (dstRef f.dst)) with vIssued := true }) := rfl

/-- The result of an integer reduction in one cluster: the tree over the elements as TYPE reads them, in every element. -/
theorem runVred_int {f : FmtRR} (h : Hdr) (s : State) (iop : Int → Int → Int) (fop : FpOp) (iid : Int) (fid : Nat)
    (hf : tyIsFloat f.ty = false) :
    runVred h f s iop fop iid fid = did (vectorOut h s 4 f fun c m =>
      let w := WellFormed.tyWidth f.ty
      let r := ((redTree (fun a b => (iop a b, 0)) (if w = 64 then 3 else 4) 0
        ((redElems s.me f c m).map fun x => x.map (tyVal f.ty))).1).getD iid
      (packVec w fun _ => truncInt w (if f.aux.getLsbD 0 then clampInt (tyMin f.ty) (tyMax f.ty) r else r), 0)) := by
  rw [runVred, runVector_did]; simp only [hf, Bool.false_eq_true, if_false]

theorem runVred_float {f : FmtRR} (h : Hdr) (s : State) (iop : Int → Int → Int) (fop : FpOp) (iid : Int) (fid : Nat)
    (hf : tyIsFloat f.ty = true) :
    runVred h f s iop fop iid fid = did (vectorOut h s 4 f fun c m =>
      let w := WellFormed.tyWidth f.ty
      let r := redTree (fun a b => (fctx s.me.fpcNow).op (fmtTy f.ty) fop a b 0) (if w = 64 then 3 else 4) 0 (redElems s.me f c m)
      (packVec w fun _ => r.1.getD fid, r.2)) := by
  rw [runVred, runVector_did]; simp only [hf, if_true]

theorem reductionWords : Claims.ReductionWords := fun h _ s =>
  ⟨fun hon => by rw [exec_vext_did]; simp only [hon, if_true],
    fun hoff => by rw [exec_vext_did]; simp only [hoff, Bool.false_eq_true, if_false],
    fun hf => ⟨runVred_int h s _ _ _ _ hf, runVred_int h s _ _ _ _ hf, runVred_int h s _ _ _ _ hf⟩,
    fun hf => ⟨runVred_float h s _ _ _ _ hf, runVred_float h s _ _ _ _ hf, runVred_float h s _ _ _ _ hf⟩⟩

end Machine

/-- Settles O23: each word is one run of its shared operation, and the tree's sum is by induction on its depth. -/
theorem vectorReductions : Obligations.VectorReductions := ⟨Machine.reductionWords, fun d => Machine.redTree_add d 0⟩

end Sys2Proof
end

section
/-! SUPPORT. The float words: each is one run of the shared scalar operation; a finite code rounds to itself; and a word's answer is the
canonical NaN or a code of no NaN (04 R93, R94, R112; 07 R213 to R217). -/

namespace Sys2Proof
namespace Machine
open Safety

/-! ### The words -/

theorem truncInt_lt (w : Nat) (x : Int) : truncInt w x < 2 ^ w := by
  have hpos : (0 : Int) < 2 ^ w := by positivity
  have hlt := Int.emod_lt_of_pos x hpos
  have hnonneg := Int.emod_nonneg x hpos.ne'
  rw [truncInt, Int.toNat_lt hnonneg]
  exact_mod_cast hlt

theorem convert_int_lt {d : BitVec 4} (k : FCtx) (s : BitVec 4) (r : BitVec 3) (x : Nat) (hd : tyIsFloat d = false) :
    (k.convert d s r x).1 < 2 ^ WellFormed.tyWidth d := by
  unfold FCtx.convert
  simp only [hd, Bool.false_eq_true, if_false]
  split <;> exact truncInt_lt _ _

theorem tyIsFloat_of_tyInt {t : BitVec 4} (h : WellFormed.tyInt t = true) : tyIsFloat t = false := by
  revert t; decide

/-- The arithmetic float words with their operations and latencies (07 Table 7-5; 06 Table 6-7). -/
def fpWords : List ((Hdr → FmtRR → Instr) × FpOp × Nat) :=
  [(Instr.fadd, .add, 4), (Instr.faddSub, .sub, 4), (Instr.fmul, .mul, 4), (Instr.fma, .fma, 4), (Instr.fmaFms, .fms, 4),
    (Instr.fmaFnma, .fnma, 4), (Instr.fdiv, .div, 12), (Instr.fdivSqrt, .sqrt, 12), (Instr.fmin, .min, 4), (Instr.fmax, .max, 4)]

theorem exec_fp_eq_runFp {p : (Hdr → FmtRR → Instr) × FpOp × Nat} {h : Hdr} {f : FmtRR} {s : State} (hp : p ∈ fpWords) :
    exec (p.1 h f) s = runFp p.2.1 p.2.2 h f s := by
  simp only [fpWords, List.mem_cons, List.not_mem_nil, or_false] at hp
  rcases hp with rfl | rfl | rfl | rfl | rfl | rfl | rfl | rfl | rfl | rfl <;> rfl

theorem runFp_enabled {h : Hdr} {f : FmtRR} {s : State} (o : FpOp) (lat : Nat) (he : s.me.enabled h = true) :
    runFp o lat h f s = did (result s lat (dstRef f.dst)
      (BitVec.ofNat 64 ((fctx s.me.fpcNow).op (fmtTy f.ty) o (fargs s f).1 (fargs s f).2.1 (fargs s f).2.2).1)
      ((fctx s.me.fpcNow).op (fmtTy f.ty) o (fargs s f).1 (fargs s f).2.1 (fargs s f).2.2).2) := by
  rw [runFp, runScalar_enabled _ _ _ _ _ he]; rfl

theorem floatWords_complete : Claims.FloatWords := by
  intro h f s he
  refine ⟨fun p hp => ?_, fun cc => ?_, fun hty => ?_, fun hty => ?_⟩
  · rw [exec_fp_eq_runFp hp, runFp_enabled _ _ he]
  · rw [exec_fcmp, execFcmp, runScalar_enabled _ _ _ _ _ he]; rfl
  · rw [exec_fcvt, execFcvt, runScalar_enabled _ _ _ _ _ he]; simp only [hty, if_true]
  · have hfloat := tyIsFloat_of_tyInt hty
    rw [exec_fcvt, execFcvt, runScalar_enabled _ _ _ _ _ he]
    simp only [hfloat, Bool.false_eq_true, if_false, ext64, tySgn, Nat.mod_eq_of_lt (convert_int_lt _ _ _ _ hfloat)]

/-! ### Exact values -/

theorem roundsUp_exact (rm : RMode) (neg : Bool) (n sh : Nat) : roundsUp rm neg n 0 sh false = false := by
  cases rm <;> simp [roundsUp]

/-- A magnitude whose exponent is the one that its format gives it is kept as it is. -/
theorem roundFin_exact {f : FFmt} {m code : Nat} {e : Int} (rm : RMode) (sat neg : Bool)
    (hexp : max ((Nat.log2 m : Int) + e) f.emin = e + f.mb) (hcode : (e + f.mb - f.emin).toNat * 2 ^ f.mb + m = code)
    (hmax : code ≤ f.maxCode) : f.roundFin rm sat neg m e false = (f.signBit neg + code, 0) := by
  have hsh : e + f.mb - f.mb - e = 0 := by omega
  unfold FFmt.roundFin
  simp only [hexp, hsh, le_refl, if_true, neg_zero, Int.toNat_zero, pow_zero, mul_one, roundsUp_exact, Bool.false_eq_true, if_false,
    hcode, if_neg (Nat.not_lt.2 hmax), ne_eq, not_true_eq_false, decide_false, Bool.or_self, Bool.false_and]
  rfl

/-- A code is its sign and its lower bits. -/
theorem signBit_add_mod {f : FFmt} {x : Nat} (hw : 0 < f.w) (hx : x < 2 ^ f.w) :
    f.signBit (x.testBit (f.w - 1)) + x % 2 ^ (f.w - 1) = x := by
  have hpow : 2 ^ f.w = 2 * 2 ^ (f.w - 1) := by rw [← pow_succ', Nat.sub_add_cancel hw]
  have hdiv : x / 2 ^ (f.w - 1) < 2 := by rw [Nat.div_lt_iff_lt_mul (Nat.two_pow_pos _), ← hpow]; exact hx
  have hsplit := Nat.div_add_mod x (2 ^ (f.w - 1))
  rw [Nat.testBit_eq_decide_div_mod_eq, FFmt.signBit, Nat.mod_eq_of_lt hdiv]
  rcases Nat.le_one_iff_eq_zero_or_eq_one.1 (Nat.le_of_lt_succ hdiv) with htop | htop
  · rw [htop, mul_zero] at hsplit
    simpa [htop] using hsplit
  · rw [htop, mul_one] at hsplit
    simpa [htop] using hsplit

/-- The finite values of a format: a subnormal's fraction or a normal's with its leading one, in a code not above the largest. -/
theorem value_eq_fin {f : FFmt} {x c m : Nat} {neg : Bool} {e : Int} (hc : x % 2 ^ (f.w - 1) = c) (h : f.value x = .fin neg m e) :
    neg = x.testBit (f.w - 1) ∧ c ≤ f.maxCode ∧
    ((c / 2 ^ f.mb = 0 ∧ m = c % 2 ^ f.mb ∧ e = f.emin - f.mb) ∨
      (c / 2 ^ f.mb ≠ 0 ∧ m = 2 ^ f.mb + c % 2 ^ f.mb ∧ e = ((c / 2 ^ f.mb : Nat) : Int) - f.bias - f.mb)) := by
  have hlt : c < 2 ^ (f.w - 1) := hc ▸ Nat.mod_lt _ (Nat.two_pow_pos _)
  have hmax (hinf : ¬(decide (f.kind = .ieee) && decide (f.infCode ≤ c)) = true)
      (hnan : ¬(decide (f.kind = .oneNan) && decide (c = 2 ^ (f.w - 1) - 1)) = true) : c ≤ f.maxCode := by
    simp only [Bool.and_eq_true, decide_eq_true_eq, not_and] at hinf hnan
    cases hk : f.kind with
    | ieee => have := hinf hk; simp only [FFmt.maxCode, hk]; omega
    | oneNan => have := hnan hk; simp only [FFmt.maxCode, hk]; omega
    | plain => simp only [FFmt.maxCode, hk]; omega
  simp only [FFmt.value, hc] at h
  split_ifs at h with hinf _ hnan hsub <;> cases h
  · exact ⟨rfl, hmax hinf hnan, .inl ⟨hsub, rfl, rfl⟩⟩
  · exact ⟨rfl, hmax hinf hnan, .inr ⟨hsub, rfl, rfl⟩⟩

/-- A finite code is what its value rounds to: the exponent of a subnormal is the least, that of a normal its leading one's. -/
theorem round_value {f : FFmt} {x m : Nat} {neg : Bool} {e : Int} (rm : RMode) (sat : Bool) (hw : 0 < f.w) (hx : x < 2 ^ f.w)
    (hv : f.value x = .fin neg m e) (hm : m ≠ 0) : f.round rm sat (f.value x) = (x, 0) := by
  obtain ⟨hneg, hmax, hcases⟩ := value_eq_fin rfl hv
  have hx' : f.signBit neg + x % 2 ^ (f.w - 1) = x := hneg ▸ signBit_add_mod hw hx
  generalize x % 2 ^ (f.w - 1) = c at hmax hcases hx'
  have hsplit := Nat.div_add_mod c (2 ^ f.mb)
  have hfrac : c % 2 ^ f.mb < 2 ^ f.mb := Nat.mod_lt _ (Nat.two_pow_pos _)
  rw [hv, FFmt.round, if_neg hm, ← hx']
  rcases hcases with ⟨hsub, rfl, rfl⟩ | ⟨hnormal, rfl, rfl⟩
  · have hlog : Nat.log2 (c % 2 ^ f.mb) < f.mb := (Nat.log2_lt hm).2 hfrac
    refine roundFin_exact rm sat neg (by omega) ?_ hmax
    rw [hsub, mul_zero, zero_add] at hsplit
    have hzero : (f.emin - f.mb + f.mb - f.emin).toNat = 0 := by omega
    rw [hzero, zero_mul, zero_add, hsplit]
  · have hlog : Nat.log2 (2 ^ f.mb + c % 2 ^ f.mb) = f.mb := by
      rw [Nat.log2_eq_iff (by omega)]; exact ⟨by omega, by rw [pow_succ]; omega⟩
    obtain ⟨n, hn⟩ := Nat.exists_eq_succ_of_ne_zero hnormal
    rw [hn] at hsplit ⊢
    refine roundFin_exact rm sat neg (by rw [hlog, FFmt.emin]; omega) ?_ hmax
    have hfield : (((n + 1 : Nat) : Int) - f.bias - f.mb + f.mb - f.emin).toNat = n := by rw [FFmt.emin]; omega
    rw [hfield]
    calc n * 2 ^ f.mb + (2 ^ f.mb + c % 2 ^ f.mb) = 2 ^ f.mb * (n + 1) + c % 2 ^ f.mb := by ring
      _ = c := hsplit

theorem floatRepresentable : Claims.FloatRepresentable := by
  intro f hf x rm sat neg m e hx hv hm
  have hw : 0 < f.w := by
    simp only [List.mem_cons, List.not_mem_nil, or_false] at hf
    rcases hf with rfl | rfl | rfl | rfl | rfl | rfl | rfl | rfl | rfl <;> decide
  exact round_value rm sat hw hx hv hm

/-! ### NaNs -/

/-- The formats of the float words: infinities, NaNs, a fraction and an exponent of two bits or more (04 Table 4-1). -/
structure FFmt.Ieee (f : FFmt) : Prop where
  kind : f.kind = .ieee
  frac : 0 < f.mb
  exp : f.mb + 1 < f.w

/-- A code of no NaN, in either sign. -/
def FFmt.NotNan (f : FFmt) (x : Nat) : Prop := ∃ neg code, code ≤ f.infCode ∧ x = f.signBit neg + code

/-- What a float word may answer: the canonical NaN or a code of no NaN (04 R93). -/
def FFmt.Answer (f : FFmt) (x : Nat) : Prop := x = f.nan ∨ f.NotNan x

theorem answer_invalid (f : FFmt) : f.Answer f.invalid.1 := .inl rfl

theorem answer_zero (f : FFmt) (neg : Bool) : f.Answer (f.signBit neg) := .inr ⟨neg, 0, Nat.zero_le _, rfl⟩

theorem answer_inf (f : FFmt) (neg : Bool) : f.Answer (f.signBit neg + f.infCode) := .inr ⟨neg, _, le_rfl, rfl⟩

section
variable {f : FFmt} (hf : f.Ieee)
include hf

theorem infCode_add : f.infCode + 2 ^ f.mb = 2 ^ (f.w - 1) :=
  Nat.sub_add_cancel (Nat.pow_le_pow_right (by decide) (by have := hf.exp; omega))

theorem maxCode_lt_infCode : f.maxCode < f.infCode := by
  have hlt : 2 ^ f.mb < 2 ^ (f.w - 1) := Nat.pow_lt_pow_right (by decide) (by have := hf.exp; omega)
  have hinf := infCode_add hf
  simp only [FFmt.maxCode, hf.kind]
  omega

theorem signBit_add_mod_of_le {code : Nat} (neg : Bool) (hc : code ≤ f.infCode) : (f.signBit neg + code) % 2 ^ (f.w - 1) = code := by
  have hpos := Nat.two_pow_pos f.mb
  have hlt : code < 2 ^ (f.w - 1) := by have := infCode_add hf; omega
  cases neg <;> simp [FFmt.signBit, Nat.mod_eq_of_lt hlt]

/-- Up to the code of infinity no code is a NaN's: there the fraction of infinity is zero. -/
theorem value_ne_nan {x : Nat} (h : f.NotNan x) : f.value x ≠ .nan := by
  obtain ⟨neg, code, hc, rfl⟩ := h
  have hfrac : f.infCode % 2 ^ f.mb = 0 :=
    Nat.mod_eq_zero_of_dvd (Nat.dvd_sub (pow_dvd_pow 2 (by have := hf.exp; omega)) dvd_rfl)
  by_cases htop : f.infCode ≤ code
  · obtain rfl := le_antisymm hc htop
    simp [FFmt.value, signBit_add_mod_of_le hf neg hc, hf.kind, hfrac]
  · simp only [FFmt.value, signBit_add_mod_of_le hf neg hc, hf.kind, htop, decide_true, decide_false, Bool.true_and, Bool.false_eq_true,
      if_false, reduceCtorEq, Bool.false_and]
    split_ifs <;> exact nofun

theorem answer_overflow (rm : RMode) (neg sat : Bool) : f.Answer (f.overflow rm neg sat) := by
  have hend (b : Bool) : f.Answer (f.signBit neg + if b then f.maxCode else f.infCode) := by
    split
    · exact .inr ⟨neg, _, (maxCode_lt_infCode hf).le, rfl⟩
    · exact answer_inf f neg
  simp only [FFmt.overflow, hf.kind]
  exact hend _

theorem answer_roundFin (rm : RMode) (sat neg : Bool) (m : Nat) (e : Int) (sticky : Bool) :
    f.Answer (f.roundFin rm sat neg m e sticky).1 := by
  unfold FFmt.roundFin
  extract_lets ee sh s n cut inexact ip code
  by_cases hover : f.maxCode < code
  · rw [if_pos hover]; exact answer_overflow hf rm neg sat
  · rw [if_neg hover]; exact .inr ⟨neg, code, (Nat.le_of_not_lt hover).trans (maxCode_lt_infCode hf).le, rfl⟩

theorem answer_round (rm : RMode) (sat : Bool) (v : XVal) : f.Answer (f.round rm sat v).1 := by
  cases v with
  | nan => exact .inl rfl
  | inf neg => simp only [FFmt.round, hf.kind]; exact answer_inf f neg
  | fin neg m e =>
    simp only [FFmt.round]
    split_ifs
    · exact answer_zero f neg
    · exact answer_roundFin hf rm sat neg m e false

/-- A flush leaves the canonical NaN, which no subnormal's code is, and makes zeros of the sign of others. -/
theorem answer_flush {r : Nat × Fl} (k : FCtx) (h : f.Answer r.1) : f.Answer (k.flush f r).1 := by
  unfold FCtx.flush
  extract_lets c
  split_ifs with hflush
  · rcases h with hnan | ⟨neg, code, hc, hr⟩
    · have hinf := infCode_add hf
      have hpow : 2 ^ (f.mb - 1) < 2 ^ f.mb := Nat.pow_lt_pow_right (by decide) (Nat.sub_lt hf.frac Nat.one_pos)
      have hle : 2 ^ f.mb ≤ f.infCode := by
        have := Nat.pow_le_pow_right (n := 2) (by decide) (show f.mb + 1 ≤ f.w - 1 by have := hf.exp; omega)
        rw [pow_succ] at this; omega
      have hc : c = f.infCode + 2 ^ (f.mb - 1) := by
        simp only [c, hnan, FFmt.nan, hf.kind]; exact Nat.mod_eq_of_lt (by omega)
      simp only [Bool.and_eq_true, decide_eq_true_eq] at hflush
      obtain ⟨-, hsub⟩ := hflush
      exact absurd (hc ▸ hsub) (Nat.not_lt.2 (hle.trans (Nat.le_add_right ..)))
    · have hcode : c = code := by simp only [c, hr]; exact signBit_add_mod_of_le hf neg hc
      rw [hcode, hr, Nat.add_sub_cancel]
      exact answer_zero f neg
  · exact h

theorem answer_done (k : FCtx) (v : XVal) : f.Answer (k.done f v).1 := answer_flush hf k (answer_round hf ..)

theorem answer_doneFin (k : FCtx) (neg : Bool) (m : Nat) (e : Int) (sticky : Bool) : f.Answer (k.doneFin f neg m e sticky).1 :=
  answer_flush hf k (answer_roundFin hf ..)

theorem answer_div (k : FCtx) (a b : XVal) : f.Answer (k.div f a b).1 := by
  unfold FCtx.div
  extract_lets neg
  split
  · exact .inl rfl
  · exact .inl rfl
  · exact answer_invalid f
  · exact answer_done hf ..
  · exact answer_done hf ..
  · split_ifs
    · exact answer_invalid f
    · exact answer_inf f neg
    · exact answer_zero f neg
    · exact answer_doneFin hf ..

theorem answer_sqrt (k : FCtx) (a : XVal) : f.Answer (k.sqrt f a).1 := by
  cases a with
  | nan => exact .inl rfl
  | inf s =>
    simp only [FCtx.sqrt]
    split_ifs
    · exact answer_invalid f
    · exact answer_done hf ..
  | fin s m e =>
    simp only [FCtx.sqrt]
    split_ifs
    · exact answer_zero f s
    · exact answer_invalid f
    all_goals exact answer_doneFin hf ..

theorem answer_fma (k : FCtx) (p : Option XVal) (z : XVal) (snan : Bool) : f.Answer (k.fma f p z snan).1 := by
  unfold FCtx.fma
  split
  · exact answer_invalid f
  · split
    · exact answer_invalid f
    · exact .inl rfl
    · exact answer_done hf ..

theorem answer_minmax (k : FCtx) (max : Bool) (a b : XVal) : f.Answer (k.minmax f max a b).1 := by
  unfold FCtx.minmax
  split
  · exact .inl rfl
  all_goals exact answer_done hf ..

/-- A result that may be none, where the operation is invalid. -/
theorem answer_option (k : FCtx) (v : Option XVal) : f.Answer (match v with | none => f.invalid | some w => k.done f w).1 := by
  cases v with
  | none => exact answer_invalid f
  | some w => exact answer_done hf k w

theorem answer_op (k : FCtx) (o : FpOp) (a b c : Nat) : f.Answer (k.op f o a b c).1 := by
  cases o with
  | add | sub | mul => exact answer_option hf k _
  | fma | fms | fnma => exact answer_fma hf ..
  | div => exact answer_div hf ..
  | sqrt => exact answer_sqrt hf ..
  | min | max => exact answer_minmax hf ..

theorem op_nan_canonical {k : FCtx} {o : FpOp} {a b c : Nat} (h : f.value (k.op f o a b c).1 = .nan) : (k.op f o a b c).1 = f.nan :=
  (answer_op hf k o a b c).resolve_right fun hn => value_ne_nan hf hn h

end

/-! ### Signalling operands -/

theorem read_snan {f : FFmt} {x : Nat} (k : FCtx) (h : f.snan x = true) : k.read f x = .nan := by
  simp only [FFmt.snan, Bool.and_eq_true, decide_eq_true_eq] at h
  obtain ⟨⟨-, hnan⟩, -⟩ := h
  rw [FCtx.read, hnan]

theorem add?_nan {rdn : Bool} {u v : XVal} (h : u = .nan ∨ v = .nan) : u.add? rdn v = some .nan := by
  rcases h with rfl | rfl
  · cases v <;> rfl
  · cases u <;> rfl

theorem mul?_nan {u v : XVal} (h : u = .nan ∨ v = .nan) : u.mul? v = some .nan := by
  rcases h with rfl | rfl
  · cases v <;> rfl
  · cases u <;> rfl

theorem nv_bit : Fl.nv.getLsbD 4 = true := by decide

theorem joined_nv (fl : Fl) : (fl ||| Fl.nv).getLsbD 4 = true := by
  rw [BitVec.getLsbD_or, nv_bit, Bool.or_true]

/-- A fused word with a NaN raises NV where an operand signals, and where zero times infinity is invalid always. -/
theorem fma_raises_nv (k : FCtx) (f : FFmt) {p : Option XVal} {z : XVal} (h : p = some .nan ∨ z = .nan) :
    (k.fma f p z true).2.getLsbD 4 = true := by
  cases p with
  | none => exact nv_bit
  | some q =>
    have hsum := add?_nan (rdn := decide (k.rm = .rdn)) (h.imp Option.some.inj id)
    simp only [FCtx.fma, hsum, if_true, nv_bit]

/-- Whether an operand that the operation reads signals (04 R93; 07 R214, R215). -/
def FFmt.signals (f : FFmt) (o : FpOp) (a b c : Nat) : Bool :=
  match o with
  | .sqrt => f.snan a
  | .fma | .fms | .fnma => f.snan a || f.snan b || f.snan c
  | _ => f.snan a || f.snan b

theorem op_signals_nv {f : FFmt} (k : FCtx) (o : FpOp) {a b c : Nat} (h : f.signals o a b c = true) :
    (k.op f o a b c).2.getLsbD 4 = true := by
  have hprod (h : (f.snan a || f.snan b) = true) : (k.read f a).mul? (k.read f b) = some .nan :=
    mul?_nan ((Bool.or_eq_true_iff.1 h).imp (read_snan k) (read_snan k))
  cases o with
  | add | sub | mul | div | min | max | sqrt =>
    simp only [FFmt.signals] at h
    simp only [FCtx.op, h, if_true, joined_nv]
  | fma =>
    show (k.fma f _ _ (f.signals .fma a b c)).2.getLsbD 4 = true
    rw [h]
    exact fma_raises_nv k f ((Bool.or_eq_true_iff.1 h).imp hprod (read_snan k))
  | fms =>
    show (k.fma f _ _ (f.signals .fms a b c)).2.getLsbD 4 = true
    rw [h]
    exact fma_raises_nv k f ((Bool.or_eq_true_iff.1 h).imp hprod fun hc => by rw [read_snan k hc]; rfl)
  | fnma =>
    show (k.fma f _ _ (f.signals .fnma a b c)).2.getLsbD 4 = true
    rw [h]
    exact fma_raises_nv k f ((Bool.or_eq_true_iff.1 h).imp (fun hab => by rw [hprod hab]; rfl) (read_snan k))

theorem floatNaNs : Claims.FloatNaNs := by
  intro f hmem k o a b c
  have hf : f.Ieee := by
    simp only [List.mem_cons, List.not_mem_nil, or_false] at hmem
    rcases hmem with rfl | rfl | rfl | rfl <;> exact ⟨rfl, by decide, by decide⟩
  refine ⟨op_nan_canonical hf, fun ha => op_signals_nv k o ?_, fun hb ho => op_signals_nv k o ?_, fun hc ho => op_signals_nv k o ?_⟩
  · cases o <;> simp [FFmt.signals, ha]
  · cases o <;> simp [FFmt.signals, hb] at ho ⊢
  · cases o <;> simp [FFmt.signals, hc] at ho ⊢

end Machine

/-- Settles O15: each word is one run of its operation, rounding keeps what its exponent fits, and no rounding makes another NaN. -/
theorem floatWords : Obligations.FloatWords := ⟨Machine.floatWords_complete, Machine.floatRepresentable, Machine.floatNaNs⟩

end Sys2Proof
end

section
/-! SUPPORT. PREF, FENCE, CFLUSH and FLAG: what a task that reads its refusals is given, the runs of host memory that a flush meets, and
the windows in which FLAG adds (05 R157, R161; 09 R270 to R273). -/

namespace Sys2Proof
namespace Machine
open Safety

/-! ### Refusals -/

/-- The machine after the status word of the issuing task has landed and its count begins anew (05 R157). -/
def State.refusalsRead (s : State) (dst : RegRef) : State :=
  let t := s.landNow dst s.me.refusals
  t.setMe { t.me with refused := 0, first := 0 }

theorem landRefusals_quiet {s : State} {dst : RegRef} (h : dst ≠ .s 0 ∨ s.me.refused = 0) :
    s.landRefusals dst = s.refusalsRead dst :=
  if_neg (by simpa [or_iff_not_imp_left] using h)

theorem landRefusals_due {s : State} {dst : RegRef} (hd : dst = .s 0) (hr : s.me.refused ≠ 0) :
    s.landRefusals dst = (s.refusalsRead dst).setMe ((s.refusalsRead dst).me.setGroup fun g =>
      { g with defer := g.defer ++ [⟨.remoteError, s.me.refusals, s.me.wpc⟩] }) :=
  if_pos (by simpa [hd] using hr)

/-! ### FENCE and CFLUSH -/

section
variable {h : Hdr} {f : FmtM} {s : State} (he : s.me.enabled h = true)
include he

theorem exec_fence_narrow (hs : f.scope.toNat < 3) : exec (.fence h f) s = did (s.landNow (dstRef (xDst f.x)) 0) := by
  rw [exec_fence, execFence]
  exact runPlain_did he (if_neg hs.not_ge)

theorem exec_fence_wide (hs : 3 ≤ f.scope.toNat) : exec (.fence h f) s = did (s.landRefusals (dstRef (xDst f.x))) := by
  rw [exec_fence, execFence]
  exact runPlain_did he (if_pos hs)

/-- A flush of a range in the global window deals with each of its runs on host pages, where the device holds bytes that it can
concern. -/
theorem runCflush_did (wb inv : Bool) {o : Nat} (hw : winOf (addrM s.me f) = some (.global, o))
    (hn : (readSpec s.me f.x).toNat % 2 ^ 32 ≠ 0) (hheld : s.host.posted ≠ [] ∨ Sparse.get [] s.host.rdBufs s.me.id.seq ≠ []) :
    let lo := addrM s.me f / 128 * 128
    let len := min ((addrM s.me f + (readSpec s.me f.x).toNat % 2 ^ 32 + 127) / 128 * 128) (2 ^ 56) - lo
    let runs := hostRuns s s.me.id.part (s.jobOf s.me.id.part s.me.id.handle) (len / 2 ^ 16 + 2) lo len
    runCflush wb inv h f s = did (runs.foldl (fun s (b, m) =>
      let t := if wb then s.writeBack s.cur.1 s.cur.2 b m else s
      if inv then t.dropReads t.cur.1 t.cur.2 b m else t) s) := by
  have hsome : (s.host.posted.isEmpty && (Sparse.get [] s.host.rdBufs s.me.id.seq).isEmpty) = false := by
    simpa [or_iff_not_imp_left] using hheld
  refine runPlain_did he ?_
  simp only [hn, hw, hsome, if_false, Bool.false_eq_true]

end

theorem fenceFlushPrefetchWords : Claims.FenceFlushPrefetchWords := by
  intro h f s he
  refine ⟨?_, exec_fence_narrow he, fun hs => ⟨fun hq => ?_, fun hd hr => ?_⟩, fun o hw hn hheld => ⟨?_, ?_, ?_⟩⟩
  · rw [exec_pref, execPref]; exact runPlain_did he rfl
  · rw [exec_fence_wide he hs, landRefusals_quiet hq]; rfl
  · rw [exec_fence_wide he hs, landRefusals_due hd hr]; rfl
  · rw [exec_cflushWb, execCflushWb]; exact runCflush_did he true false hw hn hheld
  · rw [exec_cflushInv, execCflushInv]; exact runCflush_did he false true hw hn hheld
  · rw [exec_cflushWbinv, execCflushWbinv]; exact runCflush_did he true true hw hn hheld

/-! ### FLAG -/

/-- An addition to the 64-bit word that runs hold. -/
theorem rmw_add_word (s : State) (segs : List Seg) (d c : Nat) :
    (s.rmw .add segs 8 d c).2 = writeSegs s segs (bytesOfNat 8 ((natOfBytes (readSegs s segs) % 2 ^ 64 + d) % 2 ^ 64)) := by
  simp only [State.rmw, AtomOp.apply, Nat.reduceMul, Nat.add_mod_mod]

section
variable {h : Hdr} {f : FmtAT} {s : State} {w : Win} {o : Nat} (he : s.me.enabled h = true) (ha : (readSpec s.me f.a).toNat % 8 = 0)
  (hc : checkWin (readSpec s.me f.a).toNat 8 = .ok (w, o))
include he ha hc

theorem exec_flag_adds {s' : State} {segs : List Seg} (hw : w = .loc ∨ (∃ j, w = .block j) ∨ w = .ctrs)
    (hp : segs.all plainSeg = true) (hacc : s.access .store (readSpec s.me f.a).toNat 8 8 false = .ok segs s') :
    exec (.flagI h f) s = did (writeSegs s' segs (bytesOfNat 8
      ((natOfBytes (readSegs s' segs) % 2 ^ 64 + (readSpec s.me f.b).toNat) % 2 ^ 64))) := by
  rw [exec_flagI, execFlag]
  refine runPlain_did he ?_
  rcases hw with rfl | ⟨j, rfl⟩ | rfl <;>
    simp only [ha, hc, hacc, noteRange_plain hp, rmw_add_word, ne_eq, not_true_eq_false, if_false]

theorem exec_flag_perm (hw : w = .global ∨ w = .flag ∨ (∃ d, w = .sync d) ∨ ∃ x y, w = .pod x y) :
    exec (.flagI h f) s = faulted .perm (readSpec s.me f.a) s := by
  rw [exec_flagI, execFlag]
  refine runPlain_faulted he ?_
  rcases hw with rfl | rfl | ⟨d, rfl⟩ | ⟨x, y, rfl⟩ <;>
    simp only [ha, hc, BitVec.ofNat_toNat, BitVec.setWidth_eq, ne_eq, not_true_eq_false, if_false]

end

theorem flagWord : Claims.FlagWord := fun _ _ _ _ _ _ _ he ha hc =>
  ⟨fun hw hp hacc => exec_flag_adds he ha hc hw hp hacc, exec_flag_perm he ha hc⟩

end Machine

/-- Settles O31: the refusals that a fence reads, the runs that a flush deals with one by one, and the windows of FLAG. -/
theorem fenceFlushFlagWords : Obligations.FenceFlushFlagWords := ⟨Machine.fenceFlushPrefetchWords, Machine.flagWord⟩

end Sys2Proof
end

section
/-! SUPPORT. Remote words and the mailbox: what a word that passes its checks leaves in its core's queue, and what the mailbox words take
and place (12 R361 to R377; 05 R155, R157). -/

namespace Sys2Proof
namespace Machine
open Safety

/-! ### The queues -/

/-- A queue with a free entry takes the word as its last; of a full one the word waits behind it (12 R362, R363). -/
theorem takeWord_eq (bl : Block) (w : RemoteWord) :
    (bl.queued true < 16 → bl.takeWord true w = { bl with augQ := bl.augQ ++ [w] }) ∧
    (bl.queued false < 16 → bl.takeWord false w = { bl with mailbox := bl.mailbox ++ [.hw w] }) ∧
    (16 ≤ bl.queued true → bl.takeWord true w = { bl with augSurplus := bl.augSurplus ++ [w] }) ∧
    (16 ≤ bl.queued false → bl.takeWord false w = { bl with mbxSurplus := bl.mbxSurplus ++ [w] }) :=
  ⟨fun h => if_pos h, fun h => if_pos h, fun h => if_neg h.not_gt, fun h => if_neg h.not_gt⟩

theorem sendRemote_acks (s : State) (w : RemoteWord) : (s.sendRemote w).myCore.acks = s.myCore.acks + 1 := by
  show ((s.setCore s.cur.1 _).core s.cur.1).acks = _
  rw [State.core_setCore_self]; rfl

theorem sendRemote_block (s : State) (w : RemoteWord) : (s.sendRemote w).block (coreBlock s.cur.1) =
    (s.block (coreBlock s.cur.1)).takeWord s.isAugust { w with seq := s.myCore.nextRemote } :=
  State.block_setBlock_self _ _ _

/-! ### The remote words -/

/-- The remote word of an operation with its operands, before what is its own is set. -/
def remoteOf (h : Hdr) (f : FmtF) (s : State) (op : Nat) : RemoteWord :=
  { RemoteWord.blank s op with
    a := readSpec s.me f.a, b := readSpec s.me f.b, c := readSpec s.me f.c, d := readSpec s.me f.d, fill := f.opt.getLsbD 0,
    eos := f.opt.getLsbD 1, ty := f.ty, acq := f.acq = 1, scope := f.scope, tag := hdrTag h }

section
variable {h : Hdr} {s : State} (he : s.me.enabled h = true) (f : FmtF) (ask : Slot → RemoteAsk) (op : Nat)
  (mk : Slot → RemoteWord → RemoteWord)
include he

/-- A remote word that passes its checks joins its core's queue, and one that does not traps by the first that fails. -/
theorem runRemote_complete :
    ((ask s.me).check = none → runRemote h f s ask op mk = did (if h.ta = 0 then s.sendRemote (mk s.me (remoteOf h f s op))
      else (s.sendRemote (mk s.me (remoteOf h f s op))).await (hdrTag h) .none (.remote s.myCore.nextRemote))) ∧
    ∀ c x, (ask s.me).check = some (c, x) → runRemote h f s ask op mk = faulted c (BitVec.ofNat 64 x) s := by
  refine ⟨fun hc => runPlain_did he ?_, fun c x hc => runPlain_faulted he ?_⟩
  · simp only [hc]; rfl
  · simp only [hc]

end

/-- What RSEM names (12 R370). -/
def askSem (f : FmtF) (l : Slot) : RemoteAsk :=
  let a := (readSpec l f.a).toNat
  { a := a, n := 8, locals := [], odd := if a % 8 ≠ 0 then some a else none }

theorem execRsem_eq_runRemote (h : Hdr) (f : FmtF) (s : State) :
    execRsem h f s = runRemote h f s (askSem f) opSem fun _ w => { w with data := bytesOfNat 8 w.b.toNat } := rfl

theorem remoteWords_complete : Claims.RemoteWords := by
  intro h f s he
  refine ⟨fun p hp => ?_, fun x => ⟨sendRemote_acks s x, ?_⟩⟩
  · simp only [List.mem_cons, List.not_mem_nil, or_false] at hp
    rcases hp with rfl | rfl | rfl | rfl | rfl | rfl | rfl
    · exact runRemote_complete he f (askPut f false) opPut fun _ w => { w with c := w.c &&& 0xFFFFFFFF }
    · exact runRemote_complete he f (askPut f true) opPutSig fun _ w => { w with c := w.c &&& 0xFFFFFFFF, sig := true }
    · exact runRemote_complete he f (askCopy f false) opRcopy fun _ w => w
    · exact runRemote_complete he f (askCopy f true) opRcopySig fun _ w => { w with sig := true }
    · rw [exec_rsem, execRsem_eq_runRemote]
      exact runRemote_complete he f (askSem f) opSem fun _ w => { w with data := bytesOfNat 8 w.b.toNat }
    · exact runRemote_complete he f (askRed f) (if f.opt.getLsbD 2 then opRedSig else opRed) fun _ w =>
        { w with c := w.c &&& 0xFFFFFFFF, sig := f.opt.getLsbD 2 }
    · exact runRemote_complete he f (askMcred f) (if f.opt.getLsbD 2 then opMcredSig else opMcred) fun _ w =>
        { w with c := w.c &&& 0xFFFFFFFF, sig := f.opt.getLsbD 2 }
  · obtain ⟨haug, hmbx, haugFull, hmbxFull⟩ :=
      takeWord_eq (s.block (coreBlock s.cur.1)) { x with seq := s.myCore.nextRemote }
    dsimp only
    rw [sendRemote_block]
    exact ⟨fun h => h ▸ haug, fun h => h ▸ hmbx, fun h => h ▸ haugFull, fun h => h ▸ hmbxFull⟩

/-! ### The mailbox words -/

section
variable {h : Hdr} {f : FmtT} {s : State} (he : s.me.enabled h = true)
include he

theorem exec_mbxPost_did : exec (.mbxPost h f) s = did (s.post (readSpec s.me f.a)) := by
  rw [exec_mbxPost, execMbxPost]
  exact runPlain_did he rfl

theorem exec_mbxPostnb_free (hq : (s.block (coreBlock s.cur.1)).queued false < 16) :
    exec (.mbxPostnb h f) s = did ((s.post (readSpec s.me f.a)).landNow (dstRef f.dst) 1) := by
  rw [exec_mbxPostnb, execMbxPostnb]
  exact runPlain_did he (if_neg hq.not_ge)

theorem exec_mbxPostnb_full (hq : 16 ≤ (s.block (coreBlock s.cur.1)).queued false) :
    exec (.mbxPostnb h f) s = did (s.landNow (dstRef f.dst) 0) := by
  rw [exec_mbxPostnb, execMbxPostnb]
  exact runPlain_did he (if_pos hq)

theorem exec_mbxTake_takes {x : Word} {r : List MbxEntry} (ha : s.isAugust = true)
    (ht : takeSw (s.block (coreBlock s.cur.1)).mailbox = some (x, r)) : exec (.mbxTake h f) s =
      did ((s.setBlock (coreBlock s.cur.1) { s.block (coreBlock s.cur.1) with mailbox := r }).landNow (dstRef f.dst) x) := by
  rw [exec_mbxTake, execMbxTake]
  exact runPlain_did he (by simp only [ha, ht, Bool.not_true, Bool.false_eq_true, if_false])

theorem exec_mbxTake_waits (ha : s.isAugust = true) (ht : takeSw (s.block (coreBlock s.cur.1)).mailbox = none) :
    exec (.mbxTake h f) s = did ((s.startWait .mbxTake 0 0 0 (.ctr (coreBlock s.cur.1) 0) none (hdrTag h)).await (hdrTag h)
      (dstRef f.dst) .wait) := by
  rw [exec_mbxTake, execMbxTake]
  exact runPlain_did he (by simp only [ha, ht, Bool.not_true, Bool.false_eq_true, if_false])

theorem exec_mbxTake_perm (ha : s.isAugust = false) : exec (.mbxTake h f) s = faulted .perm 0 s := by
  rw [exec_mbxTake, execMbxTake]
  exact runPlain_faulted he (by simp only [ha, Bool.not_false, if_true])

theorem exec_mbxStatus_did : exec (.mbxStatus h f) s = did (s.landNow (dstRef f.dst) (BitVec.ofNat 64
    (s.myCore.acks % 2 ^ 32 * 2 ^ 32 + hwCount (s.block (coreBlock s.cur.1)).mailbox * 2 ^ 16 +
      swCount (s.block (coreBlock s.cur.1)).mailbox * 2 ^ 8 + (s.block (coreBlock s.cur.1)).mailbox.length))) := by
  rw [exec_mbxStatus, execMbxStatus]
  exact runPlain_did he rfl

theorem exec_rack_did : exec (.rack h f) s = did (s.landRefusals (dstRef f.dst)) := by
  rw [exec_rack, execRack]
  exact runPlain_did he rfl

end

theorem mailboxWords_complete : Claims.MailboxWords := by
  intro h f s he
  refine ⟨exec_mbxPost_did he, exec_mbxPostnb_free he, exec_mbxPostnb_full he, fun _ _ => exec_mbxTake_takes he,
    exec_mbxTake_waits he, exec_mbxTake_perm he, exec_mbxStatus_did he, fun hq => ?_, fun hd hr => ?_⟩
  · rw [exec_rack_did he, landRefusals_quiet hq]; rfl
  · rw [exec_rack_did he, landRefusals_due hd hr]; rfl

theorem mailboxOrder : Claims.MailboxOrder := by
  intro m c p hm r
  induction m with
  | nil => rfl
  | cons e m ih =>
    obtain ⟨⟨w, rfl⟩, hrest⟩ := List.forall_mem_cons.1 hm
    rw [List.cons_append, takeSw, ih hrest]
    · rfl
    · exact fun _ _ h => nomatch h

end Machine

/-- Settles O38: each word is one run of the shared remote word, and a queue's four cases are those of the word that it takes. -/
theorem remoteWords : Obligations.RemoteWords := Machine.remoteWords_complete

/-- Settles O39: each word by its cases, and the order of the software entries by induction on the remote words that stand before the
first. -/
theorem mailboxWords : Obligations.MailboxWords := ⟨Machine.mailboxWords_complete, Machine.mailboxOrder⟩

end Sys2Proof
end

section
/-! SUPPORT. The egress unit and the receiving port: what the unit does with a put whose source is at hand, the numbers of a pair, and
what a word of one packet comes to at its port (12 R360, R361; 20 R513 to R520). -/

namespace Sys2Proof
namespace Machine
open Safety

/-! ### The egress unit -/

section
variable {s : State} {b : Nat} {src : EgressSrc} {w : RemoteWord} (hh : (s.block b).egressHead src = some w)
include hh

theorem egress_badSource (hp : w.parts.all partOk = false) :
    s.egress b src = (s.setBlock b ((s.block b).egressDrop src)).endRemote w 0xC0 := by
  simp only [State.egress, hh, hp, Bool.not_false, if_true]

theorem egress_sends {x : RemoteWord} {t : State} {chip : Nat} (hp : w.parts.all partOk = true)
    (hop : (w.op = opRcopy || w.op = opRcopySig) = false)
    (hpull : pullSource w.parts (w.parts.foldl (fun n x => n + x.2 / 2 ^ 16 + 2) 1) w s = .done x t) (hchip : t.wordChip x = some chip)
    (hpoison : (x.poison && decide (chip ≠ t.chipNo)) = false) (hwait : t.mustWait x chip x.pieces.length = false) :
    s.egress b src = (t.setBlock b ((t.block b).egressDrop src)).transmit x chip := by
  simp only [State.egress, hh, hp, hop, hpull, hchip, hpoison, hwait, Bool.not_true, Bool.false_and, Bool.false_eq_true, if_false]

end

theorem egressAccepts : Claims.EgressAccepts := by
  intro s b src w hh
  refine ⟨fun hp => ?_, fun x t chip hp hop hpull hchip hpoison hwait => ?_⟩
  · rw [exec_egressAccept, execEgressAccept, egress_badSource hh hp]
  · rw [exec_egressAccept, execEgressAccept, egress_sends hh hp hop hpull hchip hpoison hwait]

/-! ### The packets -/

theorem packetEvents : Claims.PacketEvents := by
  refine ⟨fun p s x hx => ?_, fun s job group g hg => ?_⟩
  · simp only [List.mem_cons, List.not_mem_nil, or_false] at hx
    rcases hx with rfl | rfl | rfl | rfl | rfl | rfl | rfl | rfl | rfl <;> rfl
  · rw [exec_mcredRoundTimeout, execMcredRoundTimeout]; simp only [hg]

/-! ### The order of a pair -/

@[simp] theorem State.rxPair_setRx (s : State) (k : Nat) (x : RxPair) : (s.setRx k x).rxPair k = x := Sparse.get_set_self _ _ _ _

section
variable (proc : State → Packet → Got) {k : Nat} {s : State}

/-- A pair none of whose held packets has its turn stays as it is. -/
theorem drainPair_idle (n : Nat) (hidle : ((s.rxPair k).held.find? fun p => p.pseq = (s.rxPair k).next) = none) :
    State.drainPair proc k n s = s := by
  cases n with
  | zero => rfl
  | succ n => simp only [State.drainPair, hidle]

/-- A held packet whose turn it is is dealt with, and the number expected rises. -/
theorem drainPair_turn {t : State} {p : Packet} {x : RxPair} (n : Nat) (hx : s.rxPair k = x)
    (hturn : (x.held.find? fun p => p.pseq = x.next) = some p)
    (hproc : proc (s.setRx k { x with next := x.next + 1, held := x.held.filter fun y => y.pseq ≠ p.pseq }) p = .done t) :
    State.drainPair proc k (n + 1) s = State.drainPair proc k n t := by
  simp only [State.drainPair, hx, hturn, hproc]

end

section
variable (proc : State → Packet → Got) {s : State} {p : Packet}

theorem portTakes_applied (h : seqBefore p.pseq (s.rxPair (rxKey p)).next = true) : State.portTakes proc s p = s :=
  if_pos (by rw [h, Bool.true_or])

/-- A packet that is not applied already joins a pair that holds none. -/
theorem portTakes_first (hheld : (s.rxPair (rxKey p)).held = []) (h : seqBefore p.pseq (s.rxPair (rxKey p)).next = false) :
    State.portTakes proc s p =
      State.drainPair proc (rxKey p) 2 (s.setRx (rxKey p) { s.rxPair (rxKey p) with held := [p] }) := by
  simp only [State.portTakes, h, hheld, List.any_nil, Bool.or_self, Bool.false_eq_true, if_false, List.length_nil, List.nil_append]

theorem portTakes_early (hheld : (s.rxPair (rxKey p)).held = []) (hne : p.pseq ≠ (s.rxPair (rxKey p)).next)
    (h : seqBefore p.pseq (s.rxPair (rxKey p)).next = false) :
    State.portTakes proc s p = s.setRx (rxKey p) { s.rxPair (rxKey p) with held := [p] } := by
  rw [portTakes_first proc hheld h]
  exact drainPair_idle proc 2 (by simp [hne])

theorem portTakes_turn {t : State} (hheld : (s.rxPair (rxKey p)).held = []) (heq : p.pseq = (s.rxPair (rxKey p)).next)
    (hproc : proc ((s.setRx (rxKey p) { s.rxPair (rxKey p) with held := [p] }).setRx (rxKey p)
      { s.rxPair (rxKey p) with next := (s.rxPair (rxKey p)).next + 1, held := [] }) p = .done t)
    (hnone : (t.rxPair (rxKey p)).held = []) : State.portTakes proc s p = t := by
  have hnow : seqBefore p.pseq (s.rxPair (rxKey p)).next = false := by simp [seqBefore, heq]
  have hout : [p].filter (fun y => y.pseq ≠ p.pseq) = [] := by simp
  rw [portTakes_first proc hheld hnow, drainPair_turn proc (p := p) 1 (State.rxPair_setRx _ _ _) (by simp [heq])
    (by rw [hout]; exact hproc)]
  exact drainPair_idle proc 1 (by rw [hnone]; rfl)

end

theorem packetOrder : Claims.PacketOrder := fun proc _ _ =>
  ⟨portTakes_applied proc, portTakes_early proc, fun _ => portTakes_turn proc⟩

/-! ### Words of one packet -/

/-- Without a flag a word's reason code is what its FIRST packet earned. -/
theorem collectedCode_unsignalled (c : Nat) (e : SegEnt) (f : Nat) : collectedCode c e false f = c := by
  simp [collectedCode]

theorem collectedCode_flagOut {e : SegEnt} {f : Nat} (h : e.limit < f + 8) : collectedCode 0 e true f = 3 := by
  simp [collectedCode, h]

theorem collectedCode_flagOdd {e : SegEnt} {f : Nat} (hin : f + 8 ≤ e.limit) (hodd : (e.base + f) % 8 ≠ 0) :
    collectedCode 0 e true f = 7 := by
  simp [collectedCode, hin.not_gt, hodd]

theorem collectedCode_flagIn {e : SegEnt} {f : Nat} (hin : f + 8 ≤ e.limit) (hal : (e.base + f) % 8 = 0) :
    collectedCode 0 e true f = 0 := by
  simp [collectedCode, hin.not_gt, hal]

/-- An accepted put writes its bytes, raises its flag where it has one, and is acknowledged. -/
theorem applyWord_put {s : State} {p : Packet} (q : SegAsk) (runs flag : List Seg) (hop : p.op = pkPut) (hfill : pktFill p = false) :
    s.applyWord q [p] runs flag = (if flag.isEmpty then writeSegs s runs p.data
      else ((writeSegs s runs p.data).rmw .add flag 8 1 0).2).ackWord p s.chipNo 0 := by
  simp [State.applyWord, hop, pkPut, hfill]

/-- A put is neither a SEM nor a READ nor an ATOMIC. -/
theorem put_op_ne {p : Packet} (hop : p.op = pkPut) : p.op ≠ pkSem ∧ p.op ≠ pkRead ∧ p.op ≠ pkAtomic := by
  rw [hop]; decide

section
variable {s : State} {p : Packet} {x : RxPair}

theorem finishCollected_unknown (hx : x.ent = none) :
    s.finishCollected [p] x = .done (s.ackWord p s.chipNo (if x.code = 0 then 2 else x.code)) := by
  simp [State.finishCollected, hx]

variable {e : SegEnt} (hop : p.op = pkPut) (hx : x.ent = some e)
include hop hx

/-- A put with a reason code writes nothing and is acknowledged with it. -/
theorem finishCollected_refused {c : Nat} (hc : collectedCode x.code e (pktSig p) p.fofs.toNat = c) (hne : c ≠ 0) :
    s.finishCollected [p] x = .done (s.ackWord p s.chipNo c) := by
  obtain ⟨hsem, -, -⟩ := put_op_ne hop
  obtain ⟨c, rfl⟩ := Nat.exists_eq_succ_of_ne_zero hne
  simp [State.finishCollected, hx, hsem, hc]

variable (hc : collectedCode x.code e (pktSig p) p.fofs.toNat = 0)
include hc

theorem finishCollected_poisoned (hp : p.poison = true) : s.finishCollected [p] x = .done (s.ackWord p s.chipNo 8) := by
  obtain ⟨hsem, -, -⟩ := put_op_ne hop
  simp [State.finishCollected, hx, hsem, hc, hp]

variable {runs : List Seg} {s' : State} (hp : p.poison = false)
  (hruns : s.wordRuns (pktAsk p) e x.pages [(p.ofs.toNat, p.data.length)] = .yes runs s')
include hp hruns

theorem finishCollected_unsignalled (hs : pktSig p = false) :
    s.finishCollected [p] x = .done (s'.applyWord (pktAsk p) [p] runs []) := by
  obtain ⟨-, hread, hatom⟩ := put_op_ne hop
  rw [hs] at hc
  simp [State.finishCollected, hx, hs, hc, hp, hread, hatom, hruns]

theorem finishCollected_signalled {t : State} {flag : List Seg} (hs : pktSig p = true)
    (hflag : s'.segXlate { pktAsk p with acc := .atomic } e p.fofs.toNat 8 = .yes flag t) :
    s.finishCollected [p] x = .done (t.applyWord (pktAsk p) [p] runs flag) := by
  obtain ⟨hsem, hread, hatom⟩ := put_op_ne hop
  rw [hs] at hc
  simp [State.finishCollected, hx, hs, hsem, hc, hp, hread, hatom, hruns, hflag]

end

theorem wordsApplied : Claims.WordsApplied := by
  intro s p e x hop hfill
  refine ⟨finishCollected_unknown, fun hx hne hs => ?_, fun hx h0 hs => ⟨fun hout => ?_, fun hin hodd => ?_⟩,
    fun runs s' hx h0 hs hp hruns => ?_, fun runs flag s' t hx h0 hs hin hal hp hruns hflag hne => ?_, fun hx h0 hp hs => ?_⟩
  · exact finishCollected_refused hop hx (by rw [hs, collectedCode_unsignalled]) hne
  · exact finishCollected_refused hop hx (by rw [h0, hs, collectedCode_flagOut hout]) (by decide)
  · exact finishCollected_refused hop hx (by rw [h0, hs, collectedCode_flagOdd hin hodd]) (by decide)
  · rw [finishCollected_unsignalled hop hx (by rw [h0, hs, collectedCode_unsignalled]) hp hruns hs, applyWord_put _ _ _ hop hfill]; rfl
  · have hc : collectedCode x.code e (pktSig p) p.fofs.toNat = 0 := by rw [h0, hs, collectedCode_flagIn hin hal]
    rw [finishCollected_signalled hop hx hc hp hruns hs hflag, applyWord_put _ _ _ hop hfill,
      if_neg (by simpa using hne)]
  · exact finishCollected_poisoned hop hx (by rw [h0, hs, collectedCode_unsignalled]) hp

end Machine

/-- Settles O41: the egress unit by its cases, the numbers of a pair by what it holds, and a word of one packet by its reason code. -/
theorem fabricPackets : Obligations.FabricPackets :=
  ⟨Machine.egressAccepts, Machine.packetEvents, Machine.packetOrder, Machine.wordsApplied⟩

end Sys2Proof
end

section
/-! SUPPORT. The formats of words as bits: the fields of a payload give the payload back, and a payload's fields are those it was made
of (06 Table 6-3, R168); so is it for the header, the major and FN of a word (06 Table 6-1). -/

namespace Sys2Proof

/-! ### Fields of appended bits -/

theorem extractLsb'_append_left {n m k len : Nat} (x : BitVec n) (y : BitVec m) (h : m ≤ k) :
    (x ++ y).extractLsb' k len = x.extractLsb' (k - m) len := by
  ext i hi
  simp only [BitVec.getElem_extractLsb', BitVec.getLsbD_append, if_neg (show ¬k + i < m by omega)]
  congr 1; omega

theorem extractLsb'_append_right {n m k len : Nat} (x : BitVec n) (y : BitVec m) (h : k + len ≤ m) :
    (x ++ y).extractLsb' k len = y.extractLsb' k len := by
  ext i hi
  simp only [BitVec.getElem_extractLsb', BitVec.getLsbD_append, if_pos (show k + i < m by omega)]

/-- The zero bits below a format's fields are bits of the payload. -/
theorem zero_eq_extractLsb' {p : BitVec 56} (n : Nat) (h : p.toNat % 2 ^ n = 0) : 0#n = p.extractLsb' 0 n :=
  BitVec.eq_of_toNat_eq (by simp [BitVec.extractLsb'_toNat, h])

/-! ### A payload's fields -/

@[simp] theorem FmtRR.ofBits_toBits (f : FmtRR) : FmtRR.ofBits f.toBits = f := by
  simp (disch := omega) only [FmtRR.ofBits, FmtRR.toBits, extractLsb'_append_left, extractLsb'_append_right]
  simp
@[simp] theorem FmtRI.ofBits_toBits (f : FmtRI) : FmtRI.ofBits f.toBits = f := by
  simp (disch := omega) only [FmtRI.ofBits, FmtRI.toBits, extractLsb'_append_left, extractLsb'_append_right]
  simp
@[simp] theorem FmtM.ofBits_toBits (f : FmtM) : FmtM.ofBits f.toBits = f := by
  simp (disch := omega) only [FmtM.ofBits, FmtM.toBits, extractLsb'_append_left, extractLsb'_append_right]
  simp
@[simp] theorem FmtB.ofBits_toBits (f : FmtB) : FmtB.ofBits f.toBits = f := by
  simp (disch := omega) only [FmtB.ofBits, FmtB.toBits, extractLsb'_append_left]
  simp
@[simp] theorem FmtL.ofBits_toBits (f : FmtL) : FmtL.ofBits f.toBits = f := by
  simp (disch := omega) only [FmtL.ofBits, FmtL.toBits, extractLsb'_append_left, extractLsb'_append_right]
  simp
@[simp] theorem FmtP.ofBits_toBits (f : FmtP) : FmtP.ofBits f.toBits = f := by
  simp (disch := omega) only [FmtP.ofBits, FmtP.toBits, extractLsb'_append_left, extractLsb'_append_right]
  simp
@[simp] theorem FmtAT.ofBits_toBits (f : FmtAT) : FmtAT.ofBits f.toBits = f := by
  simp (disch := omega) only [FmtAT.ofBits, FmtAT.toBits, extractLsb'_append_left, extractLsb'_append_right]
  simp
@[simp] theorem FmtG.ofBits_toBits (f : FmtG) : FmtG.ofBits f.toBits = f := by
  simp (disch := omega) only [FmtG.ofBits, FmtG.toBits, extractLsb'_append_left, extractLsb'_append_right]
  simp
@[simp] theorem FmtT.ofBits_toBits (f : FmtT) : FmtT.ofBits f.toBits = f := by
  simp (disch := omega) only [FmtT.ofBits, FmtT.toBits, extractLsb'_append_left, extractLsb'_append_right]
  simp
@[simp] theorem FmtF.ofBits_toBits (f : FmtF) : FmtF.ofBits f.toBits = f := by
  simp (disch := omega) only [FmtF.ofBits, FmtF.toBits, extractLsb'_append_left, extractLsb'_append_right]
  simp
@[simp] theorem FmtE.ofBits_toBits (f : FmtE) : FmtE.ofBits f.toBits = f := by
  simp (disch := omega) only [FmtE.ofBits, FmtE.toBits, extractLsb'_append_left, extractLsb'_append_right]
  simp
@[simp] theorem FmtC.ofBits_toBits (f : FmtC) : FmtC.ofBits f.toBits = f := by
  simp (disch := omega) only [FmtC.ofBits, FmtC.toBits, extractLsb'_append_left, extractLsb'_append_right]
  simp

/-! ### The fields of a payload -/

@[simp] theorem FmtRR.toBits_ofBits (p : BitVec 56) : (FmtRR.ofBits p).toBits = p := by
  simp (disch := omega) only [FmtRR.ofBits, FmtRR.toBits, BitVec.extractLsb'_append_extractLsb'_eq_extractLsb']
  exact BitVec.extractLsb'_eq_self
@[simp] theorem FmtRI.toBits_ofBits (p : BitVec 56) : (FmtRI.ofBits p).toBits = p := by
  simp (disch := omega) only [FmtRI.ofBits, FmtRI.toBits, BitVec.extractLsb'_append_extractLsb'_eq_extractLsb']
  exact BitVec.extractLsb'_eq_self
@[simp] theorem FmtM.toBits_ofBits (p : BitVec 56) : (FmtM.ofBits p).toBits = p := by
  simp (disch := omega) only [FmtM.ofBits, FmtM.toBits, BitVec.extractLsb'_append_extractLsb'_eq_extractLsb']
  exact BitVec.extractLsb'_eq_self
@[simp] theorem FmtE.toBits_ofBits (p : BitVec 56) : (FmtE.ofBits p).toBits = p := by
  simp (disch := omega) only [FmtE.ofBits, FmtE.toBits, BitVec.extractLsb'_append_extractLsb'_eq_extractLsb']
  exact BitVec.extractLsb'_eq_self
@[simp] theorem FmtB.toBits_ofBits {p : BitVec 56} (hp : p.toNat % 2 ^ 24 = 0) : (FmtB.ofBits p).toBits = p := by
  simp (disch := omega) only [FmtB.ofBits, FmtB.toBits, zero_eq_extractLsb' _ hp, BitVec.extractLsb'_append_extractLsb'_eq_extractLsb']
  exact BitVec.extractLsb'_eq_self
@[simp] theorem FmtL.toBits_ofBits {p : BitVec 56} (hp : p.toNat % 2 ^ 31 = 0) : (FmtL.ofBits p).toBits = p := by
  simp (disch := omega) only [FmtL.ofBits, FmtL.toBits, zero_eq_extractLsb' _ hp, BitVec.extractLsb'_append_extractLsb'_eq_extractLsb']
  exact BitVec.extractLsb'_eq_self
@[simp] theorem FmtP.toBits_ofBits {p : BitVec 56} (hp : p.toNat % 2 ^ 46 = 0) : (FmtP.ofBits p).toBits = p := by
  simp (disch := omega) only [FmtP.ofBits, FmtP.toBits, zero_eq_extractLsb' _ hp, BitVec.extractLsb'_append_extractLsb'_eq_extractLsb']
  exact BitVec.extractLsb'_eq_self
@[simp] theorem FmtAT.toBits_ofBits {p : BitVec 56} (hp : p.toNat % 2 ^ 12 = 0) : (FmtAT.ofBits p).toBits = p := by
  simp (disch := omega) only [FmtAT.ofBits, FmtAT.toBits, zero_eq_extractLsb' _ hp, BitVec.extractLsb'_append_extractLsb'_eq_extractLsb']
  exact BitVec.extractLsb'_eq_self
@[simp] theorem FmtG.toBits_ofBits {p : BitVec 56} (hp : p.toNat % 2 ^ 10 = 0) : (FmtG.ofBits p).toBits = p := by
  simp (disch := omega) only [FmtG.ofBits, FmtG.toBits, zero_eq_extractLsb' _ hp, BitVec.extractLsb'_append_extractLsb'_eq_extractLsb']
  exact BitVec.extractLsb'_eq_self
@[simp] theorem FmtT.toBits_ofBits {p : BitVec 56} (hp : p.toNat % 2 ^ 4 = 0) : (FmtT.ofBits p).toBits = p := by
  simp (disch := omega) only [FmtT.ofBits, FmtT.toBits, zero_eq_extractLsb' _ hp, BitVec.extractLsb'_append_extractLsb'_eq_extractLsb']
  exact BitVec.extractLsb'_eq_self
@[simp] theorem FmtF.toBits_ofBits {p : BitVec 56} (hp : p.toNat % 2 ^ 3 = 0) : (FmtF.ofBits p).toBits = p := by
  simp (disch := omega) only [FmtF.ofBits, FmtF.toBits, zero_eq_extractLsb' _ hp, BitVec.extractLsb'_append_extractLsb'_eq_extractLsb']
  exact BitVec.extractLsb'_eq_self
@[simp] theorem FmtC.toBits_ofBits {p : BitVec 56} (hp : p.toNat % 2 ^ 27 = 0) : (FmtC.ofBits p).toBits = p := by
  simp (disch := omega) only [FmtC.ofBits, FmtC.toBits, zero_eq_extractLsb' _ hp, BitVec.extractLsb'_append_extractLsb'_eq_extractLsb']
  exact BitVec.extractLsb'_eq_self

end Sys2Proof
end

section
/-! SUPPORT. The rows of the opcode map (06 Table 6-8), read both ways: a row that decodes names its own major, FN, header and payload,
and a well-formed word's row decodes to it; then the two statements on encoding. -/

namespace Sys2Proof
open Machine WellFormed

/-! ### Words (06 Table 6-1) -/

theorem Hdr.ofWord_packWord (h : Hdr) (opc fn : Nat) (p : BitVec 56) : Hdr.ofWord (packWord h opc fn p) = h := by
  have hstop : (packWord h opc fn p).getLsbD 79 = h.stop := by
    simp only [packWord, BitVec.getLsbD_append]
    simp
  rw [Hdr.ofWord, hstop]
  simp (disch := omega) only [packWord, extractLsb'_append_left, extractLsb'_append_right]
  simp

theorem extractLsb'_packWord (h : Hdr) {opc fn : Nat} (p : BitVec 56) (hopc : opc < 128) (hfn : fn < 64) :
    ((packWord h opc fn p).extractLsb' 72 7).toNat = opc ∧ ((packWord h opc fn p).extractLsb' 56 6).toNat = fn ∧
    (packWord h opc fn p).extractLsb' 0 56 = p := by
  simp (disch := omega) only [packWord, extractLsb'_append_left, extractLsb'_append_right]
  simp [Nat.mod_eq_of_lt hopc, Nat.mod_eq_of_lt hfn]

/-- A word is its header, major, FN and payload: no bit is left over. -/
theorem packWord_ofWord (w : IWord) :
    packWord (Hdr.ofWord w) (w.extractLsb' 72 7).toNat (w.extractLsb' 56 6).toNat (w.extractLsb' 0 56) = w := by
  have hstop : BitVec.ofBool (w.getLsbD 79) = w.extractLsb' 79 1 := by
    ext i hi
    simp [show i = 0 by omega]
  simp (disch := omega) only [packWord, Hdr.ofWord, hstop, BitVec.ofNat_toNat, BitVec.setWidth_eq,
    BitVec.extractLsb'_append_extractLsb'_eq_extractLsb']
  exact BitVec.extractLsb'_eq_self

/-! ### Rows that decode -/

theorem lowZero_eq_ok {n : Nat} {p : BitVec 56} {i j : Instr} : lowZero n p j = .ok i ↔ p.toNat % 2 ^ n = 0 ∧ j = i := by
  unfold lowZero
  split <;> simp [*]

theorem Cc.ofNat?_eq_some {n : Nat} {c : Cc} : Cc.ofNat? n = some c ↔ n = c.toNat := by
  constructor
  · intro h
    unfold Cc.ofNat? at h
    split at h <;> cases h <;> rfl
  · rintro rfl
    cases c <;> rfl

theorem ccRow_eq_ok {n : Nat} {k : Cc → Instr} {i : Instr} : ccRow n k = .ok i ↔ ∃ c : Cc, n = c.toNat ∧ k c = i := by
  unfold ccRow
  cases hn : Cc.ofNat? n with
  | none => simp [← Cc.ofNat?_eq_some, hn]
  | some c => simp [← Cc.ofNat?_eq_some, hn]

/-- A payload of zero fields alone is zero. -/
theorem eq_zero_of_mod {p : BitVec 56} (h : p.toNat % 2 ^ 56 = 0) : 0 = p :=
  (zero_eq_extractLsb' 56 h).trans BitVec.extractLsb'_eq_self

/-- What a row decodes to has the row's major and FN, and its header and payload. -/
def RowOf (opc fn : Nat) (h : Hdr) (p : BitVec 56) (r : Except DecodeErr Instr) : Prop :=
  ∀ i, r = .ok i → opFn i = some (opc, fn) ∧ headPayload i = some (h, p)

section
variable {opc fn : Nat} {h : Hdr} {p : BitVec 56}

theorem RowOf.error {e : DecodeErr} : RowOf opc fn h p (.error e) := fun _ he => by cases he

theorem RowOf.ok {i : Instr} {q : BitVec 56} (ho : opFn i = some (opc, fn)) (hp : headPayload i = some (h, q)) (hq : q = p) :
    RowOf opc fn h p (.ok i) := by
  rintro _ ⟨⟩
  exact ⟨ho, hq ▸ hp⟩

theorem RowOf.lowZero {n : Nat} {i : Instr} {q : BitVec 56} (ho : opFn i = some (opc, fn)) (hp : headPayload i = some (h, q))
    (hq : p.toNat % 2 ^ n = 0 → q = p) : RowOf opc fn h p (Sys2Proof.lowZero n p i) := by
  intro j hj
  obtain ⟨hz, rfl⟩ := lowZero_eq_ok.1 hj
  exact ⟨ho, hq hz ▸ hp⟩

theorem RowOf.ccRow {n : Nat} {k : Cc → Instr} (hk : ∀ c : Cc, n = c.toNat → RowOf opc fn h p (.ok (k c))) :
    RowOf opc fn h p (Sys2Proof.ccRow n k) := by
  intro i hi
  obtain ⟨c, hn, rfl⟩ := ccRow_eq_ok.1 hi
  exact hk c hn _ rfl

/-- The conditions of a major's upper rows have FN[3] set. -/
theorem cc_high {c : Cc} {i : Instr} (hc : fn - 8 = c.toNat) (hfn : ¬fn < 8) (ho : opFn i = some (opc, c.toNat + 8)) :
    opFn i = some (opc, fn) := by
  rw [ho, ← hc, Nat.sub_add_cancel (by omega)]

/-- CMP and FCMP take their condition from FN[2:0], below or above FN[3]; every other row has one FN. -/
theorem decodeS_row : RowOf opc fn h p (decodeS opc fn h p) := by
  unfold decodeS
  split <;> try split
  any_goals exact .error
  case h_15.isTrue => exact .ccRow fun c hc => .ok (hc ▸ rfl) rfl (FmtRR.toBits_ofBits p)
  case h_15.isFalse => exact .ccRow fun c hc => .ok (cc_high hc ‹_› rfl) rfl (FmtRI.toBits_ofBits p)
  any_goals refine .ok rfl rfl ?_
  any_goals simp only [RRI.toBits, FmtRR.toBits_ofBits, FmtRI.toBits_ofBits]
  any_goals exact .lowZero rfl rfl eq_zero_of_mod
  any_goals exact .lowZero rfl rfl FmtB.toBits_ofBits
  any_goals exact .lowZero rfl rfl FmtL.toBits_ofBits
  any_goals exact .lowZero rfl rfl FmtP.toBits_ofBits
  split
  · exact .error
  · exact .ccRow fun c hc => .ok (cc_high hc ‹_› rfl) rfl (FmtRR.toBits_ofBits p)

theorem decodeV_row : RowOf opc fn h p (decodeV opc fn h p) := by
  unfold decodeV
  split <;> try split
  any_goals exact .error
  any_goals exact .ok rfl rfl (FmtRR.toBits_ofBits p)
  any_goals exact .ccRow fun c hc => .ok (hc ▸ rfl) rfl (FmtRR.toBits_ofBits p)
  split
  all_goals exact .ok rfl rfl (FmtRR.toBits_ofBits p)

theorem decodeM_row : RowOf opc fn h p (decodeM opc fn h p) := by
  unfold decodeM
  split <;> try split
  any_goals exact .error
  any_goals exact .ok rfl rfl (FmtM.toBits_ofBits p)
  any_goals exact .lowZero rfl rfl FmtG.toBits_ofBits
  any_goals exact .lowZero rfl rfl FmtAT.toBits_ofBits
  any_goals exact .lowZero rfl rfl FmtT.toBits_ofBits
  any_goals exact .lowZero rfl rfl FmtF.toBits_ofBits
  split
  all_goals exact .lowZero rfl rfl FmtT.toBits_ofBits

theorem decodeE_row : RowOf opc fn h p (decodeE opc fn h p) := by
  unfold decodeE
  split <;> try split
  any_goals exact .error
  any_goals exact .ok rfl rfl (FmtE.toBits_ofBits p)
  all_goals split
  any_goals exact .error
  all_goals exact .ok rfl rfl (FmtE.toBits_ofBits p)

theorem decodeX_row : RowOf opc fn h p (decodeX opc fn h p) := by
  unfold decodeX
  split <;> try split
  any_goals exact .error
  any_goals exact .ok rfl rfl (FmtRR.toBits_ofBits p)
  any_goals exact .lowZero rfl rfl FmtC.toBits_ofBits
  all_goals exact .lowZero rfl rfl eq_zero_of_mod

/-! ### Rows that words name -/

theorem decodeRow_row (opc fn : Nat) (h : Hdr) (p : BitVec 56) : RowOf opc fn h p (decodeRow opc fn h p) := by
  unfold decodeRow
  split_ifs
  · exact decodeS_row
  · exact decodeV_row
  · exact decodeM_row
  · exact decodeE_row
  · exact decodeX_row

@[simp] theorem lowZero_zero (n : Nat) (i : Instr) : lowZero n 0#56 i = .ok i := by simp [lowZero]

theorem lowZero_append {n m : Nat} (x : BitVec m) (hx : m + n = 56) (i : Instr) :
    lowZero n ((x ++ 0#n).cast hx) i = .ok i := by
  rw [lowZero_eq_ok]
  simp [BitVec.toNat_append, Nat.shiftLeft_eq]

@[simp] theorem lowZero_fmtB (f : FmtB) (i : Instr) : lowZero 24 f.toBits i = .ok i := lowZero_append _ rfl i
@[simp] theorem lowZero_fmtL (f : FmtL) (i : Instr) : lowZero 31 f.toBits i = .ok i := lowZero_append _ rfl i
@[simp] theorem lowZero_fmtP (f : FmtP) (i : Instr) : lowZero 46 f.toBits i = .ok i := lowZero_append _ rfl i
@[simp] theorem lowZero_fmtAT (f : FmtAT) (i : Instr) : lowZero 12 f.toBits i = .ok i := lowZero_append _ rfl i
@[simp] theorem lowZero_fmtG (f : FmtG) (i : Instr) : lowZero 10 f.toBits i = .ok i := lowZero_append _ rfl i
@[simp] theorem lowZero_fmtT (f : FmtT) (i : Instr) : lowZero 4 f.toBits i = .ok i := lowZero_append _ rfl i
@[simp] theorem lowZero_fmtF (f : FmtF) (i : Instr) : lowZero 3 f.toBits i = .ok i := lowZero_append _ rfl i
@[simp] theorem lowZero_fmtC (f : FmtC) (i : Instr) : lowZero 27 f.toBits i = .ok i := lowZero_append _ rfl i

@[simp] theorem ccRow_toNat (c : Cc) (k : Cc → Instr) : ccRow c.toNat k = .ok (k c) := ccRow_eq_ok.2 ⟨c, rfl, rfl⟩

theorem Cc.toNat_lt (c : Cc) : c.toNat < 8 := by cases c <;> decide

/-- MODE, which names the word of an E major (06 R172). -/
@[simp] theorem FmtE.extractLsb'_toBits_mode (f : FmtE) : f.toBits.extractLsb' 20 3 = f.mode := by
  conv_rhs => rw [← f.ofBits_toBits]
  rfl
/-- IMM[1:0], which names the word of GETC (09 R298). -/
@[simp] theorem FmtT.extractLsb'_toBits_imm (f : FmtT) : f.toBits.extractLsb' 9 2 = f.imm.extractLsb' 0 2 := by
  simp (disch := omega) only [FmtT.toBits, extractLsb'_append_left, extractLsb'_append_right]
/-- AUX[5], which names the direction of VCVT.BS (08 R247, R248). -/
@[simp] theorem FmtRR.extractLsb'_toBits_aux (f : FmtRR) : f.toBits.extractLsb' 5 1 = f.aux.extractLsb' 5 1 := by
  simp (disch := omega) only [FmtRR.toBits, extractLsb'_append_right]

theorem hdrOf_eq_headPayload (i : Instr) : hdrOf i = (headPayload i).map Prod.fst := by cases i <;> rfl

/-- The word has a major and FN, and the row that they name decodes its payload to it. -/
def NamesRow (i : Instr) (h : Hdr) (p : BitVec 56) : Prop :=
  ∃ opc fn, opFn i = some (opc, fn) ∧ opc < 128 ∧ fn < 64 ∧ decodeRow opc fn h p = .ok i

section
variable {i : Instr} (hw : wellFormed i = true) (hp : headPayload i = some (h, p))
include hp

theorem namesRow_nop (hc : cls i = .nop) : NamesRow i h p := by
  cases i <;> cases hc
  cases hp
  exact ⟨_, _, rfl, by decide, by decide, by simp [decodeRow, decodeS]⟩

theorem namesRow_s (hc : cls i = .s) : NamesRow i h p := by
  cases i <;> cases hc <;> cases hp
  case add f | sub f | mul f | mulHi f | divI f | divRem f | andI f | orI f | xorI f | andn f | shl f | shr f | sra f | rot f |
      minI f | maxI f | lea f =>
    cases f
    all_goals exact ⟨_, _, rfl, by decide, by decide, by simp [decodeRow, decodeS, RRI.toBits]⟩
  case cmp c f =>
    cases f
    all_goals exact ⟨_, _, rfl, by decide, by have := c.toNat_lt; omega, by simp [decodeRow, decodeS, RRI.toBits, c.toNat_lt]⟩
  case fcmp c f => exact ⟨_, _, rfl, by decide, by have := c.toNat_lt; omega, by simp [decodeRow, decodeS]⟩
  all_goals exact ⟨_, _, rfl, by decide, by decide, by simp [decodeRow, decodeS]⟩

theorem namesRow_sys (hc : cls i = .sys) : NamesRow i h p := by
  cases i <;> cases hc <;> cases hp
  all_goals exact ⟨_, _, rfl, by decide, by decide, by simp [decodeRow, decodeX]⟩

include hw

/-- The two directions of VCVT.BS share a row, which AUX[5] tells apart. -/
theorem namesRow_v (hc : cls i = .v) : NamesRow i h p := by
  cases i <;> cases hc <;> cases hp
  case vcmp c f | vfcmp c f =>
    exact ⟨_, _, rfl, by decide, by have := c.toNat_lt; omega, by simp [decodeRow, decodeV]⟩
  case vcvtBsPack f =>
    simp only [wellFormed, Bool.and_eq_true, beq_iff_eq] at hw
    exact ⟨_, _, rfl, by decide, by decide, by simp [decodeRow, decodeV, hw]⟩
  case vcvtBsUnpack f =>
    simp only [wellFormed, Bool.and_eq_true, beq_iff_eq] at hw
    have haux : f.aux.extractLsb' 5 1 = (f.aux.extractLsb' 5 4).extractLsb' 0 1 := by
      ext i hi
      simp [show i < 4 by omega]
    exact ⟨_, _, rfl, by decide, by decide, by simp [decodeRow, decodeV, haux, hw]⟩
  all_goals exact ⟨_, _, rfl, by decide, by decide, by simp [decodeRow, decodeV]⟩

/-- The words of GETC share a row, which IMM[1:0] tells apart. -/
theorem namesRow_m (hc : cls i = .m) : NamesRow i h p := by
  cases i <;> cases hc <;> cases hp
  case getcCoord f | getcShape f | getcLaunch f | getcCore f =>
    simp only [wellFormed, Bool.and_eq_true, beq_iff_eq] at hw
    exact ⟨_, _, rfl, by decide, by decide, by simp [decodeRow, decodeM, hw, -BitVec.extractLsb'_toNat]⟩
  all_goals exact ⟨_, _, rfl, by decide, by decide, by simp [decodeRow, decodeM]⟩

/-- The words of an E major share a row, which MODE tells apart. -/
theorem namesRow_e (hc : cls i = .e) : NamesRow i h p := by
  cases i <;> cases hc <;> cases hp
  case wcfg | wcfgEg | pack | packRev | packLimb | wmulConv | wmulCorr | wmulLimb | wmulOuter | wmulOuterSp | wmacConv | wmacCorr |
      wmacLimb | wmacOuter | wmacOuterSp | extrDigm | extrDigs | extrLimb | extrTile | extrTileClr | sbindA | sbindB | mldr |
      mldrEntries | scld | scldRd =>
    simp only [wellFormed, WellFormed.pack, digits, outer, extrMem, Bool.and_eq_true, beq_iff_eq] at hw
    exact ⟨_, _, rfl, by decide, by decide, by simp [decodeRow, decodeE, hw]⟩
  case sbindUnbind =>
    simp only [wellFormed, Bool.and_eq_true, Bool.or_eq_true, beq_iff_eq] at hw
    obtain ⟨⟨⟨⟨⟨⟨-, hmode | hmode⟩, -⟩, -⟩, -⟩, -⟩, -⟩ := hw
    all_goals exact ⟨_, _, rfl, by decide, by decide, by simp [decodeRow, decodeE, hmode]⟩
  all_goals exact ⟨_, _, rfl, by decide, by decide, by simp [decodeRow, decodeE]⟩

theorem namesRow_of_wellFormed : NamesRow i h p := by
  cases hc : cls i
  case nop => exact namesRow_nop hp hc
  case s => exact namesRow_s hp hc
  case v => exact namesRow_v hw hp hc
  case m => exact namesRow_m hw hp hc
  case e => exact namesRow_e hw hp hc
  case sys => exact namesRow_sys hp hc
  case event => cases i <;> cases hc <;> cases hp

end

/-! ### Words and their rows -/

theorem encode_eq_some {i : Instr} (ho : opFn i = some (opc, fn)) (hp : headPayload i = some (h, p)) :
    encode i = some (packWord h opc fn p) := by
  simp only [encode, ho, hp]

theorem decodeWord_packWord (hopc : opc < 128) (hfn : fn < 64) {i : Instr} (hw : wellFormed i = true)
    (hd : decodeRow opc fn h p = .ok i) : decodeWord (packWord h opc fn p) = .ok i := by
  obtain ⟨ho, hf, hp⟩ := extractLsb'_packWord h p hopc hfn
  rw [decodeWord, ho, hf, hp, Hdr.ofWord_packWord, hd]
  exact if_pos hw

theorem exists_headPayload {i : Instr} (hi : isWord i = true) : ∃ h p, headPayload i = some (h, p) := by
  rw [isWord, hdrOf_eq_headPayload, Option.isSome_map, Option.isSome_iff_exists] at hi
  obtain ⟨⟨h, p⟩, hp⟩ := hi
  exact ⟨h, p, hp⟩

theorem decodeWord_eq_ok {w : IWord} {i : Instr} (hd : decodeWord w = .ok i) :
    wellFormed i = true ∧
    decodeRow (w.extractLsb' 72 7).toNat (w.extractLsb' 56 6).toNat (Hdr.ofWord w) (w.extractLsb' 0 56) = .ok i := by
  unfold decodeWord at hd
  split at hd
  · cases hd
  next j hj =>
    split at hd
    next hw =>
      cases hd
      exact ⟨hw, hj⟩
    · cases hd

end

/-- Settles O2: the word of a row is its header, major, FN and payload, and the row decodes them to the word's own instruction. -/
theorem encodedWordDecodes : Obligations.EncodedWordDecodes := by
  intro i hw hi
  obtain ⟨h, p, hp⟩ := exists_headPayload hi
  obtain ⟨opc, fn, ho, hopc, hfn, hd⟩ := namesRow_of_wellFormed hw hp
  exact ⟨packWord h opc fn p, encode_eq_some ho hp, decodeWord_packWord hopc hfn hw hd⟩

/-- Settles O3: a row decodes to words of its own major, FN, header and payload alone, and these are all the bits of a word. -/
theorem decodedWordEncodes : Obligations.DecodedWordEncodes := by
  intro w i hd
  obtain ⟨hw, hrow⟩ := decodeWord_eq_ok hd
  obtain ⟨ho, hp⟩ := decodeRow_row _ _ _ _ i hrow
  refine ⟨hw, ?_, ?_⟩
  · rw [Machine.isWord, hdrOf_eq_headPayload, hp]
    rfl
  · rw [encode_eq_some ho hp, packWord_ofWord]

/-- Settles O1: each word is ten bytes, and the decoder runs on them. -/
theorem decodedSampleWords : Obligations.DecodedSampleWords := by
  unfold Obligations.DecodedSampleWords Claims.DecodeSampleWords
  decide

end Sys2Proof
end

section
/-! SUPPORT. Groups as they issue: the turn goes to the next word, results in flight land by their count, and what is captured for a word
that is issued again or repeated (06 R176, R178, R188, R192; 17 R445). -/

namespace Sys2Proof
namespace Machine
open Safety

/-! ### The next word -/

theorem groupGoesOn : Claims.GroupGoesOn := by
  intro s g i hg hafter
  have hfinish : finishWord s = s.setMe (s.me.setGroup fun g => { g with idx := i }) := by
    simp only [finishWord, group_some hg, hafter]
  rw [hfinish]
  exact ⟨kept_setMe s _, rfl, by rw [State.me_setMe, Slot.setGroup, group_some hg]⟩

/-! ### A result in flight -/

/-- The slot with one result in flight, which lands at the end of the `left`-th cycle. -/
def Slot.flying (l : Slot) (x : Landing) (left : Nat) : Slot := l.setBank { l.bank with inflight := [{ x with left := left }] }

theorem flying_self {l : Slot} {x : Landing} (hl : l.bank.inflight = [x]) : l.flying x x.left = l := by
  rw [Slot.flying, ← hl, setBank_self]

/-- Until the last cycle of its count the result stays in flight. -/
theorem endCycle_flying_later (l : Slot) (x : Landing) (k : Nat) : (l.flying x (k + 2)).endCycle.1 = l.flying x (k + 1) := by
  simp [Slot.flying, Slot.endCycle, setBank_eq, bank_eq, setBankOf_bank, setBankOf_setBankOf]

/-- At the end of the last cycle of its count it lands. -/
theorem endCycle_flying_now (l : Slot) (x : Landing) :
    (l.flying x 1).endCycle.1 = (l.setBank { l.bank with inflight := [] }).land l.level x := by
  simp only [Slot.flying, Slot.endCycle, setBank_eq, bank_eq, setBankOf_level, setBankOf_bank, setBankOf_setBankOf, List.filter_cons,
    List.filter_nil, le_refl, lt_self_iff_false, decide_true, decide_false, if_true, Bool.false_eq_true, if_false, List.map_nil,
    List.foldl_cons, List.foldl_nil]
  rfl

theorem iterate_endCycle_flying (l : Slot) (x : Landing) {m n : Nat} (hm : m ≤ n) :
    (fun l => (Slot.endCycle l).1)^[m] (l.flying x (n + 1)) = l.flying x (n + 1 - m) := by
  induction m with
  | zero => rfl
  | succ m ih =>
    rw [Function.iterate_succ_apply', ih (by omega), show n + 1 - m = n - m - 1 + 2 by omega, endCycle_flying_later]
    congr 1
    omega

theorem resultLandsInTime : Claims.ResultLandsInTime := by
  intro l x n hl hx
  have hfly : l.flying x (n + 1) = l := by rw [← hx, flying_self hl]
  refine ⟨fun m hm => ?_, ?_⟩
  · have h := iterate_endCycle_flying l x hm
    rwa [hfly] at h
  · have h := iterate_endCycle_flying l x (le_refl n)
    rw [hfly, Nat.add_sub_cancel_left] at h
    rw [Function.iterate_succ_apply', h, endCycle_flying_now]

theorem resultLanding : Claims.ResultLanding := by
  intro s c k
  refine ⟨fun hd hts => ?_, fun hd => ?_⟩
  · simp [execResultLanding, hd, hts]
  · simp [execResultLanding, hd]

/-! ### Enabled words, and what is captured of them -/

theorem enabled_of_capture_none {l : Slot} (hc : l.capture = none) (h : Hdr) :
    l.enabled h = (l.rdP l.level (h.pr.extractLsb' 0 3).toNat != h.pr.getLsbD 3) := by
  rw [Slot.enabled, hc]

theorem enabled_of_capture {l : Slot} {x : Capture} (hc : l.capture = some x) (h : Hdr) :
    l.enabled h = x.en ∧ (∀ c, l.laneMask h c = Sparse.get 0 x.masks c) ∧ l.fpcNow = x.fpc := by
  simp only [Slot.enabled, Slot.laneMask, Slot.fpcNow, hc, implies_true, and_self]

/-- A map of what each key below `n` is given. -/
theorem Sparse.find_foldl_put {β : Type} (e : Nat → Option β) (n i : Nat) :
    Sparse.find ((List.range n).foldl (fun m j => (e j).elim m (Sparse.put m j)) []) i =
      if i < n then e i else none := by
  induction n with
  | zero => rfl
  | succ n ih =>
    rw [List.range_succ, List.foldl_append, List.foldl_cons, List.foldl_nil]
    rcases lt_trichotomy i n with hi | rfl | hi
    · cases e n <;> simp [Sparse.find_put, ih, hi, hi.ne, Nat.lt_succ_of_lt hi]
    · cases e i <;> simp [ih]
    · cases e n <;> simp [Sparse.find_put, ih, hi.ne', hi.not_gt, show ¬i < n + 1 by omega]

/-- A map of what each key below `n` is set to. -/
theorem Sparse.get_foldl_set {β : Type} [DecidableEq β] (d : β) (f : Nat → β) (n i : Nat) :
    Sparse.get d ((List.range n).foldl (fun m j => Sparse.set d m j (f j)) []) i = if i < n then f i else d := by
  induction n with
  | zero => rfl
  | succ n ih =>
    rw [List.range_succ, List.foldl_append, List.foldl_cons, List.foldl_nil, Sparse.get_set, ih]
    rcases lt_trichotomy i n with hi | rfl | hi
    · simp [hi, hi.ne, Nat.lt_succ_of_lt hi]
    · simp
    · simp [hi.ne', hi.not_gt, show ¬i < n + 1 by omega]

/-- What the replay buffer keeps of word `i` (17 R445). -/
def Slot.captureOf (l : Slot) (g : Group) (i : Nat) : Option Capture :=
  if g.perf.getLsbD i then none
  else match Sparse.find g.caps i with
    | some x => some (if g.reissue then x else { x with ds := l.bank.ds, dv := l.files.dv })
    | none => match decodeWord (g.words.getD i 0) with
      | .ok w =>
        let l' : Slot := { l with grp := none }
        let h := (hdrOf w).getD ⟨false, 0, 0, 0⟩
        some ⟨l'.enabled h, l.bank.fpc,
          if cls w = .v then (List.range 8).foldl (fun m c => Sparse.set 0 m c (l'.laneMask h c)) [] else [], l.bank.ds, l.files.dv⟩
      | .error _ => none

theorem find_captures (l : Slot) {g : Group} {i : Nat} (hi : i < g.words.length) :
    Sparse.find (l.captures g) i = l.captureOf g i := by
  have hfold : l.captures g = (List.range g.words.length).foldl
      (fun m j => (l.captureOf g j).elim m (Sparse.put m j)) [] := by
    unfold Slot.captures
    congr 1
    funext m j
    unfold Slot.captureOf
    by_cases hperf : g.perf.getLsbD j = true
    · simp only [hperf, if_true, Option.elim_none]
    · simp only [hperf]
      cases Sparse.find g.caps j with
      | some x => rfl
      | none => cases decodeWord (g.words.getD j 0) <;> rfl
  rw [hfold, Sparse.find_foldl_put, if_pos hi]

theorem enabledRule : Claims.EnabledRule := by
  refine ⟨fun l h hc => ?_, fun l h x hc => enabled_of_capture hc h, fun l g i w hi hperf hw => ?_⟩
  · rw [enabled_of_capture_none hc]
    refine ⟨?_, fun hpr => ?_, fun hpr => ?_⟩
    · cases l.rdP l.level (h.pr.extractLsb' 0 3).toNat <;> cases h.pr.getLsbD 3 <;> decide
    · rw [hpr]; rfl
    · rw [hpr]; rfl
  · have hcap := find_captures l hi
    refine ⟨fun x hx => ?_, fun hnone => ?_⟩
    · rw [hcap, Slot.captureOf, hperf, hx]
      cases g.reissue with
      | true => exact ⟨x, rfl, rfl, rfl, rfl, fun _ => rfl⟩
      | false => exact ⟨_, rfl, rfl, rfl, rfl, nofun⟩
    · rw [hcap, Slot.captureOf, hperf, hnone]
      simp only [hw]
      refine ⟨_, rfl, rfl, rfl, rfl, fun h hh => ?_⟩
      rw [hh]
      refine ⟨rfl, fun hv c hc => ?_⟩
      simp only [hv, if_true, Sparse.get_foldl_set, hc, Option.getD_some]

end Machine

/-- Settles O6: one update of the group, the close of a group, and a result in flight by induction on the cycles that have passed. -/
theorem groupProgress : Obligations.GroupProgress :=
  ⟨Machine.groupGoesOn, fun _ => Machine.finishWord_closed, Machine.resultLandsInTime, Machine.resultLanding⟩

/-- Settles O9: a word's enable is its capture's where there is one, and the captures of a group are a map with one key for each word. -/
theorem enabledRule : Obligations.EnabledRule := Machine.enabledRule

end Sys2Proof
end

section
/-! SUPPORT. Hardware loops, RPT and user traps (06 R191, R193; 07 R222 to R227, R231). -/

namespace Sys2Proof
namespace Machine
open Safety

/-! ### LOOP and BRKL -/

/-- The bubble of a control transfer changes no predicate and no capture. -/
theorem enabled_withBubble (s : State) (h : Hdr) : s.withBubble.me.enabled h = s.me.enabled h := by
  have hcap : s.withBubble.me.capture = s.me.capture := by
    rw [State.withBubble, State.me_setMe]
    cases hg : s.me.grp with
    | none => simp [Slot.capture, Slot.group, hg, Sparse.find]
    | some g => simp [Slot.capture, Slot.group, hg]
  have hp : s.withBubble.me.rdP s.withBubble.me.level = s.me.rdP s.me.level := by
    rw [State.withBubble, State.me_setMe]
    rfl
  rw [Slot.enabled, Slot.enabled, hcap, hp]

theorem bank_withBubble (s : State) : s.withBubble.me.bank = s.me.bank := by
  rw [State.withBubble, State.me_setMe]
  rfl

theorem loopWords : Claims.LoopWords := by
  intro h f s n s0 e
  refine ⟨fun he hn => ?_, fun hout => ?_, fun x he hx => ?_, fun he => ?_⟩
  · rw [exec_loopI, execLoopI, runWord_enabled _ _ _ _ he]
    have hn' : ¬(readSpec s.me f.count).setWidth 32 = 0 := hn
    simp only [if_neg hn']
    rfl
  · rw [exec_loopI, execLoopI]
    by_cases he : s.me.enabled h = true
    · have hn : (readSpec s.me f.count).setWidth 32 = 0 := hout.resolve_left (by simp [he])
      rw [runWord_enabled _ _ _ _ he]
      simp only [if_pos hn]
      rfl
    · rw [runWord_nullified _ _ _ _ (by simpa using he)]
      rfl
  · rw [exec_brkl, execBrkl, runPlain_enabled _ _ _ ((enabled_withBubble s h).trans he)]
    simp only [bank_withBubble, hx]
    rfl
  · rw [exec_brkl, execBrkl, runPlain_nullified _ _ _ ((enabled_withBubble s h).trans he)]

/-! ### Closures -/

/-- Before its last iteration a loop's index rises and issue goes on at its start. -/
theorem closeLoops_again {f : LoopFrame} {m : Nat} (hm : m + 1 < f.n.toNat) (rest : List LoopFrame) (nxt : BitVec 32) (any : Bool) :
    closeLoops f.e nxt any ({ f with k := BitVec.ofNat 32 m } :: rest) =
      ({ f with k := BitVec.ofNat 32 (m + 1) } :: rest, f.s0, true) := by
  have hk : (BitVec.ofNat 32 m).toNat = m := by
    rw [BitVec.toNat_ofNat, Nat.mod_eq_of_lt (by have := f.n.isLt; omega)]
  rw [closeLoops, if_pos rfl, hk, if_pos hm, BitVec.ofNat_add]
  rfl

/-- After its last iteration a loop's frame is gone and issue goes on after its end. -/
theorem closeLoops_last {f : LoopFrame} (hn : 0 < f.n.toNat) {rest : List LoopFrame} (hrest : ∀ g ∈ rest.head?, g.e ≠ f.e)
    (nxt : BitVec 32) (any : Bool) :
    closeLoops f.e nxt any ({ f with k := BitVec.ofNat 32 (f.n.toNat - 1) } :: rest) = (rest, f.e + 1, true) := by
  have hk : (BitVec.ofNat 32 (f.n.toNat - 1)).toNat = f.n.toNat - 1 := by
    rw [BitVec.toNat_ofNat, Nat.mod_eq_of_lt (by have := f.n.isLt; omega)]
  rw [closeLoops, if_pos rfl, hk, if_neg (show ¬f.n.toNat - 1 + 1 < f.n.toNat by omega), closeLoops_none _ _ _ _ hrest]

theorem loopRunsNTimes : Claims.LoopRunsNTimes := by
  intro f rest nxt hk hrest
  refine ⟨fun m hm => ?_, fun m hm => closeLoops_again hm rest nxt false, fun hn => closeLoops_last hn hrest nxt false⟩
  induction m with
  | zero => rw [Function.iterate_zero_apply, show BitVec.ofNat 32 0 = f.k from hk.symm]
  | succ m ih => rw [Function.iterate_succ_apply', ih (by omega), closeLoops_again hm]

/-! ### RPT and TRAP -/

theorem repeatWord : Claims.RepeatWord := by
  intro h f s he
  rw [exec_rpt, execRpt, runPlain_enabled _ _ _ he]
  refine ⟨fun hr => ?_, fun hr hrem => ?_⟩
  · simp only [hr]
    rfl
  · have hrem' : s.me.csr.rptrem.toNat ≠ 0 := fun h0 => hrem (BitVec.eq_of_toNat_eq h0)
    simp only [hr, if_true, if_neg hrem']
    rfl

theorem userTrapWord : Claims.UserTrapWord := fun h f s =>
  ⟨fun he => by rw [exec_trap, execTrap, runPlain_enabled _ _ _ he]; rfl,
    fun he => by rw [exec_trap, execTrap, runPlain_nullified _ _ _ he], rfl⟩

end Machine

/-- Settles O17: each word by its one effect, and a loop by induction on how many of its iterations have closed. -/
theorem loopAndTrapWords : Obligations.LoopAndTrapWords :=
  ⟨Machine.loopWords, Machine.loopRunsNTimes, Machine.repeatWord, Machine.userTrapWord⟩

end Sys2Proof
end

section
/-! SUPPORT. Loads: the bytes of plain memory wait under the word's tag, and land or raise DATA_POISON (09 R261, R263; 17 R440). -/

namespace Sys2Proof
namespace Machine
open Safety

/-! ### Reads of plain memory -/

theorem readOwn_plain {g : Seg} (hp : plainSeg g = true) (s : State) : readOwn s g = (readSeg s g, s) := by
  obtain ⟨loc, n⟩ := g
  cases loc with
  | scr | sync | flag | ctr | hbm => rfl
  | oor | denied | ext | host | peer => cases hp

/-- A task's read of plain memory changes nothing. -/
theorem readOwns_plain {segs : List Seg} (hp : segs.all plainSeg = true) (s : State) : readOwns s segs = (readSegs s segs, s) := by
  induction segs with
  | nil => rfl
  | cons g r ih =>
    rw [List.all_cons, Bool.and_eq_true] at hp
    obtain ⟨hg, hr⟩ := hp
    simp only [readOwns, readOwn_plain hg, ih hr]
    rfl

theorem isPeer_plain {segs : List Seg} (hp : segs.all plainSeg = true) : segs.any isPeer = false := by
  rw [List.any_eq_false]
  intro g hg hpeer
  have hplain := List.all_eq_true.1 hp g hg
  obtain ⟨loc, n⟩ := g
  cases loc with
  | peer => cases hplain
  | oor | denied | scr | sync | flag | ctr | hbm | ext | host => cases hpeer

/-- One piece of plain memory without poison waits under the word's tag, in its place in the destination's image. -/
theorem loadPieces_plain {s : State} {a : Nat} {segs : List Seg} (hp : segs.all plainSeg = true) (hb : poisonAt s a segs = none)
    (tag : Nat) (dst : RegRef) (acq : Bool) (pos ext : Nat) :
    s.loadPieces tag dst acq [⟨pos, ext, a, segs⟩] =
      s.await tag dst (.value (patchImage (regImage s.me s.me.level dst) pos (padTo ext (readSegs s segs))) none) := by
  simp [State.loadPieces, noteRange_plain hp, hb, isPeer_plain hp, readOwns_plain hp]

/-! ### The words -/

theorem loadWords_complete : Claims.LoadWords := by
  intro h f s s' segs he hp hb
  refine ⟨fun ha => ?_, fun ha => ?_⟩
  · rw [exec_ld, execLd, runPlain_enabled _ _ _ he]
    simp only [ha, loadPieces_plain hp hb, ended]
  · rw [exec_ldv, execLdv, runPlain_enabled _ _ _ he]
    simp only [ha, loadPieces_plain hp hb, ended]

/-! ### Their values -/

/-- The oldest result of a tag of the slot's level is the one that lands, where it is a value. -/
theorem loadReturns : Claims.LoadReturns := by
  intro s c k tag r rest hf
  rw [exec_loadReturn, execLoadReturn]
  refine ⟨fun x hx => ?_, fun x a hx => ?_⟩
  · have hlands : r.lands = true := by rw [TagRes.lands, hx]
    simp only [hf, Option.getD_some, List.find?_cons, hlands, Slot.landValue, hx]
  · have hlands : r.lands = true := by rw [TagRes.lands, hx]
    simp only [hf, Option.getD_some, List.find?_cons, hlands, Slot.landValue, hx]

end Machine

/-- Settles O28: a load of plain memory is one piece that waits under its tag, and LOAD_RETURN takes the tag's oldest value. -/
theorem loadWords : Obligations.LoadWords := ⟨Machine.loadWords_complete, Machine.loadReturns⟩

end Sys2Proof
end

section
/-! SUPPORT. Integer operations on patterns: the integer that a w-bit pattern stands for and the pattern of an integer, each operation
between the two, and the counts of bits (07 R203, R204, Tables 7-2, 7-3). -/

namespace Sys2Proof
namespace Machine

/-! ### The integer of a pattern -/

/-- The integer that a w-bit pattern stands for, signed or unsigned (07 R203). -/
def intOf (sgn : Bool) {w : Nat} (a : BitVec w) : Int := if sgn then a.toInt else (a.toNat : Int)

theorem truncInt_eq_toNat (w : Nat) (r : Int) : truncInt w r = (BitVec.ofInt w r).toNat := by
  rw [BitVec.toNat_ofInt, truncInt]; norm_cast

section
variable {w : Nat} (sgn : Bool) (a b : BitVec w)

theorem sintNat_toNat : sintNat w a.toNat = a.toInt := by
  rw [sintNat, Nat.mod_eq_of_lt a.isLt]
  rcases Nat.eq_zero_or_pos w with rfl | hw
  · simp [BitVec.toInt_zero_length]
  · have hpow : 2 ^ w = 2 * 2 ^ (w - 1) := by rw [← pow_succ', Nat.sub_add_cancel hw]
    have hcond : 2 * a.toNat < 2 ^ w ↔ a.toNat < 2 ^ (w - 1) := by omega
    simp only [if_neg hw.ne', BitVec.toInt_eq_toNat_cond, hcond, Int.natCast_pow, Nat.cast_ofNat]

/-- A pattern widened as its sign says. -/
theorem ofInt_intOf_extend (v : Nat) : BitVec.ofInt v (intOf sgn a) = if sgn then a.signExtend v else a.setWidth v := by
  cases sgn
  · exact (BitVec.ofInt_natCast v a.toNat).trans (BitVec.ofNat_toNat ..)
  · rfl

@[simp] theorem ofInt_intOf : BitVec.ofInt w (intOf sgn a) = a := by
  rw [ofInt_intOf_extend, BitVec.signExtend_eq, BitVec.setWidth_eq, ite_self]

@[simp] theorem truncInt_intOf : truncInt w (intOf sgn a) = a.toNat := by rw [truncInt_eq_toNat, ofInt_intOf]

theorem intOf_eq_zero : intOf sgn a = 0 ↔ a = 0 := by
  constructor
  · intro h
    rw [← ofInt_intOf sgn a, h]; rfl
  · rintro rfl
    cases sgn <;> simp [intOf]

theorem ext64_toNat (t : BitVec 4) : ext64 t w a.toNat = BitVec.ofInt 64 (intOf (tySgn t) a) := by
  rw [ext64, sintNat_toNat, Nat.mod_eq_of_lt a.isLt, intOf]
  split
  · rfl
  · exact (BitVec.ofInt_natCast ..).symm
end

theorem tyVal_eq_intOf (t : BitVec 4) (x : Word) : tyVal t x.toNat = intOf (tySgn t) (x.setWidth (WellFormed.tyWidth t)) := by
  have hsint (w : Nat) : sintNat w x.toNat = (x.setWidth w).toInt := by
    rw [← sintNat_toNat, BitVec.toNat_setWidth, sintNat, sintNat, Nat.mod_mod]
  simp only [tyVal, intOf, hsint, BitVec.toNat_setWidth]

theorem tyRes_eq_ofInt (t : BitVec 4) (r : Int) :
    tyRes t r = BitVec.ofInt 64 (intOf (tySgn t) (BitVec.ofInt (WellFormed.tyWidth t) r)) := by
  rw [tyRes, truncInt_eq_toNat, ext64_toNat]

/-! ### Each operation on patterns (07 Table 7-2) -/

section
variable {w : Nat} (sgn : Bool) (a b : BitVec w)

theorem ofInt_toNat : BitVec.ofInt w (a.toNat : Int) = a := ofInt_intOf false a

theorem ofInt_sub (x y : Int) : BitVec.ofInt w (x - y) = BitVec.ofInt w x - BitVec.ofInt w y := by
  rw [Int.sub_eq_add_neg, BitVec.ofInt_add, BitVec.ofInt_neg, ← BitVec.sub_eq_add_neg]

/-- The high half of a double-width product, of any integer. -/
theorem ofInt_ediv_pow (r : Int) : BitVec.ofInt w (r / 2 ^ w) = ((BitVec.ofInt (2 * w) r) >>> w).setWidth w := by
  apply BitVec.eq_of_toNat_eq
  have hpos : (0 : Int) < 2 ^ w := by positivity
  have hhalf : r % 2 ^ (2 * w) / 2 ^ w = r / 2 ^ w - 2 ^ w * (r / 2 ^ (2 * w)) := by
    rw [Int.emod_def, two_mul, pow_add, mul_assoc, Int.sub_mul_ediv_left _ _ hpos.ne']
  have hnonneg : 0 ≤ r % 2 ^ (2 * w) := Int.emod_nonneg _ (by positivity)
  simp only [BitVec.toNat_setWidth, BitVec.toNat_ushiftRight, ← truncInt_eq_toNat, truncInt, Nat.shiftRight_eq_div_pow]
  zify
  rw [Int.toNat_of_nonneg hnonneg, Int.toNat_of_nonneg (Int.emod_nonneg _ hpos.ne'), hhalf, Int.sub_mul_emod_self_left]

theorem ofInt_mulHi : BitVec.ofInt w (intOp .mulHi w (intOf sgn a) (intOf sgn b)) = intRef sgn a b .mulHi := by
  simp only [intOp, intRef, ofInt_ediv_pow, BitVec.ofInt_mul, ofInt_intOf_extend]
  cases sgn <;> rfl

theorem ofInt_tdiv : BitVec.ofInt w (Int.tdiv (intOf sgn a) (intOf sgn b)) = if sgn then a.sdiv b else a / b := by
  cases sgn
  · simp only [intOf, Bool.false_eq_true, if_false]
    rw [← Int.ofNat_tdiv, ← BitVec.toNat_udiv, ofInt_toNat]
  · exact BitVec.eq_of_toInt_eq (by simp [intOf, BitVec.toInt_ofInt, BitVec.toInt_sdiv])

theorem ofInt_tmod : BitVec.ofInt w (Int.tmod (intOf sgn a) (intOf sgn b)) = if sgn then a.srem b else a % b := by
  cases sgn
  · simp only [intOf, Bool.false_eq_true, if_false]
    rw [← Int.ofNat_tmod, ← BitVec.toNat_umod, ofInt_toNat]
  · simp [intOf, ← BitVec.toInt_srem]

theorem ofInt_div : BitVec.ofInt w (intOp .div w (intOf sgn a) (intOf sgn b)) = intRef sgn a b .div := by
  simp only [intOp, intRef, intOf_eq_zero]
  split
  · exact (BitVec.ofInt_neg (n := 1)).trans BitVec.neg_one_eq_allOnes
  · exact ofInt_tdiv sgn a b

theorem ofInt_rem : BitVec.ofInt w (intOp .rem w (intOf sgn a) (intOf sgn b)) = intRef sgn a b .rem := by
  simp only [intOp, intRef, intOf_eq_zero, ← Int.tmod_def]
  split
  · exact ofInt_intOf sgn a
  · exact ofInt_tmod sgn a b

theorem ofInt_andn : BitVec.ofInt w (intOp .andn w (intOf sgn a) (intOf sgn b)) = intRef sgn a b .andn := by
  simp only [intOp, intRef, truncInt_intOf]
  rw [← BitVec.toNat_allOnes, ← BitVec.toNat_xor, ← BitVec.toNat_and, ofInt_toNat, BitVec.xor_allOnes]

theorem ofInt_mul_pow (n : Nat) (r : Int) : BitVec.ofInt w (r * 2 ^ n) = BitVec.ofInt w r <<< n := by
  have hpow : BitVec.ofInt w ((2 ^ n : Nat) : Int) = BitVec.twoPow w n :=
    BitVec.eq_of_toNat_eq (by rw [BitVec.ofInt_natCast, BitVec.toNat_ofNat, BitVec.toNat_twoPow])
  rw [BitVec.ofInt_mul, ← BitVec.mul_twoPow_eq_shiftLeft, ← hpow, Int.natCast_pow, Nat.cast_ofNat]

theorem ofInt_div_pow (n : Nat) : BitVec.ofInt w ((a.toNat / 2 ^ n : Nat) : Int) = a >>> n := by
  rw [← Nat.shiftRight_eq_div_pow, ← BitVec.toNat_ushiftRight, ofInt_toNat]

/-- The two parts of a rotation share no bit. -/
theorem shiftLeft_add_ushiftRight (n : Nat) (hn : n ≤ w) : a <<< n + a >>> (w - n) = a <<< n ||| a >>> (w - n) := by
  refine BitVec.add_eq_or_of_and_eq_zero _ _ (BitVec.eq_of_getLsbD_eq fun i hi => ?_)
  by_cases h : i < n
  · simp [h]
  · simp [BitVec.getLsbD_of_ge a (w - n + i) (by omega)]

theorem ofInt_rot : BitVec.ofInt w (intOp .rot w (intOf sgn a) (intOf sgn b)) = intRef sgn a b .rot := by
  rcases Nat.eq_zero_or_pos w with rfl | hw
  · exact Subsingleton.elim _ _
  have hn : b.toNat % w < w := Nat.mod_lt _ hw
  simp only [intOp, intRef, truncInt_intOf, BitVec.rotateLeft_def, Nat.mod_mod]
  rw [← shiftLeft_add_ushiftRight a _ hn.le, Int.natCast_add, BitVec.ofInt_add, ofInt_div_pow, Int.natCast_mul, Int.natCast_pow]
  exact congrArg (· + _) ((ofInt_mul_pow _ _).trans (by rw [ofInt_toNat]))

theorem intOf_le_iff : intOf sgn a ≤ intOf sgn b ↔ (if sgn then a.sle b else a.ule b) = true := by
  cases sgn
  · simp [intOf, BitVec.ule]
  · simp [intOf, BitVec.sle]

/-- Every operation on the integers of two patterns is, cut to w bits, that on the patterns. -/
theorem ofInt_intOp (o : IntOp) : BitVec.ofInt w (intOp o w (intOf sgn a) (intOf sgn b)) = intRef sgn a b o := by
  have hnat (c : BitVec w) {n : Nat} (hn : n = c.toNat) : BitVec.ofInt w (n : Int) = c := by rw [hn, ofInt_toNat]
  have hle := intOf_le_iff sgn a b
  have hite (p : Prop) [Decidable p] (c d : BitVec w) :
      BitVec.ofInt w (if p then intOf sgn c else intOf sgn d) = if p then c else d := by
    rw [apply_ite (BitVec.ofInt w), ofInt_intOf, ofInt_intOf]
  cases o with
  | add => exact (BitVec.ofInt_add ..).trans (by rw [ofInt_intOf, ofInt_intOf]; rfl)
  | sub => exact (ofInt_sub ..).trans (by rw [ofInt_intOf, ofInt_intOf]; rfl)
  | mul => exact (BitVec.ofInt_mul ..).trans (by rw [ofInt_intOf, ofInt_intOf]; rfl)
  | mulHi => exact ofInt_mulHi sgn a b
  | div => exact ofInt_div sgn a b
  | rem => exact ofInt_rem sgn a b
  | and => exact hnat (a &&& b) (by rw [truncInt_intOf, truncInt_intOf, BitVec.toNat_and])
  | or => exact hnat (a ||| b) (by rw [truncInt_intOf, truncInt_intOf, BitVec.toNat_or])
  | xor => exact hnat (a ^^^ b) (by rw [truncInt_intOf, truncInt_intOf, BitVec.toNat_xor])
  | andn => exact ofInt_andn sgn a b
  | shl => exact (ofInt_mul_pow ..).trans (by rw [ofInt_intOf, truncInt_intOf]; rfl)
  | shr => simp only [intOp, intRef, truncInt_intOf, ofInt_div_pow]
  | sra =>
    simp only [intOp, intRef, truncInt_intOf, sintNat_toNat, BitVec.sshiftRight_eq, Int.shiftRight_eq_div_pow]
    norm_cast
  | rot => exact ofInt_rot sgn a b
  | min => simp only [intOp, intRef, hle, hite]; cases sgn <;> rfl
  | max => simp only [intOp, intRef, hle, hite]; cases sgn <;> rfl

end

theorem integerResults : Claims.IntegerResults := by
  intro o t x y _
  rw [tyRes_eq_ofInt, tyVal_eq_intOf, tyVal_eq_intOf, ofInt_intOp, ofInt_intOf_extend]
  cases tySgn t <;> rfl

/-! ### Counts and reversal of bits (07 Table 7-3) -/

section
variable {w : Nat} (x : BitVec w)

/-- The bits of a pattern up to its highest one bit. -/
def bitLen (n : Nat) : Nat := if n = 0 then 0 else Nat.log2 n + 1

theorem lt_two_pow_bitLen (n : Nat) : n < 2 ^ bitLen n := by
  by_cases h : n = 0
  · rw [h, bitLen, if_pos rfl]; exact Nat.one_pos
  · rw [bitLen, if_neg h]; exact Nat.lt_log2_self

theorem bitLen_le {n : Nat} (hn : n < 2 ^ w) : bitLen n ≤ w := by
  by_cases h : n = 0
  · rw [bitLen, if_pos h]; exact Nat.zero_le w
  · rw [bitLen, if_neg h]; exact (Nat.log2_lt h).2 hn

theorem testBit_bitLen_pred {n : Nat} (hn : 0 < bitLen n) : n.testBit (bitLen n - 1) = true := by
  have h0 : n ≠ 0 := by rintro rfl; cases hn
  rw [bitLen, if_neg h0]
  exact Nat.testBit_log2 h0

theorem clz_eq_sub_bitLen : clz w x.toNat = w - bitLen x.toNat := by
  rw [clz, Nat.mod_eq_of_lt x.isLt]; rfl

theorem ctz_eq_findIdx (n : Nat) : ctz w n = (List.range w).findIdx fun i => n.testBit i := by
  have hle : (List.range w).findIdx (fun i => n.testBit i) ≤ (List.range w).length := List.findIdx_le_length
  simp only [ctz, List.takeWhile_eq_take_findIdx_not, Bool.not_not, List.length_take, min_eq_left hle]

theorem testBit_of_lt_ctz {n i : Nat} (hi : i < ctz w n) : n.testBit i = false := by
  rw [ctz_eq_findIdx] at hi
  simpa using List.not_of_lt_findIdx hi

theorem testBit_ctz {n : Nat} (hn : ctz w n < w) : n.testBit (ctz w n) = true := by
  rw [ctz_eq_findIdx] at hn ⊢
  have h := List.findIdx_getElem (p := fun i => n.testBit i) (xs := List.range w) (w := by rwa [List.length_range])
  rwa [List.getElem_range] at h

theorem ctz_le (n : Nat) : ctz w n ≤ w := by
  rw [ctz_eq_findIdx]
  exact List.findIdx_le_length.trans_eq List.length_range

/-- A bit more is the new low bit of the reversal. -/
theorem brev_succ (n : Nat) : brev (w + 1) n = 2 * brev w n + (n.testBit w).toNat := by
  have hdouble : (List.range w).foldl (fun y i => if n.testBit i then y + 2 ^ (w - i) else y) 0 = 2 * brev w n := by
    refine (List.foldl_ext _ (fun y i => if n.testBit i then y + 2 * 2 ^ (w - 1 - i) else y) 0 fun y i hi => ?_).trans
      (List.foldl_hom (2 * ·) (init := 0) fun y i => ?_)
    · have hexp : w - i = w - 1 - i + 1 := by have := List.mem_range.1 hi; omega
      rw [hexp, pow_succ']
    · split
      · exact (mul_add ..).symm
      · rfl
  rw [brev, List.range_succ, List.foldl_append, Nat.add_sub_cancel, hdouble]
  cases h : n.testBit w <;> simp [h]

theorem testBit_brev (n : Nat) {i : Nat} (hi : i < w) : (brev w n).testBit i = n.testBit (w - 1 - i) := by
  induction w generalizing i with
  | zero => cases hi
  | succ w ih =>
    rw [brev_succ]
    cases i with
    | zero => cases h : n.testBit w <;> simp [Nat.testBit_zero, h]
    | succ i =>
      have hhalf : (2 * brev w n + (n.testBit w).toNat) / 2 = brev w n := by have := Bool.toNat_lt (n.testBit w); omega
      rw [Nat.testBit_succ, hhalf, ih (by omega)]
      congr 1
      omega
end

theorem bitCounts : Claims.BitCounts := by
  intro w x
  have hlen := bitLen_le x.isLt
  have hsub : w - clz w x.toNat = bitLen x.toNat := by rw [clz_eq_sub_bitLen]; omega
  refine ⟨by rw [clz_eq_sub_bitLen]; omega, fun i hi => ?_, fun hlt => ?_, ctz_le _, fun i hi => testBit_of_lt_ctz hi,
    testBit_ctz, rfl, fun i hi => testBit_brev _ hi⟩
  · rw [hsub] at hi
    exact Nat.testBit_lt_two_pow ((lt_two_pow_bitLen _).trans_le (Nat.pow_le_pow_right Nat.two_pos hi))
  · have htop : w - 1 - clz w x.toNat = bitLen x.toNat - 1 := by omega
    rw [htop]
    exact testBit_bitLen_pred (by omega)

end Machine

/-- Settles O10: the pattern of an operation's integer is the bit-vector operation, and the widening is TYPE's. -/
theorem integerResults : Obligations.IntegerResults := ⟨Machine.integerResults, Machine.bitCounts⟩

end Sys2Proof
end

section
/-! SUPPORT. The scalar words of latency 1: each is one run of the shared scalar operation, with its operands read and widened as TYPE
says (07 R203 to R212); and NOP. -/

namespace Sys2Proof
namespace Machine
open Safety

/-! ### Integer words and CMP -/

/-- An operand of 32 bits widened by TYPE (07 R203). -/
theorem ext64_imm (t : BitVec 4) (x : BitVec 32) : ext64 t 32 x.toNat = if tySgn t then x.signExtend 64 else x.setWidth 64 := by
  rw [ext64_toNat, ofInt_intOf_extend]

theorem intOperands_eq_tyVal (l : Slot) (f : RRI) :
    intOperands l f = (tyVal (rriTy f) (intArgs l f).1.toNat, tyVal (rriTy f) (intArgs l f).2.toNat) := by
  cases f with
  | rr f => rfl
  | ri f => simp only [intOperands, intArgs, rriTy, ext64_imm]

theorem runInt_enabled (o : IntOp) {h : Hdr} {f : RRI} {s : State} (he : s.me.enabled h = true) :
    runInt o h f s = did (result s 1 (dstRef (rriDst f))
      (tyRes (rriTy f) (intOp o (WellFormed.tyWidth (rriTy f)) (tyVal (rriTy f) (intArgs s.me f).1.toNat)
        (tyVal (rriTy f) (intArgs s.me f).2.toNat))) 0) := by
  rw [runInt, runScalar_enabled _ _ _ _ _ he, intValue, intOperands_eq_tyVal]

/-- The integer words with their operations (07 Table 7-2). -/
def intWords : List ((Hdr → RRI → Instr) × IntOp) :=
  [(Instr.add, .add), (Instr.sub, .sub), (Instr.mul, .mul), (Instr.mulHi, .mulHi), (Instr.divI, .div), (Instr.divRem, .rem),
    (Instr.andI, .and), (Instr.orI, .or), (Instr.xorI, .xor), (Instr.andn, .andn), (Instr.shl, .shl), (Instr.shr, .shr),
    (Instr.sra, .sra), (Instr.rot, .rot), (Instr.minI, .min), (Instr.maxI, .max)]

theorem exec_intWord {p : (Hdr → RRI → Instr) × IntOp} (hp : p ∈ intWords) (h : Hdr) (f : RRI) (s : State) :
    exec (p.1 h f) s = runInt p.2 h f s := by
  simp only [intWords, List.mem_cons, List.not_mem_nil, or_false] at hp
  rcases hp with rfl | rfl | rfl | rfl | rfl | rfl | rfl | rfl | rfl | rfl | rfl | rfl | rfl | rfl | rfl | rfl <;> rfl

theorem integerWords : Claims.IntegerWords := by
  intro p hp h f s he _
  rw [exec_intWord hp, runInt_enabled _ he]

theorem compareWords : Claims.CompareWords := by
  intro h cc f s he _
  rw [exec_cmp, execCmp, runScalar_enabled _ _ _ _ _ he, intOperands_eq_tyVal]

/-! ### Moves, selection and addresses -/

theorem moveHighWord : Claims.MoveHighWord := by
  intro h f s
  refine ⟨fun he => ?_, fun hwf => ?_⟩
  · rw [exec_movhi, execMovhi, runScalar_enabled _ _ _ _ _ he]
  · simp only [wellFormed, Bool.and_eq_true, Bool.or_eq_true, beq_iff_eq] at hwf
    obtain ⟨⟨-, hty⟩, -⟩ := hwf
    exact hty

theorem nopWord_performs : Claims.NopWord := by
  intro h s
  rw [exec_nop, execNop]
  cases he : s.me.enabled h
  · exact runPlain_nullified h s _ he
  · exact runPlain_enabled h s _ he

theorem selectWord : Claims.SelectWord := by
  intro h f s
  rw [exec_sel, execSel]
  refine ⟨fun he hp => ?_, fun he hp => ?_, fun he => runScalar_nullified h s 1 _ _ he, fun hwf => ?_⟩
  · rw [runScalar_enabled _ _ _ _ _ he, if_pos hp]
  · rw [runScalar_enabled _ _ _ _ _ he, if_neg (Bool.eq_false_iff.1 hp)]
  · simp only [wellFormed, Bool.and_eq_true, beq_iff_eq] at hwf
    obtain ⟨⟨⟨⟨-, hc⟩, -⟩, -⟩, haux⟩ := hwf
    exact ⟨haux, hc⟩

theorem ext64_mod (t : BitVec 4) (w n : Nat) : ext64 t w (n % 2 ^ w) = ext64 t w n := by
  simp only [ext64, sintNat, Nat.mod_mod]

theorem truncInt_natCast (w n : Nat) : truncInt w (n : Int) = n % 2 ^ w := by
  rw [truncInt_eq_toNat, BitVec.ofInt_natCast, BitVec.toNat_ofNat]

theorem moveAndAddressWords : Claims.MoveAndAddressWords := by
  intro h s he
  refine ⟨fun f hf => ?_, fun f hf => ?_, fun f => ?_, fun f => ?_⟩
  · rw [exec_movi, execMovi, runScalar_enabled _ _ _ _ _ he]
    simp only [if_pos hf, truncInt_natCast, ext64_mod]
  · rw [exec_movi, execMovi, runScalar_enabled _ _ _ _ _ he]
    simp only [if_neg hf]
    rfl
  · rw [exec_lea_value, runScalar_enabled _ _ _ _ _ he]
    rfl
  · rw [exec_lea_value, runScalar_enabled _ _ _ _ _ he]
    rfl

theorem runBits_enabled {h : Hdr} {f : FmtRR} {s : State} (g : Slot → Nat → Nat → Int) (he : s.me.enabled h = true) :
    runBits h f s g = did (result s 1 (dstRef f.dst)
      (tyRes f.ty (g s.me (WellFormed.tyWidth f.ty) ((readSpec s.me f.a).toNat % 2 ^ WellFormed.tyWidth f.ty))) 0) := by
  rw [runBits, runScalar_enabled _ _ _ _ _ he]

/-- pos is the low 7 bits of C, and len the 7 bits from bit 8 on, cut to the bits from pos up (07 R205). -/
theorem bitField_eq (w : Nat) (c : Word) :
    bitField w c = (c.toNat % 128, if w ≤ c.toNat % 128 then 0 else min (c.toNat / 256 % 128) (w - c.toNat % 128)) := by
  simp only [bitField, BitVec.extractLsb'_toNat, Nat.shiftRight_eq_div_pow]
  norm_num

theorem bitsWords : Claims.BitsWords := by
  intro h f s he w x field
  refine ⟨fun p hp => ?_, ?_, ?_⟩
  · simp only [List.mem_cons, List.not_mem_nil, or_false] at hp
    rcases hp with rfl | rfl | rfl | rfl | rfl | rfl | rfl | rfl
    · exact runBits_enabled (fun _ w x => (clz w x : Int)) he
    · exact runBits_enabled (fun _ w x => (ctz w x : Int)) he
    · exact runBits_enabled (fun _ w x => (popc w x : Int)) he
    · exact runBits_enabled (fun _ w x => (brev w x : Int)) he
    · exact runBits_enabled (fun _ w x => ((sintNat w x).natAbs : Int)) he
    · exact runBits_enabled (fun _ w x => -(sintNat w x)) he
    · rw [exec_bitsBfx, execBitsBfx, runBits_enabled _ he]
    · rw [exec_bitsBfi, execBitsBfi, runBits_enabled _ he]
  · exact congrArg Prod.fst (bitField_eq w _)
  · exact congrArg Prod.snd (bitField_eq w _)

theorem runPlog_enabled {h : Hdr} {f : FmtRR} {s : State} (op : Bool → Bool → Bool) (he : s.me.enabled h = true) :
    runPlog h f s op = did (result s 1 (.p f.dst.toNat)
      (if op (s.me.rdP s.me.level (f.a.extractLsb' 0 3).toNat != f.aux.getLsbD 0)
        (s.me.rdP s.me.level (f.b.extractLsb' 0 3).toNat != f.aux.getLsbD 1) then 1 else 0) 0) := by
  rw [runPlog, runScalar_enabled _ _ _ _ _ he]

theorem predicateWords : Claims.PredicateWords := by
  intro h f s he x y p hp
  simp only [List.mem_cons, List.not_mem_nil, or_false] at hp
  rcases hp with rfl | rfl | rfl | rfl
  · exact runPlog_enabled (fun x y => x && y) he
  · exact runPlog_enabled (fun x y => x || y) he
  · exact runPlog_enabled (fun x y => x != y) he
  · exact runPlog_enabled (fun x y => x && !y) he

end Machine

/-- Settles O11: the sixteen words are one run with sixteen operations, and both forms read their operands alike. -/
theorem integerAndCompareWords : Obligations.IntegerAndCompareWords := ⟨Machine.integerWords, Machine.compareWords⟩

/-- Settles O12: by the one run of each word. -/
theorem moveHighAndNop : Obligations.MoveHighAndNop := ⟨Machine.moveHighWord, Machine.nopWord_performs⟩

/-- Settles O13: by the one run of each family of words. -/
theorem moveBitsSelectPredicate : Obligations.MoveBitsSelectPredicate :=
  ⟨Machine.selectWord, Machine.moveAndAddressWords, Machine.bitsWords, Machine.predicateWords⟩

end Sys2Proof
end

section
/-! SUPPORT. Branches, jumps and calls: what the bubble leaves to read, and the close of a group that one of them ends (07 R218, R219). -/

namespace Sys2Proof
namespace Machine
open Safety

/-! ### What a word reads -/

theorem capture_withBubble (s : State) : s.withBubble.me.capture = s.me.capture := by
  rw [State.withBubble, State.me_setMe]
  cases hg : s.me.grp with
  | none => simp [Slot.capture, Slot.group, hg, Sparse.find]
  | some g => simp [Slot.capture, Slot.group, hg]

theorem reissues_withBubble (s : State) : s.withBubble.me.reissues = s.me.reissues := by
  rw [State.withBubble, State.me_setMe]
  cases hg : s.me.grp with
  | none => simp [Slot.reissues, Slot.group, hg]
  | some g => simp [Slot.reissues, Slot.group, hg]

/-- The bubble of a control transfer changes no operand. -/
theorem readSpec_withBubble (s : State) (x : BitVec 9) : readSpec s.withBubble.me x = readSpec s.me x := by
  have hd (k : Nat) : s.withBubble.me.rdD k = s.me.rdD k := by
    rw [Slot.rdD, Slot.rdD, capture_withBubble, reissues_withBubble, bank_withBubble]
  have hs : s.withBubble.me.rdS s.withBubble.me.level = s.me.rdS s.me.level := by
    rw [State.withBubble, State.me_setMe]; rfl
  have hq : s.withBubble.me.rdQ = s.me.rdQ := by rw [State.withBubble, State.me_setMe]; rfl
  simp only [readSpec, hd, hs, hq]

theorem me_withBubble (s : State) : s.withBubble.me = s.me.setGroup fun g => { g with bubble := true } := State.me_setMe ..

theorem wpc_withBubble (s : State) : s.withBubble.me.wpc = s.me.wpc := by
  rw [State.withBubble, State.me_setMe]; rfl

theorem seqPc_withBubble (s : State) : s.withBubble.me.group.seqPc = s.me.group.seqPc := by
  rw [State.withBubble, State.me_setMe]; rfl

/-! ### The words -/

section
variable {s : State} {h : Hdr} (b : FmtB) (f : FmtRR)

section
variable (he : s.me.enabled h = true)
include he

theorem exec_br_enabled : exec (.br h b) s = did (s.withBubble.branchTo (s.me.wpc + b.ofs)) := by
  rw [exec_br, execBr, runPlain_enabled _ _ _ ((enabled_withBubble s h).trans he), wpc_withBubble]; rfl

theorem exec_jmp_enabled : exec (.jmp h f) s = did (s.withBubble.branchTo ((readSpec s.me f.a).setWidth 32)) := by
  rw [exec_jmp, execJmp, runPlain_enabled _ _ _ ((enabled_withBubble s h).trans he), readSpec_withBubble]; rfl

theorem exec_ret_enabled : exec (.ret h f) s = did (s.withBubble.countReturn.branchTo ((readSpec s.me f.a).setWidth 32)) := by
  rw [exec_ret, execRet, runPlain_enabled _ _ _ ((enabled_withBubble s h).trans he), readSpec_withBubble]; rfl

theorem exec_call_enabled : exec (.call h f) s =
    did ((result s.withBubble 1 (dstRef f.dst) (s.me.group.seqPc.setWidth 64) 0).branchTo ((readSpec s.me f.a).setWidth 32)) := by
  rw [exec_call, execCall, runWord_enabled _ _ _ _ ((enabled_withBubble s h).trans he)]
  simp only [readSpec_withBubble, seqPc_withBubble]
  rfl
end

section
variable (he : s.me.enabled h = false)
include he

theorem exec_br_nullified : exec (.br h b) s = did s.withBubble := by
  rw [exec_br, execBr, runPlain_nullified _ _ _ ((enabled_withBubble s h).trans he)]

theorem exec_jmp_nullified : exec (.jmp h f) s = did s.withBubble := by
  rw [exec_jmp, execJmp, runPlain_nullified _ _ _ ((enabled_withBubble s h).trans he)]

theorem exec_ret_nullified : exec (.ret h f) s = did s.withBubble := by
  rw [exec_ret, execRet, runPlain_nullified _ _ _ ((enabled_withBubble s h).trans he)]

theorem exec_call_nullified : exec (.call h f) s =
    did (s.withBubble.setMe (s.withBubble.me.nullResult 1 (dstRef f.dst))) := by
  rw [exec_call, execCall, runWord_nullified _ _ _ _ ((enabled_withBubble s h).trans he)]
end
end

theorem branchWords : Claims.BranchWords := by
  intro h b f s
  refine ⟨fun he => ⟨exec_br_enabled b he, exec_jmp_enabled f he, exec_ret_enabled f he, exec_call_enabled f he⟩, fun he i hi => ?_,
    exec_call_nullified f, ?_⟩
  · simp only [List.mem_cons, List.not_mem_nil, or_false] at hi
    rcases hi with rfl | rfl | rfl
    · exact exec_br_nullified b he
    · exact exec_jmp_nullified f he
    · exact exec_ret_nullified f he
  · simp only [State.countReturn, Bool.and_eq_true]

/-! ### The count of returns -/

theorem me_countReturn (s : State) : s.countReturn.me = s.me := by
  unfold State.countReturn
  dsimp only
  split <;> rfl

theorem cycle_countReturn (s : State) : s.countReturn.cycle = s.cycle := by
  unfold State.countReturn
  dsimp only
  split <;> rfl

theorem byteAt_countReturn (s : State) (l : Loc) : byteAt s.countReturn l = byteAt s l := by
  unfold State.countReturn
  dsimp only
  split
  · cases l with
    | flag p o =>
      rw [byteAt_flag, byteAt_flag, State.part_setPart]
      split
      · subst_vars; rfl
      · rfl
    | _ => rfl
  · rfl

theorem countReturn_withBubble (s : State) : s.withBubble.countReturn = s.countReturn.withBubble := by
  have hid : s.withBubble.me.id = s.me.id := by rw [me_withBubble]; rfl
  have hpart (p : Nat) : s.withBubble.part p = s.part p := State.part_setMe ..
  simp only [State.countReturn, hid, hpart]
  split_ifs <;> rfl

/-! ### The group that a control word ends -/

/-- The group of a control word that has performed: the target, if it is enabled, and the bubble. -/
def Group.transfer (t : Option (BitVec 32)) (g : Group) : Group :=
  { g with perf := g.perf ||| (1 <<< g.idx), target := t, bubble := true }

theorem endCycle_idle {l : Slot} (h : l.bank.inflight = []) : l.endCycle = (l, []) := by
  have hbank : ({ l.bankOf l.level with inflight := [] } : Bank) = l.bankOf l.level := by rw [← h]; rfl
  rw [bank_eq] at h
  simp only [Slot.endCycle, h, List.filter_nil, List.map_nil, hbank, setBankOf_self, List.foldl_nil]
  rfl

section
variable {u : State} {l m n : Slot} {t : Option (BitVec 32)}

/-- A group that closes with a control word as its last closes with the bubble too. -/
theorem closing_transfer (h : Closing l) (hm : m.endCycle = (n, [])) (hn : n.bank.inflight = [])
    (hgrp : m.grp = some (l.group.transfer t)) (ht : t = none → l.group.target = none)
    (hkeep : m.bank.loops = l.bank.loops ∧ m.wait = l.wait ∧ m.wfe = l.wfe) : Closing m := by
  obtain ⟨g, hg, hlen, htrap, hwalk, huser, hpush, hbrkl, hrpt, hfin, hdefer, hcsrs, hre, hpoint, -, -, hloop, hwait, hwfe⟩ := h
  obtain ⟨kloops, kwait, kwfe⟩ := hkeep
  rw [group_some hg] at hgrp ht
  refine ⟨_, hgrp, hlen, htrap, hwalk, huser, hpush, hbrkl, hrpt, hfin, hdefer, hcsrs, hre, hpoint, by rw [hm], fun _ => ?_,
    fun htn => ?_, kwait.trans hwait, kwfe.trans hwfe⟩
  · rw [hm, endCycle_idle hn]
  · rw [kloops]; exact hloop (ht htn)

/-- Such a group takes two cycles, and issue goes on at the target, or in sequence where there is none. -/
theorem finishWord_transfer (h : Closing u.me) (hu : u.me.endCycle = (n, [])) (hn : n.bank.inflight = [])
    (hgrp : u.me.grp = some (l.group.transfer t)) :
    Kept u (finishWord u) ∧ (finishWord u).cycle = u.cycle + 2 ∧
    (finishWord u).me = { n with pc := t.getD l.group.seqPc, grp := none, walk := none } := by
  obtain ⟨hkept, hcycle, hme⟩ := finishWord_closed h
  have hgroup := group_some hgrp
  refine ⟨hkept, by rw [hcycle, hgroup]; rfl, ?_⟩
  have hidle : ({ n with pc := t.getD l.group.seqPc, grp := none, walk := none } : Slot).bank.inflight = [] := hn
  rw [hme, closeOf, hgroup, hu]
  exact congrArg Prod.fst (endCycle_idle hidle)
end

/-! ### Branches, jumps and returns -/

/-- Only the issuing slot may differ: the clock stands too. -/
structure SlotSet (s u : State) : Prop where
  kept : Kept s u
  cycle : u.cycle = s.cycle

theorem slotSet_refl (s : State) : SlotSet s s := ⟨kept_refl s, rfl⟩

theorem SlotSet.setMe {s u : State} (h : SlotSet s u) (x : Slot) : SlotSet s (u.setMe x) :=
  ⟨kept_trans h.kept (kept_setMe u x), h.cycle⟩

theorem SlotSet.withBubble {s u : State} (h : SlotSet s u) : SlotSet s u.withBubble := h.setMe _

theorem SlotSet.branchTo {s u : State} (h : SlotSet s u) (t : BitVec 32) : SlotSet s (u.branchTo t) := h.setMe _

theorem SlotSet.markPerf {s u : State} (h : SlotSet s u) : SlotSet s u.markPerf := h.setMe _

section
variable {s u : State} {t : Option (BitVec 32)}

/-- A word that puts nothing in flight leaves the slot as it was, but for where issue goes on. -/
theorem finishWord_idle_transfer (hu : SlotSet s u) (hme : u.me = s.me.setGroup (Group.transfer t))
    (hc : Closing s.me) (hl : s.me.bank.inflight = []) (ht : t = none → s.me.group.target = none) :
    Kept s (finishWord u) ∧ (finishWord u).cycle = s.cycle + 2 ∧
    (finishWord u).me = { s.me with pc := t.getD s.me.group.seqPc, grp := none, walk := none } := by
  have hidle : u.me.bank.inflight = [] := by rw [hme]; exact hl
  have hgrp : u.me.grp = some (s.me.group.transfer t) := by rw [hme, Slot.setGroup_grp]
  have hclosing := closing_transfer hc (endCycle_idle hidle) hidle hgrp ht (by rw [hme]; exact ⟨rfl, rfl, rfl⟩)
  obtain ⟨hkept, hcycle, hslot⟩ := finishWord_transfer (l := s.me) hclosing (endCycle_idle hidle) hidle hgrp
  exact ⟨kept_trans hu.kept hkept, by rw [hcycle, hu.cycle], by rw [hslot, hme]; rfl⟩

/-- A result of latency 1 without flags lands in the first of the two cycles. -/
theorem finishWord_launch_transfer {x : Landing} (hu : SlotSet s u)
    (hme : u.me = (s.me.setGroup (Group.transfer t)).launch x) (hx : x.left = 1) (hf : x.flags = 0) (hc : Closing s.me)
    (hl : s.me.bank.inflight = []) (ht : t = none → s.me.group.target = none) :
    Kept s (finishWord u) ∧ (finishWord u).cycle = s.cycle + 2 ∧
    (finishWord u).me = { (s.me.setGroup (Group.transfer t)).land s.me.level x with
      pc := t.getD s.me.group.seqPc, grp := none, walk := none } := by
  have hend : u.me.endCycle = ((s.me.setGroup (Group.transfer t)).land s.me.level x, []) := by
    rw [hme, endCycle_launch (l := s.me.setGroup (Group.transfer t)) hl hx, fpTraps_unflagged hf]; rfl
  have hframe := landFrame_land (s.me.setGroup (Group.transfer t)) s.me.level x
  have hidle : ((s.me.setGroup (Group.transfer t)).land s.me.level x).bank.inflight = [] := by
    rw [bank_eq, hframe.inflight, hframe.level]; exact hl
  obtain ⟨kgrp, -, kwait, kwfe, kloops⟩ := launch_keeps (s.me.setGroup (Group.transfer t)) x
  have hgrp : u.me.grp = some (s.me.group.transfer t) := by rw [hme, kgrp, Slot.setGroup_grp]
  have hclosing := closing_transfer hc hend hidle hgrp ht (by rw [hme]; exact ⟨kloops, kwait, kwfe⟩)
  obtain ⟨hkept, hcycle, hslot⟩ := finishWord_transfer (l := s.me) hclosing hend hidle hgrp
  exact ⟨kept_trans hu.kept hkept, by rw [hcycle, hu.cycle], hslot⟩
end

/-- A word that runs as a branch of `r`, the state as it stands or with a return counted, ends its group so. -/
theorem branch_lands {s r : State} {i : Instr} {target : BitVec 32} {en : Bool}
    (hon : en = true → exec i s = did (r.withBubble.branchTo target)) (hoff : en = false → exec i s = did r.withBubble)
    (hme : r.me = s.me) (hcy : r.cycle = s.cycle) (hbyte : ∀ l, byteAt r l = byteAt s l) (hc : Closing s.me)
    (hl : s.me.bank.inflight = []) (ht : s.me.group.target = none) :
    ∃ t, exec i s = .next t ∧ Kept r t ∧ (∀ l, byteAt t l = byteAt s l) ∧ t.cycle = s.cycle + 2 ∧
      t.me = { s.me with pc := (if en then target else s.me.group.seqPc), grp := none, walk := none } := by
  rw [← hme] at hc hl ht ⊢
  rw [← hcy]
  have hbytes {t : State} (hk : Kept r t) (l : Loc) : byteAt t l = byteAt s l := by
    obtain ⟨-, -, -, -, hb⟩ := hk
    exact (hb l).trans (hbyte l)
  cases en with
  | true =>
    obtain ⟨hk, hcycle, hslot⟩ := finishWord_idle_transfer (s := r) (u := (r.withBubble.branchTo target).markPerf) (t := some target)
      ((slotSet_refl r).withBubble.branchTo target).markPerf
      (by simp only [State.markPerf, State.branchTo, State.me_setMe, me_withBubble]; rfl) hc hl nofun
    exact ⟨_, hon rfl, hk, hbytes hk, hcycle, hslot⟩
  | false =>
    obtain ⟨hk, hcycle, hslot⟩ := finishWord_idle_transfer (s := r) (u := r.withBubble.markPerf) (t := r.me.group.target)
      (slotSet_refl r).withBubble.markPerf
      (by simp only [State.markPerf, State.me_setMe, me_withBubble]; rfl) hc hl id
    rw [ht] at hslot
    exact ⟨_, hoff rfl, hk, hbytes hk, hcycle, hslot⟩

theorem jumps_land (h : Hdr) (b : FmtB) (f : FmtRR) {s : State} (hc : Closing s.me) (hl : s.me.bank.inflight = [])
    (ht : s.me.group.target = none) :
    ∀ p ∈ [(Instr.br h b, s.me.wpc + b.ofs, s), (.jmp h f, (readSpec s.me f.a).setWidth 32, s),
        (.ret h f, (readSpec s.me f.a).setWidth 32, if s.me.enabled h then s.countReturn else s)],
      ∃ t, exec p.1 s = .next t ∧ Kept p.2.2 t ∧ (∀ l, byteAt t l = byteAt s l) ∧ t.cycle = s.cycle + 2 ∧
        t.me = { s.me with pc := (if s.me.enabled h then p.2.1 else s.me.group.seqPc), grp := none, walk := none } := by
  intro p hp
  simp only [List.mem_cons, List.not_mem_nil, or_false] at hp
  rcases hp with rfl | rfl | rfl
  · exact branch_lands (exec_br_enabled b) (exec_br_nullified b) rfl rfl (fun _ => rfl) hc hl ht
  · exact branch_lands (exec_jmp_enabled f) (exec_jmp_nullified f) rfl rfl (fun _ => rfl) hc hl ht
  · cases he : s.me.enabled h with
    | true =>
      have hret : exec (.ret h f) s = did (s.countReturn.withBubble.branchTo ((readSpec s.me f.a).setWidth 32)) := by
        rw [exec_ret_enabled f he, countReturn_withBubble]
      exact branch_lands (en := true) (fun _ => hret) nofun (me_countReturn s) (cycle_countReturn s) (byteAt_countReturn s) hc hl ht
    | false => exact branch_lands (en := false) nofun (fun _ => exec_ret_nullified f he) rfl rfl (fun _ => rfl) hc hl ht

/-! ### CALL -/

theorem nullResult_dstRef (l : Slot) (d : BitVec 8) : l.nullResult 1 (dstRef d) =
    l.launch ⟨0, .none, 1, 0, 0xFFFF, some (readRef l l.level (dstRef d)), 0, 0, l.wpc⟩ := by
  unfold dstRef; split <;> rfl

theorem entryOf_dstRef (d : BitVec 8) (x : Word) : (dstRef d).entryOf x = some (x.setWidth 512) := by
  unfold dstRef; split <;> rfl

section
variable {h : Hdr} {f : FmtRR} {s : State} (hc : Closing s.me) (hl : s.me.bank.inflight = [])
include hc hl

/-- An enabled CALL goes to its target with the link in its destination. -/
theorem call_lands (he : s.me.enabled h = true) :
    ∃ t, exec (.call h f) s = .next t ∧ Kept s t ∧ t.cycle = s.cycle + 2 ∧ t.me.grp = none ∧ t.me.walk = none ∧
      t.me.pc = (readSpec s.me f.a).setWidth 32 ∧ SlotKept s.me t.me s.me.level (dstRef f.dst) ∧
      readRef t.me s.me.level (dstRef f.dst) =
        readRef (writeRef s.me s.me.level 0xFFFF (s.me.group.seqPc.setWidth 4096) (dstRef f.dst)) s.me.level (dstRef f.dst) ∧
      (t.me.bankOf s.me.level).ds = (s.me.group.seqPc.setWidth 64 :: (s.me.bankOf s.me.level).ds).take 8 := by
  set link : Word := s.me.group.seqPc.setWidth 64
  set target : BitVec 32 := (readSpec s.me f.a).setWidth 32
  set x := s.withBubble.me.scalarLanding (dstRef f.dst) link with hx
  obtain ⟨hk, hcycle, hme⟩ := finishWord_launch_transfer (s := s) (t := some target) (x := x)
    (u := ((result s.withBubble 1 (dstRef f.dst) link 0).branchTo target).markPerf)
    (((slotSet_refl s).withBubble.setMe _).branchTo target).markPerf
    (by
      simp only [State.markPerf, State.branchTo, result, State.me_setMe, scalarResult_eq_launch, ← hx]
      simp only [me_withBubble, launch_setGroup]
      rfl) rfl rfl hc hl nofun
  obtain ⟨hkept, hread, hds⟩ := land_scalarLanding (s.me.setGroup (Group.transfer (some target))) s.withBubble.me s.me.level link
    (dstRef_isScalar f.dst)
  rw [← hx] at hkept hread hds
  rw [entryOf_dstRef] at hds
  have hwidth : link.setWidth 4096 = s.me.group.seqPc.setWidth 4096 := BitVec.setWidth_setWidth (h := by decide)
  generalize (s.me.setGroup (Group.transfer (some target))).land s.me.level x = m at hme hkept hread hds
  refine ⟨_, exec_call_enabled f he, hk, hcycle, by rw [hme], by rw [hme], by rw [hme]; rfl, by rw [hme]; exact hkept, ?_,
    by rw [hme]; exact hds⟩
  rw [hme, readRef_closed, hread, hwidth]
  exact readRef_writeRef_congr 0xFFFF _ (dstRef_isScalar f.dst) (readRef_setGroup ..)

/-- A nullified CALL goes on in sequence, with the last-result entry of a nullified word. -/
theorem call_nullified_lands (he : s.me.enabled h = false) (ht : s.me.group.target = none) :
    ∃ t, exec (.call h f) s = .next t ∧ Kept s t ∧ t.cycle = s.cycle + 2 ∧ t.me.grp = none ∧ t.me.walk = none ∧
      t.me.pc = s.me.group.seqPc ∧ SlotKept s.me t.me s.me.level .none ∧
      (t.me.bankOf s.me.level).ds =
        ((readRef s.me s.me.level (dstRef f.dst)).setWidth 64 :: (s.me.bankOf s.me.level).ds).take 8 := by
  set e := readRef s.withBubble.me s.withBubble.me.level (dstRef f.dst) with he'
  have hentry : e = readRef s.me s.me.level (dstRef f.dst) := by rw [he', me_withBubble, readRef_setGroup]; rfl
  set x : Landing := ⟨0, .none, 1, 0, 0xFFFF, some e, 0, 0, s.withBubble.me.wpc⟩ with hx
  obtain ⟨hk, hcycle, hme⟩ := finishWord_launch_transfer (s := s) (t := s.me.group.target) (x := x)
    (u := (s.withBubble.setMe (s.withBubble.me.nullResult 1 (dstRef f.dst))).markPerf)
    ((slotSet_refl s).withBubble.setMe _).markPerf
    (by
      simp only [State.markPerf, State.me_setMe, nullResult_dstRef, ← he', ← hx]
      simp only [me_withBubble, launch_setGroup]
      rfl) rfl rfl hc hl id
  set n := s.me.setGroup (Group.transfer s.me.group.target)
  have hds : ((n.withEntry s.me.level (some e)).bankOf s.me.level).ds = (e.setWidth 64 :: (s.me.bankOf s.me.level).ds).take 8 := by
    rw [Slot.withEntry, setBankOf_bank]; rfl
  have hkept : SlotKept s.me (n.withEntry s.me.level (some e)) s.me.level .none := slotKept_withEntry n s.me.level (some e) .none
  have hland : n.land s.me.level x = n.withEntry s.me.level (some e) := land_scalar _ rfl rfl
  rw [hland, ht] at hme
  rw [← hentry]
  exact ⟨_, exec_call_nullified f he, hk, hcycle, by rw [hme], by rw [hme], by rw [hme]; rfl, by rw [hme]; exact hkept,
    by rw [hme]; exact hds⟩
end

theorem branchesLand : Claims.BranchesLand := by
  intro h b f s hc hl ht
  refine ⟨jumps_land h b f hc hl ht, ?_⟩
  cases he : s.me.enabled h with
  | true =>
    obtain ⟨t, hrun, hk, hcycle, hgrp, hwalk, hpc, hrest⟩ := call_lands (f := f) hc hl he
    exact ⟨t, hrun, hk, hcycle, hgrp, hwalk, fun _ => ⟨hpc, hrest⟩, nofun⟩
  | false =>
    obtain ⟨t, hrun, hk, hcycle, hgrp, hwalk, hpc, hrest⟩ := call_nullified_lands (f := f) hc hl he ht
    exact ⟨t, hrun, hk, hcycle, hgrp, hwalk, nofun, fun _ => ⟨hpc, hrest⟩⟩

end Machine

/-- Settles O16: each word is its target and its bubble, with which its group takes two cycles to close. -/
theorem branchWords : Obligations.BranchWords := ⟨Machine.branchWords, Machine.branchesLand⟩

end Sys2Proof
end

section
/-! SUPPORT. The vector words that compute elements, lanes or lane masks: each is one run of a shared vector operation, which puts what
it computes for each cluster in flight (08 R233 to R245, R250 to R256). -/

namespace Sys2Proof
namespace Machine
open Safety

/-! ### The shared operations -/

section
variable (h : Hdr) (s : State) (lat : Nat) (f : FmtRR)

/-- A V word of elements puts them in flight, with the flags of those that have an enabled lane (08 R235). -/
theorem runElems_did (w : Nat) (g : Slot → Nat → Nat → Nat × Fl) :
    runElems h s lat w f g = did (vectorOut h s lat f fun c => elements w (g s.me c)) := by
  rw [runElems, runVector_did]
  congr 2
  funext c m
  simp only [elements, packVec, List.map_map, Function.comp_def]

theorem runLanes_did (g : Slot → Nat → Nat → Lane) :
    runLanes h s f g = did (vectorOut h s 2 f fun c _ => (vecOfLanes (g s.me c), 0)) :=
  runVector_did h s 2 f _

theorem runMask_did (bit : Slot → Nat → Nat → Bool) (fl : Slot → Nat → BitVec 16 → Fl) :
    runMask h s lat f (fun l c m => (bit l c, fl l c m)) = did (maskOut h s lat f (bit s.me) (fl s.me)) := rfl

end

/-! ### Integer words (08 R238) -/

section
variable (h : Hdr) (f : FmtRR) (s : State)

/-- An operand's element as the integer that TYPE reads. -/
def vInt (l : Slot) (f : FmtRR) (c : Nat) (x : BitVec 9) (e : Nat) : Int := tyVal f.ty (vElem l f.ty c x e)

theorem runVInt_wraps (o : IntOp) :
    runVInt o false h f s = did (vectorOut h s 2 f fun c => elements (WellFormed.tyWidth f.ty) fun e =>
      (truncInt (WellFormed.tyWidth f.ty) (intOp o (WellFormed.tyWidth f.ty) (vInt s.me f c f.a e) (vInt s.me f c f.b e)), 0)) :=
  runElems_did h s 2 f _ _

theorem runVInt_saturates (o : IntOp) :
    runVInt o true h f s = did (vectorOut h s 2 f fun c => elements (WellFormed.tyWidth f.ty) fun e =>
      let r := intOp o (WellFormed.tyWidth f.ty) (vInt s.me f c f.a e) (vInt s.me f c f.b e)
      (truncInt (WellFormed.tyWidth f.ty) (if f.aux.getLsbD 0 then clampInt (tyMin f.ty) (tyMax f.ty) r else r), 0)) := by
  rw [runVInt, runElems_did]; rfl

end

/-- The integer V words without a saturating form, with their operations. -/
def vIntWords : List ((Hdr → FmtRR → Instr) × IntOp) :=
  [(Instr.vmul, .mul), (Instr.vmulHi, .mulHi), (Instr.vlogAnd, .and), (Instr.vlogOr, .or), (Instr.vlogXor, .xor), (Instr.vlogAndn, .andn),
    (Instr.vshShl, .shl), (Instr.vshShr, .shr), (Instr.vshSra, .sra), (Instr.vshRot, .rot), (Instr.vmin, .min), (Instr.vmax, .max)]

theorem exec_vIntWord {p : (Hdr → FmtRR → Instr) × IntOp} (hp : p ∈ vIntWords) (h : Hdr) (f : FmtRR) (s : State) :
    exec (p.1 h f) s = runVInt p.2 false h f s := by
  simp only [vIntWords, List.mem_cons, List.not_mem_nil, or_false] at hp
  rcases hp with rfl | rfl | rfl | rfl | rfl | rfl | rfl | rfl | rfl | rfl | rfl | rfl <;> rfl

theorem vectorIntegerWords_complete : Claims.VectorIntegerWords := by
  intro h f s
  refine ⟨fun p hp => ?_, ?_, ?_, ?_⟩
  · rw [exec_vIntWord hp]; exact runVInt_wraps h f s p.2
  · rw [exec_vadd, execVadd, runVInt_saturates]; rfl
  · rw [exec_vsub, execVsub, runVInt_saturates]; rfl
  · rw [exec_vmad, execVmad, runElems_did]

/-! ### Compares, selection and lane masks (08 R239 to R242) -/

theorem runVplog_did (h : Hdr) (f : FmtRR) (s : State) (op : Bool → Bool → Bool) :
    runVplog h f s op = did (maskOut h s 2 f (fun c i =>
      op ((vpOf s.me c f.a (f.aux.getLsbD 0)).getLsbD i) ((vpOf s.me c f.b (f.aux.getLsbD 1)).getLsbD i)) fun _ _ => 0) :=
  runMask_did h s 2 f _ _

theorem vectorMaskWords : Claims.VectorMaskWords := by
  intro h cc f s
  refine ⟨?_, ?_, fun p hp => ?_, ?_, ?_⟩
  · rw [exec_vcmp, execVcmp]; exact runMask_did h s 2 f _ _
  · rw [exec_vfcmp, execVfcmp]; exact runMask_did h s 4 f _ _
  · simp only [List.mem_cons, List.not_mem_nil, or_false] at hp
    rcases hp with rfl | rfl | rfl | rfl
    · exact runVplog_did h f s fun x y => x && y
    · exact runVplog_did h f s fun x y => x || y
    · exact runVplog_did h f s fun x y => x != y
    · exact runVplog_did h f s fun x y => x && !y
  · rw [exec_vsel, execVsel, runLanes_did]
  · rw [exec_vpcnt, execVpcnt, runLanes_did]

/-! ### Permutes (08 R250 to R256) -/

/-- The lane that VSHUF takes is named by the low four bits of a selector, and bit 4 makes a zero (08 R250). -/
theorem exec_vshuf_did (h : Hdr) (f : FmtRR) (s : State) :
    exec (.vshuf h f) s = did (vectorOut h s 2 f fun c _ => (vecOfLanes fun i =>
      let j := (lane (readVSpec s.me c f.b) i).toNat
      if j.testBit 4 then 0 else lane (readVSpec s.me c f.a) (j % 16), 0)) := by
  have hlow (x : Lane) : (x.extractLsb' 0 4).toNat = x.toNat % 16 := by simp
  simp only [exec_vshuf, execVshuf, runLanes_did, BitVec.getLsbD, hlow]

theorem permuteWords : Claims.PermuteWords := by
  intro h f s
  refine ⟨exec_vshuf_did h f s, ?_, ?_, ?_, ?_⟩
  · rw [exec_vxcp, execVxcp, runVector_did]
  · rw [exec_vsplat, execVsplat, runElems_did]
  · rw [exec_viota, execViota, runElems_did]
  · rw [exec_vrng, execVrng, runLanes_did]

/-! ### Float words and VCVT (08 R243 to R245) -/

/-- The float V words with their operations. -/
def vFpWords : List ((Hdr → FmtRR → Instr) × FpOp) :=
  [(Instr.vfadd, .add), (Instr.vfaddSub, .sub), (Instr.vfmul, .mul), (Instr.vfma, .fma), (Instr.vfmaFms, .fms), (Instr.vfmaFnma, .fnma),
    (Instr.vfmin, .min), (Instr.vfmax, .max)]

/-- The words of VSF with their functions. -/
def vsfWords : List ((Hdr → FmtRR → Instr) × SfOp) :=
  [(Instr.vsfRcp, .rcp), (Instr.vsfRsqrt, .rsqrt), (Instr.vsfExp2, .exp2), (Instr.vsfLog2, .log2), (Instr.vsfSin, .sin),
    (Instr.vsfCos, .cos), (Instr.vsfTanh, .tanh), (Instr.vsfSigm, .sigm)]

theorem exec_vFpWord {p : (Hdr → FmtRR → Instr) × FpOp} (hp : p ∈ vFpWords) (h : Hdr) (f : FmtRR) (s : State) :
    exec (p.1 h f) s = runVFp p.2 h f s := by
  simp only [vFpWords, List.mem_cons, List.not_mem_nil, or_false] at hp
  rcases hp with rfl | rfl | rfl | rfl | rfl | rfl | rfl | rfl <;> rfl

theorem exec_vsfWord {p : (Hdr → FmtRR → Instr) × SfOp} (hp : p ∈ vsfWords) (h : Hdr) (f : FmtRR) (s : State) :
    exec (p.1 h f) s = runVsf p.2 h f s := by
  simp only [vsfWords, List.mem_cons, List.not_mem_nil, or_false] at hp
  rcases hp with rfl | rfl | rfl | rfl | rfl | rfl | rfl | rfl <;> rfl

theorem vectorFloatWords_complete : Claims.VectorFloatWords := by
  intro h f s
  refine ⟨fun p hp => ?_, fun p hp => ?_⟩
  · rw [exec_vFpWord hp]; exact runElems_did h s 4 f _ _
  · rw [exec_vsfWord hp]; exact runElems_did h s 8 f _ _

theorem vectorConversions : Claims.VectorConversions := by
  intro h f s
  simp only [exec_vcvt, execVcvt, runElems_did]
  refine ⟨fun heq => ?_, fun hwide => ?_, fun hnarrow => ?_⟩
  · simp only [heq, lt_irrefl, if_false]
  · simp only [if_neg (Nat.lt_asymm hwide), if_pos hwide, max_eq_right hwide.le]
  · simp only [if_pos hnarrow, max_eq_left hnarrow.le, Bool.and_eq_true, decide_eq_true_eq]

end Machine

/-- Settles O21: each word is one run of a shared operation on elements, lanes or lane masks. -/
theorem vectorIntegerWords : Obligations.VectorIntegerWords :=
  ⟨Machine.vectorIntegerWords_complete, Machine.vectorMaskWords, Machine.permuteWords⟩

end Sys2Proof
end

section
/-! SUPPORT. VCVT.BS: what a pair of clusters puts in flight, cluster by cluster, and the flags of its 32 elements under the lanes that
enable them (08 R246 to R249). -/

namespace Sys2Proof
namespace Machine
open Safety

/-! ### A pair of clusters, cluster by cluster -/

/-- The register that a pair makes for its cluster c. -/
def BsPair.vec (r : BsPair) (c : Nat) : Vec := if c % 2 = 0 then r.even else r.odd

/-- The flags that a pair raises in its cluster c. -/
def BsPair.flags (r : BsPair) (c : Nat) : Fl := if c % 2 = 0 then r.flEven else r.flOdd

/-- A VCVT.BS put in flight: each cluster of a pair that performs under its own lane mask, the others with their last-result entries
alone (08 R246). -/
def bsOut (h : Hdr) (f : FmtRR) (s : State) (val : Nat → Vec) (fl : Nat → Fl) : State :=
  s.setMe { (clusters f.cmask).foldl (fun l c =>
    if bsOn s.me h c then l.vectorResult 4 c (vdstRef (1 <<< c) f.dst) (s.me.laneMask h c) (val c) (fl c)
    else l.vectorResult 4 c (vdstRef (1 <<< c) f.dst) 0 0 0) s.me with vIssued := true }

section
variable (h : Hdr) (f : FmtRR) (s : State) {bad : Slot → Nat → Bool} (g : Slot → Nat → BsPair)

theorem runBs_did (hok : ((clusters f.cmask).any fun c => c % 2 = 0 && bsOn s.me h c && bad s.me c) = false) :
    runBs h f s bad g =
      did (bsOut h f s (fun c => (g s.me (c / 2 * 2)).vec c) fun c => (g s.me (c / 2 * 2)).flags c) := by
  have hcluster (l : Slot) (c : Nat) (r : BsPair) :
      (if c % 2 = 0 then l.vectorResult 4 c (vdstRef (1 <<< c) f.dst) (s.me.laneMask h c) r.even r.flEven
        else l.vectorResult 4 c (vdstRef (1 <<< c) f.dst) (s.me.laneMask h c) r.odd r.flOdd) =
      l.vectorResult 4 c (vdstRef (1 <<< c) f.dst) (s.me.laneMask h c) (r.vec c) (r.flags c) := by
    unfold BsPair.vec BsPair.flags
    split <;> rfl
  simp only [runBs, hok, Bool.false_eq_true, if_false, hcluster]
  rfl

theorem runBs_faulted (hbad : ((clusters f.cmask).any fun c => c % 2 = 0 && bsOn s.me h c && bad s.me c) = true) :
    runBs h f s bad g = faulted .format 0 s := by
  simp only [runBs, hbad, if_true]
  rfl

end

/-! ### The flags of a pair's elements -/

/-- The flags of a cluster's lanes that are enabled. -/
def laneFlags (m : BitVec 16) (g : Nat → Fl) : Fl :=
  (List.range 16).foldl (fun a i => if m.getLsbD i then a ||| g i else a) 0

theorem laneFlags_congr (m : BitVec 16) {g g' : Nat → Fl} (hg : ∀ i < 16, g i = g' i) : laneFlags m g = laneFlags m g' :=
  List.foldl_ext _ _ _ fun a i hi => by rw [hg i (List.mem_range.1 hi)]

/-- Half of a pair's elements, each with its lane. -/
theorem zipIdx_half {α : Type} (fs : List α) (d : α) {k : Nat} (hlen : fs.length = 32) (hk : k < 2) :
    ((fs.drop (16 * k)).take 16).zipIdx = (List.range 16).map fun i => (fs.getD (i + k * 16) d, i) := by
  apply List.ext_getElem
  · simp only [List.length_zipIdx, List.length_take, List.length_drop, hlen, List.length_map, List.length_range]; omega
  · intro i hi hi'
    rw [List.length_map, List.length_range] at hi'
    have hin : i + k * 16 < fs.length := by omega
    simp only [List.getElem_zipIdx, List.getElem_take, List.getElem_drop, List.getElem_map, List.getElem_range,
      List.getD_eq_getElem _ _ hin, zero_add, Nat.add_comm, Nat.mul_comm]

/-- The flags of a cluster are those of its half of the pair's elements, in the lanes that are enabled (log 141). -/
theorem bsFlags_half (l : Slot) (h : Hdr) (c : Nat) (fs : List Fl) (hlen : fs.length = 32) :
    (if c % 2 = 0 then (bsFlags l h (c / 2 * 2) fs).1 else (bsFlags l h (c / 2 * 2) fs).2) =
      laneFlags (l.laneMask h c) fun i => fs.getD (i + c % 2 * 16) 0 := by
  have hhalf (k : Nat) (hk : k < 2) (m : BitVec 16) :
      ((fs.drop (16 * k)).take 16).zipIdx.foldl (fun a (x, i) => if m.getLsbD i then a ||| x else a) 0 =
        laneFlags m fun i => fs.getD (i + k * 16) 0 := by
    rw [zipIdx_half fs 0 hlen hk, List.foldl_map]; rfl
  have hsplit := Nat.div_add_mod' c 2
  rcases Nat.mod_two_eq_zero_or_one c with hc | hc
  · rw [if_pos hc, bsFlags, hc]
    rw [hc] at hsplit
    simp only [hhalf 0 (by decide), hsplit]
  · rw [if_neg (by omega), bsFlags, hc]
    rw [hc] at hsplit
    simp only [hhalf 1 (by decide), hsplit]

/-! ### Scale entries -/

/-- The scale entry of the pair of an even cluster: lane 0 of the odd cluster's register (08 R247, R248). -/
def bsEntry (l : Slot) (x : BitVec 9) (c : Nat) : Nat := (lane (readVSpec l (c + 1) x) 0).toNat

/-- Whether a pair that performs has an entry whose XV is not legal (08 R249). -/
def bsIllegal (l : Slot) (h : Hdr) (f : FmtRR) (x : BitVec 9) : Bool :=
  (clusters f.cmask).any fun c => c % 2 = 0 && bsOn l h c && xvBad (bsEntry l x (c / 2 * 2) / 256 % 256)

/-- The check of the entries that VCVT.BS makes where p says that they are read. -/
theorem any_bsBad (l : Slot) (h : Hdr) (f : FmtRR) (x : BitVec 9) (p : Bool) :
    ((clusters f.cmask).any fun c => c % 2 = 0 && bsOn l h c && (p && xvBad (bsEntry l x c / 256 % 256))) =
      (p && bsIllegal l h f x) := by
  cases p with
  | false => simp only [Bool.false_and, Bool.and_false, List.any_eq_false, Bool.false_eq_true, not_false_eq_true, implies_true]
  | true =>
    simp only [Bool.true_and, bsIllegal]
    congr 1
    funext c
    by_cases hc : c % 2 = 0
    · rw [show c / 2 * 2 = c by omega]
    · simp only [hc, decide_false, Bool.false_and]

/-! ### Packing (08 R247) -/

section
variable (h : Hdr) (f : FmtRR) (l : Slot) (c : Nat)

/-- The elements of the pair of an even cluster. -/
def bsRaw : List Nat := (List.range 32).map (bsLane l c f.a)

/-- The scale of a pair, computed or given, its XV, and whether the block is of a NaN or an infinity. -/
def bsScale : Nat × Nat × Bool :=
  if f.aux.getLsbD 6 then blockScale (bsCode f) ((bsRaw f l c).map ((fctx l.fpcNow).read fmtF32))
  else (bsEntry l f.b c % 256, (if bsCode f = 9 then bsEntry l f.b c / 256 % 256 else 0), decide (bsEntry l f.b c % 256 = 0xFF))

/-- The codes of a pair's elements under a scale, with their flags. -/
def bsPacked (z : Nat × Nat × Bool) : List (Nat × Fl) :=
  let vs := (bsRaw f l c).map ((fctx l.fpcNow).read fmtF32)
  if z.2.2 then vs.map fun _ => (0, Fl.nv) else vs.map (packElem (bsCode f) (fctx l.fpcNow).rm (fctx l.fpcNow).sat z.1 z.2.1)

/-- The flags of a pair's elements under a scale: those of their codes, and NV where one signals. -/
def bsPackedFl (z : Nat × Nat × Bool) : List Fl :=
  ((bsPacked f l c z).map (·.2)).zipWith (· ||| ·) ((bsRaw f l c).map fun x => if fmtF32.snan x then Fl.nv else 0)

/-- What packing makes for the pair of an even cluster. -/
def bsPackPair : BsPair :=
  let z := bsScale f l c
  let fl := bsFlags l h c (bsPackedFl f l c z)
  { even := BitVec.ofNat 512 (packElems ((fmtCode (bsCode f)).getD fmtE5m2).w ((bsPacked f l c z).map (·.1)))
    odd := BitVec.ofNat 512 (z.1 + 256 * z.2.1)
    flEven := fl.1 ||| if z.2.2 then Fl.nv else 0
    flOdd := fl.2 }

end

theorem length_bsRaw (f : FmtRR) (l : Slot) (c : Nat) : (bsRaw f l c).length = 32 := by
  rw [bsRaw, List.length_map, List.length_range]

theorem execVcvtBsPack_eq (h : Hdr) (f : FmtRR) (s : State) :
    execVcvtBsPack h f s = runBs h f s
      (fun l c => (!f.aux.getLsbD 6 && decide (bsCode f = 9)) && xvBad (bsEntry l f.b c / 256 % 256)) (bsPackPair h f) := by
  unfold execVcvtBsPack
  refine congrArg (runBs h f s _) (funext fun l => funext fun c => ?_)
  cases hgiven : f.aux.getLsbD 6 <;>
    simp only [bsPackPair, bsScale, hgiven, Bool.not_false, Bool.not_true, Bool.false_eq_true, if_true, if_false] <;> rfl

/-- The flags of an element of a pair under a scale, from its pattern. -/
def bsPackFl (k : FCtx) (code : Nat) (z : Nat × Nat × Bool) (x : Nat) : Fl :=
  (if z.2.2 then Fl.nv else (packElem code k.rm k.sat z.1 z.2.1 (k.read fmtF32 x)).2) ||| if fmtF32.snan x then Fl.nv else 0

theorem bsPacked_fst (f : FmtRR) (l : Slot) (c : Nat) (z : Nat × Nat × Bool) :
    (bsPacked f l c z).map (·.1) = if z.2.2 then (bsRaw f l c).map fun _ => 0 else (bsRaw f l c).map fun x =>
      (packElem (bsCode f) (fctx l.fpcNow).rm (fctx l.fpcNow).sat z.1 z.2.1 ((fctx l.fpcNow).read fmtF32 x)).1 := by
  unfold bsPacked
  cases z.2.2 <;> simp only [if_true, Bool.false_eq_true, if_false, List.map_map, Function.comp_def]

theorem bsPackedFl_eq (f : FmtRR) (l : Slot) (c : Nat) (z : Nat × Nat × Bool) :
    bsPackedFl f l c z = (bsRaw f l c).map (bsPackFl (fctx l.fpcNow) (bsCode f) z) := by
  unfold bsPackedFl bsPacked bsPackFl
  cases z.2.2 <;>
    simp only [if_true, Bool.false_eq_true, if_false, List.map_map, List.zipWith_map, List.zipWith_self, Function.comp_def]

theorem bsPackPair_vec (h : Hdr) (f : FmtRR) (l : Slot) (c : Nat) :
    (bsPackPair h f l (c / 2 * 2)).vec c =
      let z := bsScale f l (c / 2 * 2)
      if c % 2 = 0 then BitVec.ofNat 512 (packElems ((fmtCode (bsCode f)).getD fmtE5m2).w ((bsPacked f l (c / 2 * 2) z).map (·.1)))
      else BitVec.ofNat 512 (z.1 + 256 * z.2.1) := rfl

theorem bsPackPair_flags (h : Hdr) (f : FmtRR) (l : Slot) (c : Nat) :
    (bsPackPair h f l (c / 2 * 2)).flags c =
      let z := bsScale f l (c / 2 * 2)
      laneFlags (l.laneMask h c)
          (fun i => bsPackFl (fctx l.fpcNow) (bsCode f) z ((bsRaw f l (c / 2 * 2)).getD (i + c % 2 * 16) 0)) |||
        if z.2.2 ∧ c % 2 = 0 then Fl.nv else 0 := by
  set z := bsScale f l (c / 2 * 2) with hz
  set fs := bsPackedFl f l (c / 2 * 2) z with hfs
  have hlen : fs.length = 32 := by rw [hfs, bsPackedFl_eq, List.length_map, length_bsRaw]
  have hlane : ∀ i < 16, fs.getD (i + c % 2 * 16) 0 =
      bsPackFl (fctx l.fpcNow) (bsCode f) z ((bsRaw f l (c / 2 * 2)).getD (i + c % 2 * 16) 0) := by
    intro i hi
    have hin : i + c % 2 * 16 < (bsRaw f l (c / 2 * 2)).length := by rw [length_bsRaw]; omega
    rw [hfs, bsPackedFl_eq, List.getD_eq_getElem _ _ hin, List.getD_eq_getElem _ _ (by rwa [List.length_map]), List.getElem_map]
  calc (bsPackPair h f l (c / 2 * 2)).flags c
      = (if c % 2 = 0 then (bsFlags l h (c / 2 * 2) fs).1 else (bsFlags l h (c / 2 * 2) fs).2) |||
          if z.2.2 ∧ c % 2 = 0 then Fl.nv else 0 := by
        by_cases hc : c % 2 = 0 <;> simp [BsPair.flags, bsPackPair, hc, ← hz, ← hfs]
    _ = _ := by rw [bsFlags_half l h c fs hlen, laneFlags_congr _ hlane]

/-! ### Unpacking (08 R248) -/

/-- The f32 value of an element under a scale entry, and its flags. -/
def bsUnpacked (k : FCtx) (code entry x : Nat) : Nat × Fl :=
  let y := k.done fmtF32 ((elemValue code (entry / 256 % 256) x).scale ((entry % 256 : Nat) - 127))
  if entry % 256 = 0xFF then (fmtF32.nan, 0) else (y.1, y.2 ||| if ((fmtCode code).getD fmtE5m2).snan x then Fl.nv else 0)

/-- Element e that unpacking makes for the pair of an even cluster. -/
def bsUnpackElem (f : FmtRR) (l : Slot) (c e : Nat) : Nat × Fl :=
  let w := ((fmtCode (bsCode f)).getD fmtE5m2).w
  bsUnpacked (fctx l.fpcNow) (bsCode f) (bsEntry l f.a c) (bitsAt (readVSpec l c f.a).toNat (w * e) w)

/-- What unpacking makes for the pair of an even cluster. -/
def bsUnpackPair (h : Hdr) (f : FmtRR) (l : Slot) (c : Nat) : BsPair :=
  let rs := (List.range 32).map (bsUnpackElem f l c)
  let fl := bsFlags l h c (rs.map (·.2))
  { even := vecOfLanes fun i => BitVec.ofNat 32 (rs.getD i (0, 0)).1
    odd := vecOfLanes fun i => BitVec.ofNat 32 (rs.getD (16 + i) (0, 0)).1
    flEven := fl.1
    flOdd := fl.2 }

theorem execVcvtBsUnpack_eq (h : Hdr) (f : FmtRR) (s : State) :
    execVcvtBsUnpack h f s = runBs h f s (fun l c => decide (bsCode f = 9) && xvBad (bsEntry l f.a c / 256 % 256)) (bsUnpackPair h f) := by
  rfl

theorem vecOfLanes_congr {g g' : Nat → Lane} (hg : ∀ i < 16, g i = g' i) : vecOfLanes g = vecOfLanes g' := by
  rw [vecOfLanes, vecOfLanes, List.map_congr_left fun i hi => by rw [hg i (List.mem_range.1 hi)]]

theorem getD_map_range {β : Type} (g : Nat → β) (d : β) {n i : Nat} (hi : i < n) : ((List.range n).map g).getD i d = g i := by
  rw [List.getD_eq_getElem _ _ (by simpa using hi), List.getElem_map, List.getElem_range]

theorem bsUnpackPair_vec (h : Hdr) (f : FmtRR) (l : Slot) (c : Nat) :
    (bsUnpackPair h f l (c / 2 * 2)).vec c =
      vecOfLanes fun i => BitVec.ofNat 32 (bsUnpackElem f l (c / 2 * 2) (i + c % 2 * 16)).1 := by
  rcases Nat.mod_two_eq_zero_or_one c with hc | hc
  · simp only [BsPair.vec, bsUnpackPair, hc, if_true]
    refine vecOfLanes_congr fun i hi => ?_
    rw [getD_map_range _ _ (by omega)]
    rfl
  · simp only [BsPair.vec, bsUnpackPair, hc, Nat.one_ne_zero, if_false]
    refine vecOfLanes_congr fun i hi => ?_
    rw [getD_map_range _ _ (by omega), Nat.add_comm]

theorem bsUnpackPair_flags (h : Hdr) (f : FmtRR) (l : Slot) (c : Nat) :
    (bsUnpackPair h f l (c / 2 * 2)).flags c =
      laneFlags (l.laneMask h c) fun i => (bsUnpackElem f l (c / 2 * 2) (i + c % 2 * 16)).2 := by
  rw [BsPair.flags, bsUnpackPair, bsFlags_half l h c _ (by simp), List.map_map]
  refine laneFlags_congr _ fun i hi => ?_
  rw [getD_map_range _ _ (by omega)]
  rfl

/-! ### The words -/

theorem blockScaleWords : Claims.BlockScaleWords := by
  intro h f s
  refine ⟨fun hok => ?_, fun hcode hgiven hbad => ?_, fun hok => ?_, fun hcode hbad => ?_⟩
  · have hcheck : (!f.aux.getLsbD 6 && decide (bsCode f = 9) && bsIllegal s.me h f f.b) = false := by
      rw [Bool.and_eq_false_imp, Bool.and_eq_true, Bool.not_eq_true', decide_eq_true_iff]
      rintro ⟨hgiven, hcode⟩
      exact (hok hcode).resolve_left (Bool.eq_false_iff.1 hgiven)
    rw [exec_vcvtBsPack, execVcvtBsPack_eq, runBs_did _ _ _ _ ((any_bsBad ..).trans hcheck)]
    simp only [bsPackPair_vec, bsPackPair_flags, bsPacked_fst]
    rfl
  · have hcheck : (!f.aux.getLsbD 6 && decide (bsCode f = 9) && bsIllegal s.me h f f.b) = true := by
      rw [hgiven, decide_eq_true hcode]; exact hbad
    rw [exec_vcvtBsPack, execVcvtBsPack_eq, runBs_faulted _ _ _ _ ((any_bsBad ..).trans hcheck)]
  · have hcheck : (decide (bsCode f = 9) && bsIllegal s.me h f f.a) = false := by
      rw [Bool.and_eq_false_imp, decide_eq_true_iff]; exact hok
    rw [exec_vcvtBsUnpack, execVcvtBsUnpack_eq, runBs_did _ _ _ _ ((any_bsBad ..).trans hcheck)]
    simp only [bsUnpackPair_vec, bsUnpackPair_flags]
    rfl
  · have hcheck : (decide (bsCode f = 9) && bsIllegal s.me h f f.a) = true := by
      rw [decide_eq_true hcode]; exact hbad
    rw [exec_vcvtBsUnpack, execVcvtBsUnpack_eq, runBs_faulted _ _ _ _ ((any_bsBad ..).trans hcheck)]

end Machine

/-- Settles O22: each word is one run of a shared operation, and VCVT.BS is taken cluster by cluster of its pairs. -/
theorem vectorFloatWords : Obligations.VectorFloatWords :=
  ⟨Machine.vectorFloatWords_complete, Machine.vectorConversions, Machine.blockScaleWords⟩

end Sys2Proof
end

section
/-! SUPPORT. Atomics: on memory of this chip each is one read-modify-write at the runs of its address, and the integer operations of 09
Table 9-3 are those of bit vectors (09 R267, R268). -/

namespace Sys2Proof
namespace Machine
open Safety

/-! ### The words -/

/-- The atomics with their operations. -/
def atomWords : List ((Hdr → FmtAT → Instr) × AtomOp) :=
  [(Instr.atomAdd, .add), (Instr.atomAnd, .and), (Instr.atomOr, .or), (Instr.atomXor, .xor), (Instr.atomMin, .min), (Instr.atomMax, .max),
    (Instr.atomSwap, .swap), (Instr.atomCas, .cas), (Instr.atomFadd, .fadd), (Instr.atomBfadd, .bfadd)]

theorem exec_atomWord {p : (Hdr → FmtAT → Instr) × AtomOp} (hp : p ∈ atomWords) (h : Hdr) (f : FmtAT) (s : State) :
    exec (p.1 h f) s = runAtom p.2 h f s := by
  simp only [atomWords, List.mem_cons, List.not_mem_nil, or_false] at hp
  rcases hp with rfl | rfl | rfl | rfl | rfl | rfl | rfl | rfl | rfl | rfl <;> rfl

/-- An atomic that its place performs and that meets no poison writes its new value to plain memory, and the old one waits. -/
theorem runAtom_plain {o : AtomOp} {h : Hdr} {f : FmtAT} {s s' : State} {segs : List Seg} (he : s.me.enabled h = true)
    (hp : segs.all plainSeg = true)
    (ha : s.access .atomic (readSpec s.me f.a).toNat (sizeBytes f.size) (sizeBytes f.size) false = .ok segs s')
    (hbank : ((inScratch segs || inLocal (readSpec s.me f.a).toNat) && !o.bank) = false)
    (hunit : (inCounter segs && decide (8 ≤ o.code)) = false) (hclean : poisonAt s' (readSpec s.me f.a).toNat segs = none) :
    let m := s'.rmw o segs (sizeBytes f.size) (readSpec s.me f.b).toNat (readSpec s.me f.c).toNat
    runAtom o h f s = did (m.2.await (hdrTag h) (dstRef f.dst) (.value (BitVec.ofNat 4096 m.1) none)) := by
  refine runPlain_did he ?_
  simp only [ha, hbank, hunit, hclean, Bool.false_eq_true, if_false]
  split
  next => cases hp
  next => rw [noteRange_plain hp]

theorem atomicWords_complete : Claims.AtomicWords := by
  intro p hp h f s s' segs he hplain ha hbank hunit hclean
  rw [exec_atomWord hp]
  exact runAtom_plain he hplain ha hbank hunit hclean

/-! ### The integer operations -/

/-- On patterns of its width each integer operation is the one of bit vectors. -/
theorem AtomOp.apply_toNat {n : Nat} (x y z : BitVec (8 * n)) :
    AtomOp.add.apply n x.toNat y.toNat z.toNat = (x + y).toNat ∧ AtomOp.and.apply n x.toNat y.toNat z.toNat = (x &&& y).toNat ∧
    AtomOp.or.apply n x.toNat y.toNat z.toNat = (x ||| y).toNat ∧ AtomOp.xor.apply n x.toNat y.toNat z.toNat = (x ^^^ y).toNat ∧
    AtomOp.min.apply n x.toNat y.toNat z.toNat = (if x.sle y then x else y).toNat ∧
    AtomOp.max.apply n x.toNat y.toNat z.toNat = (if x.sle y then y else x).toNat ∧
    AtomOp.swap.apply n x.toNat y.toNat z.toNat = y.toNat ∧ AtomOp.cas.apply n x.toNat y.toNat z.toNat = (if x = z then y else x).toNat := by
  have hmod (v : BitVec (8 * n)) : v.toNat % 2 ^ (8 * n) = v.toNat := Nat.mod_eq_of_lt v.isLt
  simp only [AtomOp.apply, hmod, sintNat_toNat, BitVec.sle, decide_eq_true_eq, BitVec.toNat_inj]
  refine ⟨?_, ?_, ?_, ?_, ?_, ?_, trivial, ?_⟩
  · exact (BitVec.toNat_add x y).symm
  · exact (BitVec.toNat_and x y).symm
  · exact (BitVec.toNat_or x y).symm
  · exact (BitVec.toNat_xor x y).symm
  · split <;> rfl
  · split <;> rfl
  · split <;> rfl

theorem atomicResults : Claims.AtomicResults := fun _ _ => AtomOp.apply_toNat

end Machine

/-- Settles O30: each atomic is one read-modify-write, and its integer operation that of bit vectors at every width. -/
theorem atomicWords : Obligations.AtomicWords := ⟨Machine.atomicWords_complete, Machine.atomicResults⟩

end Sys2Proof
end

section
/-! SUPPORT. Waits: how a WAITF word ends or waits by its first test, and how WAIT_TIMEOUT, a scan and WFE_TIMEOUT end waits (09 R274 to
R278; 17 R454; 18 R474). -/

namespace Sys2Proof
namespace Machine
open Safety

/-! ### Relations (09 R274) -/

theorem waitHolds_ge (x v : Word) : waitHolds 0 x v = true ↔ v.toNat ≤ x.toNat := decide_eq_true_iff

theorem waitHolds_eq (x v : Word) : waitHolds 1 x v = true ↔ x = v := beq_iff_eq

theorem waitHolds_ne (x v : Word) : waitHolds 2 x v = true ↔ x ≠ v := bne_iff_ne

/-! ### The words -/

theorem waitable_plain {g : Seg} (hp : plainSeg g = true) : waitable [g] = true := by
  obtain ⟨loc, n⟩ := g
  cases loc with
  | scr | sync | flag | ctr | hbm => rfl
  | oor | denied | ext | host | peer => cases hp

/-- What a WAITF word whose relation does not hold leaves: its task waits for the word at a place, under the word's tag. -/
def State.waitOn (s t : State) (h : Hdr) (f : FmtT) (k : WaitKind) (loc : Loc) (deadline : Option Nat) : State :=
  (t.startWait k (BitVec.ofNat 64 (readSpec s.me f.a).toNat) (readSpec s.me f.b) (f.imm.extractLsb' 0 2) loc deadline (hdrTag h)).await
    (hdrTag h) (dstRef f.dst) .wait

section
variable {h : Hdr} {f : FmtT} {s s' : State} {g : Seg} (he : s.me.enabled h = true) (hp : plainSeg g = true)
  (ha : s.access .load (readSpec s.me f.a).toNat 8 8 false = .ok [g] s')
include he hp ha

theorem runWaitf_clean (timed : Bool) (hclean : poisonAt s' (readSpec s.me f.a).toNat [g] = none) :
    runWaitf h f s timed = did (
      if waitHolds (f.imm.extractLsb' 0 2) (BitVec.ofNat 64 (natOfBytes (readSeg s' ⟨g.loc, 8⟩))) (readSpec s.me f.b) then
        s'.landNow (dstRef f.dst) 0
      else if timed = true ∧ (readSpec s.me f.c).toNat % 2 ^ 32 = 0 then s'.landNow (dstRef f.dst) 1
      else s.waitOn s' h f (if timed then .waitfT else .waitf) g.loc
        (if timed then some (s'.cycle + (readSpec s.me f.c).toNat % 2 ^ 32) else none)) := by
  have hrange : s'.noteRange (readSpec s.me f.a).toNat [g] = s' := noteRange_plain (by simpa using hp) _ _
  refine runPlain_did he ?_
  simp only [ha, waitable_plain hp, hclean, hrange, waitLoc, Bool.not_true, Bool.false_eq_true, if_false, Bool.and_eq_true,
    decide_eq_true_eq]
  split
  · rfl
  · split <;> rfl

theorem runWaitf_poisoned (timed : Bool) {y : Nat} (hbad : poisonAt s' (readSpec s.me f.a).toNat [g] = some y) :
    runWaitf h f s timed = faulted .dataPoison (BitVec.ofNat 64 y) s' := by
  refine runPlain_faulted he ?_
  simp only [ha, waitable_plain hp, hbad, Bool.not_true, Bool.false_eq_true, if_false]

end

theorem exec_waitfWord {h : Hdr} {f : FmtT} {i : Instr} (hi : i ∈ [Instr.waitf h f, .waitfT h f]) (s : State) :
    ∃ timed, exec i s = runWaitf h f s timed := by
  simp only [List.mem_cons, List.not_mem_nil, or_false] at hi
  rcases hi with rfl | rfl
  · exact ⟨false, rfl⟩
  · exact ⟨true, rfl⟩

theorem waitWords_complete : Claims.WaitWords := by
  intro h f s s' g he hp ha
  refine ⟨fun hclean hx i hi => ?_, fun hclean hx => ?_, fun hclean hx hl => ?_, fun hclean hx hl => ?_, fun y hbad i hi => ?_,
    fun hr => ?_, fun hr => ?_, fun hr => ?_⟩
  · obtain ⟨timed, hrun⟩ := exec_waitfWord hi s
    rw [hrun, runWaitf_clean he hp ha timed hclean, if_pos hx]
  · rw [exec_waitf, execWaitf, runWaitf_clean he hp ha false hclean, if_neg (Bool.eq_false_iff.1 hx)]; rfl
  · rw [exec_waitfT, execWaitfT, runWaitf_clean he hp ha true hclean, if_neg (Bool.eq_false_iff.1 hx), if_pos ⟨rfl, hl⟩]
  · rw [exec_waitfT, execWaitfT, runWaitf_clean he hp ha true hclean, if_neg (Bool.eq_false_iff.1 hx), if_neg fun hz => hl hz.2]; rfl
  · obtain ⟨timed, hrun⟩ := exec_waitfWord hi s
    rw [hrun, runWaitf_poisoned he hp ha timed hbad]
  · rw [hr]; exact waitHolds_ge _ _
  · rw [hr]; exact waitHolds_eq _ _
  · rw [hr]; exact waitHolds_ne _ _

/-! ### Ends of waits -/

section
variable {s : State} {c k d : Nat} {w : Wait} (hw : (s.slot c k).wait = some w) (hk : w.kind = .waitfT) (hd : w.deadline = some d)
  (hlate : d ≤ s.cycle)
include hw hk hd hlate

/-- A wait of a monitor in the table whose condition does not hold ends with SUSPENDED and TIMEOUT. -/
theorem exec_waitTimeout_table (hplace : w.place = .table) (htest : s.testWait (.slot c k) w = none) :
    exec (.waitTimeout c k) s = .next (s.endWait (.slot c k) w (some 5)) := by
  have hstatus : w.status true = 5 := by simp [Wait.status, hplace]
  simp [execWaitTimeout, hw, hk, hd, hlate, hplace, htest, hstatus]

/-- A wait of a monitor outside the table is for a due scan, and without one ends with SPILLED too. -/
theorem exec_waitTimeout_spilled (hplace : w.place = .overflow ∨ w.place = .deferred) :
    exec (.waitTimeout c k) s =
      .next (if s.scanDue (coreDie c) then s.scan (coreDie c) else s.endWait (.slot c k) w (some 7)) := by
  have hspilled : (decide (w.place = .overflow) || decide (w.place = .deferred)) = true := by simpa using hplace
  have hstatus : w.status true = 7 := by simp [Wait.status, hspilled]
  simp [execWaitTimeout, hw, hk, hd, hlate, hspilled, hstatus]

end

theorem waitEvents : Claims.WaitEvents := by
  intro s c k w d
  refine ⟨exec_waitTimeout_table, fun hw hk hd hlate hplace => ?_, fun hphase => ⟨_, ?_, rfl⟩, fun e hwfe hlate => ?_⟩
  · rw [exec_waitTimeout_spilled hw hk hd hlate hplace]
    exact ⟨fun hdue => by rw [hdue]; rfl, fun hdue => by rw [hdue]; rfl⟩
  · rw [exec_monitorScan, execMonitorScan, if_pos hphase]; rfl
  · simp only [exec_wfeTimeout, execWfeTimeout, hwfe, if_pos hlate]

end Machine

/-- Settles O32: a WAITF word is its first test, and the limit of a wait goes by the place of its monitor. -/
theorem waitWords : Obligations.WaitWords := ⟨Machine.waitWords_complete, Machine.waitEvents⟩

end Sys2Proof
end

section
/-! SUPPORT. Copies: what CPY and CPY.SCALE queue, and what dispatch, an engine's step and completion make of a command (09 R279 to R283;
05 R142, R143, R156). -/

namespace Sys2Proof
namespace Machine
open Safety

/-! ### The words -/

section
variable {h : Hdr} {f : FmtT} {s : State} (he : s.me.enabled h = true)
include he

theorem exec_cpy_starts (hrec : (readSpec s.me f.c).toNat % 64 = 0)
    (hdst : f.imm ≠ 0 → (readSpec s.me f.a).toNat % 128 = 0 ∧ inLocal (readSpec s.me f.a).toNat = true) :
    exec (.cpy h f) s = did (s.startCopy f (hdrTag h) false (readSpec s.me f.a).toNat (readSpec s.me f.b).toNat
      (readSpec s.me f.c).toNat f.imm.toNat) := by
  rw [exec_cpy, execCpy]
  refine runPlain_did he ?_
  by_cases himm : f.imm = 0
  · simp [hrec, himm]
  · obtain ⟨halign, hlocal⟩ := hdst himm
    simp [hrec, halign, hlocal]

theorem exec_cpy_misplacedRecord (hrec : (readSpec s.me f.c).toNat % 64 ≠ 0) :
    exec (.cpy h f) s = faulted .misalign (readSpec s.me f.c) s := by
  rw [exec_cpy, execCpy]
  refine runPlain_faulted he ?_
  simp only [if_pos hrec, BitVec.ofNat_toNat, BitVec.setWidth_eq]

theorem exec_cpy_misplacedTarget (hrec : (readSpec s.me f.c).toNat % 64 = 0) (himm : f.imm ≠ 0)
    (halign : (readSpec s.me f.a).toNat % 128 ≠ 0) : exec (.cpy h f) s = faulted .misalign (readSpec s.me f.a) s := by
  rw [exec_cpy, execCpy]
  refine runPlain_faulted he ?_
  simp only [hrec, himm, halign, ne_eq, not_true_eq_false, not_false_eq_true, decide_true, Bool.and_self, if_false, if_true,
    BitVec.ofNat_toNat, BitVec.setWidth_eq]

theorem exec_cpy_farTarget (hrec : (readSpec s.me f.c).toNat % 64 = 0) (himm : f.imm ≠ 0)
    (halign : (readSpec s.me f.a).toNat % 128 = 0) (hfar : inLocal (readSpec s.me f.a).toNat = false) :
    exec (.cpy h f) s = faulted .perm (readSpec s.me f.a) s := by
  rw [exec_cpy, execCpy]
  refine runPlain_faulted he ?_
  simp only [hrec, himm, halign, hfar, ne_eq, not_true_eq_false, not_false_eq_true, decide_true, decide_false, Bool.and_false,
    Bool.false_eq_true, Bool.not_false, Bool.and_self, if_false, if_true, BitVec.ofNat_toNat, BitVec.setWidth_eq]

theorem exec_cpyScale_starts (hrec : (readSpec s.me f.b).toNat % 32 = 0) :
    exec (.cpyScale h f) s =
      did (s.startCopy f (hdrTag h) true 0 (readSpec s.me f.b).toNat (readSpec s.me f.a).toNat 0) := by
  rw [exec_cpyScale, execCpyScale]
  refine runPlain_did he ?_
  simp only [hrec, ne_eq, not_true_eq_false, if_false]

theorem exec_cpyScale_misplaced (hrec : (readSpec s.me f.b).toNat % 32 ≠ 0) :
    exec (.cpyScale h f) s = faulted .misalign (readSpec s.me f.b) s := by
  rw [exec_cpyScale, execCpyScale]
  refine runPlain_faulted he ?_
  simp only [if_pos hrec, BitVec.ofNat_toNat, BitVec.setWidth_eq]

end

/-- The command that a copy word queues, under the next number of its core. -/
theorem startCopy_queues (s : State) (f : FmtT) (tag : Nat) (scale : Bool) (d src t lines : Nat) :
    ∃ x, Sparse.find (s.startCopy f tag scale d src t lines).myCore.copies s.myCore.nextCopy = some x ∧ x.d = BitVec.ofNat 64 d ∧
      x.s = BitVec.ofNat 64 src ∧ x.t = BitVec.ofNat 64 t ∧ x.lines = lines ∧ x.pos = 0 ∧ x.finished = false ∧
      x.engine = if s.myCore.copies.any fun y => y.2.engine.isNone then none else s.myCore.freeEngine := by
  simp only [State.startCopy, State.await, State.myCore_setMe, State.myCore_setMyCore, Sparse.find_put_self]
  exact ⟨_, rfl, rfl, rfl, rfl, rfl, rfl, rfl, rfl⟩

theorem copyWords_complete : Claims.CopyWords := by
  intro h f s he d src t
  obtain ⟨x, hfind, hd, hs, ht, hlines, hpos, hfin, hengine⟩ := startCopy_queues s f (hdrTag h) false d src t f.imm.toNat
  refine ⟨exec_cpy_starts he, exec_cpy_misplacedRecord he, exec_cpy_misplacedTarget he, exec_cpy_farTarget he, exec_cpyScale_starts he,
    exec_cpyScale_misplaced he, x, hfind, ?_, ?_, ?_, hlines, hpos, hfin, fun hplaced => ?_⟩
  · rw [hd, BitVec.ofNat_toNat, BitVec.setWidth_eq]
  · rw [hs, BitVec.ofNat_toNat, BitVec.setWidth_eq]
  · rw [ht, BitVec.ofNat_toNat, BitVec.setWidth_eq]
  · have hidle : (s.myCore.copies.any fun y => y.2.engine.isNone) = false := by
      rw [List.any_eq_false]
      intro y hy
      rw [← Option.not_isSome, hplaced y hy]
      decide
    rw [hengine, if_neg (Bool.eq_false_iff.1 hidle)]

/-! ### The engines -/

section
variable {s : State} {c id : Nat} {x : CopyCmd}

theorem exec_copyIntakeDispatch_passes {e : Nat} (hwait : ((s.core c).copies.find? fun y => y.2.engine.isNone) = some (id, x))
    (hfree : (s.core c).freeEngine = some e) :
    exec (.copyIntakeDispatch c) s = .next (s.setCopy c id { x with engine := some e }) := by
  simp only [exec_copyIntakeDispatch, execCopyIntakeDispatch, hwait, hfree, State.setCopy]

theorem exec_copyLineFill_steps (hfind : Sparse.find (s.core c).copies id = some x) (hplaced : x.engine.isSome = true)
    (hfin : x.finished = false) :
    exec (.copyLineFill c id) s = .next ((copyStep s c id x).2.2.setCopy c id (copyStep s c id x).2.1) := by
  have hrun : (x.engine.isNone || x.finished) = false := by rw [← Option.not_isSome, hplaced, hfin]; rfl
  simp only [exec_copyLineFill, execCopyLineFill, hfind, hrun, Bool.false_eq_true, if_false]

/-- A finished command ends, or stands, by whether its writes and those that its release is for have performed. -/
theorem exec_cpyCompletion_finished (hfind : Sparse.find (s.core c).copies id = some x) (hplaced : x.engine.isSome = true)
    (hfin : x.finished = true) :
    exec (.cpyCompletion c id) s = .next (if x.outs = 0 ∧ ¬(x.rel = true ∧ 3 ≤ x.scope.toNat ∧ (s.core c).acks ≠ 0)
      then s.endCopy c id x else s.setCopy c id x) := by
  have hrun : x.engine.isNone = false := by rw [← Option.not_isSome, hplaced]; rfl
  simp only [exec_cpyCompletion, execCpyCompletion, hfind, hrun, hfin, if_true, Bool.false_eq_true, if_false, Bool.true_and,
    Bool.and_eq_true, Bool.not_eq_true', Bool.and_eq_false_iff, decide_eq_true_eq, decide_eq_false_iff_not, not_and_or,
    Bool.not_eq_true, or_assoc]

/-- The end of a command without scale entries is its token, in the owner's register. -/
theorem endCopy_of_no_due (hdue : x.due = []) :
    s.endCopy c id x = (s.setCore c { s.core c with copies := Sparse.del (s.core c).copies id }).complete x.own x.tag
      (fun r => r.op == .copy id) (some (x.token.setWidth 4096)) := by
  simp only [State.endCopy, hdue, List.isEmpty_nil, if_true]

end

theorem copyEvents : Claims.CopyEvents := by
  intro s c id x
  refine ⟨fun e hwait hfree => exec_copyIntakeDispatch_passes hwait hfree, exec_copyLineFill_steps,
    fun hfind hplaced hfin => ⟨fun hheld => ?_, fun houts hrel => ?_, endCopy_of_no_due⟩⟩
  · rw [exec_cpyCompletion_finished hfind hplaced hfin, if_neg]
    rintro ⟨houts, hrel⟩
    exact hheld.elim (fun hpos => hpos.ne' houts) hrel
  · rw [exec_cpyCompletion_finished hfind hplaced hfin, if_pos]
    refine ⟨houts, fun ⟨hx, hscope, hacks⟩ => ?_⟩
    rcases hrel with hrel | hrel | hrel
    · rw [hx] at hrel; cases hrel
    · exact Nat.not_le_of_lt hrel hscope
    · exact hacks hrel

end Machine

/-- Settles O33: the words' traps in their order, the command that they queue, and the engines' events by the state of a command. -/
theorem copyWords : Obligations.CopyWords := ⟨Machine.copyWords_complete, Machine.copyEvents⟩

end Sys2Proof
end

section
/-! SUPPORT. Words of engines: how a task's word comes to its end, and what an E word that a task or a routine issues reads (11 R326 to
R329). -/

namespace Sys2Proof
namespace Machine
open Safety

section
variable {h : Hdr} {f : FmtE} {s t : State} {eff : Eng → State → GRes} (hr : s.inRoutine = none) (he : s.me.enabled h = true)
include hr he

theorem runEng_did (heff : eff (s.me.eng f.wu.toNat) s = .ok t) : runEng h f s eff = did t := by
  rw [runEng_task h f s eff hr he, heff]

theorem runEng_faulted {c : Cause} {x : Word} (heff : eff (s.me.eng f.wu.toNat) s = .fault c x t) :
    runEng h f s eff = faulted c x t := by
  rw [runEng_task h f s eff hr he, heff]

end

@[simp] theorem Slot.eng_wm (l : Slot) (u : Nat) : (l.eng u).wm = u := rfl
@[simp] theorem Slot.eng_routine (l : Slot) (u : Nat) : (l.eng u).routine = false := rfl
@[simp] theorem Slot.eng_cfg (l : Slot) (u : Nat) : (l.eng u).cfg = l.cfg u := rfl
@[simp] theorem Slot.eng_val (l m : Slot) (u : Nat) (x : BitVec 9) : (l.eng u).val m x = readSpec m x := rfl
@[simp] theorem Slot.eng_sreg (l m : Slot) (u : Nat) (x : BitVec 8) : (l.eng u).sreg m x = m.rdS m.level (engIdx x) := rfl
@[simp] theorem Routine.eng_wm (r : Routine) (u : Nat) : (r.eng u).wm = u := rfl
@[simp] theorem Routine.eng_cfg (r : Routine) (u : Nat) : (r.eng u).cfg = r.wmcfg := rfl

/-- A map in which the keys from `o` on have been set. -/
theorem Sparse.get_foldl_set_from {β : Type} [DecidableEq β] (d : β) (f : Nat → β) (o n i : Nat) (m : SMap β) :
    Sparse.get d ((List.range n).foldl (fun m j => Sparse.set d m (o + j) (f j)) m) i =
      if o ≤ i ∧ i < o + n then f (i - o) else Sparse.get d m i := by
  induction n with
  | zero => rw [if_neg (by omega)]; rfl
  | succ n ih =>
    rw [List.range_succ, List.foldl_append, List.foldl_cons, List.foldl_nil, Sparse.get_set, ih]
    rcases lt_trichotomy i (o + n) with hi | rfl | hi
    · rw [if_neg hi.ne]
      exact if_congr (by omega) rfl rfl
    · rw [if_pos rfl, if_pos (by omega), Nat.add_sub_cancel_left]
    · rw [if_neg hi.ne', if_neg (by omega), if_neg (by omega)]

end Machine
end Sys2Proof
end

section
/-! SUPPORT. The digit words: what their products write, that a value of a field reads back from its lane, and that the digits of a
convolution are those of the product (10 R300 to R307; 11 R335, R352, R353). -/

namespace Sys2Proof
namespace Machine
open Safety

/-! ### The words -/

/-- The digit words with their modes; those that add to the accumulator are marked. -/
def digitWords : List ((Hdr → FmtE → Instr) × DigitMode × Bool) :=
  [(Instr.wmulConv, .conv, false), (Instr.wmulCorr, .corr, false), (Instr.wmulLimb, .limb, false),
    (Instr.wmacConv, .conv, true), (Instr.wmacCorr, .corr, true), (Instr.wmacLimb, .limb, true)]

theorem exec_digitWord {p : (Hdr → FmtE → Instr) × DigitMode × Bool} (hp : p ∈ digitWords) (h : Hdr) (f : FmtE) (s : State) :
    exec (p.1 h f) s = runDigits p.2.1 p.2.2 h f s := by
  simp only [digitWords, List.mem_cons, List.not_mem_nil, or_false] at hp
  rcases hp with rfl | rfl | rfl | rfl | rfl | rfl <;> rfl

theorem digitWords_complete : Claims.DigitWords := by
  intro h f s hr he
  dsimp only
  intro p hp
  rw [exec_digitWord hp]
  refine ⟨fun c hd => runEng_did hr he ?_, fun c hd => runEng_did hr he ?_, fun e i hd => runEng_faulted hr he ?_⟩
  · simp only [Slot.eng_wm, Slot.eng_cfg, hd, Bool.false_eq_true, if_false]
  · simp only [Slot.eng_wm, Slot.eng_cfg, hd, if_true]
  · simp only [Slot.eng_wm, Slot.eng_cfg, hd]

theorem routineWordsStep : Claims.RoutineWordsStep := by
  intro h f s c u r hin hrun
  dsimp only
  intro p hp
  rw [exec_digitWord hp, runDigits, runEng_routine h f s _ c u r hin hrun]
  refine ⟨fun co hd => ?_, fun e i hd => ?_⟩
  · simp only [Routine.eng_wm, Routine.eng_cfg, hd, Bool.false_eq_true, if_false]
  · simp only [Routine.eng_wm, Routine.eng_cfg, hd]

/-! ### Lanes of digits -/

/-- A value that keeps to a field of at most 48 bits reads back from its lane. -/
theorem toInt_ofInt_of_field {F : Nat} (hF : F ≤ 48) {x : Int} (hlo : minInt F ≤ x) (hhi : x ≤ maxInt F) :
    (BitVec.ofInt 48 x).toInt = x := by
  have hpow : (2 : Int) ^ (F - 1) ≤ 2 ^ 47 := pow_le_pow_right₀ (by decide) (by omega)
  rw [minInt] at hlo
  rw [maxInt] at hhi
  exact BitVec.toInt_ofInt_eq_self (by decide) (by omega) (by omega)

/-- The accumulator after all its lanes are written. -/
theorem Core.acc_setLanes (c : Core) (r : Nat) (t : Nat → Int) : (c.setLanes r ((List.range 192).map t)).acc =
    (List.range 192).foldl (fun m d => Sparse.set 0 m (192 * r + d) (BitVec.ofInt 48 (t d))) c.acc := by
  have hzip : ((List.range 192).map t).zipIdx = (List.range 192).map fun d => (t d, d) := by
    refine List.ext_getElem (by simp) fun i _ _ => ?_
    simp
  rw [Core.setLanes, hzip, List.foldl_map]

theorem Core.lane48_setLanes_self (c : Core) (r : Nat) (t : Nat → Int) {d : Nat} (hd : d < 192) :
    (c.setLanes r ((List.range 192).map t)).lane48 r d = (BitVec.ofInt 48 (t d)).toInt := by
  rw [Core.lane48, Core.acc_setLanes, Sparse.get_foldl_set_from, if_pos (by omega), Nat.add_sub_cancel_left]

theorem Core.lane48_setLanes_ne (c : Core) {r q : Nat} (t : Nat → Int) {d : Nat} (hd : d < 192) (hq : q ≠ r) :
    (c.setLanes r ((List.range 192).map t)).lane48 q d = c.lane48 q d := by
  rw [Core.lane48, Core.acc_setLanes, Sparse.get_foldl_set_from, if_neg (by omega), Core.lane48]

/-! ### Digit products -/

/-- Digit d of a command, with what its lane held where the command adds to it (10 R303, R304). -/
def digitTotal (c : Core) (m : DigitMode) (mac : Bool) (cfg : BitVec 32) (ed ea eb d : Nat) : Int :=
  (if mac then c.lane48 ed d else 0) +
    digitOf m (c.wElems ea (cfgNa cfg) (cfgE cfg) (cfgAu cfg)) (c.wElems eb (cfgNb cfg) (cfgE cfg) (cfgBu cfg)) d

section
variable {c : Core} {u : Nat} {m : DigitMode} {mac : Bool} {cfg : BitVec 32} {ed ea eb : Nat} (hm : m ≠ .limb)
include hm

/-- Where every digit lies in its field, the digits are the destination's lanes. -/
theorem digitProduct_fits (hfit : ∀ d, d < 192 → minInt (cfgF cfg) ≤ digitTotal c m mac cfg ed ea eb d ∧
      digitTotal c m mac cfg ed ea eb d ≤ maxInt (cfgF cfg)) :
    digitProduct c u m mac cfg ed ea eb = .ok (c.setLanes ed ((List.range 192).map (digitTotal c m mac cfg ed ea eb)), false) := by
  have hnone : ((List.range 192).map (digitTotal c m mac cfg ed ea eb)).findIdx?
      (fun x => decide (x < minInt (cfgF cfg)) || decide (maxInt (cfgF cfg) < x)) = none := by
    rw [List.findIdx?_eq_none_iff]
    intro x hx
    obtain ⟨d, hd, rfl⟩ := List.mem_map.1 hx
    obtain ⟨hlo, hhi⟩ := hfit d (List.mem_range.1 hd)
    simp [hlo, hhi]
  unfold digitTotal at hnone ⊢
  simp only [digitProduct, hm, decide_false, Bool.false_and, Bool.false_eq_true, if_false, hnone]

/-- The lowest digit outside its field faults where the configuration does not saturate. -/
theorem digitProduct_overflow {d : Nat} (hd : d < 192) (hbad : ¬(minInt (cfgF cfg) ≤ digitTotal c m mac cfg ed ea eb d ∧
      digitTotal c m mac cfg ed ea eb d ≤ maxInt (cfgF cfg)))
    (hfit : ∀ k, k < d → minInt (cfgF cfg) ≤ digitTotal c m mac cfg ed ea eb k ∧
      digitTotal c m mac cfg ed ea eb k ≤ maxInt (cfgF cfg)) (hsat : cfgGsat cfg = false) :
    digitProduct c u m mac cfg ed ea eb = .error (.guardOverflow, BitVec.ofNat 64 (d + 256 * u)) := by
  have hsome : ((List.range 192).map (digitTotal c m mac cfg ed ea eb)).findIdx?
      (fun x => decide (x < minInt (cfgF cfg)) || decide (maxInt (cfgF cfg) < x)) = some d := by
    rw [List.findIdx?_eq_some_iff_getElem]
    refine ⟨by simpa using hd, ?_, fun k hk => ?_⟩
    · rw [not_and_or, not_le, not_le] at hbad
      simpa using hbad
    · simpa using hfit k hk
  unfold digitTotal at hsome
  simp only [digitProduct, hm, decide_false, Bool.false_and, Bool.false_eq_true, if_false, hsome, hsat, Bool.not_false, if_true]

end

theorem cfgF_le {cfg : BitVec 32} (h : cfgOk cfg = true) : cfgF cfg ≤ 48 := by
  simp only [cfgOk, Bool.and_eq_true, decide_eq_true_eq] at h
  obtain ⟨⟨⟨-, hF⟩, -⟩, -⟩ := h
  exact hF

theorem digitProducts_land : Claims.DigitProducts := by
  intro c u m mac cfg ed ea eb hcfg hm as bs t fits
  refine ⟨fun hfit => ⟨_, digitProduct_fits hm hfit, fun d hd => ?_, fun r d hd hr => ?_, rfl⟩,
    fun d hd hbad hfit hsat => digitProduct_overflow hm hd hbad hfit hsat⟩
  · obtain ⟨hlo, hhi⟩ := hfit d hd
    rw [Core.lane48_setLanes_self c ed _ hd]
    exact toInt_ofInt_of_field (cfgF_le hcfg) hlo hhi
  · exact Core.lane48_setLanes_ne c _ hd hr

/-! ### The product of two numbers -/

/-- A digit of a convolution as a sum over the pairs that land in it. -/
theorem digitOf_conv_eq_sum (as bs : List Int) (d : Nat) : digitOf .conv as bs d =
    (as.zipIdx.map fun p => (bs.zipIdx.map fun q => if p.2 + q.2 = d then p.1 * q.1 else 0).sum).sum := by
  have hinner (p : Int × Nat) : bs.zipIdx.foldl (fun u q => if p.2 + q.2 = d then u + p.1 * q.1 else u) 0 =
      (bs.zipIdx.map fun q => if p.2 + q.2 = d then p.1 * q.1 else 0).sum := by
    rw [List.sum_eq_foldl, List.foldl_map]
    congr 1
    funext u q
    split
    · rfl
    · rw [Int.add_zero]
  rw [List.sum_eq_foldl, List.foldl_map]
  simp only [← hinner]
  rfl

theorem sum_map_sum_comm {α β : Type} (l : List α) (m : List β) (g : α → β → Int) :
    (l.map fun a => (m.map fun b => g a b).sum).sum = (m.map fun b => (l.map fun a => g a b).sum).sum := by
  simpa using Multiset.sum_map_sum_map (l : Multiset α) (m : Multiset β) (f := g)

/-- What a pair lands in one digit is its product, at that digit's power of the base. -/
theorem sum_landed_pair (x y : Int) {k n : Nat} (hk : k < n) :
    ((List.range n).map fun d => (if k = d then y else 0) * x ^ d).sum = y * x ^ k := by
  change ∑ d ∈ Finset.range n, (if k = d then y else 0) * x ^ d = y * x ^ k
  simp only [ite_mul, zero_mul]
  rw [Finset.sum_ite_eq, if_pos (Finset.mem_range.2 hk)]

theorem digitsMultiply : Claims.DigitsMultiply := by
  intro as bs x has hbs
  simp only [digitOf_conv_eq_sum, ← List.sum_map_mul_right]
  rw [sum_map_sum_comm]
  refine congrArg List.sum (List.map_congr_left fun p hp => ?_)
  rw [sum_map_sum_comm, ← List.sum_map_mul_left]
  refine congrArg List.sum (List.map_congr_left fun q hq => ?_)
  have hi : p.2 < as.length + 0 := List.snd_lt_of_mem_zipIdx hp
  have hj : q.2 < bs.length + 0 := List.snd_lt_of_mem_zipIdx hq
  rw [sum_landed_pair x (p.1 * q.1) (by omega), pow_add]
  ring

end Machine

/-- Settles O43: each word is one digit product, whose lanes read back as its fields are no wider, and the digits at a base are a sum
over the pairs of elements. -/
theorem digitProducts : Obligations.DigitProducts :=
  ⟨Machine.digitWords_complete, Machine.digitProducts_land, Machine.digitsMultiply, Machine.routineWordsStep⟩

end Sys2Proof
end

section
/-! SUPPORT. The OUTER words: the faults of a step in their order, and what a task's step that enters the cells leaves (10 R315 to R319;
11 R336 to R338). -/

namespace Sys2Proof
namespace Machine
open Safety

/-! ### The words -/

/-- The OUTER words; those that clear their tile first are marked, then those that take an entry of a sparse queue. -/
def outerWords : List ((Hdr → FmtE → Instr) × Bool × Bool) :=
  [(Instr.wmulOuter, true, false), (Instr.wmulOuterSp, true, true), (Instr.wmacOuter, false, false), (Instr.wmacOuterSp, false, true)]

theorem exec_outerWord {p : (Hdr → FmtE → Instr) × Bool × Bool} (hp : p ∈ outerWords) (h : Hdr) (f : FmtE) (s : State) :
    exec (p.1 h f) s = runOuter p.2.1 p.2.2 h f s := by
  simp only [outerWords, List.mem_cons, List.not_mem_nil, or_false] at hp
  rcases hp with rfl | rfl | rfl | rfl <;> rfl

/-! ### What a step comes to -/

section
variable {g : Eng} {f : FmtE} {clear sparse : Bool} {s : State}

theorem outerWord_badEntry (hft : ftEntry g f s = none) : outerWord g f clear sparse s = .fault .format 0 s := by
  unfold outerWord
  simp only [hft]

variable {e : FtEnt} (hft : ftEntry g f s = some e)
include hft

theorem outerWord_faultA {c : Cause} {i : Word} (ha : portReady s (Sparse.get {} s.me.ports (2 * g.wm)) e.aBytes = .fault c i) :
    outerWord g f clear sparse s = .fault c i s := by
  unfold outerWord
  simp only [hft, ha]

/-- Port B's fault is the step's where port A has none, whether or not port A has its bytes. -/
theorem outerWord_faultB {c : Cause} {i : Word}
    (ha : ∀ x y, portReady s (Sparse.get {} s.me.ports (2 * g.wm)) e.aBytes ≠ .fault x y)
    (hb : portReady s (Sparse.get {} s.me.ports (2 * g.wm + 1)) (e.bBytes sparse) = .fault c i) :
    outerWord g f clear sparse s = .fault c i s := by
  unfold outerWord
  cases hpa : portReady s (Sparse.get {} s.me.ports (2 * g.wm)) e.aBytes with
  | fault x y => exact absurd hpa (ha x y)
  | ready | empty => simp only [hft, hpa, hb]

variable {ka kb : Bool} {ha hb : Word} {oa ob : Nat}
  (hra : portReady s (Sparse.get {} s.me.ports (2 * g.wm)) e.aBytes = .ready ka ha oa)
  (hrb : portReady s (Sparse.get {} s.me.ports (2 * g.wm + 1)) (e.bBytes sparse) = .ready kb hb ob)
include hra hrb

theorem outerWord_noQueueEntry (htask : g.routine = false) (hs : sparse = true) (hq : Sparse.get [] s.myCore.sq (engIdx f.eb) = []) :
    outerWord g f clear sparse s = .fault .format 0 s := by
  subst hs
  unfold outerWord
  simp only [hft, hra, hrb, hq, htask, List.isEmpty_nil, Bool.and_self, if_true, Bool.false_eq_true, if_false]

theorem outerWord_enters (hq : sparse = true → Sparse.get [] s.myCore.sq (engIdx f.eb) ≠ []) :
    outerWord g f clear sparse s = outerEnter g f e clear sparse s (Sparse.get {} s.me.ports (2 * g.wm))
      (Sparse.get {} s.me.ports (2 * g.wm + 1)) (ka, ha, oa) (kb, hb, ob) := by
  have hentry : (sparse && (Sparse.get [] s.myCore.sq (engIdx f.eb)).isEmpty) = false := by
    rw [Bool.and_eq_false_imp]
    exact fun hs => List.isEmpty_eq_false_iff.2 (hq hs)
  unfold outerWord
  simp only [hft, hra, hrb, hentry, Bool.false_eq_true, if_false]

end

theorem State.setTile_inRoutine (s : State) (n u : Nat) (t : Tile) (x : BitVec 6) : (s.setTile n u t x).inRoutine = s.inRoutine := by
  simp only [State.setTile, State.setMyCore_inRoutine, State.spend]
  split <;> rfl

/-- Only a routine's step is noted. -/
theorem State.noteAdded_task {s : State} (hr : s.inRoutine = none) (n : Nat) : s.noteAdded n = s := by
  simp only [State.noteAdded, hr]

theorem outerWords_complete : Claims.OuterWords := by
  intro h f s hr he
  dsimp only
  intro p hp
  rw [exec_outerWord hp, runOuter]
  refine ⟨fun hft => runEng_faulted hr he (outerWord_badEntry hft), fun e hft => ⟨fun c i ha => ?_, fun c i ha hb => ?_,
    fun ka ha oa kb hb ob hra hrb => ⟨fun hs hq => ?_, fun hq => ⟨fun hops => ?_, fun o hops => ?_⟩⟩⟩⟩
  · exact runEng_faulted hr he (outerWord_faultA hft ha)
  · exact runEng_faulted hr he (outerWord_faultB hft ha hb)
  · exact runEng_faulted hr he (outerWord_noQueueEntry hft hra hrb rfl hs hq)
  · refine runEng_faulted hr he ?_
    rw [outerWord_enters hft hra hrb hq]
    simp only [outerEnter, Slot.eng_wm, Slot.eng_val, hops]
  · refine runEng_did hr he ?_
    rw [outerWord_enters hft hra hrb hq]
    have htask (n u : Nat) (t : Tile) (x : BitVec 6) : (s.setTile n u t x).inRoutine = none := (s.setTile_inRoutine n u t x).trans hr
    simp only [outerEnter, Slot.eng_wm, Slot.eng_val, hops, State.noteAdded_task (htask ..)]

end Machine
end Sys2Proof
end

section
/-! SUPPORT. The EXTR words: the control word, the access and the registers decide what each writes (11 R339 to R342). -/

namespace Sys2Proof
namespace Machine
open Safety

/-! ### Digits and limbs -/

/-- What DIGM, or LIMB, writes of the accumulator, and whether a value was clamped. -/
def extrDigitBytes (limb : Bool) (f : FmtE) (s : State) (d n : Nat) : List Byte × Bool :=
  if limb then s.myCore.limbs (s.me.id.acc0 + engIdx f.ea) d n else s.myCore.digm (s.me.id.acc0 + engIdx f.ea) d n f.ty

theorem extrDigitBytes_digm (f : FmtE) (s : State) (d n : Nat) :
    extrDigitBytes false f s d n = s.myCore.digm (s.me.id.acc0 + engIdx f.ea) d n f.ty := if_neg Bool.false_ne_true

theorem extrDigitBytes_limb (f : FmtE) (s : State) (d n : Nat) :
    extrDigitBytes true f s d n = s.myCore.limbs (s.me.id.acc0 + engIdx f.ea) d n := if_pos rfl

section
variable {h : Hdr} {f : FmtE} {s : State} (hr : s.inRoutine = none) (he : s.me.enabled h = true)
include hr he

theorem exec_extrDigs_did : exec (.extrDigs h f) s = did (s.landNow (engRef f.ed)
    (BitVec.ofInt 64 (s.myCore.lane48 (s.me.id.acc0 + engIdx f.ea) (f.aux.extractLsb' 0 8).toNat))) := by
  rw [exec_extrDigs, execExtrDigs]
  exact runEng_did hr he rfl

theorem runExtrDigits_badControl (limb : Bool) (hctl : digitControl (s.me.rdS s.me.level (engIdx f.eb)) = none) :
    runExtrDigits limb h f s = faulted .format 0 s :=
  runEng_faulted hr he (by simp only [Slot.eng_sreg, hctl])

section
variable {d n : Nat} (hctl : digitControl (s.me.rdS s.me.level (engIdx f.eb)) = some (d, n)) {limb : Bool} {x : List Byte × Bool}
  (hx : extrDigitBytes limb f s d n = x)
include hctl hx

theorem runExtrDigits_did {segs : List Seg} (ha : s.padAccess .store (readSpec s.me f.sa).toNat x.1.length
      (if limb then 4 else WellFormed.tyWidth f.ty / 8) = .ok segs) :
    runExtrDigits limb h f s = did ((s.padWrite (readSpec s.me f.sa).toNat segs x.1).isat f.wu.toNat x.2) := by
  rw [extrDigitBytes] at hx
  exact runEng_did hr he (by simp only [Slot.eng_sreg, Slot.eng_val, Slot.eng_wm, hctl, hx, ha])

theorem runExtrDigits_faulted {c : Cause} (ha : s.padAccess .store (readSpec s.me f.sa).toNat x.1.length
      (if limb then 4 else WellFormed.tyWidth f.ty / 8) = .error c) :
    runExtrDigits limb h f s = faulted c (BitVec.ofNat 64 (readSpec s.me f.sa).toNat) s := by
  rw [extrDigitBytes] at hx
  exact runEng_faulted hr he (by simp only [Slot.eng_sreg, Slot.eng_val, hctl, hx, ha])

end

/-! ### Tiles -/

theorem runExtrTile_badEntry (clr : Bool) (hft : ftEntry (s.me.eng f.wu.toNat) f s = none) :
    runExtrTile clr h f s = faulted .format 0 s :=
  runEng_faulted hr he (by simp only [hft])

section
variable {e : FtEnt} (hft : ftEntry (s.me.eng f.wu.toNat) f s = some e)
include hft

theorem runExtrTile_badControl (clr : Bool) (hctl : e.control (s.me.rdS s.me.level (engIdx f.eb)) = none) :
    runExtrTile clr h f s = faulted .format 0 s :=
  runEng_faulted hr he (by simp only [hft, Slot.eng_sreg, hctl])

variable {row0 nr sr : Nat} (hctl : e.control (s.me.rdS s.me.level (engIdx f.eb)) = some (row0, nr, sr))
include hctl

theorem runExtrTile_faulted (clr : Bool) {c : Cause} {x : Nat}
    (hruns : tileRuns s (readSpec s.me f.sa) sr e.rowBytes (List.range nr) = .error (c, x)) :
    runExtrTile clr h f s = faulted c (BitVec.ofNat 64 x) s :=
  runEng_faulted hr he (by simp only [hft, Slot.eng_sreg, Slot.eng_val, hctl, hruns])

end
end

theorem extractWords_complete : Claims.ExtractWords := by
  intro h f s hr he
  dsimp only
  refine ⟨exec_extrDigs_did hr he, fun hctl => ⟨?_, ?_⟩,
    fun d n hctl => ⟨fun segs ha => ?_, fun c ha => ?_, fun segs ha => ?_, fun c ha => ?_⟩, ?_, fun e row0 nr sr hft hctl => ⟨fun c x hruns => ⟨?_, ?_⟩, fun runs hruns => ⟨?_, ?_⟩⟩⟩
  · exact runExtrDigits_badControl hr he false hctl
  · exact runExtrDigits_badControl hr he true hctl
  · exact runExtrDigits_did hr he hctl (extrDigitBytes_digm f s d n) ha
  · exact runExtrDigits_faulted hr he hctl (extrDigitBytes_digm f s d n) ha
  · exact runExtrDigits_did hr he hctl (extrDigitBytes_limb f s d n) ha
  · exact runExtrDigits_faulted hr he hctl (extrDigitBytes_limb f s d n) ha
  · intro i hi
    rcases List.mem_pair.1 hi with rfl | rfl
    · exact ⟨runExtrTile_badEntry hr he false, fun e hft => runExtrTile_badControl hr he hft false⟩
    · exact ⟨runExtrTile_badEntry hr he true, fun e hft => runExtrTile_badControl hr he hft true⟩
  · exact runExtrTile_faulted hr he hft hctl false hruns
  · exact runExtrTile_faulted hr he hft hctl true hruns
  · rw [exec_extrTile, execExtrTile]
    refine runEng_did hr he ?_
    simp only [hft, Slot.eng_sreg, Slot.eng_val, hctl, hruns, Slot.eng_wm, Bool.false_eq_true, if_false]
  · rw [exec_extrTileClr, execExtrTileClr]
    refine runEng_did hr he ?_
    simp only [hft, Slot.eng_sreg, Slot.eng_val, hctl, hruns, Slot.eng_wm, if_true]

end Machine

/-- Settles O44: a step by its entry, its ports and its operands in the order in which they fault, and an extraction by its control word
and its runs. -/
theorem outerAndExtractWords : Obligations.OuterAndExtractWords := ⟨Machine.outerWords_complete, Machine.extractWords_complete⟩

end Sys2Proof
end

section
/-! SUPPORT. The routine store and calls: what MLDR leaves of one run of memory, that store words read as they were written, and what MCALL
answers (11 R348, R351). -/

namespace Sys2Proof
namespace Machine
open Safety

/-! ### MLDR and MLDR.ENTRIES -/

theorem fld_low (x hi : Nat) : fld x hi 0 = x % 2 ^ (hi + 1) := by rw [fld, pow_zero, Nat.div_one, Nat.sub_zero]

theorem readOwn_myCore (s : State) (g : Seg) : (readOwn s g).2.myCore = s.myCore := by
  unfold readOwn
  split <;> rfl

/-- The routine store may be read from `n` bytes at `a`, and they are one run of this chip, without poison. -/
structure StoreRun (s : State) (a n : Nat) (g : Seg) (s' : State) : Prop where
  aligned : a % 2 = 0
  window : ∃ w, checkWin a n = .ok w ∧ (w.1 = .global ∨ inLocal a = true)
  access : s.access .load a n 2 true = .ok [g] s'
  here : isPeer g = false
  clean : poisonAt s' a [g] = none

/-- One run of this chip lands at once. -/
theorem StoreRun.loadStore {s s' : State} {a n : Nat} {g : Seg} (hg : StoreRun s a n g s') (tag pos : Nat) (words : Bool) :
    loadStore tag a n pos words s =
      let r := readOwn (s'.noteRange a [g]) g
      .ok (r.2.setMyCore (if words then r.2.myCore.landStore r.2.myCore.nextRemote pos r.1 else r.2.myCore.patchEntries pos r.1)) := by
  obtain ⟨haligned, ⟨w, hwin, hin⟩, haccess, hhere, hclean⟩ := hg
  have hperm : (decide (w.1 ≠ .global) && !inLocal a) = false := by
    rcases hin with hglobal | hlocal
    · simp [hglobal]
    · simp [hlocal]
  obtain ⟨loc, len⟩ := g
  unfold Machine.loadStore
  simp only [haligned, ne_eq, not_true_eq_false, if_false, hwin, haccess, hclean]
  rw [if_neg (by simpa using hperm)]
  cases loc with
  | peer => cases hhere
  | oor | denied | scr | sync | flag | ctr | hbm | ext | host => simp only [List.foldl_cons, List.foldl_nil, readOwn_myCore]

section
variable {h : Hdr} {f : FmtE} {s : State} (hr : s.inRoutine = none) (he : s.me.enabled h = true)
include hr he

section
variable {ctl : Nat} (hctl : (s.me.rdS s.me.level (engIdx f.ea)).toNat = ctl)
include hctl

theorem exec_mldr_lands {s' : State} {g : Seg} (hz : fld ctl 15 12 = 0) (hz' : fld ctl 63 29 = 0) (hpos : 1 ≤ fld ctl 28 16)
    (hmax : fld ctl 28 16 ≤ 4096) (hfit : ctl % 2 ^ 12 + fld ctl 28 16 ≤ 4096)
    (hg : StoreRun s (readSpec s.me f.sa).toNat (10 * fld ctl 28 16) g s') :
    exec (.mldr h f) s =
      let r := readOwn (s'.noteRange (readSpec s.me f.sa).toNat [g]) g
      did (r.2.setMyCore (r.2.myCore.landStore r.2.myCore.nextRemote (10 * (ctl % 2 ^ 12)) r.1)) := by
  rw [exec_mldr, execMldr]
  refine runEng_did hr he ?_
  simp only [Slot.eng_sreg, Slot.eng_val, hctl, fld_low]
  rw [if_neg (by simp only [Bool.or_eq_true, decide_eq_true_eq]; omega), hg.loadStore]
  rfl

theorem exec_mldr_badControl
    (hbad : fld ctl 15 12 ≠ 0 ∨ fld ctl 63 29 ≠ 0 ∨ fld ctl 28 16 = 0 ∨ 4096 < ctl % 2 ^ 12 + fld ctl 28 16) :
    exec (.mldr h f) s = faulted .format 0 s := by
  rw [exec_mldr, execMldr]
  refine runEng_faulted hr he ?_
  simp only [Slot.eng_sreg, hctl, fld_low]
  rw [if_pos (by simp only [Bool.or_eq_true, decide_eq_true_eq]; omega)]

end

theorem exec_mldrEntries_lands {s' : State} {g : Seg} (hg : StoreRun s (readSpec s.me f.sa).toNat 512 g s') :
    exec (.mldrEntries h f) s =
      let r := readOwn (s'.noteRange (readSpec s.me f.sa).toNat [g]) g
      did (r.2.setMyCore (r.2.myCore.patchEntries 0 r.1)) := by
  rw [exec_mldrEntries, execMldrEntries]
  refine runEng_did hr he ?_
  rw [Slot.eng_val, hg.loadStore]
  rfl

/-! ### MCALL -/

/-- What a task's call of an entry captures (11 R351). -/
def mcallRoutine (h : Hdr) (f : FmtE) (s : State) (ent : Nat) : Routine :=
  { own := s.owner, rpc := fld ent 11 0, entry := f.aux.extractLsb' 0 8, tag := hdrTag h, token := engRef f.ed,
    wmcfg := s.me.cfg f.wu.toNat, fpc := s.me.fpcNow, steps := 0, callPc := s.me.wpc, kcap := (List.range 6).map s.me.loopIndex,
    mloops := [], mp := (List.range 8).map (Sparse.get 0 s.me.mp ·), acq := f.acq = 1, rel := f.rel = 1, scope := f.scope,
    done := false, order := s.myCore.callOrder, added := [] }

theorem exec_mcall_busy (hpend : (s.myCore.wm f.wu.toNat).pend.isSome = true) :
    exec (.mcall h f) s = did (s.landNow (engRef f.ed) 1) := by
  rw [exec_mcall, execMcall]
  refine runEng_did hr he ?_
  simp only [Slot.eng_wm, hpend, if_true]

section
variable {ent : Nat} (hent : (Sparse.get 0 s.myCore.entries (f.aux.extractLsb' 0 8).toNat).toNat = ent)
  (hpend : (s.myCore.wm f.wu.toNat).pend = none)
include hent hpend

theorem exec_mcall_invalid (hinvalid : fld ent 15 12 ≠ 8) : exec (.mcall h f) s = did (s.landNow (engRef f.ed) 3) := by
  rw [exec_mcall, execMcall]
  refine runEng_did hr he ?_
  simp only [Slot.eng_wm, hpend, hent, Option.isSome_none, Bool.false_eq_true, if_false, hinvalid, ne_eq, not_false_eq_true, if_true]

theorem exec_mcall_calls (hvalid : fld ent 15 12 = 8) : ∃ r : Routine,
    exec (.mcall h f) s = did ((s.setMyCore ((s.myCore.setWm f.wu.toNat
      { s.myCore.wm f.wu.toNat with pend := some r }).startRoutine f.wu.toNat)).await (hdrTag h) (engRef f.ed) (.routine f.wu.toNat)) ∧
    r.own = s.owner ∧ r.rpc = fld ent 11 0 ∧ r.tag = hdrTag h ∧ r.token = engRef f.ed ∧ r.wmcfg = s.me.cfg f.wu.toNat ∧
    r.fpc = s.me.fpcNow ∧ r.steps = 0 ∧ r.callPc = s.me.wpc ∧ r.kcap = (List.range 6).map s.me.loopIndex ∧
    r.mp = (List.range 8).map (Sparse.get 0 s.me.mp ·) ∧ r.mloops = [] ∧ r.done = false := by
  rw [exec_mcall, execMcall]
  refine ⟨mcallRoutine h f s ent, runEng_did hr he ?_, rfl, rfl, rfl, rfl, rfl, rfl, rfl, rfl, rfl, rfl, rfl, rfl⟩
  simp only [Slot.eng_wm, hpend, hent, Option.isSome_none, Bool.false_eq_true, if_false, hvalid, ne_eq, not_true_eq_false]
  rfl

end
end

theorem routineWords_complete : Claims.RoutineWords := by
  intro h f s hr he
  dsimp only
  exact ⟨fun hz hz' hpos hmax hfit w g s' haligned hwin hin haccess hhere hclean =>
      exec_mldr_lands hr he rfl hz hz' hpos hmax hfit ⟨haligned, ⟨w, hwin, hin⟩, haccess, hhere, hclean⟩,
    exec_mldr_badControl hr he rfl,
    fun w g s' haligned hwin hin haccess hhere hclean =>
      exec_mldrEntries_lands hr he ⟨haligned, ⟨w, hwin, hin⟩, haccess, hhere, hclean⟩,
    exec_mcall_busy hr he, exec_mcall_invalid hr he rfl, exec_mcall_calls hr he rfl⟩

/-! ### Words of the store -/

/-- A run of whole words sets each of them. -/
theorem Core.store_patchStore (c : Core) (first : Nat) {n : Nat} {bs : List Byte} (hlen : bs.length = 10 * n) :
    (c.patchStore (10 * first) bs).store = (List.range n).foldl (fun m i =>
      Sparse.set 0 m (first + i) (BitVec.ofNat 80 (natOfBytes ((bs.drop (10 * i)).take 10)))) c.store := by
  cases n with
  | zero => rw [List.length_eq_zero_iff.1 hlen]; rfl
  | succ n =>
    have hne : bs.isEmpty = false := by rw [List.isEmpty_eq_false_iff, ← List.length_pos_iff]; omega
    have hfirst : 10 * first / 10 = first := by omega
    have hcount : (10 * first + bs.length - 1) / 10 - first + 1 = n + 1 := by omega
    have hold : (c.storeBytes first (n + 1)).drop bs.length = [] := by
      refine List.drop_eq_nil_of_le ?_
      simp [Core.storeBytes, List.length_flatMap, bytesOfNat_length]
      omega
    simp only [Core.patchStore, hne, hfirst, hcount, Nat.mul_mod_right, Nat.zero_add, List.take_zero, List.nil_append, hold,
      List.append_nil, Bool.false_eq_true, if_false]

theorem Core.joinWord_nil (c : Core) (id o : Nat) : c.joinWord id o [] = c := rfl

/-- A run of whole words leaves no piece of a word behind. -/
theorem Core.landStore_wholeWords (c : Core) (id first : Nat) {n : Nat} {bs : List Byte} (hlen : bs.length = 10 * n) :
    c.landStore id (10 * first) bs = c.patchStore (10 * first) bs := by
  have hhead : min bs.length ((10 * first + 9) / 10 * 10 - 10 * first) = 0 := by omega
  have hwhole : (bs.length - 0) / 10 * 10 = bs.length := by omega
  simp only [Core.landStore, hhead, hwhole, Nat.add_zero, Nat.zero_add, List.drop_zero, List.take_zero, List.take_length, List.drop_length,
    Core.joinWord_nil]

theorem routineStoreLoads : Claims.RoutineStoreLoads := by
  intro c first n bs hlen
  refine ⟨fun id => c.landStore_wholeWords id first hlen, fun i hi => ?_, fun i hi => ?_⟩
  · rw [Core.store_patchStore c first hlen, Sparse.get_foldl_set_from, if_pos (by omega), Nat.add_sub_cancel_left]
  · rw [Core.store_patchStore c first hlen, Sparse.get_foldl_set_from, if_neg (by omega)]

end Machine
end Sys2Proof
end

section
/-! SUPPORT. Routines in their sequencers: the sequencing words by their conditions, a loop by how many of its iterations have closed, and the
events of a sequencer and its ports (10 R317; 11 R351, R355 to R357). -/

namespace Sys2Proof
namespace Machine
open Safety

/-! ### The sequencing words -/

section
variable {h : Hdr} {f : FmtE} {s : State} {c u : Nat} {r : Routine} (hin : s.inRoutine = some (c, u)) (hrun : s.running c u = some r)
include hin hrun

theorem runSeq_goesOn {r' : Routine} {t : State} {eff : Eng → Routine → State → Except Cause (Routine × State)}
    (heff : eff (r.eng u) r s = .ok (r', t)) : runSeq s eff = .next (t.setRun c u (some r')) := by
  rw [runSeq_routine s eff c u r hin hrun, heff]

theorem runSeq_fails {x : Cause} {eff : Eng → Routine → State → Except Cause (Routine × State)}
    (heff : eff (r.eng u) r s = .error x) : runSeq s eff = .next (s.routineFault c u x) := by
  rw [runSeq_routine s eff c u r hin hrun, heff]

theorem exec_mloop_skips (hbody : f.aux.toNat ≠ 0) (hn : ((r.eng u).val s.me f.sa).setWidth 32 = (0 : BitVec 32)) :
    exec (.mloop h f) s = .next (s.setRun c u (some { r.count with
      mloops := (closeMloops r.rpc r.mloops.reverse).1.reverse,
      rpc := if (closeMloops r.rpc r.mloops.reverse).2 = r.rpc + 1 then r.rpc + 1 + f.aux.toNat
        else (closeMloops r.rpc r.mloops.reverse).2 })) := by
  rw [exec_mloop, execMloop]
  refine runSeq_goesOn hin hrun ?_
  simp only [hbody, if_false, hn, if_true]
  split
  next heq => rw [heq]
  next => rfl

section
variable (hbody : f.aux.toNat ≠ 0) (hn : ((r.eng u).val s.me f.sa).setWidth 32 ≠ (0 : BitVec 32))
include hbody hn

theorem exec_mloop_opens (hroom : r.mloops.length < 4) : exec (.mloop h f) s = .next (s.setRun c u (some { r.count with
    mloops := r.mloops ++ [⟨r.rpc + 1, r.rpc + f.aux.toNat, ((r.eng u).val s.me f.sa).setWidth 32, 0⟩], rpc := r.rpc + 1 })) := by
  rw [exec_mloop, execMloop]
  refine runSeq_goesOn hin hrun ?_
  simp only [hbody, hn, if_false, Nat.not_le.2 hroom]

theorem exec_mloop_tooDeep (hfull : 4 ≤ r.mloops.length) : exec (.mloop h f) s = .next (s.routineFault c u .loopDepth) := by
  rw [exec_mloop, execMloop]
  refine runSeq_fails hin hrun ?_
  simp only [hbody, hn, if_false, hfull, if_true]

end

theorem exec_mloop_emptyBody (hbody : f.aux.toNat = 0) : exec (.mloop h f) s = .next (s.routineFault c u .illegalEncoding) := by
  rw [exec_mloop, execMloop]
  refine runSeq_fails hin hrun ?_
  simp only [hbody, if_true]

theorem exec_mret_returns : exec (.mret h f) s =
    .next ((s.closeAdded u r.added).setRun c u (some { r.count with done := true })) := by
  rw [exec_mret, execMret]
  exact runSeq_goesOn hin hrun rfl

end

/-- Whether MJMP takes its jump, by its mode and the ends of its multiplier's streams; none where no mode is so encoded (11 R356). -/
def mjmpTakes (f : FmtE) (s : State) (u : Nat) : Option Bool :=
  let eos (p : Nat) : Bool := rhEos (Sparse.get {} s.me.ports (2 * u + p)).h
  match f.mode.toNat with
  | 0 => some true | 1 => some (eos 0) | 2 => some (eos 1) | 3 => some (eos 0 || eos 1) | _ => none

/-- What MJMP does by whether it takes its jump. -/
def mjmpEffect (f : FmtE) (r : Routine) (s : State) : Option Bool → Except Cause (Routine × State)
  | none => .error .illegalEncoding
  | some false => .ok (r.next, s)
  | some true =>
    if (r.rpc : Int) + f.aux.toInt < 0 || 4096 ≤ (r.rpc : Int) + f.aux.toInt then .error .illegalOpcode
    else .ok ({ r.count with rpc := ((r.rpc : Int) + f.aux.toInt).toNat }, s)

theorem exec_mjmp_eq_runSeq (h : Hdr) (f : FmtE) (s : State) :
    exec (.mjmp h f) s = runSeq s fun g r s => mjmpEffect f r s (mjmpTakes f s g.wm) := by
  rw [exec_mjmp, execMjmp]
  rfl

section
variable {h : Hdr} {f : FmtE} {s : State} {c u : Nat} {r : Routine} (hin : s.inRoutine = some (c, u)) (hrun : s.running c u = some r)
include hin hrun

theorem exec_mjmp_stays (htake : mjmpTakes f s u = some false) : exec (.mjmp h f) s = .next (s.setRun c u (some r.next)) := by
  rw [exec_mjmp_eq_runSeq]
  exact runSeq_goesOn hin hrun (by rw [Routine.eng_wm, htake, mjmpEffect])

theorem exec_mjmp_jumps (htake : mjmpTakes f s u = some true) (hlo : 0 ≤ (r.rpc : Int) + f.aux.toInt)
    (hhi : (r.rpc : Int) + f.aux.toInt < 4096) :
    exec (.mjmp h f) s = .next (s.setRun c u (some { r.count with rpc := ((r.rpc : Int) + f.aux.toInt).toNat })) := by
  rw [exec_mjmp_eq_runSeq]
  refine runSeq_goesOn hin hrun ?_
  rw [Routine.eng_wm, htake, mjmpEffect, if_neg]
  simp [hlo, hhi]

theorem exec_mjmp_outside (htake : mjmpTakes f s u = some true)
    (hout : (r.rpc : Int) + f.aux.toInt < 0 ∨ 4096 ≤ (r.rpc : Int) + f.aux.toInt) :
    exec (.mjmp h f) s = .next (s.routineFault c u .illegalOpcode) := by
  rw [exec_mjmp_eq_runSeq]
  refine runSeq_fails hin hrun ?_
  rw [Routine.eng_wm, htake, mjmpEffect, if_pos]
  simpa using hout

theorem exec_mjmp_noMode (htake : mjmpTakes f s u = none) : exec (.mjmp h f) s = .next (s.routineFault c u .illegalEncoding) := by
  rw [exec_mjmp_eq_runSeq]
  exact runSeq_fails hin hrun (by rw [Routine.eng_wm, htake, mjmpEffect])

end

/-- Outside the routine store a sequencing word traps. -/
theorem exec_sequencingWord_outside {h : Hdr} {f : FmtE} {s : State} (hr : s.inRoutine = none) {i : Instr}
    (hi : i ∈ [Instr.mloop h f, .mjmp h f, .mret h f]) :
    exec i s = .next (s.takeTrap ⟨.mseqOutside, 0, s.me.wpc⟩ .g s.me.group.pc) := by
  simp only [List.mem_cons, List.not_mem_nil, or_false] at hi
  rcases hi with rfl | rfl | rfl
  · rw [exec_mloop]; exact runSeq_outside s _ hr
  · rw [exec_mjmp]; exact runSeq_outside s _ hr
  · rw [exec_mret]; exact runSeq_outside s _ hr

theorem sequencingWords : Claims.SequencingWords :=
  ⟨fun _ _ _ _ _ _ hin hrun => ⟨exec_mloop_skips hin hrun, exec_mloop_opens hin hrun, exec_mloop_tooDeep hin hrun,
      exec_mloop_emptyBody hin hrun, exec_mjmp_stays hin hrun, exec_mjmp_jumps hin hrun, exec_mjmp_outside hin hrun,
      exec_mjmp_noMode hin hrun, exec_mret_returns hin hrun⟩,
    fun _ _ _ hr _ hi => exec_sequencingWord_outside hr hi⟩

/-! ### A loop of one word -/

/-- The frame's last run but one, and those before it, begin again. -/
theorem Routine.next_again {r : Routine} {n k : BitVec 32} (hr : r.mloops = [⟨r.rpc, r.rpc, n, k⟩]) (hk : k.toNat + 1 < n.toNat) :
    r.next.rpc = r.rpc ∧ r.next.mloops = [⟨r.rpc, r.rpc, n, k + 1⟩] := by
  simp only [Routine.next, hr, List.reverse_singleton, closeMloops, if_true, if_pos hk, and_self]

theorem Routine.next_last {r : Routine} {n k : BitVec 32} (hr : r.mloops = [⟨r.rpc, r.rpc, n, k⟩]) (hk : ¬k.toNat + 1 < n.toNat) :
    r.next.rpc = r.rpc + 1 ∧ r.next.mloops = [] := by
  simp only [Routine.next, hr, List.reverse_singleton, closeMloops, if_true, if_neg hk, List.reverse_nil, and_self]

theorem Routine.iterate_next {r : Routine} {n : BitVec 32} (hr : r.mloops = [⟨r.rpc, r.rpc, n, 0⟩]) {j : Nat} (hj : j < n.toNat) :
    (Routine.next^[j] r).rpc = r.rpc ∧ (Routine.next^[j] r).mloops = [⟨r.rpc, r.rpc, n, BitVec.ofNat 32 j⟩] := by
  induction j with
  | zero => exact ⟨rfl, hr⟩
  | succ j ih =>
    obtain ⟨hpc, hframe⟩ := ih (by omega)
    have hcount : (BitVec.ofNat 32 j).toNat = j := by rw [BitVec.toNat_ofNat]; exact Nat.mod_eq_of_lt (by omega)
    rw [Function.iterate_succ_apply', BitVec.ofNat_add, ← hpc]
    refine Routine.next_again (hpc ▸ hframe) ?_
    rw [hcount]; exact hj

theorem routineLoopRuns : Claims.RoutineLoopRuns := by
  intro r n hn hr
  have hpos : 0 < n.toNat := Nat.pos_of_ne_zero fun h0 => hn (BitVec.eq_of_toNat_eq h0)
  refine ⟨fun j hj => Routine.iterate_next hr hj, ?_⟩
  obtain ⟨hpc, hframe⟩ := Routine.iterate_next hr (Nat.sub_lt hpos Nat.one_pos)
  have hcount : (BitVec.ofNat 32 (n.toNat - 1)).toNat = n.toNat - 1 := by
    rw [BitVec.toNat_ofNat]; exact Nat.mod_eq_of_lt (by omega)
  have hlast := Routine.next_last (hpc ▸ hframe) (by omega)
  rw [← Function.iterate_succ_apply' Routine.next, Nat.succ_eq_add_one, Nat.sub_add_cancel hpos, hpc] at hlast
  exact hlast

/-! ### Events -/

theorem exec_routineStart_starts {s : State} {c u : Nat} {r : Routine} (hidle : ((s.core c).wm u).run = none)
    (hpend : ((s.core c).wm u).pend = some r) (hfirst : (s.core c).earlier r.own r.order = false) (hloaded : (s.core c).loading = 0) :
    exec (.routineStart c u) s =
      .next (s.setCore c ((s.core c).setWm u { (s.core c).wm u with run := some r, pend := none })) := by
  have hstart : (s.core c).canStart u = true := by
    simp only [Core.canStart, hidle, hpend, hfirst, hloaded, Bool.not_false, decide_true, Bool.and_self]
  simp only [exec_routineStart, execRoutineStart, Core.startRoutine, hstart, if_true, hpend]

theorem exec_routineCompletion_ends {s : State} {c u : Nat} {r : Routine} (hrun : s.running c u = some r) (hdone : r.done = true)
    (hrel : r.rel = true → 3 ≤ r.scope.toNat → (s.core c).acks = 0) :
    exec (.routineCompletion c u) s = .next (s.endRoutine c u r (s.token r u 0 0)) := by
  have hfree : (r.rel && decide (3 ≤ r.scope.toNat) && decide ((s.core c).acks ≠ 0)) = false := by
    rw [Bool.and_eq_false_imp, Bool.and_eq_true, decide_eq_true_eq]
    rintro ⟨hr, hscope⟩
    simp [hrel hr hscope]
  simp only [exec_routineCompletion, execRoutineCompletion, hrun, hdone, hfree, Bool.not_true, Bool.or_false, Bool.false_eq_true, if_false]

/-- The line that a held step is to read next. -/
theorem drop_linesOf (o m k : Nat) (hk : k < m) : ∃ rest, ((List.range m).map (· + o)).drop k = (o + k) :: rest := by
  rw [List.drop_eq_getElem_cons (by simpa using hk), List.getElem_map, List.getElem_range, Nat.add_comm]
  exact ⟨_, rfl⟩

theorem sequencerEvents : Claims.SequencerEvents := by
  refine ⟨fun s c u r => exec_routineStart_starts, fun s c u r => exec_routineCompletion_ends,
    fun s c u port r h f e hrun hdone hword hport => ?_⟩
  dsimp only
  rw [exec_streamFetch, execStreamFetch]
  simp only [hrun, hdone, hword, Bool.false_eq_true, if_false]
  generalize ({ s with cur := (r.own.core, r.own.slot) } : State) = t
  intro hft
  simp only [hft]
  generalize Sparse.get {} t.me.ports (2 * u + port) = p
  generalize (if port = 0 then e.aBytes else e.bBytes false) = n
  generalize p.place n = at_
  obtain ⟨skip, x, pos⟩ := at_
  dsimp only
  intro hbound heos hroom hi hst
  obtain ⟨rest, hline⟩ := drop_linesOf (pos / 128) ((pos + n - 1) / 128 - pos / 128 + 1) (p.fetched x pos) (by omega)
  have hgood : (t.myCore.line (t.regionLine (rhFirst x + (pos / 128 + p.fetched x pos))) == lnFull ||
      t.myCore.line (t.regionLine (rhFirst x + (pos / 128 + p.fetched x pos))) == lnEos) = true := by
    simpa only [Bool.or_eq_true, beq_iff_eq] using hst
  simp only [hbound, heos, Nat.not_lt.2 hroom, Bool.not_true, Bool.or_self, decide_false, Bool.false_eq_true, if_false, hline,
    hgood, if_true]

end Machine

/-- Settles O45: one run of memory lands in the store whole, a sequencing word is one change of its routine, and a loop is by induction on
how many of its runs have closed. -/
theorem routineWords : Obligations.RoutineWords :=
  ⟨Machine.routineWords_complete, Machine.routineStoreLoads, Machine.sequencingWords, Machine.routineLoopRuns, Machine.sequencerEvents⟩

end Sys2Proof
end

section
/-! SUPPORT. The words that set engines up and those that fill, clear and move engine registers: each is one effect of its task, by the value
of its operand, the handle that it names, the read of its bytes or the file of its register (11 R333, R334, R343 to R347, R349, R350). -/

namespace Sys2Proof
namespace Machine
open Safety

/-! ### Configurations and offsets -/

theorem setCfg_good {v : BitVec 32} (hv : cfgOk v = true) (g : Eng) (s : State) :
    setCfg g v s = .ok (s.setMe { s.me with wmcfg := Sparse.set 0x2FDF000C s.me.wmcfg g.wm v }) := if_pos hv

theorem setCfg_bad {v : BitVec 32} (hv : cfgOk v = false) (g : Eng) (s : State) : setCfg g v s = .fault .format 0 s :=
  if_neg (Bool.eq_false_iff.1 hv)

theorem scldOfs_inside {x : Word} (hlt : x.toNat < 16384) (hmul : x.toNat % 8 = 0) : scldOfs x = some x.toNat := by
  rw [scldOfs, if_neg]
  simp [hlt, hmul]

theorem scldOfs_outside {x : Word} (hout : 16384 ≤ x.toNat ∨ x.toNat % 8 ≠ 0) : scldOfs x = none := by
  rw [scldOfs, if_pos]
  simpa using hout

/-! ### Reads of scratchpad operands -/

section
variable {s : State} {a n align : Nat} {segs : List Seg} (eff : List Byte → State → GRes)

theorem State.padRead_clean (ha : s.padAccess .load a n align = .ok segs) (hp : poisonAt s a segs = none) :
    s.padRead a n align eff = eff (readSegs s segs) (s.noteRange a segs) := by
  simp only [State.padRead, ha, hp]

theorem State.padRead_poisoned (ha : s.padAccess .load a n align = .ok segs) {x : Nat} (hp : poisonAt s a segs = some x) :
    s.padRead a n align eff = .fault .dataPoison (BitVec.ofNat 64 x) s := by
  simp only [State.padRead, ha, hp]

theorem State.padRead_refused {c : Cause} (ha : s.padAccess .load a n align = .error c) :
    s.padRead a n align eff = .fault c (BitVec.ofNat 64 a) s := by
  simp only [State.padRead, ha]

end

/-! ### Words that set an engine up -/

section
variable {h : Hdr} {f : FmtE} {s : State} (hr : s.inRoutine = none) (he : s.me.enabled h = true)
include hr he

theorem exec_wcfg_sets (hv : cfgOk ((readSpec s.me f.sa).setWidth 32) = true) : exec (.wcfg h f) s = did (s.setMe
    { s.me with wmcfg := Sparse.set 0x2FDF000C s.me.wmcfg f.wu.toNat ((readSpec s.me f.sa).setWidth 32) }) := by
  rw [exec_wcfg, execWcfg]
  exact runEng_did hr he (setCfg_good hv _ s)

theorem exec_wcfg_bad (hv : cfgOk ((readSpec s.me f.sa).setWidth 32) = false) : exec (.wcfg h f) s = faulted .format 0 s := by
  rw [exec_wcfg, execWcfg]
  exact runEng_faulted hr he (setCfg_bad hv _ s)

section
variable {v : BitVec 32} (hguard : (s.me.cfg f.wu.toNat &&& ~~~(0x1FF : BitVec 32)) ||| f.aux.setWidth 32 = v)
include hguard

theorem exec_wcfgEg_sets (hv : cfgOk v = true) : exec (.wcfgEg h f) s =
    did (s.setMe { s.me with wmcfg := Sparse.set 0x2FDF000C s.me.wmcfg f.wu.toNat v }) := by
  subst hguard
  rw [exec_wcfgEg, execWcfgEg]
  exact runEng_did hr he (setCfg_good hv _ s)

theorem exec_wcfgEg_bad (hv : cfgOk v = false) : exec (.wcfgEg h f) s = faulted .format 0 s := by
  subst hguard
  rw [exec_wcfgEg, execWcfgEg]
  exact runEng_faulted hr he (setCfg_bad hv _ s)

end

section
variable {o : Word} (ho : s.me.rdS s.me.level (engIdx f.ea) = o)
include ho

section
variable (hlt : o.toNat < 16384) (hmul : o.toNat % 8 = 0)
include hlt hmul

theorem exec_scld_writes : exec (.scld h f) s = did (s.setMyCore (s.myCore.setWm f.wu.toNat { s.myCore.wm f.wu.toNat with
    scale := Memory.write (s.myCore.wm f.wu.toNat).scale o.toNat (bytesOfNat 8 (readSpec s.me f.sa).toNat) })) := by
  rw [exec_scld, execScld]
  refine runEng_did hr he ?_
  simp only [Slot.eng_sreg, ho, scldOfs_inside hlt hmul, Slot.eng_wm, Slot.eng_val]

theorem exec_scldRd_reads : exec (.scldRd h f) s =
    did (s.landNow (engRef f.ed) (Memory.word (s.myCore.wm f.wu.toNat).scale o.toNat)) := by
  rw [exec_scldRd, execScldRd]
  refine runEng_did hr he ?_
  simp only [Slot.eng_sreg, ho, scldOfs_inside hlt hmul, Slot.eng_wm]

end

section
variable (hout : 16384 ≤ o.toNat ∨ o.toNat % 8 ≠ 0)
include hout

theorem exec_scld_bad : exec (.scld h f) s = faulted .format 0 s := by
  rw [exec_scld, execScld]
  exact runEng_faulted hr he (by simp only [Slot.eng_sreg, ho, scldOfs_outside hout])

theorem exec_scldRd_bad : exec (.scldRd h f) s = faulted .format 0 s := by
  rw [exec_scldRd, execScldRd]
  exact runEng_faulted hr he (by simp only [Slot.eng_sreg, ho, scldOfs_outside hout])

end
end

/-- SBIND to either port, by the handle's role and binding (11 R350). -/
theorem runSbind_binds (port : Nat) {x : Word} (hx : Sparse.get 0 s.myCore.rh (s.me.id.rh0 + engIdx f.ea) = x) (hrole : rhRole x = 2)
    (hbound : rhBound x = true) : runSbind port h f s = did (s.setMe { s.me with
      ports := Sparse.set {} s.me.ports (2 * f.wu.toNat + port) { h := x, idx := engIdx f.ea } }) := by
  refine runEng_did hr he ?_
  simp only [hx, hrole, hbound, ne_eq, not_true_eq_false, decide_false, Bool.not_true, Bool.or_self, Bool.false_eq_true, if_false,
    bindPort, Slot.eng_wm]

theorem runSbind_refused (port : Nat) {x : Word} (hx : Sparse.get 0 s.myCore.rh (s.me.id.rh0 + engIdx f.ea) = x)
    (hbad : rhRole x ≠ 2 ∨ rhBound x = false) : runSbind port h f s = faulted .perm (BitVec.ofNat 64 (engIdx f.ea)) s := by
  have hrefuse : (rhRole x ≠ 2 || !rhBound x) = true := by simpa using hbad
  exact runEng_faulted hr he (by simp only [hx, hrefuse, if_true])

end

theorem engineSetWords_complete : Claims.EngineSetWords := by
  intro h f s hr he
  dsimp only
  refine ⟨exec_wcfg_sets hr he, exec_wcfg_bad hr he, exec_wcfgEg_sets hr he rfl, exec_wcfgEg_bad hr he rfl, ?mpld, ?ftld,
    fun hlt hmul => ⟨exec_scld_writes hr he rfl hlt hmul, exec_scldRd_reads hr he rfl hlt hmul⟩,
    fun hout => ⟨exec_scld_bad hr he rfl hout, exec_scldRd_bad hr he rfl hout⟩, ?wstat, ?wstatClr,
    fun hrole hbound => ⟨runSbind_binds hr he 0 rfl hrole hbound, runSbind_binds hr he 1 rfl hrole hbound⟩,
    fun hbad => ⟨runSbind_refused hr he 0 rfl hbad, runSbind_refused hr he 1 rfl hbad⟩, ?unbind⟩
  case mpld => rw [exec_mpld, execMpld]; exact runEng_did hr he rfl
  case ftld => rw [exec_ftld, execFtld]; exact runEng_did hr he rfl
  case wstat => rw [exec_wstat, execWstat]; exact runEng_did hr he rfl
  case wstatClr => rw [exec_wstatClr, execWstatClr]; exact runEng_did hr he rfl
  case unbind => rw [exec_sbindUnbind, execSbindUnbind]; exact runEng_did hr he rfl

/-! ### Words that fill, clear and move registers -/

/-- The forms of PACK, whether of limbs and whether reversed. -/
def packWords : List ((Hdr → FmtE → Instr) × Bool × Bool) :=
  [(Instr.pack, false, false), (Instr.packRev, false, true), (Instr.packLimb, true, false)]

theorem exec_packWord {p : (Hdr → FmtE → Instr) × Bool × Bool} (hp : p ∈ packWords) (h : Hdr) (f : FmtE) (s : State) :
    exec (p.1 h f) s = runPack p.2.1 p.2.2 h f s := by
  simp only [packWords, List.mem_cons, List.not_mem_nil, or_false] at hp
  rcases hp with rfl | rfl | rfl <;> rfl

/-- The runs that PACK reads (11 R334). -/
def packAccess (limb : Bool) (f : FmtE) (s : State) : Except Cause (List Seg) :=
  let n := (f.aux.extractLsb' 0 7).toNat + 1
  let size := if limb then 2 else WellFormed.tyWidth f.ty / 8
  s.padAccess .load (readSpec s.me f.sa).toNat (if limb then (12 * n + 7) / 8 else n * size) size

section
variable {h : Hdr} {f : FmtE} {s : State} (hr : s.inRoutine = none) (he : s.me.enabled h = true)
include hr he

section
variable (limb rev : Bool) {segs : List Seg}

theorem runPack_fills (ha : packAccess limb f s = .ok segs) (hp : poisonAt s (readSpec s.me f.sa).toNat segs = none) :
    runPack limb rev h f s =
      let t := s.noteRange (readSpec s.me f.sa).toNat segs
      did (t.setMyCore (t.myCore.setW (t.me.id.w0 + engIdx f.ed)
        (packSlots f.ty limb rev ((f.aux.extractLsb' 0 7).toNat + 1) (readSegs s segs)))) :=
  runEng_did hr he (State.padRead_clean _ ha hp)

theorem runPack_poisoned {x : Nat} (ha : packAccess limb f s = .ok segs)
    (hp : poisonAt s (readSpec s.me f.sa).toNat segs = some x) :
    runPack limb rev h f s = faulted .dataPoison (BitVec.ofNat 64 x) s :=
  runEng_faulted hr he (State.padRead_poisoned _ ha hp)

theorem runPack_refused {c : Cause} (ha : packAccess limb f s = .error c) :
    runPack limb rev h f s = faulted c (BitVec.ofNat 64 (readSpec s.me f.sa).toNat) s :=
  runEng_faulted hr he (State.padRead_refused _ ha)

end

section
variable (hfile : engFile f.ed = 0)
include hfile

theorem exec_wclr_w : exec (.wclr h f) s =
    did (s.setMyCore { s.myCore with w := Sparse.clear s.myCore.w (96 * (s.me.id.w0 + engIdx f.ed)) 96 }) := by
  rw [exec_wclr, execWclr]
  exact runEng_did hr he (by simp only [hfile])

theorem exec_wmov_w : exec (.wmov h f) s = did (s.setMyCore (s.myCore.setW (s.me.id.w0 + engIdx f.ed)
    ((List.range 96).map fun k => Sparse.get 0 s.myCore.w (96 * (s.me.id.w0 + engIdx f.ea) + k)))) := by
  rw [exec_wmov, execWmov]
  exact runEng_did hr he (by simp only [hfile])

end

section
variable (hfile : engFile f.ed = 1)
include hfile

theorem exec_wclr_digits : exec (.wclr h f) s =
    did (s.setMyCore { s.myCore with acc := Sparse.clear s.myCore.acc (192 * (s.me.id.acc0 + engIdx f.ed)) 192 }) := by
  rw [exec_wclr, execWclr]
  exact runEng_did hr he (by simp only [hfile])

theorem exec_wmov_digits : exec (.wmov h f) s = did (s.setMyCore (s.myCore.setLanes (s.me.id.acc0 + engIdx f.ed)
    ((List.range 192).map fun d => s.myCore.lane48 (s.me.id.acc0 + engIdx f.ea) d))) := by
  rw [exec_wmov, execWmov]
  exact runEng_did hr he (by simp only [hfile])

end

section
variable (hfile : engFile f.ed = 2)
include hfile

theorem exec_wclr_tile : exec (.wclr h f) s =
    did (s.setMyCore { s.myCore with ta := Sparse.del s.myCore.ta (s.me.id.ta0 + engIdx f.ed) }) := by
  rw [exec_wclr, execWclr]
  exact runEng_did hr he (by simp only [hfile])

/-- The source's groups close first; its sums are then the destination's (11 R343).  The rows are a variable, or the kernel would close
all 96 to see the pair that they come to. -/
theorem exec_wmov_tile {rows : List Nat} (hrows : List.range 96 = rows) : exec (.wmov h f) s =
    let r := (s.tile (s.me.id.ta0 + engIdx f.ea)).closeRows rows 96 s.tileFree
    let t := s.setTile (s.me.id.ta0 + engIdx f.ea) f.wu.toNat r.1 (wsOfFl r.2)
    did (if engIdx f.ed = engIdx f.ea then t
      else t.setTile (s.me.id.ta0 + engIdx f.ed) f.wu.toNat { s := r.1.s, live := r.1.live } 0) := by
  rw [exec_wmov, execWmov, hrows]
  refine runEng_did hr he ?_
  simp only [hfile, Slot.eng_wm]

end

section
variable {m : Nat} (hm : min ((f.aux.extractLsb' 0 4).toNat + 1) (16 - (Sparse.get [] s.myCore.sq (engIdx f.ea)).length) = m)
  {segs : List Seg}
include hm

theorem exec_metaqPush_pushes (hpos : m ≠ 0) (ha : s.padAccess .load (readSpec s.me f.sa).toNat (144 * m) 16 = .ok segs)
    (hp : poisonAt s (readSpec s.me f.sa).toNat segs = none) :
    exec (.metaqPush h f) s =
      let t := s.noteRange (readSpec s.me f.sa).toNat segs
      let new := (List.range m).map fun k => sqOfBits (bitsAt (natOfBytes (readSegs s segs)) (1152 * k) 1152)
      let sq := Sparse.set [] t.myCore.sq (engIdx f.ea) (Sparse.get [] s.myCore.sq (engIdx f.ea) ++ new)
      did ((t.setMyCore { t.myCore with sq := sq }).landNow (engRef f.ed) (BitVec.ofNat 64 m)) := by
  rw [exec_metaqPush, execMetaqPush]
  refine runEng_did hr he ?_
  simp only [hm, hpos, if_false, Slot.eng_val, State.padRead_clean _ ha hp]

theorem exec_metaqPush_full (hzero : m = 0) (ha : s.padAccess .load (readSpec s.me f.sa).toNat 1 16 = .ok segs) :
    exec (.metaqPush h f) s = did (s.landNow (engRef f.ed) 0) := by
  rw [exec_metaqPush, execMetaqPush]
  refine runEng_did hr he ?_
  simp only [hm, hzero, if_true, Slot.eng_val, ha]

end
end

theorem engineMoveWords_complete : Claims.EngineMoveWords := by
  intro h f s hr he
  dsimp only
  refine ⟨fun p hp => ?pack, fun hw => ⟨exec_wclr_w hr he hw, exec_wmov_w hr he hw⟩,
    fun hacc => ⟨exec_wclr_digits hr he hacc, exec_wmov_digits hr he hacc⟩,
    fun hta => ⟨exec_wclr_tile hr he hta, exec_wmov_tile hr he hta rfl⟩, ?clear,
    fun _ => exec_metaqPush_pushes hr he rfl, fun _ => exec_metaqPush_full hr he rfl⟩
  case pack =>
    rw [exec_packWord hp]
    exact ⟨fun _ => runPack_fills hr he p.2.1 p.2.2, fun _ _ => runPack_poisoned hr he p.2.1 p.2.2,
      fun _ => runPack_refused hr he p.2.1 p.2.2⟩
  case clear => rw [exec_metaqClear, execMetaqClear]; exact runEng_did hr he rfl

end Machine

/-- Settles O42: a word that sets an engine up by its value, its offset or its handle, and one that fills, clears or moves a register by
its read or the register's file. -/
theorem engineSetWords : Obligations.EngineSetWords := ⟨Machine.engineSetWords_complete, Machine.engineMoveWords_complete⟩

end Sys2Proof
end

section
/-! SUPPORT. Work entries: QPOST by what refuses it, what it arms, and the entry that fires (12 R378 to R382). -/

namespace Sys2Proof
namespace Machine
open Safety

/-- A test of an entry's watch notes a pod time and nothing else. -/
theorem QEntry.test_frame (s : State) (q : QEntry) :
    (q.test s).bytes = q.bytes ∧ (q.test s).sent = q.sent ∧ (q.test s).own = q.own := by
  unfold QEntry.test
  split <;> exact ⟨rfl, rfl, rfl⟩

/-- A note of an out-of-range address leaves who the task is and where it runs. -/
theorem noteOor_frame (l : Slot) (a : Word) : (l.noteOor a).id = l.id ∧ (l.noteOor a).level = l.level := by
  unfold Slot.noteOor
  split <;> exact ⟨rfl, rfl⟩

theorem owner_setMe_noteOor (s : State) (a : Word) : (s.setMe (s.me.noteOor a)).owner = s.owner := by
  obtain ⟨hid, hlevel⟩ := noteOor_frame s.me a
  simp [State.owner, hid, hlevel]

/-! ### The word -/

theorem exec_qpost_perm {h : Hdr} {f : FmtF} {s : State} (he : s.me.enabled h = true)
    (hp : s.isAugust = false ∨ ((readSpec s.me f.a).toNat % 64 = 0 ∧ inLocal (readSpec s.me f.a).toNat = false)) :
    exec (.qpost h f) s = faulted .perm (readSpec s.me f.a) s := by
  rw [exec_qpost, execQpost, runPlain_enabled _ _ _ he]
  cases haug : s.isAugust with
  | false => simp [ended]
  | true =>
    obtain ⟨ha, hl⟩ := hp.resolve_left (by simp [haug])
    simp [ha, hl, ended]

theorem exec_qpost_misalign {h : Hdr} {f : FmtF} {s : State} (he : s.me.enabled h = true) (haug : s.isAugust = true)
    (ha : (readSpec s.me f.a).toNat % 64 ≠ 0) : exec (.qpost h f) s = faulted .misalign (readSpec s.me f.a) s := by
  rw [exec_qpost, execQpost, runPlain_enabled _ _ _ he]
  simp [haug, ha, ended]

/-- What the word of the August core makes of an entry that it has read from plain memory. -/
theorem exec_qpost_reads {h : Hdr} {f : FmtF} {s s' : State} {segs : List Seg} (he : s.me.enabled h = true) (haug : s.isAugust = true)
    (ha : (readSpec s.me f.a).toNat % 64 = 0) (hl : inLocal (readSpec s.me f.a).toNat = true)
    (hacc : s.access .load (readSpec s.me f.a).toNat 64 64 false = .ok segs s') (hp : segs.all plainSeg = true)
    (hb : poisonAt s' (readSpec s.me f.a).toNat segs = none) :
    let bs := readSegs s' segs
    let bl := s'.block (coreBlock s'.cur.1)
    let t := if qeWatch bs ≠ 0 ∧ s'.blockPlace (qeWatch bs) 8 = .oor then s'.setMe (s'.me.noteOor (BitVec.ofNat 64 (qeWatch bs))) else s'
    ∃ q : QEntry, q.bytes = bs ∧ q.sent = false ∧ q.own = s'.owner ∧
      exec (.qpost h f) s =
        if qeOk bs = false then did (s'.refuse s'.owner 0xC4)
        else if 64 ≤ bl.qtab.length then did (s'.refuse s'.owner 0xC3)
        else did (t.setBlock (coreBlock s'.cur.1) { bl with qtab := Sparse.put bl.qtab bl.nextQ q, nextQ := bl.nextQ + 1 }) := by
  intro bs bl t
  have howner : t.owner = s'.owner := by
    dsimp only [t]
    split
    · exact owner_setMe_noteOor s' _
    · rfl
  refine ⟨QEntry.test t
    { bytes := bs, watch := s'.blockPlace (qeWatch bs) 8, cpl := s'.blockPlace (qeCpl bs) 16, own := t.owner, part := s.me.id.part,
      job := t.jobOf s.me.id.part s.me.id.handle, ready := none, sent := false, late := false, skew := false,
      order := bl.nextQ, handle := s.me.id.handle, scratch := s.me.id.hdr.scratch },
    (QEntry.test_frame t _).1, (QEntry.test_frame t _).2.1, (QEntry.test_frame t _).2.2.trans howner, ?_⟩
  rw [exec_qpost, execQpost, runPlain_enabled _ _ _ he]
  simp only [haug, ha, hl, hacc, hb, noteRange_plain hp, Bool.not_true, Bool.false_eq_true, ne_eq, not_true_eq_false, if_false,
    decide_not, Bool.and_eq_true, Bool.not_eq_eq_eq_not, decide_eq_false_iff_not, decide_eq_true_eq]
  cases hok : qeOk bs with
  | false => rfl
  | true =>
    simp only [Bool.true_eq_false, if_false, bl]
    split <;> rfl

/-! ### Entries that fire -/

theorem qpostEntryFires {s : State} {b i : Nat} {q : QEntry} {t : Nat} (hq : Sparse.find (s.block b).qtab i = some q)
    (hr : q.ready = some t) (hs : q.sent = false) (he : s.earlierReady b q = false) (ht : qeTimed q.bytes = false) :
    exec (.qpostEntryFire b i) s = .next (s.fire b i q false false) := by
  rw [exec_qpostEntryFire, execQpostEntryFire]
  simp [hq, hr, hs, he, ht]

theorem qpostTimedFires {s : State} {b i : Nat} {q : QEntry} {t : Nat} (hq : Sparse.find (s.block b).qtab i = some q)
    (hr : q.ready = some t) (hs : q.sent = false) (he : s.earlierReady b q = false) (ht : qeTimed q.bytes = true)
    (hpast : s.slotEdge q ≤ s.podNow.toNat) :
    exec (.qpostTimedFire b i) s =
      .next (s.fire b i q (decide (s.slotEdge q < t)) (decide (s.slotWidth q < s.estNow.toNat))) := by
  rw [exec_qpostTimedFire, execQpostTimedFire]
  simp [hq, hr, hs, he, ht, hpast]

theorem workEntries_fire : Claims.WorkEntries := by
  refine ⟨fun h f s he => ⟨exec_qpost_perm he, exec_qpost_misalign he⟩, ?_, ?_⟩
  · intro h f s s' segs he haug a ha hl hacc hp hb bs bl
    obtain ⟨q, hbytes, hsent, hown, hexec⟩ := exec_qpost_reads he haug ha hl hacc hp hb
    refine ⟨fun hok => ?_, fun hok hfull => ?_, fun hok hfree => ⟨q, hbytes, hsent, hown, ?_⟩⟩
    · rw [hexec, if_pos hok]
    · rw [hexec, if_neg (by simp [bs, ← hok]), if_pos hfull]
    · rw [hexec, if_neg (by simp [bs, ← hok]), if_neg (Nat.not_le.2 hfree)]
  · intro s b i q t hq hr hs he
    refine ⟨qpostEntryFires hq hr hs he, fun ht => ?_⟩
    intro w t0 hpast
    have hw : s.slotWidth q = w := by
      unfold State.slotWidth
      dsimp only [w] <;> cases s.jobEntry q.job <;> rfl
    have ht0 : s.slotEdge q = t0 := by simp only [State.slotEdge, hw, t0]
    rw [← hw, ← ht0]
    rw [← ht0] at hpast
    clear_value w t0
    exact qpostTimedFires hq hr hs he ht hpast

end Machine

/-- Settles O40: QPOST by its first refusal or what it arms of the entry that it reads, and the two events that fire an entry. -/
theorem workEntries : Obligations.WorkEntries := Machine.workEntries_fire

end Sys2Proof
end

section
/-! SUPPORT. Approximable regions: the words by whether a region is open and has a slot, the pair that a region records, and a batch update
(13 R386 to R397). -/

namespace Sys2Proof
namespace Machine
open Safety

/-! ### APXB -/

/-- An APXB that finds no region open finds the machine as it is (13 R392). -/
theorem apxEntry_closed {s : State} (hopen : apxOpen s.me = false) : s.apxEntry = s := by simp [State.apxEntry, hopen]

theorem exec_apxb_exact {h : Hdr} {f : FmtE} {s : State} (he : s.me.enabled h = true) (hopen : apxOpen s.me = false)
    (hr : s.rslotOf (apxField f) = none) : exec (.apxb h f) s = did (s.openRegion (apxField f) 0 none) := by
  rw [exec_apxb, execApxb, runPlain_enabled _ _ _ he]
  simp only [apxEntry_closed hopen, hr, ended]

/-- The slot of a region once an APXB of it has been counted. -/
def RSlot.begun (r : RSlot) : RSlot := { r with exec := r.exec + 1, state := if r.state = 0 then 1 else r.state }

/-- A slot that has been counted is in use where it was in use. -/
theorem begun_state (r : RSlot) : r.begun.state = 3 ↔ r.state = 3 := by
  show (if r.state = 0 then 1 else r.state) = 3 ↔ r.state = 3
  split <;> omega

theorem exec_apxb_opens {h : Hdr} {f : FmtE} {s : State} {i : Nat} {r : RSlot} (he : s.me.enabled h = true)
    (hopen : apxOpen s.me = false) (hr : s.rslotOf (apxField f) = some (i, r))
    (hrun : r.state ≠ 3 ∨ r.sampled (regionVals s.me r.inreg) = true) :
    exec (.apxb h f) s = did ((s.setRslot i r.begun).openRegion (apxField f) (if r.state = 3 then 1 else 0)
      (some ⟨i, (regionVals s.me r.inreg).map fun (v : BitVec 32) => v.setWidth 64, r.gen⟩)) := by
  rw [exec_apxb, execApxb, runPlain_enabled _ _ _ he]
  simp only [apxEntry_closed hopen, hr]
  have hno : ¬ ((decide (r.begun.state = 3) && !r.sampled (regionVals s.me r.inreg)) = true) := by
    rcases hrun with h3 | hs
    · simp [begun_state, h3]
    · simp [hs]
  have hmode : (if r.begun.state = 3 then 1 else 0) = if r.state = 3 then 1 else 0 := by simp only [begun_state]
  rw [← hmode]
  exact congrArg ended (if_neg hno)

theorem exec_apxb_substitutes {h : Hdr} {f : FmtE} {s : State} {i : Nat} {r : RSlot} (he : s.me.enabled h = true)
    (hopen : apxOpen s.me = false) (hr : s.rslotOf (apxField f) = some (i, r)) (h3 : r.state = 3)
    (hs : r.sampled (regionVals s.me r.inreg) = false) :
    let x := regionVals s.me r.inreg
    let t := ((s.setRslot i { r.begun with subst := r.subst + 1 }).landHeld 64).blurRegion
    let u := t.setMe ((List.zip r.outreg (r.begun.net x)).foldl (fun l (d, v) => writeRef l .t 0xFFFF (v.setWidth 4096) (regionReg d)) t.me)
    exec (.apxb h f) s = did (u.setMe (u.me.setGroup fun g =>
      { g with pc := BitVec.ofNat 32 (u.groupEndAt r.epc + 1) - BitVec.ofNat 32 g.words.length })) := by
  rw [exec_apxb, execApxb, runPlain_enabled _ _ _ he]
  simp only [apxEntry_closed hopen, hr]
  have hyes : (decide (r.begun.state = 3) && !r.sampled (regionVals s.me r.inreg)) = true := by simp [begun_state, h3, hs]
  exact congrArg ended (if_pos hyes)

theorem regionBegins : Claims.RegionBegins := fun _ _ _ _ _ he hopen hr =>
  ⟨fun hrun => exec_apxb_opens he hopen hr hrun, fun h3 hs => exec_apxb_substitutes he hopen hr h3 hs⟩

/-! ### APXE and APXC -/

theorem exec_apxe_closed {h : Hdr} {f : FmtE} {s : State} (he : s.me.enabled h = true) (hopen : apxOpen s.me = false) :
    exec (.apxe h f) s = did s := by
  rw [exec_apxe, execApxe, runPlain_enabled _ _ _ he]
  simp [hopen, ended]

theorem exec_apxc_closed {h : Hdr} {f : FmtE} {s : State} (he : s.me.enabled h = true) (hopen : apxOpen s.me = false) :
    exec (.apxc h f) s = did s := by
  rw [exec_apxc, execApxc, runPlain_enabled _ _ _ he]
  simp [hopen, ended]

theorem exec_apxc_closes {h : Hdr} {f : FmtE} {s : State} (he : s.me.enabled h = true) (hopen : apxOpen s.me = true) :
    exec (.apxc h f) s = did s.closeRegion := by
  rw [exec_apxc, execApxc, runPlain_enabled _ _ _ he]
  simp [hopen, ended]

theorem exec_apxe_spoils {h : Hdr} {f : FmtE} {s : State} (he : s.me.enabled h = true) (hopen : apxOpen s.me = true)
    (hn : apxNo s.me ≠ apxField f) : exec (.apxe h f) s = did s.spoilRegion.closeRegion := by
  rw [exec_apxe, execApxe, runPlain_enabled _ _ _ he]
  simp [hopen, hn, ended]

/-- APXE of the open region where no inputs stand beside it. -/
theorem exec_apxe_plain {h : Hdr} {f : FmtE} {s : State} (he : s.me.enabled h = true) (hopen : apxOpen s.me = true)
    (hn : apxNo s.me = apxField f) (hnone : s.me.apx = none) : exec (.apxe h f) s = did s.closeRegion := by
  rw [exec_apxe, execApxe, runPlain_enabled _ _ _ he]
  simp [hopen, hn, hnone, ended]

section
variable {h : Hdr} {f : FmtE} {s : State} {i : Nat} {r : RSlot} {a : ApxSample}

/-- APXE of a region whose inputs stand beside it: its pair is recorded in the exact mode, and compared in the sampled one. -/
theorem exec_apxe_open (he : s.me.enabled h = true) (hopen : apxOpen s.me = true) (hn : apxNo s.me = apxField f)
    (ha : s.me.apx = some a) (hr : s.rslotOf (apxField f) = some (i, r)) (hi : a.rslot = i) (hg : a.gen = r.gen) :
    let xs := a.inputs.map fun (v : BitVec 64) => (v.setWidth 32 : BitVec 32)
    (apxMode s.me = 0 → (r.state = 1 ∨ r.state = 2) →
      exec (.apxe h f) s = did (s.setRslot i (r.record xs (regionVals s.me r.outreg))).closeRegion) ∧
    (apxMode s.me = 1 → r.state = 3 →
      exec (.apxe h f) s = did (s.setRslot i (r.compare xs (regionVals s.me r.outreg))).closeRegion) := by
  rw [exec_apxe, execApxe, runPlain_enabled _ _ _ he]
  refine ⟨fun hm hst => ?_, fun hm hst => ?_⟩
  · simp [hopen, hn, ha, hr, hi, hg, hm, hst, ended]
  · simp [hopen, hn, ha, hr, hi, hg, hm, hst, ended]

/-! ### APXS -/

theorem exec_apxs_none (he : s.me.enabled h = true) (hr : s.rslotOf (apxField f) = none) :
    exec (.apxsRd h f) s = did (s.landNow (engRef f.ed) 0) ∧ exec (.apxsWr h f) s = did s ∧ exec (.apxsInv h f) s = did s := by
  refine ⟨?_, ?_, ?_⟩
  · rw [exec_apxsRd, execApxsRd, runPlain_enabled _ _ _ he]
    simp only [hr, ended]
  · rw [exec_apxsWr, execApxsWr, runPlain_enabled _ _ _ he]
    simp only [hr, ended]
  · rw [exec_apxsInv, execApxsInv, runPlain_enabled _ _ _ he]
    simp only [hr, ended]

theorem exec_apxsRd_reads (he : s.me.enabled h = true) (hr : s.rslotOf (apxField f) = some (i, r)) :
    exec (.apxsRd h f) s = did (s.landNow (engRef f.ed) (r.reg (apxsNo f))) := by
  rw [exec_apxsRd, execApxsRd, runPlain_enabled _ _ _ he]
  simp only [hr, ended]

theorem exec_apxsInv_invalidates (he : s.me.enabled h = true) (hr : s.rslotOf (apxField f) = some (i, r)) :
    exec (.apxsInv h f) s = did (s.setRslot i r.invalidate) := by
  rw [exec_apxsInv, execApxsInv, runPlain_enabled _ _ _ he]
  simp only [hr, ended]

theorem exec_apxsWr_ctl (he : s.me.enabled h = true) (hr : s.rslotOf (apxField f) = some (i, r)) (hk : apxsNo f = 0) :
    let x := readSpec s.me f.sa
    exec (.apxsWr h f) s = did (s.setRslot i { r with
      samp := x.extractLsb' 16 4, lr := x.extractLsb' 8 5, batch := if x.extractLsb' 4 2 = 0 then r.batch else x.extractLsb' 4 2 }) := by
  rw [exec_apxsWr, execApxsWr, runPlain_enabled _ _ _ he]
  simp only [hr, hk, ended]

theorem exec_apxsWr_thresh (he : s.me.enabled h = true) (hr : s.rslotOf (apxField f) = some (i, r)) (hk : apxsNo f = 1) :
    exec (.apxsWr h f) s = did (s.setRslot i { r with thresh := (readSpec s.me f.sa).setWidth 32 }) := by
  rw [exec_apxsWr, execApxsWr, runPlain_enabled _ _ _ he]
  simp only [hr, hk, ended]

end

theorem regionWords_complete : Claims.RegionWords := fun _ _ _ he =>
  ⟨exec_apxb_exact he, fun hopen => ⟨exec_apxe_closed he hopen, exec_apxc_closed he hopen⟩,
    fun hopen => ⟨exec_apxc_closes he hopen, exec_apxe_spoils he hopen, exec_apxe_plain he hopen⟩,
    fun _ _ _ hopen hn ha hr hi hg => exec_apxe_open he hopen hn ha hr hi hg, exec_apxs_none he,
    fun _ _ hr => ⟨exec_apxsRd_reads he hr, exec_apxsInv_invalidates he hr, exec_apxsWr_ctl he hr, exec_apxsWr_thresh he hr⟩⟩

/-! ### Recorded pairs -/

theorem recordedPairs : Claims.RecordedPairs := by
  intro r x y
  refine ⟨fun hbad => ?_, fun hfull => ?_, fun hfin hroom => ?_⟩
  · rw [RSlot.record, hbad]; rfl
  · simp [RSlot.record, hfull]
  · have hno : ¬ (((x ++ y).any (fun v => !eqxFinite v) || decide (64 ≤ r.buffer.length)) = true) := by
      rw [hfin]; simpa using hroom
    rw [RSlot.record, if_neg hno]
    have hsize : RSlot.batchSize { r with buffer := r.buffer ++ [(x, y)] } = r.batchSize := rfl
    simp only [hsize, List.length_append, List.length_singleton, Bool.and_eq_true, decide_eq_true_eq]
    split
    next hfull => exact ⟨rfl, rfl, fun _ => (if_pos hfull.2).symm⟩
    next hpart => exact ⟨rfl, rfl, fun h1 => by rw [if_neg fun hle => hpart ⟨h1, hle⟩]; exact h1⟩

/-! ### Batch updates -/

theorem windowPut_length (w : List (BitVec 32)) (e : BitVec 32) : (windowPut w e).length ≤ 16 := by
  simp only [windowPut, List.length_drop]
  omega

/-- The compare window holds at most 16 samples, however many join it. -/
theorem foldl_windowPut_length (es : List (BitVec 32)) {w : List (BitVec 32)} (hw : w.length ≤ 16) :
    (es.foldl windowPut w).length ≤ 16 := by
  induction es generalizing w with
  | nil => exact hw
  | cons e r ih => exact ih (windowPut_length w e)

/-- What an update of weights and window makes of a slot: it begins anew, is fitted, or goes on. -/
def RSlot.refit (r : RSlot) (w : SMap (BitVec 32)) (win : List (BitVec 32)) : RSlot :=
  if w.any fun x => !eqxFinite x.2 then { r with state := 1, weights := [], buffer := [], window := [] }
  else
    let r := { r with weights := w, window := win, buffer := r.buffer.drop r.batchSize }
    if r.window.length = 16 && eqxLe r.mean r.thresh then { r with state := 3 } else { r with state := 2 }

/-- Training is an update of weights and window, whose window is the old one with the batch's errors (13 R389, R390). -/
theorem train_refits (r : RSlot) :
    ∃ w, r.train = r.refit w (((r.buffer.take r.batchSize).map r.sampleError).foldl windowPut r.window) := ⟨_, rfl⟩

theorem refit_cases (r : RSlot) (w : SMap (BitVec 32)) (win : List (BitVec 32)) :
    ((r.refit w win).state = 1 ∧ (r.refit w win).weights = [] ∧ (r.refit w win).buffer = []) ∨
      (((r.refit w win).state = 2 ∨ (r.refit w win).state = 3) ∧ (r.refit w win).buffer = r.buffer.drop r.batchSize ∧
        (r.refit w win).window = win ∧ ((r.refit w win).state = 3 → eqxLe (r.refit w win).mean r.thresh = true)) := by
  unfold RSlot.refit
  split
  next => exact .inl ⟨rfl, rfl, rfl⟩
  next =>
    dsimp only
    split
    next hfit => exact .inr ⟨.inr rfl, rfl, rfl, fun _ => (Bool.and_eq_true .. ▸ hfit).2⟩
    next => exact .inr ⟨.inl rfl, rfl, rfl, fun h3 => absurd h3 (by simp)⟩

theorem batchUpdates : Claims.BatchUpdates := by
  refine ⟨fun s b i r hr hst hfull => ?_, fun r => ?_⟩
  · rw [exec_equinoxBatchUpdate, execEquinoxBatchUpdate]
    simp [hr, hst, hfull]
  · obtain ⟨w, ht⟩ := train_refits r
    rw [ht]
    refine (refit_cases r w _).imp_right fun ⟨hst, hbuf, hwin, hfit⟩ => ⟨hst, hbuf, fun hlen => ?_, hfit⟩
    rw [hwin]
    exact foldl_windowPut_length _ hlen

end Machine

/-- Settles O48: an APXB by the slot of its region, the words by whether a region is open, a pair by its values and the buffer's room, and a
batch by the weights and the window that it leaves. -/
theorem regionWords : Obligations.RegionWords :=
  ⟨Machine.regionBegins, Machine.regionWords_complete, Machine.recordedPairs, Machine.batchUpdates⟩

end Sys2Proof
end

section
/-! SUPPORT. Spring and Fall: what the base die makes of the next line, or slot, of a bound stream whose pattern it reaches (16 R418 to
R421). -/

namespace Sys2Proof
namespace Machine
open Safety

/-- What a stretch that went by leaves of a record. -/
theorem past_eq (r : SfRec) (n : Nat) (bad : Bool) :
    r.past n bad =
      let p := { r with pos := r.pos + n, poison := r.poison || bad, waits := none }
      if p.poison then p.setStatus 0x12 else p := rfl

theorem springFills : Claims.SpringFills := by
  intro s t stack n core base handle r segs hr hb hruns hkind hpos sb ofs hline hsegs bad last u p r'
  have hgo : (r.runs && decide (r.kind = 1)) = true := by simp [hruns, hkind]
  have hline' : (s.core core).line (ofs / 128) = lnEmpty := hline
  rw [exec_springFill, execSpringFill]
  simp only [sfKey, hr, hb, hgo, if_neg (Nat.not_le.2 hpos)]
  rw [if_neg (not_not.2 hline'), hsegs]
  by_cases hlast : r.pos + 128 = r.total
  · have h' : last = true := decide_eq_true hlast
    simp only [hlast, u, h', if_true]
    rfl
  · have h' : last = false := decide_eq_false hlast
    simp only [hlast, u, h', if_false]
    rfl

theorem fallDrains : Claims.FallDrains := by
  intro s t stack n core base handle r runs hr hb hruns hkind hpos lines sb first st hst hslots u p r' out
  have hgo : (r.runs && decide (r.kind = 2)) = true := by simp [hruns, hkind]
  have hst' : ¬ (((s.core core).slotStates first lines).any (· == lnEmpty) = true) := Bool.eq_false_iff.1 hst
  rw [exec_fallDrain, execFallDrain]
  simp only [sfKey, hr, hb, hgo, if_neg (Nat.not_le.2 hpos)]
  rw [if_neg hst', hslots]
  rfl

end Machine

/-- Settles O52: a line that is EMPTY is filled by what its runs read, and a slot that is full is drained to its runs; then the record by
what is left of its stream. -/
theorem springAndFall : Obligations.SpringAndFall := ⟨Machine.springFills, Machine.fallDrains⟩

end Sys2Proof
end

section
/-! SUPPORT. Words that a level may not run: what the level refuses, and the trap of a group of one such word (17 R433, R435, R441). -/

namespace Sys2Proof
namespace Machine
open Safety

/-! ### The group's check -/

/-- A word that decodes and breaks no earlier check is refused by its level (06 R195). -/
theorem checkGroup_priv {l : Slot} {w : IWord} {pc : BitVec 32} {i : Instr} (hd : decodeWord w = .ok i) (hp : privBad l.level i = true)
    (hm : mseqWord w = false) (hg : groupBad [i] 0 = false) (hu : ((uses i).any fun u => u.over l.id.hdr l.level) = false)
    (hb : ((uses i).findSome? fun u => match u with | .bar b => if l.id.hdr.nbar ≤ b then some b else none | _ => none) = none) :
    checkGroup l [w] pc = .error (.priv, 0, 0) := by
  simp [checkGroup, firstBad, hd, hp, hm, hg, hu]
  rw [if_neg]
  rintro ⟨u, hmem, hsome⟩
  have hnone := List.findSome?_eq_none_iff.1 hb u hmem
  cases u with
  | bar b => exact Option.not_isSome_iff_eq_none.2 hnone hsome
  | _ => cases hsome

theorem openGroup_refused {s : State} {w : IWord} {c : Cause} {x : Word} (hf : fetchGroup s = .ok [w] s)
    (hc : checkGroup s.me [w] s.me.pc = .error (c, x, 0)) : s.openGroup = .went (s.groupTrap c x s.me.pc) := by
  simp [State.openGroup, hf, hc]

/-! ### What a level refuses -/

/-- A word of a class other than the system class is no word that level T refuses. -/
theorem privBad_t_of_class {i : Instr} (h : cls i ≠ .sys) : privBad .t i = false := by
  simp only [privBad]
  split
  · exact absurd rfl h
  · exact absurd rfl h
  · exact absurd rfl h
  · exact absurd rfl h
  · exact decide_eq_false h

theorem privBad_s_of_class {i : Instr} (h : cls i = .v ∨ cls i = .e) : privBad .s i = true := by
  simp [privBad, h]

/-- A CSR word is level T's where its register is one of the first eight. -/
theorem not_decide_lt_eight (n : Nat) : (!decide (n < 8)) = decide (8 ≤ n) := by
  rw [← decide_not]
  exact decide_eq_decide.2 Nat.not_lt

theorem privilegedWordsTrap_all : Claims.PrivilegedWordsTrap := by
  refine ⟨fun l w pc i _ hd hp hm hg hu hb => ?_, fun h c f => ⟨fun i hi => ?_, fun i hi => ?_⟩, fun i hi => ?_, fun h f i hi => ?_⟩
  · have hcheck := checkGroup_priv (pc := pc) hd hp hm hg hu hb
    exact ⟨hcheck, fun s hs hpc hf => by subst hs hpc; exact openGroup_refused hf hcheck⟩
  · simp only [List.mem_cons, List.not_mem_nil, or_false] at hi
    obtain rfl | rfl | rfl | rfl := hi <;> exact ⟨not_decide_lt_eight _, rfl⟩
  · simp only [List.mem_cons, List.not_mem_nil, or_false] at hi
    obtain rfl | rfl | rfl | rfl | rfl | rfl | rfl | rfl := hi <;> exact ⟨rfl, rfl⟩
  · refine ⟨privBad_s_of_class hi, privBad_t_of_class fun hsys => ?_⟩
    rcases hi with hi | hi <;> rw [hsys] at hi <;> cases hi
  · simp only [List.mem_cons, List.not_mem_nil, or_false] at hi
    obtain rfl | rfl | rfl | rfl | rfl | rfl | rfl | rfl | rfl | rfl := hi <;> exact ⟨rfl, rfl⟩

end Machine

/-- Settles O5: the check of a group of one word comes to PRIV where no earlier one fails, and each level's words by their class or
name. -/
theorem privilegedWordsTrap : Obligations.PrivilegedWordsTrap := Machine.privilegedWordsTrap_all

end Sys2Proof
end

section
/-! SUPPORT. Traps: what the entry of a handler leaves of the slot, what an error record changes, and the end of a task by a trap at level S
(17 R432, R434, R441; 22 R559). -/

namespace Sys2Proof
namespace Machine
open Safety

/-! ### The entry of a handler -/

theorem takeTrap_handler {s : State} {t : Trap} {k : TKind} {tpc : BitVec 32} {hd : Header} (hl : s.me.level ≠ .s)
    (hp : t.cause ≠ .pageNotPresent) (ho : t.cause ≠ .ownership)
    (hh : s.handler s.me.id.part (s.jobOf s.me.id.part s.me.id.handle) = some hd) :
    ∃ l : Slot, s.takeTrap t k tpc = (s.setMe l).setMe { s.me with
      level := .s, sb := {}, pc := hd.entry, grp := none, walk := none, rptResume := false,
      hBase := (s.part s.me.id.part).trapVec + 128, hLen := hd.codeLen, pre := s.me.pre.map fun p => p.stop s.cycle,
      csr := { s.me.csr with trapDefer := k = .f, trapCause := t.cause.code, trapInfo := t.info, trapWpc := t.wpc, trapPc := tpc } } := by
  refine ⟨{ s.me with
    csr := { s.me.csr with trapDefer := k = .f, trapCause := t.cause.code, trapInfo := t.info, trapWpc := t.wpc, trapPc := tpc },
    grp := none, walk := none, rptResume := false, pc := tpc }, ?_⟩
  simp only [State.takeTrap, if_neg hl, hp, ho, hh, decide_false, Bool.or_false, Bool.false_eq_true, if_false]
  rfl

theorem trapEntry_enters : Claims.TrapEntry := by
  intro s t k tpc hd hl hp ho hh
  obtain ⟨l, htrap⟩ := takeTrap_handler (k := k) (tpc := tpc) hl hp ho hh
  rw [htrap]
  exact ⟨kept_trans (kept_setMe s l) (kept_setMe _ _), rfl, State.me_setMe _ _⟩

/-! ### Error records -/

/-- From `s` to `t` the dies and the launches are as they were. -/
structure MarchKept (s t : State) : Prop where
  dies : t.dies = s.dies
  launches : t.launches = s.launches

namespace MarchKept

theorem refl (s : State) : MarchKept s s := ⟨rfl, rfl⟩

theorem trans {s t u : State} (h : MarchKept s t) (h' : MarchKept t u) : MarchKept s u :=
  ⟨h'.dies.trans h.dies, h'.launches.trans h.launches⟩

theorem wrHbm (s : State) (a : Nat) (bs : List Byte) : MarchKept s (s.wrHbm a bs) := by
  unfold State.wrHbm
  split <;> exact ⟨rfl, rfl⟩

theorem wrOpen (s : State) (a : Nat) (bs : List Byte) : MarchKept s (s.wrOpen a bs) := by
  unfold State.wrOpen
  split
  · exact wrHbm s a bs
  · exact List.foldlRecOn (motive := MarchKept s) _ _ (.refl s) fun t ht _ _ => ht.trans ⟨rfl, rfl⟩

theorem wrInter (s : State) (part a : Nat) (bs : List Byte) : MarchKept s (s.wrInter part a bs) := by
  unfold State.wrInter
  split
  · exact .refl s
  · split
    · exact wrOpen s _ bs
    · exact .refl s

theorem signal (s : State) (part : Nat) : MarchKept s (s.signal part) := by
  unfold State.signal
  split <;> exact ⟨rfl, rfl⟩

theorem errRecord (s : State) (part : Option Nat) (unit sev code loc : Nat) (addr : Word) :
    MarchKept s (s.errRecord part unit sev code loc addr) := by
  unfold State.errRecord
  dsimp only
  split
  · exact ⟨rfl, rfl⟩
  · refine trans ?_ (signal _ _)
    split
    · exact .refl s
    · exact (wrInter s _ _ _).trans ⟨rfl, rfl⟩

end MarchKept

theorem errBytes_length (s : State) (unit sev code loc : Nat) (addr : Word) : (errBytes s unit sev code loc addr).length = 32 := by
  simp only [errBytes, List.length_append, bytesOfNat_length]

theorem signal_hbm (s : State) (part : Nat) : (s.signal part).hbm = s.hbm := by unfold State.signal; split <;> rfl
theorem signal_parts (s : State) (part : Nat) : (s.signal part).parts = s.parts := by unfold State.signal; split <;> rfl

/-- A partition without a log gets the signal alone. -/
theorem errRecord_unlogged {s : State} {p unit sev code loc : Nat} {addr : Word} (hcnt : (s.part p).errCnt = 0) :
    s.errRecord (some p) unit sev code loc addr = s.signal p := by
  simp only [State.errRecord]
  rw [if_pos hcnt]

/-- The record of an error in a partition's log (22 R559). -/
theorem errRecord_written {s : State} {p q : Nat} {unit sev code loc : Nat} {addr : Word} (hcnt : (s.part p).errCnt ≠ 0)
    (hq : interAddr s p ((s.part p).errBase.toNat + 32 * ((s.part p).errIdx % (s.part p).errCnt.toNat)) = .ok q)
    (hown : s.unitOwner (q / 2 ^ 30) = some p) (hfroz : s.unitFrozen (q / 2 ^ 30) = false)
    (hopen : s.frozenBy q (errBytes s unit sev code loc (if (s.part p).dbgPol &&& 3 = 3 then addr else 0)) = []) :
    s.errRecord (some p) unit sev code loc addr =
      ((s.wrHbm q (errBytes s unit sev code loc (if (s.part p).dbgPol &&& 3 = 3 then addr else 0))).setPart p
        { s.part p with errIdx := (s.part p).errIdx + 1 }).signal p := by
  have hpart (bs : List Byte) : (s.wrHbm q bs).part p = s.part p := by simp only [State.part, wrHbm_parts]
  simp only [State.errRecord, if_neg hcnt, State.wrInter, hq, hown, hfroz, State.wrOpen, decide_eq_true_eq, decide_true, Bool.not_false,
    Bool.and_self, if_true, hopen, hpart]

/-! ### A trap at level S -/

/-- The record of a slot's task is that of its number, wherever the slot's other fields went. -/
theorem slotRec_congr {s t : State} {c k : Nat} (hdies : t.dies = s.dies) (hseq : (t.slot c k).id.seq = (s.slot c k).id.seq) :
    t.slotRec c k = s.slotRec c k := by
  simp only [State.slotRec, State.recBySeq, State.findRec, hdies, hseq]

/-- The task's slot keeps its identity as its routines leave it for a stand-in (17 R455). -/
theorem leaveRoutines_id (s : State) (c k : Nat) : ((s.leaveRoutines c k).slot c k).id = (s.slot c k).id := by
  simp only [State.leaveRoutines]
  split
  · rfl
  · rw [State.slot_setSlot]
    split
    · rfl
    · rw [State.slot, State.core_setCore_self]; rfl

theorem leaveRoutines_dies (s : State) (c k : Nat) : (s.leaveRoutines c k).dies = s.dies := by
  simp only [State.leaveRoutines]
  split <;> rfl

theorem dropScales_dies (s : State) (q : Nat) : (s.dropScales q).dies = s.dies := by unfold State.dropScales; split <;> rfl
theorem dropScales_hbm (s : State) (q : Nat) : (s.dropScales q).hbm = s.hbm := by unfold State.dropScales; split <;> rfl

theorem memberGone_dies (s : State) (part handle : Nat) (coord : BitVec 32) (member isDone : Bool) :
    (s.memberGone part handle coord member isDone).dies = s.dies := by
  unfold State.memberGone
  dsimp only
  split <;> rfl
theorem memberGone_hbm (s : State) (part handle : Nat) (coord : BitVec 32) (member isDone : Bool) :
    (s.memberGone part handle coord member isDone).hbm = s.hbm := by
  unfold State.memberGone
  dsimp only
  split <;> rfl

/-- The slot of a task that has ended is EMPTY, whatever routines it left. -/
theorem endTask_empty (s : State) (c k : Nat) (st : TState) : ((s.endTask c k st).slot c k).st = .empty := by
  unfold State.endTask
  dsimp only
  rw [(SlotsKept.memberGone _ _ _ _ _ _).slot]
  split
  · rw [(SlotsKept.dropScales _ _).slot, State.clearSlot, State.slot_setSlot_self]
  · rw [State.slot_setSlot_self]

/-- March lets go of a record: its cell is free again, and it stands on the die no more. -/
def State.dropRec (s : State) (d : Nat) (r : TRec) : State :=
  let s := match r.cell with | some i => s.freeCellOf d r.part i | none => s
  s.setDie d { s.die d with recs := (s.die d).recs.filter fun y => y.seq ≠ r.seq }

theorem dropRec_hbm (s : State) (d : Nat) (r : TRec) : (s.dropRec d r).hbm = s.hbm := by
  unfold State.dropRec
  cases r.cell <;> rfl

theorem dropRec_gone (s : State) (d : Nat) (r : TRec) : ∀ y ∈ ((s.dropRec d r).die d).recs, y.seq ≠ r.seq := by
  intro y hy
  rw [State.dropRec, State.die_setDie_self] at hy
  simpa using (List.mem_filter.1 hy).2

/-- What becomes of a record as its task ends: it is exact in memory, and March holds it no more. -/
theorem endTask_record {s : State} {c k d : Nat} {r : TRec} (st : TState) (hr : s.slotRec c k = some (d, r)) :
    let t := ((s.leaveRoutines c k).exactRec r st).dropRec d r
    (s.endTask c k st).dies = t.dies ∧ (s.endTask c k st).hbm = t.hbm := by
  have hr' : (s.leaveRoutines c k).slotRec c k = some (d, r) :=
    (slotRec_congr (leaveRoutines_dies s c k) (congrArg TaskId.seq (leaveRoutines_id s c k))).trans hr
  unfold State.endTask
  simp only [hr', memberGone_dies, memberGone_hbm]
  split
  · rw [dropScales_dies, dropScales_hbm]; exact ⟨rfl, rfl⟩
  · simp only [State.setSlot_dies, State.setSlot_hbm, dropScales_dies, dropScales_hbm]; exact ⟨rfl, rfl⟩

/-- A trap at level S is recorded, and its task ends in ERROR. -/
theorem takeTrap_double {s : State} (t : Trap) (k : TKind) (tpc : BitVec 32) (hl : s.me.level = .s) :
    s.takeTrap t k tpc =
      ((s.errRecord (some s.me.id.part) 1 1 6 s.cur.1 ((t.wpc.setWidth 64 <<< 32) ||| t.cause.code.setWidth 64)).launchErr s.me.id.part
        s.me.id.handle 1).endTask s.cur.1 s.cur.2 .error := by
  have hkept := TasksKept.errRecord s (some s.me.id.part) 1 1 6 s.cur.1 ((t.wpc.setWidth 64 <<< 32) ||| t.cause.code.setWidth 64)
  simp only [State.takeTrap, hl, if_true, State.doubleTrap, State.failTask, hkept.cur, hkept.slot]
  rfl

theorem doubleTrap_ends : Claims.DoubleTrap := by
  intro s t k tpc hl p pa info bs u v e
  have he : e = v.endTask s.cur.1 s.cur.2 .error := takeTrap_double t k tpc hl
  have hmarch : MarchKept s u := MarchKept.errRecord s (some p) 1 1 6 s.cur.1 info
  refine ⟨fun hcnt => ?_, fun q hcnt hq hown hfroz hopen => ?_, ?_, he, ?_, fun d r hr => ?_⟩
  · exact errRecord_unlogged hcnt
  · have hu : u = ((s.wrHbm q bs).setPart p { pa with errIdx := pa.errIdx + 1 }).signal p := errRecord_written hcnt hq hown hfroz hopen
    refine ⟨?_, ?_, hu⟩
    · have hlen : bs.length = 32 := errBytes_length ..
      rw [hu, signal_hbm, State.setPart_hbm, wrHbm_hbm, ← hlen, Memory.read_write_same]
    · rw [hu, State.part, signal_parts]
      exact congrArg Partition.errIdx (State.part_setPart_self _ _ _)
  · show u.launches.map _ = _
    simp only [hmarch.launches, Bool.and_eq_true, decide_eq_true_eq, p]
  · rw [he]; exact endTask_empty v _ _ _
  · have hkept := TasksKept.errRecord s (some p) 1 1 6 s.cur.1 info
    have hr' : v.slotRec s.cur.1 s.cur.2 = some (d, r) :=
      (slotRec_congr hmarch.dies (congrArg (fun l : Slot => l.id.seq) (hkept.slot _ _))).trans hr
    obtain ⟨hdies, hhbm⟩ := endTask_record .error hr'
    refine ⟨?_, ?_, ?_⟩
    · rw [he, State.die, hdies]
      exact dropRec_gone _ d r
    · rw [he, hhbm, dropRec_hbm]; rfl
    · simp only [recHdr, TState.code]
      split <;> omega

end Machine

/-- Settles O18: a trap at level T sets the slot twice, and one at level S is a record of the error and the end of the task. -/
theorem trapEntry : Obligations.TrapEntry := ⟨Machine.trapEntry_enters, Machine.doubleTrap_ends⟩

end Sys2Proof
end

section
/-! SUPPORT. The return from a handler: what it leaves of the slot, and the group that is issued again (17 R432, R446). -/

namespace Sys2Proof
namespace Machine
open Safety

/-- The group of the replay buffer, at its word `j`. -/
def Slot.replayGroup (l : Slot) (j : Nat) : Group :=
  { pc := l.rpl.leadPc, words := l.rpl.words, perf := l.rpl.perf, reissue := true, caps := l.rpl.caps, idx := j,
    target := if l.rpl.taken then some l.csr.rplNext else none, point := l.rpl.point, bubble := groupBubble l.rpl.words }

theorem resumeAt_replays {l : Slot} (pc : BitVec 32) {j : Nat} {w : IWord} {r : List (Nat × IWord)} (hv : l.rpl.valid = true)
    (hleft : l.rpl.left = (j, w) :: r) :
    l.resumeAt pc = { l with pc := l.rpl.leadPc, grp := some (l.replayGroup j) } := by
  simp only [Slot.resumeAt, hv, hleft, if_true, Slot.replayGroup]

/-- Where no group is to be issued again and no repeat is left, issue goes on at the PC. -/
theorem resumeAt_goes_on {l : Slot} (pc : BitVec 32) (hv : l.rpl.valid = false) (hrep : l.csr.rptrem = 0) :
    l.resumeAt pc = { l with grp := none, pc := pc, rptResume := false } := by
  simp [Slot.resumeAt, hv, hrep]

/-- A handler that has left nothing in flight and no tag hands nothing over. -/
theorem handOver_of_none {l : Slot} (hfl : l.sb.inflight = []) (htags : l.sb.tags = []) :
    l.handOver = { l with sb := { l.sb with inflight := [], tags := [] } } := by
  simp only [Slot.handOver, hfl, htags, List.filter_nil, List.map_nil, List.append_nil, List.foldl_nil]

/-- The slot at level T again, before issue goes on: a pre-emption request counts on where a frame cell is free (18 R470). -/
def State.returned (s : State) : Slot :=
  { s.me.handOver with
    level := .t, pre := s.me.pre.map fun p => if s.hasCell s.cur.1 s.me.id.part then p.go s.cycle else p }

theorem rftReturn_resumes {s : State} (hheld : s.me.csr.unhold = none) (hends : s.me.ends = .next) (hwait : s.me.wait = none) :
    s.rftReturn = s.setMe (s.returned.resumeAt s.me.csr.trapPc) := by
  have hcsr : s.me.handOver.csr = s.me.csr := rfl
  have hends' : s.me.handOver.ends = .next := hends
  have hwait' : s.me.handOver.wait = none := hwait
  simp only [State.rftReturn, State.returned, hcsr, hheld, hends', hwait', ne_eq, not_true_eq_false, if_false, Option.isSome_none,
    Bool.false_eq_true]

theorem returnFromTrap : Claims.ReturnFromTrap := by
  intro s hheld hv hrep hwait hends
  have hgo : s.returned.resumeAt s.me.csr.trapPc = { s.returned with grp := none, pc := s.me.csr.trapPc, rptResume := false } :=
    resumeAt_goes_on _ hv hrep
  rw [rftReturn_resumes hheld hends hwait, hgo]
  exact ⟨kept_setMe s _, rfl, State.me_setMe s _, handOver_of_none⟩

theorem replayedGroup : Claims.ReplayedGroup := by
  intro l pc j w r hv hleft
  rw [resumeAt_replays pc hv hleft]
  exact ⟨_, rfl, rfl, rfl, rfl, rfl, rfl, rfl⟩

end Machine

/-- Settles O19: RFT is one update of its slot, and a group in the replay buffer opens at its first word that is left. -/
theorem trapReturn : Obligations.TrapReturn := ⟨Machine.returnFromTrap, Machine.replayedGroup⟩

end Sys2Proof
end

section
/-! SUPPORT. Control registers: the CSR words at a level that reaches their register and at one that does not, what a number reads, and what
a write leaves to read (17 R435 to R437; 19 R493). -/

namespace Sys2Proof
namespace Machine
open Safety

/-! ### The words -/

section
variable {h : Hdr} {f : FmtC} {s : State}

theorem exec_csrRd_reads (hopen : csrOpen f.csrn s.me.level = true) (he : s.me.enabled h = true) :
    exec (.csrRd h f) s = did (s.landNow (dstRef f.dst) (s.csrGet f.csrn.toNat)) := by
  rw [exec_csrRd, execCsrRd, runSys_legal _ _ _ _ hopen he]; rfl

/-- A CSR write stands in the group until the end of its cycle. -/
theorem runCsr_writes (v : Word → Word → Word) (hopen : csrOpen f.csrn s.me.level = true) (he : s.me.enabled h = true) :
    runCsr h f s v = did (s.setMe (s.me.setGroup fun g =>
      { g with csrs := g.csrs ++ [(f.csrn.toNat, v (s.csrGet f.csrn.toNat) (readSpec s.me f.a))] })) := by
  rw [runCsr, runSys_legal _ _ _ _ hopen he]; rfl

theorem csrWords_refused (hopen : csrOpen f.csrn s.me.level = false) :
    ∀ i ∈ [Instr.csrRd h f, .csrWr h f, .csrSet h f, .csrClr h f], exec i s = .next (s.takeTrap ⟨.priv, 0, s.me.wpc⟩ .g s.me.group.pc) := by
  intro i hi
  simp only [List.mem_cons, List.not_mem_nil, or_false] at hi
  obtain rfl | rfl | rfl | rfl := hi
  · exact runSys_refused h s _ _ hopen
  · exact runSys_refused h s _ _ hopen
  · exact runSys_refused h s _ _ hopen
  · exact runSys_refused h s _ _ hopen

end

theorem csrWords_complete : Claims.CsrWords := by
  intro h f s n a put
  refine ⟨fun hopen he => ⟨exec_csrRd_reads hopen he, ?_, ?_, ?_⟩, csrWords_refused⟩
  · exact runCsr_writes (fun _ x => x) hopen he
  · exact runCsr_writes (fun o x => o ||| x) hopen he
  · exact runCsr_writes (fun o x => o &&& ~~~x) hopen he

/-! ### What numbers read -/

theorem csrReads : Claims.CsrReads := by
  intro s l p
  refine ⟨fun hl => ?_, fun hl => ?_, fun hl => ?_, rfl, rfl, rfl, rfl, rfl, rfl, rfl, rfl, rfl, rfl, rfl, rfl, rfl, rfl⟩
  · simp only [State.csrGet, show s.me.level = .t from hl]
  · simp only [State.csrGet, show s.me.level = .s from hl]
  · simp only [State.csrGet, show s.me.level = .f from hl]

/-! ### What writes leave -/

/-- A write of FPC is to the bank of the slot's level. -/
theorem csrPut_fpc (s : State) (x : Word) : (s.csrPut 0 x).csrGet 0 = (x.setWidth 32 &&& fpcMask).setWidth 64 := by
  have hme : (s.csrPut 0 x).me = s.me.setBankOf s.me.level { s.me.bank with fpc := x.setWidth 32 &&& fpcMask } := State.me_setMe _ _
  show (s.csrPut 0 x).me.bank.fpc.setWidth 64 = _
  rw [hme, bank_eq, setBankOf_level, setBankOf_bank]

/-- A write of a register of the slot's own is read back from its field. -/
theorem csrGet_setMe_csr (s : State) (c : Csrs) :
    (s.setMe { s.me with csr := c }).csrGet 2 = c.oorAddr ∧ (s.setMe { s.me with csr := c }).csrGet 3 = c.rptrem.setWidth 64 ∧
    (s.setMe { s.me with csr := c }).csrGet 0x41 = c.trapPc.setWidth 64 ∧ (s.setMe { s.me with csr := c }).csrGet 0x42 = c.trapInfo := by
  have hme : (s.setMe { s.me with csr := c }).me.csr = c := by rw [State.me_setMe]
  exact ⟨congrArg Csrs.oorAddr hme, congrArg (fun c : Csrs => c.rptrem.setWidth 64) hme,
    congrArg (fun c : Csrs => c.trapPc.setWidth 64) hme, congrArg Csrs.trapInfo hme⟩

/-- A write of a register of the slot's partition is read back from its field. -/
theorem csrGet_setPart (s : State) (p : Partition) :
    let t := s.setPart s.me.id.part p
    t.csrGet 0x44 = p.trapVec ∧ t.csrGet 0x101 = p.ptBase ∧ t.csrGet 0x102 = p.ptCtl ∧
    t.csrGet 0x100 = ((p.incarn.setWidth 64 <<< 32) ||| BitVec.ofNat 64 (s.me.id.part % 8)) ∧ t.csrGet 0x110 = p.dbgPol := by
  intro t
  have hp : t.part t.me.id.part = p := State.part_setPart_self s _ p
  exact ⟨congrArg Partition.trapVec hp, congrArg Partition.ptBase hp, congrArg Partition.ptCtl hp,
    congrArg (fun q : Partition => (q.incarn.setWidth 64 <<< 32) ||| BitVec.ofNat 64 (s.me.id.part % 8)) hp, congrArg Partition.dbgPol hp⟩

/-- The incarnation field keeps the upper half of the word written. -/
theorem incarn_field (x : Word) : ((x >>> 32).setWidth 32).setWidth 64 <<< 32 = x >>> 32 <<< 32 := by
  ext i hi
  have hlow : i - 32 < 32 := by omega
  simp [hlow]

theorem csrPut_readOnly (s : State) (x : Word) : ∀ n ∈ [5, 6, 7, 0x43, 0x46, 0x47, 0x48], s.csrPut n x = s := by
  intro n hn
  simp only [List.mem_cons, List.not_mem_nil, or_false] at hn
  obtain rfl | rfl | rfl | rfl | rfl | rfl | rfl := hn <;> rfl

theorem csrWrites : Claims.CsrWrites := by
  intro s x
  refine ⟨csrPut_fpc s x, (csrGet_setMe_csr s _).1, (csrGet_setMe_csr s _).2.2.1, (csrGet_setMe_csr s _).2.2.2, (csrGet_setPart s _).1,
    (csrGet_setPart s _).2.1, (csrGet_setPart s _).2.2.1, csrPut_readOnly s x, fun ht => ⟨if_pos ht, if_pos ht⟩, fun ht => ?_,
    fun hf => ⟨if_neg hf, if_neg hf⟩, fun hf => ⟨?_, ?_⟩⟩
  · have hput : s.csrPut 3 x = s.setMe { s.me with csr := { s.me.csr with rptrem := x.setWidth 7 } } := if_neg ht
    rw [hput]
    exact (csrGet_setMe_csr s _).2.1
  · have hput : s.csrPut 0x100 x = s.setPart s.me.id.part { s.part s.me.id.part with incarn := (x >>> 32).setWidth 32 } := if_pos hf
    rw [hput, (csrGet_setPart s _).2.2.2.1, incarn_field]
  · have hput : s.csrPut 0x110 x = s.setPart s.me.id.part { s.part s.me.id.part with dbgPol := x &&& 0xFFFFFFFF0000003F } := if_pos hf
    rw [hput, (csrGet_setPart s _).2.2.2.2]

end Machine

/-- Settles O46: the words through the gate of their level, and each register by the field that its number names. -/
theorem csrWords : Obligations.CsrWords := ⟨Machine.csrWords_complete, Machine.csrReads, Machine.csrWrites⟩

end Sys2Proof
end

section
/-! SUPPORT. System words: what the levels reach, the translations that a TLBI leaves, the statuses of CTX, and the end of a walk (17 R433,
R439, R446, R452 to R455; 19 R488, R492). -/

namespace Sys2Proof
namespace Machine
open Safety

theorem notT_iff {v : Level} : notT v = true ↔ v ≠ .t := by simp [notT]

/-! ### RFT, HALT, WFE and TLBI -/

section
variable {h : Hdr} {f : FmtRR} {s : State}

theorem exec_rft_leaves (hl : s.me.level = .s) (he : s.me.enabled h = true) : exec (.rft h) s = did (s.leaveWith .rft) := by
  rw [exec_rft, execRft, runSys_legal _ _ _ _ (decide_eq_true hl) he]; rfl

theorem exec_halt_leaves (hl : s.me.level = .s) (he : s.me.enabled h = true) : exec (.halt h) s = did (s.leaveWith .halt) := by
  rw [exec_halt, execHalt, runSys_legal _ _ _ _ (notT_iff.2 (by simp [hl])) he, if_neg (by simp [hl])]; rfl

theorem exec_halt_stops (hl : s.me.level = .f) (he : s.me.enabled h = true) :
    exec (.halt h) s = did (s.setMyCore { s.myCore with halted := true }) := by
  rw [exec_halt, execHalt, runSys_legal _ _ _ _ (notT_iff.2 (by simp [hl])) he, if_pos hl]; rfl

theorem exec_wfe_waits (hl : s.me.level ≠ .t) (he : s.me.enabled h = true) :
    exec (.wfe h) s =
      did (s.setMe { s.me with wfe := some (((s.die (coreDie s.cur.1)).march s.me.id.part).evtcnt, s.cycle + 65536) }) := by
  rw [exec_wfe, execWfe, runSys_legal _ _ _ _ (notT_iff.2 hl) he]; rfl

theorem runTlbi_drops (p : Slot → TlbEntry → Bool) (hl : s.me.level ≠ .t) (he : s.me.enabled h = true) :
    runTlbi h f s p = did ((s.dropXlate s.me.id.part (p s.me)).landNow (dstRef f.dst) 0) := by
  rw [runTlbi, runSys_legal _ _ _ _ (notT_iff.2 hl) he]; rfl

/-- Level T reaches none of the system words. -/
theorem systemWords_refused (hl : s.me.level = .t) :
    ∀ i ∈ [Instr.rft h, .halt h, .wfe h, .tlbiAll h f, .tlbiAddr h f, .tlbiCtx h f, .ctxSave h f, .ctxRestore h f],
      exec i s = .next (s.takeTrap ⟨.priv, 0, s.me.wpc⟩ .g s.me.group.pc) := by
  intro i hi
  have hnot : notT s.me.level = false := by simp [notT, hl]
  have hs : decide (s.me.level = .s) = false := by simp [hl]
  simp only [List.mem_cons, List.not_mem_nil, or_false] at hi
  obtain rfl | rfl | rfl | rfl | rfl | rfl | rfl | rfl := hi
  · exact runSys_refused h s (fun v => decide (v = .s)) _ hs
  · exact runSys_refused h s _ _ hnot
  · exact runSys_refused h s _ _ hnot
  · exact runSys_refused h s _ _ hnot
  · exact runSys_refused h s _ _ hnot
  · exact runSys_refused h s _ _ hnot
  · exact runSys_refused h s _ _ hnot
  · exact runSys_refused h s _ _ hnot

end

theorem systemWords_complete : Claims.SystemWords := by
  intro h f s leave part v ctx
  refine ⟨fun hl he => ⟨exec_rft_leaves hl he, exec_halt_leaves hl he⟩, exec_halt_stops, fun hl he => ⟨exec_wfe_waits hl he, ?_, ?_, ?_⟩,
    systemWords_refused⟩
  · exact runTlbi_drops (fun _ _ => true) hl he
  · exact runTlbi_drops (fun l e =>
      let v := (readSpec l f.a).toNat / 65536 * 65536
      e.ctx = tlbiCtx l f && e.base < v + 65536 && v < e.base + 2 ^ e.bits) hl he
  · exact runTlbi_drops (fun l e => e.ctx = tlbiCtx l f) hl he

/-! ### What a TLBI leaves -/

/-- A map of values that keeps the default maps what each key reads. -/
theorem Sparse.get_map_values {β γ : Type} {d : β} {e : γ} (f : β → γ) (hf : f d = e) (m : SMap β) (a : Nat) :
    Sparse.get e (m.map fun x => (x.1, f x.2)) a = f (Sparse.get d m a) := by
  rw [Sparse.get_eq_find, Sparse.get_eq_find, Sparse.find_map]
  cases Sparse.find m a with
  | none => exact hf.symm
  | some x => rfl

/-- Writing posted bytes back leaves the cores and the dies. -/
theorem writeBackPart_frame (part : Nat) (es : List TlbEntry) (s : State) :
    (es.foldl (fun s e => s.writeBackPart part e.target (2 ^ e.bits)) s).cores = s.cores ∧
    (es.foldl (fun s e => s.writeBackPart part e.target (2 ^ e.bits)) s).dies = s.dies :=
  List.foldlRecOn (motive := fun t : State => t.cores = s.cores ∧ t.dies = s.dies) es _ ⟨rfl, rfl⟩ fun _ ht _ _ => ht

/-- A core, and a die, without the translations that a TLBI names. -/
def Core.dropXlate (part : Nat) (p : TlbEntry → Bool) (c : Core) : Core := { c with tlb := c.tlb.filter fun e => !(e.part = part && p e) }
def Die.dropXlate (part : Nat) (p : TlbEntry → Bool) (d : Die) : Die :=
  { d with l2tlb := d.l2tlb.filter fun e => !(e.part = part && p e), wcache := d.wcache.filter fun l => l.part ≠ part }

theorem core_dropXlate (s : State) (part : Nat) (p : TlbEntry → Bool) (c : Nat) :
    (s.dropXlate part p).core c = (s.core c).dropXlate part p := by
  have hcores : (s.dropXlate part p).cores = s.cores.map fun x => (x.1, x.2.dropXlate part p) :=
    congrArg (List.map _) (writeBackPart_frame part _ s).1
  rw [State.core, hcores]
  exact Sparse.get_map_values (d := {}) (Core.dropXlate part p) rfl s.cores c

theorem die_dropXlate (s : State) (part : Nat) (p : TlbEntry → Bool) (d : Nat) :
    (s.dropXlate part p).die d = (s.die d).dropXlate part p := by
  have hdies : (s.dropXlate part p).dies = s.dies.map fun x => (x.1, x.2.dropXlate part p) :=
    congrArg (List.map _) (writeBackPart_frame part _ s).2
  rw [State.die, hdies]
  exact Sparse.get_map_values (d := {}) (Die.dropXlate part p) rfl s.dies d

theorem droppedTranslations : Claims.DroppedTranslations := by
  intro s part p
  refine ⟨fun c e he hhit => ?_, fun d => congrArg Die.l2tlb (die_dropXlate s part p d), fun c e he hkeep => ?_⟩
  · rw [core_dropXlate, Core.dropXlate, List.mem_filter] at he
    simp [hhit] at he
  · rw [core_dropXlate, Core.dropXlate, List.mem_filter]
    refine ⟨he, ?_⟩
    rcases hkeep with hpart | hp
    · simp [hpart]
    · simp [hp]

/-! ### CTX -/

section
variable {h : Hdr} {f : FmtRR} {s : State}

theorem ctxHeld_free {k : Acc} {a n : Nat} (hfree : s.walkFree (coreDie s.cur.1) = true) : s.ctxHeld k a n = none := if_pos hfree

theorem ctxHeld_walks {k : Acc} {a n x : Nat} {t : State} (hfull : s.walkFree (coreDie s.cur.1) = false)
    (hw : resolve s (s.myAgent 0) k a n = .walk x t) : s.ctxHeld k a n = some (x, t) := by
  simp [State.ctxHeld, hfull, hw]

theorem ctxWords_misaligned (hl : s.me.level ≠ .t) (he : s.me.enabled h = true) (ha : (readSpec s.me f.a).toNat % 256 ≠ 0) :
    exec (.ctxSave h f) s = did (s.landNow (dstRef f.dst) 1) ∧ exec (.ctxRestore h f) s = did (s.landNow (dstRef f.dst) 1) := by
  rw [exec_ctxSave, execCtxSave, runSys_legal _ _ _ _ (notT_iff.2 hl) he, exec_ctxRestore, execCtxRestore,
    runSys_legal _ _ _ _ (notT_iff.2 hl) he]
  exact ⟨congrArg ended (if_pos ha), congrArg ended (if_pos ha)⟩

/-- CTX.SAVE at an aligned address, where its access need not wait. -/
theorem ctxSave_accesses (hl : s.me.level ≠ .t) (he : s.me.enabled h = true) (ha : (readSpec s.me f.a).toNat % 256 = 0)
    (hfree : s.walkFree (coreDie s.cur.1) = true) :
    (s.ctxAccess .store (readSpec s.me f.a).toNat (buildFrame s s.cur.1 s.cur.2).2 16 = none →
      exec (.ctxSave h f) s = did (s.landNow (dstRef f.dst) 3)) ∧
    ∀ segs t, s.ctxAccess .store (readSpec s.me f.a).toNat (buildFrame s s.cur.1 s.cur.2).2 16 = some (segs, t) →
      exec (.ctxSave h f) s = did (((({ t with freeCtr := t.freeCtr + 36864 } : State).noteRange (readSpec s.me f.a).toNat segs).writeOwns segs
        (Memory.read (buildFrame s s.cur.1 s.cur.2).1 0 (buildFrame s s.cur.1 s.cur.2).2)).landNow (dstRef f.dst) 0) := by
  rw [exec_ctxSave, execCtxSave, runSys_legal _ _ _ _ (notT_iff.2 hl) he]
  rcases buildFrame s s.cur.1 s.cur.2 with ⟨m, n⟩
  simp only [ha, ne_eq, not_true_eq_false, if_false, ctxHeld_free hfree]
  exact ⟨fun hno => by rw [hno]; rfl, fun segs t hsome => by rw [hsome]; rfl⟩

/-- Where the die runs 128 walks, a word whose access misses waits. -/
theorem ctxWords_walk {x : Nat} {t : State} (hl : s.me.level ≠ .t) (he : s.me.enabled h = true)
    (ha : (readSpec s.me f.a).toNat % 256 = 0) (hfull : s.walkFree (coreDie s.cur.1) = false) :
    (resolve s (s.myAgent 0) .store (readSpec s.me f.a).toNat (buildFrame s s.cur.1 s.cur.2).2 = .walk x t →
      exec (.ctxSave h f) s = .next (finishWord (t.noteWalk x .store))) ∧
    (resolve s (s.myAgent 0) .load (readSpec s.me f.a).toNat 4096 = .walk x t →
      exec (.ctxRestore h f) s = .next (finishWord (t.noteWalk x .load))) := by
  rw [exec_ctxSave, execCtxSave, runSys_legal _ _ _ _ (notT_iff.2 hl) he, exec_ctxRestore, execCtxRestore,
    runSys_legal _ _ _ _ (notT_iff.2 hl) he]
  rcases buildFrame s s.cur.1 s.cur.2 with ⟨m, n⟩
  simp only [ha, ne_eq, not_true_eq_false, if_false]
  exact ⟨fun hw => by rw [ctxHeld_walks hfull hw]; rfl, fun hw => by rw [ctxHeld_walks hfull hw]; rfl⟩

/-- CTX.RESTORE by its frame's head. -/
theorem ctxRestore_head (hl : s.me.level ≠ .t) (he : s.me.enabled h = true) (ha : (readSpec s.me f.a).toNat % 256 = 0)
    (hfree : s.walkFree (coreDie s.cur.1) = true) :
    (s.ctxAccess .load (readSpec s.me f.a).toNat 4096 16 = none → exec (.ctxRestore h f) s = did (s.landNow (dstRef f.dst) 3)) ∧
    ∀ segs t, s.ctxAccess .load (readSpec s.me f.a).toNat 4096 16 = some (segs, t) →
      (segs.any (segPoison t) = true → exec (.ctxRestore h f) s = did (s.landNow (dstRef f.dst) 4)) ∧
      (segs.any (segPoison t) = false → checkFrame (Memory.write [] 0 (readOwns t segs).1) s.me.id = some .bad →
        exec (.ctxRestore h f) s = did (s.landNow (dstRef f.dst) 1)) := by
  rw [exec_ctxRestore, execCtxRestore, runSys_legal _ _ _ _ (notT_iff.2 hl) he]
  simp only [ha, ne_eq, not_true_eq_false, if_false, ctxHeld_free hfree, execCtxRestore.runsBad]
  refine ⟨fun hno => by rw [hno]; rfl, fun segs t hsome => ?_⟩
  simp only [hsome]
  exact ⟨fun hbad => congrArg ended (if_pos hbad), fun hclean hchk => congrArg ended ((if_neg (Bool.eq_false_iff.1 hclean)).trans (if_pos hchk))⟩

/-- CTX.RESTORE by its frame's body, the head being good and the body at hand without poison. -/
theorem ctxRestore_body {s1 s2 : List Seg} {t1 t2 : State} (hl : s.me.level ≠ .t) (he : s.me.enabled h = true)
    (ha : (readSpec s.me f.a).toNat % 256 = 0) (hfree : s.walkFree (coreDie s.cur.1) = true)
    (h1 : s.ctxAccess .load (readSpec s.me f.a).toNat 4096 16 = some (s1, t1)) (hclean1 : s1.any (segPoison t1) = false)
    (hhead : checkFrame (Memory.write [] 0 (readOwns t1 s1).1) s.me.id ≠ some .bad)
    (h2 : s.ctxAccess .load (readSpec s.me f.a).toNat (frameSize (getF (Memory.write [] 0 (readOwns t1 s1).1) 2 2)) 16 = some (s2, t2))
    (hclean2 : s2.any (segPoison t2) = false) :
    let r := readOwns t2 s2
    let body := Memory.write [] 0 r.1
    let c := r.2.myCore.dropRoutines s.me.id
    let taken (u : Nat) : Prop := frameRoutine body u ≠ 0 ∧ c.wmFree u = false
    (checkFrame body s.me.id = some .mismatch → exec (.ctxRestore h f) s = did (s.landNow (dstRef f.dst) 2)) ∧
    (checkFrame body s.me.id = none → (∃ u, u < 4 ∧ taken u) → exec (.ctxRestore h f) s = did (s.landNow (dstRef f.dst) 2)) ∧
    (checkFrame body s.me.id = none → (∀ u, u < 4 → ¬ taken u) →
      ((r.2.setMyCore c).waitPlace body = none → exec (.ctxRestore h f) s = did (s.landNow (dstRef f.dst) 3)) ∧
      ∀ loc t, (r.2.setMyCore c).waitPlace body = some (loc, t) →
        exec (.ctxRestore h f) s = did (((restoreFrame (t.noteRange (readSpec s.me f.a).toNat s2) s.cur.1 s.cur.2 body none).restoreWait body
          loc).landNow (dstRef f.dst) 0)) := by
  rw [exec_ctxRestore, execCtxRestore, runSys_legal _ _ _ _ (notT_iff.2 hl) he]
  simp only [ha, ne_eq, not_true_eq_false, if_false, ctxHeld_free hfree, execCtxRestore.runsBad, h1, hclean1, Bool.false_eq_true, hhead, h2,
    hclean2]
  rcases readOwns t2 s2 with ⟨bs, u⟩
  dsimp only
  have htaken {b : Bool} (hb : ((List.range 4).any fun v => decide (frameRoutine (Memory.write [] 0 bs) v ≠ 0) &&
      !(u.myCore.dropRoutines s.me.id).wmFree v) = b) : b = true ↔
        ∃ v, v < 4 ∧ frameRoutine (Memory.write [] 0 bs) v ≠ 0 ∧ (u.myCore.dropRoutines s.me.id).wmFree v = false := by
    rw [← hb]; simp
  refine ⟨fun hchk => by rw [hchk]; rfl, fun hchk hex => ?_, fun hchk hno => ?_⟩
  · rw [hchk]
    exact congrArg ended (if_pos ((htaken rfl).2 hex))
  · rw [hchk]
    have hfree' := fun hany => let ⟨v, hv, htk⟩ := (htaken rfl).1 hany; hno v hv htk
    dsimp only
    rw [if_neg hfree']
    exact ⟨fun hw => by rw [hw]; rfl, fun loc t hw => by rw [hw]; rfl⟩

end

theorem contextWords : Claims.ContextWords := by
  intro h f s hl he a m status
  refine ⟨fun x t ha hfull => ctxWords_walk hl he ha hfull, ctxWords_misaligned hl he, fun hfree =>
    ⟨fun ha => (ctxSave_accesses hl he ha hfree).1, fun ha => (ctxRestore_head hl he ha hfree).1,
      fun segs t ha => (ctxRestore_head hl he ha hfree).2 segs t, fun segs t ha => (ctxSave_accesses hl he ha hfree).2 segs t, ?_⟩⟩
  intro s1 s2 t1 t2 ha h1 hclean1 head n hhead h2 hclean2
  exact ctxRestore_body hl he ha hfree h1 hclean1 hhead h2 hclean2

/-! ### Walks -/

theorem walkDone_reissues {s : State} {c k : Nat} {g : Group} (hg : (s.slot c k).grp = some g) :
    s.walkDone c k = s.setSlot c k { s.slot c k with
      grp := some { g with walks := false, reissue := true,
                           idx := ((List.range g.words.length).find? fun i => !g.perf.getLsbD i).getD 0,
                           checked := g.rptCount ≠ 0 } } := by
  simp only [State.walkDone, hg]

theorem pageWalks : Claims.PageWalks := by
  intro s s' c k w g e a q hw hruns hpod hfetch ha
  subst ha
  have hexec : exec (.pageWalkComplete c k) s = execPageWalkComplete c k s := rfl
  simp only [execPageWalkComplete, hw, hruns, hpod, Bool.not_true, Bool.false_eq_true, if_false, hfetch] at hexec
  refine ⟨fun hin hg => ?_, fun x t hin => ⟨fun hctx => ?_, fun hctx hdefer => ?_⟩⟩
  · simp only [hfetch] at hin
    rw [hexec, hin]
    exact congrArg Host.Outcome.next (walkDone_reissues hg)
  · simp only [hfetch] at hin
    rw [hexec, hin]
    exact congrArg Host.Outcome.next (if_pos hctx)
  · intro r
    simp only [hfetch] at hin
    rw [hexec, hin]
    refine congrArg Host.Outcome.next ((if_neg (Bool.eq_false_iff.1 hctx)).trans ?_)
    simp only [r, hdefer, hfetch, List.isEmpty_nil, decide_true, Bool.true_or, Bool.and_self, if_true]

end Machine

/-- Settles O47: the words through the gate of their level, a TLBI by the filter it puts on every TLB, CTX by the access to its frame, and a
walk by what it found. -/
theorem systemWords : Obligations.SystemWords :=
  ⟨Machine.systemWords_complete, Machine.droppedTranslations, Machine.contextWords, Machine.pageWalks⟩

end Sys2Proof
end

section
/-! SUPPORT. March's own events and the commands of its registers: refill and ageing, what a function's write of a control region comes to,
and the end of a pre-emption (18 R459, R460, R468 to R475; 21 R525, R526). -/

namespace Sys2Proof
namespace Machine
open Safety

/-! ### Writes of the control plane -/

theorem regionWrite_unreached {s : State} {fn part : Nat} (f : State → State) (hr : s.reaches fn part = false) :
    s.regionWrite fn part f = s := by
  simp [State.regionWrite, hr]

theorem cpWrite_dropped {s : State} {port : Nat} (f : State → State) (ho : s.host.owner ≠ port + 1) :
    s.cpWrite port f = { s with host := { s.host with cpdrop := s.host.cpdrop + 1 } } := if_neg ho

theorem cpWrite_owner {s : State} {port : Nat} (f : State → State) (ho : s.host.owner = port + 1) : s.cpWrite port f = f s := if_pos ho

theorem regionWrite_dropped {s : State} {fn part : Nat} (f : State → State) (hr : s.reaches fn part = true)
    (ho : s.host.owner ≠ fnPort fn + 1) :
    s.regionWrite fn part f = { s with host := { s.host with cpdrop := s.host.cpdrop + 1 } } := by
  rw [State.regionWrite, if_pos hr, cpWrite_dropped f ho]

theorem regionWrite_owner {s : State} {fn part : Nat} (f : State → State) (hr : s.reaches fn part = true)
    (ho : s.host.owner = fnPort fn + 1) : s.regionWrite fn part f = f s := by
  rw [State.regionWrite, if_pos hr, cpWrite_owner f ho]

/-! ### Refill and ageing -/

theorem readyRecords : Claims.ReadyRecords := by
  intro s d
  refine ⟨fun w ws hroom hord => ?_, fun q r hr hst harr => ?_⟩
  · rw [exec_readyRecordRefill, execReadyRecordRefill]
    simp only [if_neg (Nat.not_le.2 hroom), hord]
  · rw [exec_priorityAging, execPriorityAging]
    simp [hr, hst, harr]

/-! ### PREEMPT, RESUME and LAUNCHKILL -/

/-- A running task that is no member of a co-resident gang is asked for alone (18 R469). -/
theorem request_running {s : State} {d c k : Nat} {r : TRec} (hst : r.st = .running) (hplace : r.place = some (c, k))
    (hco : s.coresident r.part r.handle r.member = false) : s.request d r = s.requestSlot c k := by
  simp [State.request, hst, hplace, hco]

section
variable {s : State} {fn d part : Nat} {a : Word}

/-- The three commands are writes of the partition's control region. -/
theorem marchCommands_write (s : State) (fn d part : Nat) (a : Word) :
    ∀ i ∈ [Instr.preempt d part a fn, .resume d part a fn, .launchkill d part a fn],
      ∃ f, exec i s = .next (s.regionWrite fn part f) := by
  intro i hi
  simp only [List.mem_cons, List.not_mem_nil, or_false] at hi
  obtain rfl | rfl | rfl := hi
  · exact ⟨_, rfl⟩
  · exact ⟨_, rfl⟩
  · exact ⟨_, rfl⟩

theorem exec_preempt_requests {r : TRec} {c k : Nat} (hr : s.reaches fn part = true) (ho : s.host.owner = fnPort fn + 1)
    (hrec : (s.updMarch d part fun x => { x with preempt := a }).dieRec d part a = some r) (hst : r.st = .running)
    (hplace : r.place = some (c, k))
    (hco : (s.updMarch d part fun x => { x with preempt := a }).coresident r.part r.handle r.member = false) :
    exec (.preempt d part a fn) s = .next ((s.updMarch d part fun x => { x with preempt := a }).requestSlot c k) := by
  rw [exec_preempt, execPreempt, regionWrite_owner _ hr ho]
  simp only [hrec, request_running hst hplace hco]

theorem exec_resume_readies {r : TRec} (hr : s.reaches fn part = true) (ho : s.host.owner = fnPort fn + 1)
    (hrec : (s.updMarch d part fun x => { x with resume := a }).dieRec d part a = some r) (hst : r.st = .parked) (hplace : r.place = none)
    (hheld : (s.updMarch d part fun x => { x with resume := a }).taskRecordHeld part a = false) :
    exec (.resume d part a fn) s =
      .next (((s.updMarch d part fun x => { x with resume := a }).readyRec d r.seq).raiseEvt d part) := by
  rw [exec_resume, execResume, regionWrite_owner _ hr ho]
  simp [hrec, hst, hplace, hheld]

theorem exec_launchkill_kills (hr : s.reaches fn part = true) (ho : s.host.owner = fnPort fn + 1) :
    exec (.launchkill d part a fn) s =
      .next ((s.updMarch d part fun x => { x with launchkill := a.setWidth 16 }).killOn d part (a.toNat % 65536)) := by
  rw [exec_launchkill, execLaunchkill, regionWrite_owner _ hr ho]

end

theorem marchCommands_write_regions : Claims.MarchCommands := by
  intro s fn d part a r
  refine ⟨fun hr i hi => ?_, fun hr ho i hi => ?_, fun hr ho => ⟨fun c k hrec hst hplace hco => ?_, ?_, exec_launchkill_kills hr ho⟩⟩
  · obtain ⟨f, hexec⟩ := marchCommands_write s fn d part a i hi
    rw [hexec, regionWrite_unreached f hr]
  · obtain ⟨f, hexec⟩ := marchCommands_write s fn d part a i hi
    rw [hexec, regionWrite_dropped f hr ho]
  · exact exec_preempt_requests hr ho hrec hst hplace hco
  · exact fun hrec hst hplace hheld => exec_resume_readies hr ho hrec hst hplace hheld

/-! ### The end of a pre-emption -/

section
variable {s : State} {c k : Nat} {p : PreReq}

/-- At a group boundary whose window has passed, the event looks at whether the task can be moved out. -/
theorem exec_preemptWindowExpiry_edge (hpre : (s.slot c k).pre = some p) (hcount : p.counting = true) (hland : p.landed = false)
    (hl : (s.slot c k).level = .t) (hgrp : (s.slot c k).grp = none) (hst : (s.slot c k).st = .running)
    (hwin : ((s.die (coreDie c)).march (s.slot c k).id.part).pwin.toNat ≤ p.now s.cycle)
    (hco : s.coresident (s.slot c k).id.part (s.slot c k).id.handle (s.slot c k).id.member = false) :
    exec (.preemptWindowExpiry c k) s = .next (if s.settled c k = false then
        (s.setSlot c k { s.slot c k with pre := some { p with landed := true } }).slotState c k .ready
      else (s.moveOut c k .ready).getD s) := by
  rw [exec_preemptWindowExpiry, execPreemptWindowExpiry]
  simp [hpre, hcount, hland, hl, hgrp, hst, Nat.not_lt.2 hwin, hco]

end

/-- A task alone ends its pre-emption at a group boundary, by `exec_preemptWindowExpiry_edge`; a gang whose members all stand still leaves
its slots at once. -/
theorem preemptionEnds : Claims.PreemptionEnds := by
  constructor
  · intro s t c k p hpre hcount hland hl hgrp hst hwin hco
    have hedge := exec_preemptWindowExpiry_edge hpre hcount hland hl hgrp hst hwin hco
    refine ⟨fun hset hmove => ?_, fun hset => ?_⟩
    · rw [hedge, if_neg (by simp [hset]), hmove]; rfl
    · rw [hedge, if_pos hset]
  · intro s t d launch gang r hr seats hasked hstill hco hout
    rw [exec_gangFrameWrite, execGangFrameWrite]
    simp only [hr, hasked, hstill, hco, hout, Bool.not_true, Bool.or_self, Bool.false_eq_true, if_false, seats] <;> rfl

end Machine

/-- Settles O51: refill and ageing by the records that the die holds, the commands through the gate of their control region, and the end of
a pre-emption by what its slots can do. -/
theorem marchCommands : Obligations.MarchCommands :=
  ⟨Machine.readyRecords, Machine.marchCommands_write_regions, Machine.preemptionEnds⟩

end Sys2Proof
end

section
/-! SUPPORT. The control plane: its semaphore, the gate of its ports before every register, and the fault queue that drains as the host reads
it (19 R493; 21 R525 to R528). -/

namespace Sys2Proof
namespace Machine
open Safety

/-! ### The semaphore -/

theorem cpClaims_iff {owner port : Nat} {v : Word} : cpClaims owner port v = true ↔ owner = 0 ∧ v.toNat % 4 = port + 1 := by
  simp [cpClaims]

theorem cpFrees_iff {owner port : Nat} {v : Word} : cpFrees owner port v = true ↔ owner = port + 1 ∧ v.toNat % 4 = 0 := by
  simp [cpFrees]

/-- Only a free semaphore is claimed, and only a held one is freed. -/
theorem not_cpClaims_of_frees {owner port p : Nat} {v w : Word} (h : cpFrees owner port v = true) : cpClaims owner p w = false := by
  obtain ⟨ho, -⟩ := cpFrees_iff.1 h
  simp [cpClaims, ho]

theorem semaphore : Claims.Semaphore := by
  intro s port v o hp
  simp only [← cpClaims_iff, ← cpFrees_iff, exec_cpsem, execCpsem]
  refine ⟨fun hc hn => ?_, fun w hw hc hn => ?_, fun w hw hc hd => ?_, fun hf => ?_, fun w hw hf => ?_, fun hc hf hn => ?_, rfl, rfl⟩
  · cases o with
    | none => simp [hc]
    | some w => simp [hc, hn w rfl]
  · simp [hw, hc, hn]
  · simp [hw, hc, hd]
  · cases o <;> simp [hf, not_cpClaims_of_frees hf]
  · simp [hw, hf, not_cpClaims_of_frees hf]
  · cases o with
    | none => simp [hc, hf]
    | some w => simp [hc, hf, (hn w rfl).1, (hn w rfl).2]

theorem portDown : Claims.PortDown := fun s port => by rw [exec_hostLinkDown, execHostLinkDown]

/-! ### The ports' gate -/

theorem registerWrite_msix {s : State} {fn p n w : Nat} {v : Word} :
    exec (.registerWrite fn (.msixEntry p n w) v) s = .next (if fn = p then (s.writeReg (.msixEntry p n w) v).settle else s) := rfl

/-- A register of the control plane takes a write through the gate of the port whose write it is. -/
theorem registerWrite_gate {s : State} {fn : Nat} {reg : HostReg} {v : Word} (hreg : ∀ p n w, reg ≠ .msixEntry p n w) :
    exec (.registerWrite fn reg v) s =
      .next (match writerPort s fn reg with
        | some p => s.cpWrite p fun s => (s.writeReg reg v).settle
        | none => s) := by
  rw [exec_registerWrite, execRegisterWrite]
  cases reg with
  | msixEntry p n w => exact absurd rfl (hreg p n w)
  | march d p o => cases hr : s.reaches fn p <;> simp [writerPort, State.regionWrite, hr]
  | record p a r w => cases hr : s.reaches fn p <;> simp [writerPort, State.regionWrite, hr]
  | qcfg p q => by_cases hf : fn = p <;> simp [writerPort, hf]
  | pasidTab p q i => by_cases hf : fn = p <;> simp [writerPort, hf]
  | hostMap | jobBase | timeCtl | extentWord => by_cases hf : fn < 2 <;> simp [writerPort, hf]

theorem controlPlane_gates : Claims.ControlPlane := by
  intro s fn part q x reg v dropped
  refine ⟨fun hr => ?_, fun hr ho => ?_, fun hr ho => ?_, fun ho => ⟨?_, fun hx => ?_, fun hx => ?_⟩, fun ho => ⟨?_, ?_⟩,
    fun p n w hreg => ?_, fun hreg => ⟨fun hw => ?_, fun p hw => ⟨fun ho => ?_, fun ho => ?_⟩⟩⟩
  · rw [exec_evtdoor, execEvtdoor, regionWrite_unreached _ hr]
  · rw [exec_evtdoor, execEvtdoor, regionWrite_owner _ hr ho]
  · rw [exec_evtdoor, execEvtdoor, regionWrite_dropped _ hr ho]
  · rw [exec_qerrClear, execQerrClear, cpWrite_owner _ ho]
  · rw [exec_extentRevoke, execExtentRevoke, cpWrite_owner _ ho, if_pos hx]
  · rw [exec_extentRevoke, execExtentRevoke, cpWrite_owner _ ho, if_neg hx]
  · rw [exec_qerrClear, execQerrClear, cpWrite_dropped _ ho]
  · rw [exec_extentRevoke, execExtentRevoke, cpWrite_dropped _ ho]
  · subst hreg
    exact ⟨fun hf => by rw [registerWrite_msix, if_pos hf], fun hf => by rw [registerWrite_msix, if_neg hf]⟩
  · rw [registerWrite_gate hreg, hw]
  · rw [registerWrite_gate hreg, hw]; exact congrArg _ (cpWrite_owner _ ho)
  · rw [registerWrite_gate hreg, hw]; exact congrArg _ (cpWrite_dropped _ ho)

/-! ### The fault queue -/

theorem drainFaults_none {s : State} {part n : Nat} (hheld : (s.part part).held = []) : s.drainFaults part n = s := by
  cases n <;> simp [State.drainFaults, hheld]

theorem drainFaults_full {s : State} {part n k : Nat} (hslots : faultSlots (s.part part) = some n)
    (hfull : ((s.part part).tail - (s.part part).head).toNat = n) : s.drainFaults part k = s := by
  cases k with
  | zero => rfl
  | succ k => cases hheld : (s.part part).held <;> simp [State.drainFaults, hheld, hslots, hfull]

theorem faultQueue : Claims.FaultQueue := by
  intro s part h v p
  refine ⟨by rw [exec_fltqptrHeadWrite, execFltqptrHeadWrite, State.setHead], by
    rw [exec_fltqbaseWrite, execFltqbaseWrite, State.setFltq], fun hheld n => drainFaults_none hheld,
    fun r rest n k hheld hslots => ⟨drainFaults_full hslots, fun hroom => ?_⟩⟩
  rw [State.drainFaults]
  simp only [p] at hheld hslots hroom
  simp only [hheld, hslots, hroom, if_false, p]

end Machine

/-- Settles O54: the semaphore by who claims and who frees it, the control plane by the gate of its ports, and the fault queue by whether it
has room. -/
theorem controlPlane : Obligations.ControlPlane :=
  ⟨Machine.semaphore, Machine.portDown, Machine.controlPlane_gates, Machine.faultQueue⟩

end Sys2Proof
end

section
/-! SUPPORT. Links: what a flit that follows and checks brings, what a link does about trouble and new keys, and a chip's time behind its
parent link (20 R503 to R510, R521). -/

namespace Sys2Proof
namespace Machine
open Safety

/-! ### Flits -/

theorem accepted_replay_of_none {l : Link} {a : BitVec 10} (h : l.replay.any (fun f => flitSeq f = a) = false) : l.accepted a = l := by
  simp [Link.accepted, h]

/-- What an acknowledgement leaves alone: it only empties the replay buffer and lets packets through. -/
theorem accepted_keeps (l : Link) (a : BitVec 10) :
    (l.accepted a).rxNext = l.rxNext ∧ (l.accepted a).rxLast = l.rxLast ∧ (l.accepted a).tagFails = l.tagFails ∧
    (l.accepted a).rxBank = l.rxBank ∧ (l.accepted a).credits = l.credits := by
  unfold Link.accepted
  split <;> exact ⟨rfl, rfl, rfl, rfl, rfl⟩

theorem take_replay {l : Link} {f : Flit} {b : KeyBank} {rest : List Byte}
    (h : l.replay.any (fun g => flitSeq g = flitAck f) = false) : (l.take f b rest).replay = l.replay := by
  unfold Link.take Link.accepted
  rw [if_pos (by simpa using h)]

section
variable {s : State} {i : Nat} {fl : Flit} (hup : (s.link i).up = true) (hre : (s.link i).retraining = false)
  (hfe : (s.link i).fenced = false)
include hup hre hfe

theorem flitReceive_out_of_order (hseq : flitSeq fl ≠ (s.link i).rxNext) :
    exec (.flitReceive i fl) s = .next (s.discard i false) := by
  simp [execFlitReceive, hup, hre, hfe, hseq]

theorem flitReceive_fails (hseq : flitSeq fl = (s.link i).rxNext)
    (hbank : ∀ b, Sparse.find (s.link i).rxKeys (if flitK fl then 1 else 0) = some b →
      Config.gcmTag b.key b.salt b.ctr fl.hdr (Config.gcmStream b.key b.salt b.ctr fl.payload) ≠ fl.tag) :
    exec (.flitReceive i fl) s = .next (s.discard i true) := by
  simp only [exec_flitReceive, execFlitReceive, hup, hre, hfe, hseq, Bool.not_true, Bool.or_self, Bool.false_eq_true, if_false,
    ne_eq, not_true_eq_false]
  rw [Option.filter_eq_none_iff.2 fun b hb => by simpa using hbank b hb]

end

theorem flitsReceived : Claims.FlitsReceived := by
  intro s i fl hup hre hfe l kb bad fails
  refine ⟨fun hseq => ?_, fun hseq hnone => ?_, fun b hseq hb => ⟨fun htag => ?_, fun htag => ?_⟩⟩
  · exact flitReceive_out_of_order hup hre hfe hseq
  · exact flitReceive_fails hup hre hfe hseq fun b hb => nomatch hnone.symm.trans hb
  · exact flitReceive_fails hup hre hfe hseq fun c hc => by
      obtain rfl := Option.some.inj (hc.symm.trans hb)
      exact htag
  · intro bytes ps l' t u hop
    obtain ⟨h1, h2, h3, h4, h5⟩ := accepted_keeps _ (flitAck fl)
    refine ⟨?_, h1, h2, h3, h4, h5, take_replay⟩
    have hfound := (congrArg (Option.filter fun b => Config.gcmTag b.key b.salt b.ctr fl.hdr
      (Config.gcmStream b.key b.salt b.ctr fl.payload) = fl.tag) hb).trans (Option.filter_some_pos (by simpa using htag))
    have hnext : flitSeq fl = (s.link i).rxNext := hseq
    simp only [exec_flitReceive, execFlitReceive, hup, hre, hfe, hnext, Bool.not_true, Bool.or_self, Bool.false_eq_true, if_false,
      ne_eq, not_true_eq_false]
    refine congrArg Host.Outcome.next ?_
    rw [show Option.filter _ (Sparse.find (s.link i).rxKeys _) = _ from hfound] <;> rfl

/-! ### Recovery -/

theorem place_lane {l : Link} (h : l.lanes ≠ []) (k : Nat) : l.lanes[k % l.lanes.length]? = some (l.place k).1 := by
  have hk : k % l.lanes.length < l.lanes.length := Nat.mod_lt _ (List.length_pos_iff.2 h)
  simp [Link.place, hk]

/-- On its own ports a link ends a retraining with lanes that worked before and have trained. -/
theorem mem_remain {l : Link} {had trained : List Nat} {x : Nat} (hnd : l.ports.Nodup) (hx : x ∈ l.remain l.ports had trained) :
    x ∈ had ∧ x ∈ trained := by
  simp only [Link.remain, Link.physical, List.mem_filter, List.mem_range, List.contains_eq_mem, decide_eq_true_eq] at hx
  obtain ⟨⟨hlt, htr⟩, hhad⟩ := hx
  have hj : x / 2 < l.ports.length := by omega
  have hmem : l.ports[x / 2] ∈ l.ports := List.getElem_mem hj
  simp only [List.getD_eq_getElem _ _ hj, hmem, hnd.idxOf_getElem _ hj, if_true, decide_eq_true_eq, Nat.div_add_mod] at hhad
  exact ⟨hhad, htr⟩

section
variable {s : State} {i : Nat}

theorem nakFlit_resends (q : BitVec 10) (hfe : (s.link i).fenced = false) (hre : (s.link i).retraining = false) :
    exec (.nakFlit i q) s = .next (s.setLink i ((s.link i).resend ((s.link i).replay.dropWhile fun f => flitSeq f ≠ q))) := by
  simp [execNakFlit, State.goBack, hfe, hre]

theorem retrainTimeout_over (hre : (s.link i).retraining = true) (hover : s.attemptOver (s.link i) = true) :
    exec (.retrainTimeout i) s = .next (s.attemptFails i) := by
  simp [execRetrainTimeout, hre, hover]

theorem retrainTimeout_early (hover : s.attemptOver (s.link i) = false) : exec (.retrainTimeout i) s = .next s := by
  simp [execRetrainTimeout, hover]

end

theorem linkRecovery : Claims.LinkRecovery := by
  intro s i hfe l
  refine ⟨fun q hre => nakFlit_resends q hfe hre, ?_, ?_, fun hl k => ⟨place_lane hl k, rfl⟩, ?_,
    fun had trained x hnd hx => mem_remain hnd hx⟩
  · intro rx n hn left t
    rw [exec_laneFailure, execLaneFailure]
    refine congrArg Host.Outcome.next ((if_neg ?_).trans rfl)
    rw [hfe]
    simpa using hn
  · intro hre t
    exact ⟨fun hover => retrainTimeout_over hre hover, fun hover => retrainTimeout_early hover⟩
  · intro ports tx rx hre hover ps a b
    have hgoes : (!(s.link i).retraining) = true ↔ False := by rw [show (s.link i).retraining = true from hre]; simp
    have hearly : s.attemptOver (s.link i) = true ↔ False := by rw [show s.attemptOver (s.link i) = false from hover]; simp
    refine ⟨fun hnone => ?_, ?_⟩
    · rw [exec_retrainingComplete, execRetrainingComplete]
      refine congrArg Host.Outcome.next ((if_neg hgoes.1).trans ((if_neg hearly.1).trans (if_pos ?_)))
      simpa using hnone
    · intro ha hb l'
      rw [exec_retrainingComplete, execRetrainingComplete]
      refine congrArg Host.Outcome.next ((if_neg hgoes.1).trans ((if_neg hearly.1).trans (if_neg ?_)))
      simpa using ⟨ha, hb⟩

/-! ### Keys -/

theorem spdmAnswers_keeps_fab (s : State) (n code : Nat) (msg : BitVec 384) (ok : Spdm → Bool) (f : BitVec 384 → Spdm → Spdm)
    (more : List (BitVec 384)) : (s.spdmAnswers n code msg ok f more).fab = s.fab := by
  unfold State.spdmAnswers
  split <;> rfl

theorem rekeying : Claims.Rekeying := by
  intro s i n tx key salt l other
  refine ⟨rfl, ?_, fun hlen => ?_, fun hold hdone hctrl => ?_⟩
  · intro msg t hlink hboot
    simp only [exec_keyUpdate, execKeyUpdate, hlink, hboot]
    refine ⟨fun hses => ?_, fun hses => ⟨?_, spdmAnswers_keeps_fab ..⟩⟩
    · simp [hses, t, msg]
    · simp [hses, t, msg]
  · simp only [State.installKey]
    exact if_neg hlen
  · have hfree : ((s.link i).oldLast.isSome || (s.link i).keyDone.isSome || (s.link i).ctrl.any (fun x => x.1 = ctlKeydone)) = false := by
      rw [show (s.link i).oldLast = none from hold, show (s.link i).keyDone = none from hdone, hctrl]
      rfl
    simp only [State.installKey, if_true]
    exact if_neg (by rw [hfree]; exact Bool.false_ne_true)

/-! ### Time -/

theorem timeSync : Claims.TimeSync := by
  intro s t1 t2 t3 t4 hgm
  refine ⟨fun hdown => ?_, fun hdown => ⟨?_, fun hat => ?_⟩, fun i htr hdown hlink => ⟨fun hdue => ?_, fun hdue => ?_⟩⟩
  · simp only [exec_timeSyncExchange, execTimeSyncExchange, State.exchange, hgm, hdown]
    exact ⟨_, rfl, rfl, rfl, rfl, rfl, rfl⟩
  · simp [execTimeSyncExchange, State.exchange, hdown]
  · have htr : s.fab.trained = true := by
      simp [State.parentDown] at hdown; exact hdown.1.1
    simp only [State.trackParent, htr, hgm, hdown, State.noteParent, hat, Option.isNone_none]
    rfl
  · simp only [State.trackParent, htr, hgm, hdown, hlink, Nat.not_lt.2 hdue]
    rfl
  · simp only [State.trackParent, htr, hgm, hdown, hlink, hdue]
    rfl

end Machine

/-- Settles O53: a flit by its SEQ and its tag, trouble by what remains of the link, keys by the bank that they enter, and pod time by the
state of the parent link. -/
theorem links : Obligations.Links :=
  ⟨Machine.flitsReceived, Machine.linkRecovery, Machine.rekeying, Machine.timeSync⟩

end Sys2Proof
end

section
/-! SUPPORT. Reset and the boot sequence: what the records of fenced links leave alone, and what a block is appointed (22 R560 to R562). -/

namespace Sys2Proof
namespace Machine
open Safety

/-- Only the firmware's log and the count of free values differ. -/
def LoggedSince (s t : State) : Prop := t.fab = s.fab ∧ ∃ log, t.fw = { s.fw with log := log }

namespace LoggedSince

theorem refl (s : State) : LoggedSince s s := ⟨rfl, s.fw.log, rfl⟩

theorem trans {s t u : State} (h : LoggedSince s t) (h' : LoggedSince t u) : LoggedSince s u := by
  obtain ⟨hf, l, hl⟩ := h
  obtain ⟨hf', l', hl'⟩ := h'
  exact ⟨hf'.trans hf, l', by rw [hl', hl]⟩

theorem foldl {α : Type} {f : State → α → State} (h : ∀ s x, LoggedSince s (f s x)) (l : List α) (s : State) :
    LoggedSince s (l.foldl f s) := by
  induction l generalizing s with
  | nil => exact refl s
  | cons x l ih => exact (h s x).trans (ih (f s x))

end LoggedSince

theorem recordFenced_logged (s : State) : LoggedSince s s.recordFenced := by
  unfold State.recordFenced
  apply LoggedSince.foldl
  intro t l
  exact ⟨rfl, _, rfl⟩

theorem appoint_block (s : State) (boot b : Nat) : (s.appoint boot b).block b =
    match (List.range 8).find? fun k => Config.coreTest boot (8 * b + k) with
    | some k => { s.block b with august := k }
    | none => { s.block b with fenced := true } := by
  unfold State.appoint
  cases (List.range 8).find? fun k => Config.coreTest boot (8 * b + k) with
  | some k => exact State.block_setBlock_self _ _ _
  | none =>
    simp only [State.fence]
    split <;> exact State.block_setBlock_self _ _ _

theorem bringUp_ends (s : State) (i : FwImage) :
    (s.bringUp i).fw.boot = 6 ∧ (s.bringUp i).fw.running = some i ∧ (s.bringUp i).fw.waitsImage = false ∧
    (i.raiseMin = true → (s.bringUp i).fw.minVersion = max s.fw.minVersion i.secVersion) ∧
    (s.bringUp i).fab.trained = true ∧ (s.bringUp i).fab.chip = Config.podChip s.freeCtr := by
  simp only [State.bringUp]
  generalize ({ s with freeCtr := s.freeCtr + 1 } : State).selfTests s.freeCtr = t
  obtain ⟨hfab, log, hfw⟩ := recordFenced_logged
    { t with
      fw := { t.fw with running := some i, waitsImage := false, boot := 6,
                        minVersion := if i.raiseMin then max s.fw.minVersion i.secVersion else s.fw.minVersion },
      fab := t.fab.train s.freeCtr t.cycle }
  rw [hfab, hfw]
  exact ⟨rfl, rfl, rfl, fun hr => if_pos hr, rfl, rfl⟩

theorem resetDev_stopped {s : State} (h : s.fw.shutdown = true) : ∃ bs, exec .resetDev s =
    .next { s.afterReset.boot with
      freeCtr := s.afterReset.boot.freeCtr + 4, fw := { s.afterReset.boot.fw with log := s.afterReset.boot.fw.log ++ [bs] } } :=
  ⟨_, congrArg Host.Outcome.next (if_pos h)⟩

theorem recoveryImageLoad_waiting {s : State} (port : Nat) (i : FwImage) (h : s.fw.waitsImage = true) :
    exec (.recoveryImageLoad port i) s = .next (if imageOk s.fw.minVersion i then s.bringUp i else s) := by
  rw [exec_recoveryImageLoad, execRecoveryImageLoad, h, Bool.true_and]

end Machine

/-- Settles O60: a reset is the boot sequence after `State.afterReset`, and what an image brings up outlives the records of fenced links. -/
theorem resetAndBoot : Obligations.ResetAndBoot := by
  refine ⟨fun s => ?_, fun s => ?_, Machine.bringUp_ends, Machine.appoint_block, fun s port i h => Machine.recoveryImageLoad_waiting port i h⟩
  · refine ⟨fun h => congrArg Host.Outcome.next (if_neg (by simp [h])), Machine.resetDev_stopped, rfl, rfl, rfl, rfl, rfl, rfl⟩
  · refine ⟨fun h => ?_, fun i h => ?_⟩ <;> simp only [Machine.State.boot, h]

end Sys2Proof
end

section
/-! SUPPORT. The queue interfaces: how a packet comes in, what the packet at a queue's head does, and the bytes and the interrupt of its
completion (21 R529 to R534). -/

namespace Sys2Proof
namespace Machine
open Safety

/-! ### Packets -/

section
variable {s : State} {i : Nat} {p : ReqPacket}

theorem packetIn_joins (hen : qifEnable (s.qif i) = true) (htdi : (s.part (qifPart (s.qif i))).tdi ≠ .error)
    (hck : packetCheck (s.qif i) p = none) :
    s.packetIn i p = State.runQueue i 33 (s.setQif i { s.qif i with queue := (s.qif i).queue ++ [p] }) := by
  simp [State.packetIn, hen, htdi, hck]

theorem packetIn_fails {c : Nat} (hen : qifEnable (s.qif i) = true) (htdi : (s.part (qifPart (s.qif i))).tdi ≠ .error)
    (hck : packetCheck (s.qif i) p = some c) : s.packetIn i p = s.refusePacket i (p.pasid.getD 0) c := by
  simp [State.packetIn, hen, htdi, hck]

theorem packetIn_off (h : qifEnable (s.qif i) = false ∨ (s.part (qifPart (s.qif i))).tdi = .error) :
    s.packetIn i p = s.refusePacket i (p.pasid.getD 0) 7 := by
  have hoff : (!qifEnable (s.qif i) || (s.part (qifPart (s.qif i))).tdi = .error) = true := by simpa using h
  simp only [State.packetIn, hoff, if_true]

/-- A queue that is not busy runs the packet at its head by its OP. -/
theorem runQueue_head {rest : List ReqPacket} (hq : (s.qif i).queue = p :: rest) (hb : (s.qif i).busy = false) :
    State.runQueue i 1 s = match p.op.toNat with
      | 1 => s.packetLaunch i p
      | 2 => s.packetDepsig i p
      | 3 => s.packetFlagadd i p
      | _ => s.completePacket i 0 0 := by
  simp only [State.runQueue, hq, hb] <;> rfl

end

/-- A row's instruction brings in the packets of its row. -/
theorem requestRow_comesIn {port q : Nat} {p : ReqPacket} {s : State} {x : (Nat → Nat → ReqPacket → Instr) × BitVec 8}
    (hx : x ∈ [(Instr.launchReq, (1 : BitVec 8)), (Instr.depsig, 2), (Instr.flagadd, 3), (Instr.packetNop, 4)])
    (hrow : p.op = x.2 ∨ p.op = 0 ∨ 4 < p.op.toNat) : exec (x.1 port q p) s = .next (s.packetIn (8 * port + q) p) := by
  have hr : rowPacket p x.2 = true := by simpa [rowPacket, or_assoc] using hrow
  simp only [List.mem_cons, List.not_mem_nil, or_false] at hx
  rcases hx with rfl | rfl | rfl | rfl
  · rw [exec_launchReq, execLaunchReq, if_pos hr]
  · rw [exec_depsig, execDepsig, if_pos hr]
  · rw [exec_flagadd, execFlagadd, if_pos hr]
  · rw [exec_packetNop, execPacketNop, if_pos hr]

theorem requestPackets : Claims.RequestPackets := by
  intro port q p s x hx hrow i y
  rw [requestRow_comesIn hx hrow]
  exact ⟨fun hen htdi hck => congrArg _ (packetIn_joins hen htdi hck), fun c hen htdi hck => congrArg _ (packetIn_fails hen htdi hck),
    fun hoff => congrArg _ (packetIn_off hoff)⟩

theorem packetEffects : Claims.PacketEffects := by
  intro s i p rest hq hb
  rw [runQueue_head hq hb]
  refine ⟨fun hop => ⟨?_, ?_⟩, fun hop => ?_, fun hop l hl => ?_, fun hop hl => ?_, fun hop => ?_⟩
  · simp [hop]
  · simp [State.packetLaunch]
  · simp [hop]
  · simp [hop, State.packetFlagadd, hl]
  · simp [hop, State.packetFlagadd, hl]
  · simp [hop]

/-! ### Completion records -/

theorem dmaWrite_mem (s : State) (a : Nat) (bs : List Byte) : (s.dmaWrite a bs).host.mem = Memory.write s.host.mem a bs := by
  simp only [State.dmaWrite]
  split <;> rfl

theorem dmaWrite_qifs (s : State) (a : Nat) (bs : List Byte) : (s.dmaWrite a bs).host.qifs = s.host.qifs := by
  simp only [State.dmaWrite]
  split <;> rfl

theorem dmaWrite_msix (s : State) (a : Nat) (bs : List Byte) : (s.dmaWrite a bs).host.msix = s.host.msix := by
  simp only [State.dmaWrite]
  split <;> rfl

theorem dmaWrite_msixTab (s : State) (a : Nat) (bs : List Byte) : (s.dmaWrite a bs).host.msixTab = s.host.msixTab := by
  simp only [State.dmaWrite]
  split <;> rfl

/-- That the device keeps a translation is all that differs. -/
theorem dmaNote_host (s : State) (port : Nat) (pasid : BitVec 20) (a : Nat) :
    (s.dmaNote port pasid a).host = { s.host with ats := (s.dmaNote port pasid a).host.ats } := by
  simp only [State.dmaNote]
  split <;> rfl

/-- An aligned record of 16 bytes lies in one page. -/
theorem dmaRuns_record {s : State} {port a : Nat} {pasid : BitVec 20} (ha : a % 16 = 0) :
    s.dmaRuns port pasid a 16 = (s.dmaPage port pasid (a / 4096)).map fun q => [(4096 * q + a % 4096, 16)] := by
  have hspan : (a + 15) / 4096 - a / 4096 + 1 = 1 := by omega
  have hlo : max a (4096 * (a / 4096)) = a := by omega
  have hlen : min (a + 16) (4096 * (a / 4096 + 1)) - a = 16 := by omega
  cases hp : s.dmaPage port pasid (a / 4096) <;> simp [State.dmaRuns, hspan, hp, hlo, hlen]

/-- The bytes of a completion record (21 R534). -/
def completionBytes (i st r : Nat) (p : ReqPacket) : List Byte :=
  bytesOfNat 8 (st + i * 2 ^ 16 + p.tag.toNat * 2 ^ 32) ++ bytesOfNat 8 r

theorem completionBytes_length (i st r : Nat) (p : ReqPacket) : (completionBytes i st r p).length = 16 := by
  simp [completionBytes, bytesOfNat]

/-- The interface once the packet at its head is complete. -/
def State.popPacket (s : State) (i : Nat) (rest : List ReqPacket) : State := s.setQif i { s.qif i with queue := rest, busy := false }

/-- The state with the completion record of a packet written at host address `a`. -/
def State.withRecord (s : State) (i st r : Nat) (p : ReqPacket) (rest : List ReqPacket) (a : Nat) : State :=
  ((s.popPacket i rest).dmaNote (i / 8) (p.pasid.getD 0) p.cpl.toNat).dmaWrite a (completionBytes i st r p)

section
variable {s : State} {i st r : Nat} {p : ReqPacket} {rest : List ReqPacket}

theorem withRecord_mem (a : Nat) :
    (s.withRecord i st r p rest a).host.mem = Memory.write s.host.mem a (completionBytes i st r p) := by
  rw [State.withRecord, dmaWrite_mem, dmaNote_host]
  rfl

theorem withRecord_queue (a : Nat) : ((s.withRecord i st r p rest a).qif i).queue = rest := by
  rw [State.qif, State.withRecord, dmaWrite_qifs, dmaNote_host]
  simp [State.popPacket, State.setQif]

theorem withRecord_msix (a : Nat) : (s.withRecord i st r p rest a).host.msix = s.host.msix := by
  rw [State.withRecord, dmaWrite_msix, dmaNote_host]
  rfl

theorem withRecord_msixOf (a port part vec : Nat) :
    (s.withRecord i st r p rest a).msixOf port part vec = s.msixOf port part vec := by
  rw [State.msixOf, State.withRecord, dmaWrite_msixTab, dmaNote_host]
  rfl

variable (hq : (s.qif i).queue = p :: rest) (hcpl : p.cpl ≠ 0) (ha : p.cpl.toNat % 16 = 0)
  (htdi : (s.part (qifPart (s.qif i))).tdi ≠ .error)
include hq hcpl ha htdi

/-- A packet that asks for a completion record has it where its page translates, and EVEC goes out where it does not. -/
theorem completePacket_record : s.completePacket i st r =
    match s.dmaPage (i / 8) (p.pasid.getD 0) (p.cpl.toNat / 4096) with
    | none => (s.popPacket i rest).msix (i / 8) (qifPart (s.qif i)) (qifEvec (s.qif i))
    | some q =>
      let t := s.withRecord i st r p rest (4096 * q + p.cpl.toNat % 4096)
      if p.flags.getLsbD 0 then t.msix (i / 8) (qifPart (s.qif i)) p.vec.toNat else t := by
  have hruns : (s.popPacket i rest).dmaRuns (i / 8) (p.pasid.getD 0) p.cpl.toNat 16 =
    (s.dmaPage (i / 8) (p.pasid.getD 0) (p.cpl.toNat / 4096)).map fun q => [(4096 * q + p.cpl.toNat % 4096, 16)] := dmaRuns_record ha
  have htake : (completionBytes i st r p).take 16 = completionBytes i st r p :=
    List.take_of_length_le (completionBytes_length ..).le
  simp only [State.popPacket] at hruns
  simp only [completionBytes] at htake
  have hpart : (s.setQif i { s.qif i with queue := rest, busy := false }).part (qifPart (s.qif i)) = s.part (qifPart (s.qif i)) := rfl
  simp only [State.completePacket, hq, hcpl, if_false, hruns, hpart, htdi]
  cases s.dmaPage (i / 8) (p.pasid.getD 0) (p.cpl.toNat / 4096) with
  | none => rfl
  | some q =>
    simp only [Option.map_some, State.dmaWrites, htake]
    rfl

end

theorem completionRecords : Claims.CompletionRecords := by
  intro s i st r p rest hq hcpl ha htdi t page
  have ht : t = _ := completePacket_record (st := st) (r := r) hq hcpl ha htdi
  refine ⟨fun hpage => ?_, fun q hpage => ?_⟩
  · rw [ht, show s.dmaPage _ _ _ = none from hpage]
    rfl
  · rw [show s.dmaPage _ _ _ = some q from hpage] at ht
    set w := s.withRecord i st r p rest (4096 * q + p.cpl.toNat % 4096) with hw
    have hmem : t.host.mem = w.host.mem := by rw [ht]; simp only [State.msix]; split_ifs <;> rfl
    have hqif : t.qif i = w.qif i := by rw [ht]; simp only [State.msix]; split_ifs <;> rfl
    refine ⟨?_, ?_, fun hf => ?_, fun hf hvec => ?_⟩
    · have hread := Memory.read_write_same s.host.mem (4096 * q + p.cpl.toNat % 4096) (completionBytes i st r p)
      rw [completionBytes_length] at hread
      rw [hmem, hw, withRecord_mem, hread, completionBytes]
    · rw [hqif, hw, withRecord_queue]
    · rw [ht]
      simp only [hf, Bool.false_eq_true, if_false]
      exact withRecord_msix _
    · rw [ht]
      simp only [hf, if_true, State.msix, hvec]
      rw [withRecord_msixOf, withRecord_msix]

theorem atsInvalidations : Claims.AtsInvalidations := fun s port pasid page => ⟨_, rfl, rfl, fun k => by simp⟩

end Machine

/-- Settles O55: packets by the checks of their interface and the OP at the head of a queue, and completions by the page of their record. -/
theorem queueInterfaces : Obligations.QueueInterfaces :=
  ⟨Machine.requestPackets, Machine.packetEffects, Machine.completionRecords, Machine.atsInvalidations⟩

end Sys2Proof
end

section
/-! SUPPORT. Hosts at the flag window and at shared extents: an accepted request by the pin and the copies in its way, and the events of an
extent's life by its STATE and its recalls (21 R536 to R544). -/

namespace Sys2Proof
namespace Machine
open Safety

/-! ### Writes of one entry -/

theorem Sparse.del_del {β : Type} (m : SMap β) (a : Nat) : Sparse.del (Sparse.del m a) a = Sparse.del m a := by
  induction m with
  | nil => rfl
  | cons c r ih =>
    obtain ⟨k, v⟩ := c
    rcases eq_or_ne a k with rfl | h
    · simp [Sparse.del, ih]
    · simp [Sparse.del, h, ih]

theorem Sparse.put_put {β : Type} (m : SMap β) (a : Nat) (x y : β) : Sparse.put (Sparse.put m a x) a y = Sparse.put m a y := by
  induction m with
  | nil => simp [Sparse.put, Sparse.del]
  | cons c r ih =>
    obtain ⟨k, v⟩ := c
    rcases lt_trichotomy a k with h | rfl | h
    · simp [Sparse.put, Sparse.del, h, h.ne, Sparse.del_del]
    · simp [Sparse.put, Sparse.del_del]
    · simp [Sparse.put, h.ne', h.not_gt, ih]

theorem Sparse.set_put {β : Type} [DecidableEq β] {d x y : β} (m : SMap β) (a : Nat) (hx : x ≠ d) (hy : y ≠ d) :
    Sparse.set d (Sparse.set d m a x) a y = Sparse.set d m a y := by
  simp only [Sparse.set, hx, hy, if_false, Sparse.put_put]

theorem ext_setExt_self (s : State) (x : Nat) (e : Extent) : (s.setExt x e).ext x = e := by
  simp [State.ext, State.setExt]

/-- Of two writes of an entry the second stands; an entry whose STATE is not FREE is no default. -/
theorem setExt_setExt (s : State) (x : Nat) {e e' : Extent} (he : e.state ≠ 0) (he' : e'.state ≠ 0) :
    (s.setExt x e).setExt x e' = s.setExt x e' := by
  have hne : e ≠ {} := fun h => he (by rw [h])
  have hne' : e' ≠ {} := fun h => he' (by rw [h])
  simp only [State.setExt, Sparse.set_put _ _ hne hne']

/-! ### The flag window -/

theorem part_of_find {s : State} {part : Nat} {p : Partition} (h : Sparse.find s.parts part = some p) : s.part part = p := by
  rw [State.part, Sparse.get_eq_find, h, Option.getD_some]

theorem lines64_line (l : Nat) : lines64 (64 * l) 8 = [l] := by
  have hspan : (64 * l + 7) / 64 - l + 1 = 1 := by omega
  simp [lines64, hspan]

section
variable {s : State} {part l : Nat} {wr : Bool} (hl : (s.part part).flagHost.contains l = true)
include hl

theorem flagHost_not_empty : (s.part part).flagHost.isEmpty = false := by
  cases hf : (s.part part).flagHost with
  | nil => simp [hf] at hl
  | cons => rfl

/-- A line that its host has modified comes back as the host leaves it. -/
theorem flagRecall_modified (hm : (s.part part).flagMod.contains l = true) :
    ((s.flagRecall part (64 * l) 8 wr).part part).flagHost = (s.part part).flagHost.filter (· ≠ l) := by
  simp only [State.flagRecall, flagHost_not_empty hl, lines64_line, List.foldl_cons, List.foldl_nil, hm, if_true, Bool.false_eq_true,
    if_false, State.part_setPart_self]

/-- A write takes back a line that its host only holds. -/
theorem flagRecall_held (hm : (s.part part).flagMod.contains l = false) : s.flagRecall part (64 * l) 8 true = s.setPart part
    { s.part part with
      flagHost := (s.part part).flagHost.filter (· ≠ l), flagMod := (s.part part).flagMod.filter (· ≠ l) } := by
  simp only [State.flagRecall, flagHost_not_empty hl, lines64_line, List.foldl_cons, List.foldl_nil, hm, hl, Bool.and_self, if_true,
    Bool.false_eq_true, if_false]

end

/-- A device access whose lines no host has changes nothing. -/
theorem flagRecall_clear {s : State} {part o n : Nat} (wr : Bool)
    (h : ∀ l, l ∈ lines64 o n → (s.part part).flagHost.contains l = false ∧ (s.part part).flagMod.contains l = false) :
    s.flagRecall part o n wr = s := by
  unfold State.flagRecall
  split
  · rfl
  · generalize lines64 o n = ls at h
    induction ls with
    | nil => rfl
    | cons l ls ih =>
      obtain ⟨hhost, hmod⟩ := h l List.mem_cons_self
      simp only [List.foldl_cons, hhost, hmod, Bool.and_false, Bool.false_eq_true, if_false]
      exact ih fun m hm => h m (List.mem_cons_of_mem _ hm)

theorem hostFlagAccess_unmapped {s : State} {host part ofs : Nat} (k : HostAccess) (h : host ≠ Config.flagHost part) :
    exec (.hostFlagAccess host part ofs k) s = .next (s.reply (.unmapped host)) := by
  simp [execHostFlagAccess, h]

theorem flagWindowAccess : Claims.FlagWindowAccess := by
  intro s host part ofs p hp a away
  have hpart := part_of_find hp
  refine ⟨fun hhost k => hostFlagAccess_unmapped k hhost, fun hhost => ?_, fun o n wr hl => ?_, fun l wr hl hback => ?_⟩
  · have hserved : ((Sparse.find s.parts part).isNone || host ≠ Config.flagHost part) = false := by simp [hp, hhost]
    simp only [exec_hostFlagAccess, execHostFlagAccess, hserved, Bool.false_eq_true, if_false, hpart]
    refine ⟨rfl, rfl, fun o bs => rfl, fun bs => ?_⟩
    cases p.flagMod.contains (ofs / 64) <;> rfl
  · exact flagRecall_clear wr (by rwa [hpart])
  · subst hpart
    cases hm : (s.part part).flagMod.contains l with
    | true => exact ⟨flagRecall_modified hl hm, fun h => nomatch h⟩
    | false =>
      obtain rfl : wr = true := hback.resolve_right fun h => nomatch hm.symm.trans h
      rw [flagRecall_held hl hm, State.part_setPart_self]
      exact ⟨rfl, fun _ => rfl⟩

/-! ### Requests at an extent -/

/-- Whether an extent serves a host. -/
def State.servesHost (s : State) (host x : Nat) : Prop :=
  (s.ext x).state = 1 ∧ (s.ext x).hosts.getLsbD host = true ∧ s.fw.unitFenced.contains x = false

section
variable {s : State} {host x line : Nat} {k : HostAccess}

theorem hostExtentAccess_unmapped (h : ¬ s.servesHost host x) :
    exec (.hostExtentAccess host x line k) s = .next (s.reply (.unmapped host)) := by
  rw [exec_hostExtentAccess, execHostExtentAccess]
  refine congrArg Host.Outcome.next (if_neg ?_)
  simpa [State.servesHost] using h

theorem hostExtentAccess_served (h : s.servesHost host x) :
    exec (.hostExtentAccess host x line k) s =
      .next (if s.unitOwner x = some (s.ext x).part then s.extServe host x line k
        else (s.errRecord (some (s.ext x).part) 6 1 3 x (BitVec.ofNat 64 (extLine x line))).reply (.unmapped host)) := by
  obtain ⟨hst, hhost, hfe⟩ := h
  rw [exec_hostExtentAccess, execHostExtentAccess]
  exact congrArg Host.Outcome.next (if_pos (by rw [hst, hhost, hfe]; rfl))

/-- A host without a pin is served from the head, after the copies in its way. -/
theorem extServe_head (h : (s.ext x).mode ≠ 1 ∨ Sparse.find (s.ext x).pins host = none) :
    s.extServe host x line k =
      let bs := blockers (Sparse.find (s.ext x).dir line) host k
      if bs.isEmpty then s.extPerform host x line k
      else s.setExt x { s.ext x with recalls := (s.ext x).recalls ++ [⟨line, bs, some (host, k), s.cycle⟩] } := by
  have hpin : (if (s.ext x).mode = 1 then Sparse.find (s.ext x).pins host else none) = none := by
    rcases h with h | h <;> simp [h]
  simp only [State.extServe, hpin]

end

theorem extentAccess : Claims.ExtentAccess := by
  intro s host x line k e ok
  refine ⟨fun h => hostExtentAccess_unmapped h, fun h hown => ?_, fun h hown hpin => ?_, fun v h hown hmode hv => ?_⟩
  · rw [hostExtentAccess_served h]
    exact congrArg _ (if_neg hown)
  · have hserve : exec (.hostExtentAccess host x line k) s = .next (s.extServe host x line k) :=
      (hostExtentAccess_served h).trans (congrArg _ (if_pos hown))
    rw [hserve, extServe_head hpin]
    exact ⟨fun hb => congrArg _ (if_pos (by rw [List.isEmpty_iff]; exact hb)),
      fun hb => congrArg _ (if_neg (by rw [List.isEmpty_iff]; exact hb))⟩
  · have hview : (if (s.ext x).mode = 1 then Sparse.find (s.ext x).pins host else none) = some v := (if_pos hmode).trans hv
    have hserve (k : HostAccess) : exec (.hostExtentAccess host x line k) s = .next (s.extServe host x line k) :=
      (hostExtentAccess_served h).trans (congrArg _ (if_pos hown))
    simp only [hserve, State.extServe, hview, and_self]

theorem directoryBlocks : Claims.DirectoryBlocks := by
  intro h hs o bs w
  refine ⟨rfl, rfl, fun ho => ?_, ?_, fun x => ?_, fun x => ?_, rfl⟩ <;> simp [blockers, conflictHosts]
  exact ho

/-! ### Events of an extent -/

section
variable {s : State} {host x line : Nat}

/-- What a pin that waits alone does: nothing while a host has modified a line, else it holds the version at hand. -/
theorem tryPins_one {e : Extent} (hst : e.state ≠ 0) (hwait : e.pinWait = []) :
    (s.setExt x { e with pinWait := [host] }).tryPins x =
      if e.modified then (s.setExt x { e with pinWait := [host] }).recallLines x false
      else s.setExt x { e with pins := Sparse.put e.pins host e.vcur, vcur := e.vcur + 1 } := by
  have hmod : Extent.modified { e with pinWait := [host] } = e.modified := rfl
  simp only [State.tryPins, ext_setExt_self, hmod, List.isEmpty_cons, Bool.false_eq_true, if_false, List.foldl_cons, List.foldl_nil]
  rw [setExt_setExt s x (by exact hst) (by exact hst), ← hwait]

theorem snapviewPin_waits (hst : (s.ext x).state = 1) (hmode : (s.ext x).mode = 1) (hhost : (s.ext x).hosts.getLsbD host = true)
    (hpin : Sparse.find (s.ext x).pins host = none) (hwait : (s.ext x).pinWait = []) :
    exec (.snapviewPin host x) s = .next ((s.setExt x { s.ext x with pinWait := [host] }).tryPins x) := by
  rw [exec_snapviewPin, execSnapviewPin]
  refine congrArg Host.Outcome.next ((if_pos ?_).trans ?_)
  · rw [hst, hmode, hhost, hpin, hwait]; rfl
  · rw [hwait]; rfl

end

theorem extentEvents : Claims.ExtentEvents := by
  intro s host x line e
  refine ⟨fun hst hmode hhost hpin hwait => ?_, fun v hv => ?_, fun hrec => ?_, fun hlate => ?_, fun hst hover => ?_,
    fun hst hrec => ⟨fun hheld => ?_, fun hheld => ?_⟩, fun hst => ?_⟩
  · rw [snapviewPin_waits hst hmode hhost hpin hwait, tryPins_one (ne_of_eq_of_ne hst Nat.one_ne_zero) hwait]
    exact ⟨fun hm => congrArg _ (if_neg (by rw [hm]; exact Bool.false_ne_true)), fun hm => congrArg _ (if_pos hm)⟩
  · rw [exec_snapviewUnpin, execSnapviewUnpin]
    exact congrArg Host.Outcome.next (if_neg (by rw [show Sparse.find (s.ext x).pins host = some v from hv]; exact Bool.false_ne_true))
  · have hawaited : ¬ (!(s.ext x).recalls.any fun r => r.line = line && r.from_.contains host) = true := by rw [hrec]; simp
    intro left t
    refine ⟨?_, fun bs hmine hroom => ?_⟩
    · rw [exec_recallResponse, execRecallResponse]
      exact congrArg Host.Outcome.next (if_neg hawaited)
    · have hown : (Sparse.find (s.ext x).dir line == some (.modified host)) = true := by rw [hmine]; exact beq_self_eq_true _
      rw [exec_recallResponse, execRecallResponse]
      refine congrArg Host.Outcome.next ((if_neg hawaited).trans ?_)
      simp only [hown]
      exact congrArg (State.endRecalls · x) (if_neg (by rw [hroom]; exact Bool.false_ne_true))
  · have hdue : ¬ (!(s.ext x).recalls.any fun r => r.line = line && !r.from_.isEmpty && s.elapsed r.since (s.ext x).recallUs 100) = true := by
      rw [hlate]; simp
    rw [exec_recallTimeout, execRecallTimeout]
    exact congrArg Host.Outcome.next (if_neg hdue)
  · rw [exec_drainTimeout, execDrainTimeout]
    refine congrArg Host.Outcome.next (if_neg ?_)
    simpa using ⟨hst, hover⟩
  · rw [exec_extentZeroing, execExtentZeroing]
    refine congrArg Host.Outcome.next ((if_neg ?_).trans ((if_neg ?_).trans (if_pos hheld)))
    · rw [hst]; decide
    · simpa using ⟨hst, hrec⟩
  · rw [exec_extentZeroing, execExtentZeroing]
    refine congrArg Host.Outcome.next ((if_neg ?_).trans ((if_neg ?_).trans (if_neg (by rw [hheld]; exact Bool.false_ne_true))))
    · rw [hst]; decide
    · simpa using ⟨hst, hrec⟩
  · rw [exec_extentZeroing, execExtentZeroing]
    exact congrArg Host.Outcome.next (if_pos hst)

end Machine

/-- Settles O56: accesses by who owns the window or the extent and what stands in their way, and events by the extent's STATE. -/
theorem hostExtents : Obligations.HostExtents :=
  ⟨Machine.flagWindowAccess, Machine.extentAccess, Machine.directoryBlocks, Machine.extentEvents⟩

end Sys2Proof
end

section
/-! SUPPORT. Firmware's mailbox by what it does with a request, what a new partition keeps of what ASSIGN gives it, and what a write of
frozen configuration comes to (22 R547 to R551, R555, R563). -/

namespace Sys2Proof
namespace Machine
open Safety

/-! ### The mailbox -/

section
variable {s : State} {port : Nat} {x : Serving} {ok : Bool} {f : State → State} (ho : s.host.owner = port + 1) (hboot : s.fw.boot = 6)
include ho hboot

theorem mailbox_serving (hs : s.fw.serving ≠ none) :
    s.mailbox port x ok f = { s with host := { s.host with cpdrop := s.host.cpdrop + 1 } } := by
  have hsome : s.fw.serving.isSome = true := Option.isSome_iff_ne_none.2 hs
  simp only [State.mailbox, cpWrite_owner _ ho, hboot, hsome, Nat.lt_irrefl, if_false, if_true]

/-- A request that firmware can take is granted or told of its refusal. -/
theorem mailbox_taken (hs : s.fw.serving = none) :
    s.mailbox port x ok f = if ok then (f s).answer x else s.answer { part := x.part, code := x.code, refused := true } := by
  simp only [State.mailbox, cpWrite_owner _ ho, hboot, hs, Nat.lt_irrefl, if_false, Option.isSome_none, Bool.false_eq_true]

theorem mailbox_granted (hs : s.fw.serving = none) (hok : ok = true) : s.mailbox port x ok f = (f s).answer x :=
  (mailbox_taken ho hboot hs).trans (if_pos hok)

theorem mailbox_refused (hs : s.fw.serving = none) (hok : ok = false) :
    s.mailbox port x ok f = s.answer { part := x.part, code := x.code, refused := true } :=
  (mailbox_taken ho hboot hs).trans (if_neg (by rw [hok]; exact Bool.false_ne_true))

end

theorem signal_fw (s : State) (part : Nat) : (s.signal part).fw = s.fw := by
  unfold State.signal
  split <;> rfl

theorem fwReply_status (s : State) (x : Serving) : (s.fwReply x).fw.status = (x.code, x.refused) := by
  rw [State.fwReply, signal_fw]

theorem fwReply_length (s : State) (x : Serving) : (s.fwReply x).fw.reply.length = 256 := by
  rw [State.fwReply, signal_fw]
  simp only [List.length_take, List.length_append, List.length_replicate]
  omega

theorem answer_free {s : State} {x : Serving} (h : s.busyWith x = false) :
    s.answer x = ({ s with fw := { s.fw with serving := none } } : State).fwReply x :=
  if_neg (by rw [h]; exact Bool.false_ne_true)

/-- A fence that is lifted ends with the zeroing of a resource that is not on its way out already. -/
theorem liftFence_leaves {s : State} {u : FenceUnit} (hleaves : s.fw.leaving.any (fun x => x.1 = u) = false) (hf : s.isFenced u = true) :
    s.liftFence u = ((if s.fw.kept.contains u then { s with fw := { s.fw with lifting := s.fw.lifting ++ [u] } } else s).leave false u).freeLeaving := by
  have hstays : ¬ ((s.fw.leaving.any fun x => x.1 = u) || !s.isFenced u) = true := by simp [hleaves, hf]
  unfold State.liftFence
  split
  · exact if_neg (by cases u <;> exact hstays)
  · exact if_neg hstays

theorem firmwareRequests_taken {s : State} {port : Nat} (part : Nat) (q : AssignReq) (bl : BitVec 128) (us : List Nat) (pol : PolicyBlob)
    (im : FwImage) (u : FenceUnit) (z : Bool) (ho : s.host.owner = port + 1) (hboot : s.fw.boot = 6) (hs : s.fw.serving ≠ none) :
    ∀ i ∈ [Instr.assign port q, .grow port part bl us z, .shrink port part bl us z, .remove port part z,
        .debugpol port part pol z, .imageReq port im z, .fwFence port u false z, .fwFence port u true z, .fwStatus port z],
      exec i s = .next { s with host := { s.host with cpdrop := s.host.cpdrop + 1 } } := by
  intro i hi
  simp only [List.mem_cons, List.not_mem_nil, or_false] at hi
  rcases hi with rfl | rfl | rfl | rfl | rfl | rfl | rfl | rfl | rfl <;> exact congrArg Host.Outcome.next (mailbox_serving ho hboot hs)

theorem firmwareRequests_mailbox : Claims.FirmwareRequests := by
  intro s port part q bl us pol im u z ho hboot named no mine leaves
  refine ⟨firmwareRequests_taken part q bl us pol im u z ho hboot, fun hs => ?_,
    fun x hx => ⟨answer_free hx, fwReply_status s x, fwReply_length s x⟩⟩
  have granted {x : Serving} {ok : Bool} {f : State → State} (h : ok = true) := mailbox_granted (x := x) (f := f) ho hboot hs h
  have refused {x : Serving} {ok : Bool} {f : State → State} (h : ok = false) := mailbox_refused (x := x) (f := f) ho hboot hs h
  refine ⟨fun h => ?_, fun h => ?_, fun hn hf hu => ?_, fun h => ?_, fun hn hm => ?_, fun h => ?_, fun hn => ?_, fun hn => ?_, ?_,
    fun h => ?_, fun h => ?_, fun h => ?_, fun hl hf hk => ?_, ?_, ?_, ?_⟩
  · exact congrArg Host.Outcome.next (granted h)
  · exact congrArg Host.Outcome.next (refused h)
  · exact congrArg Host.Outcome.next (granted (by rw [hn, hf, hu]; rfl))
  · refine congrArg Host.Outcome.next (refused ?_)
    rcases h with h | h | h
    · simp only [h, Bool.and_false, Bool.false_and]
    · simp only [show s.allFree (namedUnits bl us) = false from h, Bool.and_false, Bool.false_and]
    · rw [h, Bool.and_false]
  · exact congrArg Host.Outcome.next (granted (by rw [hn, show List.all _ _ = true from hm]; rfl))
  · refine congrArg Host.Outcome.next (refused ?_)
    rcases h with h | h
    · simp only [h, Bool.and_false, Bool.false_and]
    · rw [show List.all _ _ = false from h, Bool.and_false]
  · exact congrArg Host.Outcome.next (granted (by rw [hn]; rfl))
  · exact congrArg Host.Outcome.next (refused (by rw [hn, Bool.and_false]))
  · intro hn hp word
    exact congrArg Host.Outcome.next (granted (by rw [hn, hp]; rfl))
  · refine congrArg Host.Outcome.next (refused ?_)
    rcases h with h | h
    · simp only [h, Bool.and_false, Bool.false_and]
    · rw [h, Bool.and_false]
  · exact congrArg Host.Outcome.next (granted (by rw [h]; rfl))
  · exact congrArg Host.Outcome.next (refused (by rw [h, Bool.and_false]))
  · refine congrArg Host.Outcome.next ((granted rfl).trans (congrArg (State.answer · _) ?_))
    have hfresh : ¬ (s.fw.kept.contains u || (s.isFenced u && !s.fw.leaving.any fun x => x.1 = u)) = true := by
      rw [hk, hf]; exact Bool.false_ne_true
    exact if_neg hfresh
  · intro hl hf t
    refine congrArg Host.Outcome.next ((granted rfl).trans (congrArg (State.answer · _) ?_))
    exact liftFence_leaves hl hf
  · exact congrArg Host.Outcome.next (granted rfl)
  · intro i hi
    simp only [List.mem_cons, List.not_mem_nil, or_false] at hi
    rcases hi with rfl | rfl | rfl | rfl | rfl | rfl | rfl | rfl <;> exact congrArg Host.Outcome.next (refused rfl)

/-! ### A new partition -/

/-- The registers of partitions and of firmware are the same. -/
def SameParts (s t : State) : Prop := t.parts = s.parts ∧ t.fw = s.fw

theorem SameParts.foldl {α : Type} {f : State → α → State} (h : ∀ s x, SameParts s (f s x)) (l : List α) (s : State) :
    SameParts s (l.foldl f s) := by
  induction l generalizing s with
  | nil => exact ⟨rfl, rfl⟩
  | cons x l ih => exact ⟨(ih _).1.trans (h s x).1, (ih _).2.trans (h s x).2⟩

theorem SameParts.trans {s t u : State} (h : SameParts s t) (h' : SameParts t u) : SameParts s u :=
  ⟨h'.1.trans h.1, h'.2.trans h.2⟩

theorem zeroBlock_parts (s : State) (b : Nat) : SameParts s (s.zeroBlock b) := by
  unfold State.zeroBlock
  refine SameParts.trans (t := s.setBlock b _) ⟨rfl, rfl⟩ (SameParts.foldl ?_ _ _)
  exact fun t i => ⟨rfl, rfl⟩

theorem dropTlb_parts (s : State) (part : Nat) : SameParts s (s.dropTlb part) := ⟨rfl, rfl⟩

theorem zeroShares_parts (s : State) (part : Nat) : SameParts s (s.zeroShares part) := by
  unfold State.zeroShares
  apply SameParts.foldl
  exact fun t d => ⟨rfl, rfl⟩

theorem zero_parts (s : State) (u : FenceUnit) : SameParts s (s.zero u) := by
  cases u with
  | block b => exact zeroBlock_parts s b
  | core | die | link | unit => exact ⟨rfl, rfl⟩

/-- What a partition is given beside its units stays, and so do firmware's registers. -/
def KeepsGift (part : Nat) (s t : State) : Prop := (∃ us, t.part part = { s.part part with units := us }) ∧ t.fw = s.fw

theorem KeepsGift.refl (part : Nat) (s : State) : KeepsGift part s s := ⟨⟨_, rfl⟩, rfl⟩

theorem KeepsGift.trans {part : Nat} {s t u : State} (h : KeepsGift part s t) (h' : KeepsGift part t u) : KeepsGift part s u := by
  obtain ⟨⟨us, hp⟩, hf⟩ := h
  obtain ⟨⟨us', hp'⟩, hf'⟩ := h'
  exact ⟨⟨us', by rw [hp', hp]⟩, hf'.trans hf⟩

theorem SameParts.keepsGift {s t : State} (h : SameParts s t) (part : Nat) : KeepsGift part s t :=
  ⟨⟨(s.part part).units, by rw [State.part, h.1]; rfl⟩, h.2⟩

theorem own_keepsGift (s : State) (part : Nat) (us : List FenceUnit) : KeepsGift part s (s.own part us) := by
  unfold State.own
  induction us generalizing s with
  | nil => exact KeepsGift.refl part s
  | cons u us ih =>
    have hzero := (zero_parts s u).keepsGift part
    simp only [List.foldl_cons]
    generalize s.zero u = t at hzero
    refine (hzero.trans ?_).trans (ih _)
    cases u with
    | unit x => exact ⟨⟨_, State.part_setPart_self _ _ _⟩, rfl⟩
    | core | block | die | link => exact KeepsGift.refl part _

/-- What ASSIGN gives before anything is zeroed: the partition's registers, and its incarnation in firmware. -/
def State.withGift (s : State) (port : Nat) (q : AssignReq) : State :=
  let n := Sparse.get 0 s.fw.incarn q.part + 1
  let p : Partition :=
    { port := port, shareBase := q.shareBase.map BitVec.toNat, shareSize := q.shareSize.map BitVec.toNat, errBase := q.errBase,
      errCnt := q.errCnt, keyDigest := q.keyDigest, incarn := n,
      vf := Config.virtualFn q.part n.toNat % 64, key := Config.randomKey s.freeCtr }
  { s.setPart q.part p with freeCtr := s.freeCtr + 1, fw := { s.fw with incarn := Sparse.set 0 s.fw.incarn q.part n } }

theorem assignPart_keepsGift (s : State) (port : Nat) (q : AssignReq) : KeepsGift q.part (s.withGift port q) (s.assignPart port q) :=
  (((zeroShares_parts (s.withGift port q) q.part).trans (dropTlb_parts _ q.part)).keepsGift q.part).trans
    (own_keepsGift _ q.part (namedUnits q.blocks q.units))

theorem newPartition : Claims.NewPartition := by
  intro s port q _ p
  obtain ⟨⟨us, hp⟩, hf⟩ := assignPart_keepsGift s port q
  have hgift : (s.withGift port q).part q.part = _ := State.part_setPart_self s q.part _
  rw [hgift] at hp
  rw [hf]
  exact ⟨congrArg Partition.incarn hp, congrArg Partition.dbgPol hp, congrArg Partition.tdi hp, congrArg Partition.port hp,
    congrArg Partition.key hp, Sparse.get_set_self _ _ _ _⟩

/-! ### Frozen configuration -/

theorem frozenConfiguration : Claims.FrozenConfiguration := by
  refine ⟨fun s p f => ⟨fun h => ?_, fun h => ?_, rfl⟩, fun s a bs p => ⟨fun h => ?_, fun h => ?_, ?_⟩⟩
  · simp [State.frozenWrite, Partition.frozen, h]
  · simp [State.frozenWrite, Partition.frozen, h]
  · simp [State.wrOpen, h]
  · simp [State.wrOpen, h]
  · simp only [State.frozenBy, List.mem_map, List.mem_filter, Bool.and_eq_true, List.any_eq_true, decide_eq_true_eq, bne_iff_ne, Prod.exists,
      exists_and_right, exists_eq_right]

end Machine

/-- Settles O57: a request by whether firmware can take it and grants it, ASSIGN by what zeroing and owning leave of its gift, and frozen
configuration by the partitions whose it is. -/
theorem firmwareRequests : Obligations.FirmwareRequests :=
  ⟨Machine.firmwareRequests_mailbox, Machine.newPartition, Machine.frozenConfiguration⟩

end Sys2Proof
end

section
/-! SUPPORT. The TDISP messages by the state of the interface, and the attestation messages that are in order (22 R550 to R554). -/

namespace Sys2Proof
namespace Machine
open Safety

/-! ### The TDISP interface -/

theorem interfaceStates : Claims.InterfaceStates := by
  intro s part hif p root
  refine ⟨?_, fun hun hfull => ?_, fun hl => ?_, fun hl => ?_, fun hun => ⟨?_, ?_⟩, ?_, ?_⟩
  · intro hun hfree t
    rw [exec_lockInterface, execLockInterface]
    exact congrArg Host.Outcome.next (if_pos (by simpa [hif] using ⟨hun, hfree⟩))
  · rw [exec_lockInterface, execLockInterface]
    exact congrArg Host.Outcome.next (if_neg (by simpa [hif] using fun _ => hfull))
  · rw [exec_startInterface, execStartInterface]
    exact congrArg Host.Outcome.next (if_pos (by simpa [hif] using hl))
  · rw [exec_startInterface, execStartInterface]
    exact congrArg Host.Outcome.next (if_neg (by simpa [hif] using hl))
  · rw [exec_stopInterface, execStopInterface]
    exact congrArg Host.Outcome.next (if_pos (by simpa [hif] using hun))
  · rw [exec_lockInterface, execLockInterface]
    exact congrArg Host.Outcome.next (if_neg (by simpa [hif] using fun h => absurd h hun))
  · rw [exec_getDeviceInterfaceState, execGetDeviceInterfaceState, if_pos hif]
  · rw [exec_getDeviceInterfaceReport, execGetDeviceInterfaceReport, if_pos hif]

/-! ### Attestation -/

/-- The digest of a session's transcript with a message. -/
def State.heard (s : State) (n : Nat) (m : BitVec 384) : BitVec 384 :=
  Config.sha384 (bytesOfNat 48 (s.spdmOf n).transcript.toNat ++ bytesOfNat 48 m.toNat)

/-- The bytes of the answer to a message, with what is sent beside it. -/
def State.answerBytes (s : State) (n code : Nat) (m : BitVec 384) (more : List (BitVec 384)) : List Byte :=
  (Config.spdmAnswer code (s.heard n m) :: more).flatMap fun a => bytesOfNat 48 a.toNat

/-- The digest of the transcript with the answer. -/
def State.answered (s : State) (n code : Nat) (m : BitVec 384) (more : List (BitVec 384)) : BitVec 384 :=
  Config.sha384 (bytesOfNat 48 (s.heard n m).toNat ++ s.answerBytes n code m more)

/-- The session that an answer leaves, of one that has come to `y`. -/
def State.withAnswer (s : State) (n code : Nat) (m : BitVec 384) (more : List (BitVec 384)) (y : Spdm) : State :=
  let x := s.spdmOf n
  let z := { y with transcript := s.answered n code m more, reply := Config.spdmAnswer code (s.heard n m) :: more,
                    signature := Config.ecdsaSign s.aliasKey (s.answered n code m more),
                    coded := if x.session then Config.gcmStream x.key 0 x.ctr (s.answerBytes n code m more) else [],
                    ctr := if x.session then x.ctr + 1 else 0 }
  { s with fw := { s.fw with spdm := Sparse.set {} s.fw.spdm n z } }

/-- A message in order, after boot, has its answer and moves its session on. -/
theorem spdmMessage_in_order {s : State} {n code : Nat} {m : BitVec 384} {ok : Spdm → Bool} {f : BitVec 384 → Spdm → Spdm}
    {more : List (BitVec 384)} (hboot : s.fw.boot = 6) (hok : ok (s.spdmOf n) = true) :
    s.spdmMessage n code m ok f more = .next (s.withAnswer n code m more (f (s.answered n code m more) (s.spdmOf n))) := by
  have hon : ¬ s.fw.boot < 6 := by omega
  simp only [State.spdmMessage, State.spdmAnswers, hon, hok, if_false, if_true]
  rfl

theorem attestationMessages : Claims.AttestationMessages := by
  intro s n j m hboot
  refine ⟨?_, fun h => ?_, fun h => ?_, fun h => ⟨?_, ?_, ?_, ?_, ?_⟩, fun h => ?_, fun h => ⟨?_, ?_⟩⟩
  · exact spdmMessage_in_order hboot rfl
  all_goals exact spdmMessage_in_order hboot h

end Machine

/-- Settles O58: the interface by its state, and a message in order by `Machine.spdmMessage_in_order`. -/
theorem interfaceStates : Obligations.InterfaceStates := ⟨Machine.interfaceStates, Machine.attestationMessages⟩

end Sys2Proof
end

section
/-! SUPPORT. The clock governor, whose change of CCLK leaves pod time as it is, and what errors come to (20 R521; 22 R557 to R562). -/

namespace Sys2Proof
namespace Machine
open Safety

/-! ### The governor -/

theorem slewed_zero (x : Int) : slewed x 0 = 0 := by
  rcases lt_trichotomy x 0 with h | rfl | h
  · simp [slewed, clampInt, h]
  · simp [slewed, clampInt]
  · simp [slewed, clampInt, h, h.not_gt]

/-- Pod time that is set down anew reads the same at once. -/
theorem podNow_of_marked {s : State} {now : Word} (hnow : s.fab.podTime = now) (hat : s.fab.podAt = s.cycle) : s.podNow = now := by
  have hns : s.podNs = 0 := by simp [State.podNs, hat]
  simp [State.podNow, hns, slewed_zero, hnow]

theorem podNow_setClock (s : State) (mhz : Nat) : (s.setClock mhz).podNow = s.podNow := podNow_of_marked rfl rfl

/-- A stopped device takes the RESET that the agenda names next (22 R562). -/
theorem step_resetDev {s t : State} {r : List Turn} (hag : s.agenda = .event .resetDev :: r)
    (hex : exec .resetDev { s with agenda := r } = .next t) : step s = .next t.after := by
  have hnext : s.resetNext = true := by rw [State.resetNext, hag]
  have hturn : turn s = .next t := by
    rw [turn, hag]
    exact hex
  rw [step, hnext, hturn]
  simp

theorem clockGovernor : Claims.ClockGovernor := by
  intro s w j at_
  refine ⟨fun h => ?_, fun hw hj => ?_, fun hw hj => ?_, fun h => ?_, fun mhz => podNow_setClock s mhz, fun h => ?_, fun h => ?_,
    fun hoff hnext => ?_, fun r t hag hex => step_resetDev hag hex⟩
  · rw [exec_governorLower, execGovernorLower]
    exact congrArg Host.Outcome.next (if_pos (by simpa using h))
  · rw [exec_governorLower, execGovernorLower]
    exact congrArg Host.Outcome.next (if_neg (by simpa using ⟨hw, hj⟩))
  · rw [exec_governorRaise, execGovernorRaise]
    exact congrArg Host.Outcome.next (if_pos (by simpa using ⟨hw, hj⟩))
  · rw [exec_governorRaise, execGovernorRaise]
    exact congrArg Host.Outcome.next (if_neg (by simp; omega))
  · rw [exec_thermalShutdown, execThermalShutdown, if_pos h]
  · rw [exec_thermalShutdown, execThermalShutdown, if_neg (Nat.not_lt.2 h)]
  · rw [step, hoff, hnext]
    rfl

/-! ### Errors -/

theorem fence_block (s : State) (b : Nat) : ((s.fence (.block b)).block b).fenced = true := by
  simp only [State.fence]
  split <;> exact congrArg Block.fenced (State.block_setBlock_self _ _ _)

theorem errorContainment : Claims.ErrorContainment := fun s _ _ _ b => ⟨rfl, rfl, rfl, rfl, rfl, fence_block s b⟩

end Machine

/-- Settles O59: the governor by its limits, pod time by `Machine.podNow_of_marked`, and errors by what `State.contain` does. -/
theorem clockAndErrors : Obligations.ClockAndErrors := ⟨Machine.clockGovernor, Machine.errorContainment⟩

end Sys2Proof
end
section
/-! SUPPORT. O25: the states whose memories are in their canonical form, the same of the answers of accesses and turns, and the state's
plain operations.  A step is taken apart along the model: of each function from states to states one lemma says that it keeps the form, from
those of the functions that it calls; where its body needs no more than that, `grind` with its equations closes it. -/

namespace Sys2Proof
namespace Machine
open Safety

theorem setMarch_sync (x : Die) (part : Nat) (r : MarchRegs) : (x.setMarch part r).sync = x.sync := rfl

theorem dropRoutines_scr (c : Core) (id : TaskId) : (c.dropRoutines id).scr = c.scr := by
  unfold Core.dropRoutines
  split <;> rfl

/-! ### What the operations of a core leave of its scratchpad -/

section
variable (c : Core)

theorem setWBits_scr (r x : Nat) : (setWBits c r x).scr = c.scr := rfl
theorem setAccBits_scr (r x : Nat) : (setAccBits c r x).scr = c.scr := rfl
theorem setLanes_scr (r : Nat) (t : List Int) : (c.setLanes r t).scr = c.scr := rfl

theorem setWm_scr (u : Nat) (x : Wm) : (c.setWm u x).scr = c.scr := rfl

theorem patchStore_scr (o : Nat) (bs : List Byte) : (c.patchStore o bs).scr = c.scr := by
  unfold Core.patchStore
  split <;> rfl

theorem joinWord_scr (id o : Nat) (bs : List Byte) : (c.joinWord id o bs).scr = c.scr := by
  grind [Core.joinWord, patchStore_scr]

theorem landStore_scr (id o : Nat) (bs : List Byte) : (c.landStore id o bs).scr = c.scr := by
  simp [Core.landStore, joinWord_scr, patchStore_scr]

theorem patchEntries_scr (o : Nat) (bs : List Byte) : (c.patchEntries o bs).scr = c.scr := by
  unfold Core.patchEntries
  split <;> rfl

theorem startRoutine_scr (u : Nat) : (c.startRoutine u).scr = c.scr := by
  unfold Core.startRoutine
  split <;> rfl

/-- A fold of steps of a core that leave the scratchpad leaves it. -/
theorem foldl_scr {α : Type} {f : Core → α → Core} (hf : ∀ c x, (f c x).scr = c.scr) (l : List α) : (l.foldl f c).scr = c.scr :=
  List.foldlRecOn (motive := fun b : Core => b.scr = c.scr) l f rfl fun b hb x _ => (hf b x).trans hb

theorem takeScales_scr (p : ScaleDue → Bool) : (c.takeScales p).scr = c.scr := foldl_scr _ (by exact fun _ _ => rfl) _

theorem digitProduct_scr {c c' : Core} {u : Nat} {m : DigitMode} {mac sat : Bool} {cfg : BitVec 32} {ed ea eb : Nat}
    (hd : digitProduct c u m mac cfg ed ea eb = .ok (c', sat)) : c'.scr = c.scr := by
  grind [digitProduct, setLanes_scr, setWm_scr]

end

/-- Every memory of the state is in its canonical form. -/
structure InForm (s : State) : Prop where
  wf : memoriesWf s = true

/-- Every state that a word's effect answers with is in form. -/
def WRes.Keeps : WRes → Prop
  | .ok t | .trap _ _ t | .walk _ _ t => InForm t

/-! So for the answers of translations, accesses, engines, fetches and streams: every state they carry is in form. -/

def XRes.Keeps : XRes → Prop
  | .ok _ t | .miss t | .absent _ t => InForm t
  | .fault _ => True
def RRes.Keeps : RRes → Prop
  | .ok _ t | .walk _ t | .absent _ _ t => InForm t
  | .fault _ _ => True
def SegAns.Keeps : SegAns → Prop
  | .no _ t | .yes _ t | .hold t => InForm t
def ARes.Keeps : ARes → Prop
  | .ok _ t | .trap _ _ t | .walk _ _ t => InForm t
def ERes.Keeps : ERes → Prop
  | .ok _ t | .wait _ t => InForm t
  | .refuse _ => True
def GRes.Keeps : GRes → Prop
  | .ok t | .fault _ _ t | .walk _ _ t => InForm t
  | .stall => True
def FRes.Keeps : FRes → Prop
  | .ok _ t | .fault _ _ _ t | .walk _ t | .ask _ _ t => InForm t
def Got.Keeps : Got → Prop
  | .done t | .hold t => InForm t
def Pull.Keeps : Pull → Prop
  | .done _ t | .stop _ t | .ask _ _ _ _ t | .refuse _ t => InForm t
def SfRes.Keeps : SfRes → Prop
  | .ok _ t | .stop _ t | .wait _ t => InForm t
def Opened.Keeps : Opened → Prop
  | .run _ _ t | .went t | .held t => InForm t

/-- The next state of an outcome, where there is one, is in form. -/
structure NextInForm (o : Host.Outcome State Fault Refusal) : Prop where
  inForm : ∀ {t : State}, o = .next t → InForm t

theorem NextInForm.next {s : State} (h : InForm s) : NextInForm (.next s) := ⟨fun ht => Host.Outcome.next.inj ht ▸ h⟩

namespace InForm

/-! ### The machine's parts -/

theorem congr {s t : State} (h : InForm s) (h1 : t.hbm = s.hbm) (h2 : t.host.mem = s.host.mem) (h3 : t.cores = s.cores)
    (h4 : t.dies = s.dies) (h5 : t.parts = s.parts) : InForm t := ⟨memoriesWf_congr h.wf h1 h2 h3 h4 h5⟩

/-- The form of a record written out in full is that of its memories. -/
theorem mk_of {cores : SMap Core} {blocks : SMap Block} {dies : SMap Die} {hbm : Mem} {hbmPoison : List Nat} {sf : SMap SfRec}
    {parts : SMap Partition} {launches : List Launch} {nextHandle : Nat} {intake : List Intake} {nextSeq : Nat} {fab : Fabric}
    {host : HostSide} {fw : Firmware} {cycle : Nat} {agenda : List Turn} {cur : Nat × Nat} {chored : Nat}
    {inRoutine : Option (Nat × Nat)} {freeCtr : Nat} {s : State} (h : InForm s) (h1 : hbm = s.hbm) (h2 : host.mem = s.host.mem)
    (h3 : cores = s.cores) (h4 : dies = s.dies) (h5 : parts = s.parts) :
    InForm ⟨cores, blocks, dies, hbm, hbmPoison, sf, parts, launches, nextHandle, intake, nextSeq, fab, host, fw, cycle, agenda, cur,
      chored, inRoutine, freeCtr⟩ := h.congr h1 h2 h3 h4 h5

/-- The form of a state is that of its five kinds of memory. -/
theorem of_memories {t : State} (h1 : Memory.wf t.hbm = true) (h2 : Memory.wf t.host.mem = true)
    (h3 : (t.cores.all fun c => Memory.wf c.2.scr) = true) (h4 : (t.dies.all fun d => Memory.wf d.2.sync) = true)
    (h5 : (t.parts.all fun p => Memory.wf p.2.flagRam) = true) : InForm t := ⟨memoriesWf_iff.2 ⟨h1, h2, h3, h4, h5⟩⟩

section
variable {s : State} (h : InForm s)
include h

theorem core (c : Nat) : Memory.wf (s.core c).scr = true := memoriesWf_core h.wf c
theorem die (d : Nat) : Memory.wf (s.die d).sync = true := memoriesWf_die h.wf d
theorem part (p : Nat) : Memory.wf (s.part p).flagRam = true := memoriesWf_part h.wf p
theorem hbm : Memory.wf s.hbm = true := memoriesWf_hbm h.wf
theorem hostMem : Memory.wf s.host.mem = true := memoriesWf_hostMem h.wf

theorem cores : (s.cores.all fun c => Memory.wf c.2.scr) = true := (memoriesWf_iff.1 h.wf).2.2.1
theorem dies : (s.dies.all fun d => Memory.wf d.2.sync) = true := (memoriesWf_iff.1 h.wf).2.2.2.1
theorem parts : (s.parts.all fun p => Memory.wf p.2.flagRam) = true := (memoriesWf_iff.1 h.wf).2.2.2.2

theorem setCore (c : Nat) {x : Core} (hx : Memory.wf x.scr = true) : InForm (s.setCore c x) := ⟨memoriesWf_setCore h.wf c hx⟩
theorem setDie (d : Nat) {x : Die} (hx : Memory.wf x.sync = true) : InForm (s.setDie d x) := ⟨memoriesWf_setDie h.wf d hx⟩
theorem setPart (p : Nat) {x : Partition} (hx : Memory.wf x.flagRam = true) : InForm (s.setPart p x) := ⟨memoriesWf_setPart h.wf p hx⟩
theorem setBlock (b : Nat) (x : Block) : InForm (s.setBlock b x) := ⟨memoriesWf_setBlock h.wf b x⟩
theorem setSlot (c k : Nat) (x : Slot) : InForm (s.setSlot c k x) := ⟨memoriesWf_setSlot h.wf c k x⟩
theorem setMe (x : Slot) : InForm (s.setMe x) := ⟨memoriesWf_setMe h.wf x⟩
theorem setMyCore {x : Core} (hx : Memory.wf x.scr = true) : InForm (s.setMyCore x) := ⟨memoriesWf_setMyCore h.wf hx⟩
theorem myCore : Memory.wf s.myCore.scr = true := memoriesWf_myCore h.wf
theorem setLine (c i : Nat) (x : BitVec 2) : InForm (s.setLine c i x) := ⟨memoriesWf_setLine h.wf c i x⟩
theorem setExt (x : Nat) (e : Extent) : InForm (s.setExt x e) := ⟨memoriesWf_setExt h.wf x e⟩
theorem tick : InForm s.tick := ⟨memoriesWf_tick h.wf⟩
theorem free : InForm s.free.2 := ⟨memoriesWf_free h.wf⟩
theorem touchCode (b : Bool) (a n : Nat) : InForm (touchCode s b a n) := ⟨memoriesWf_touchCode h.wf b a n⟩
theorem wrHbm (a : Nat) (bs : List Byte) : InForm (s.wrHbm a bs) := ⟨memoriesWf_wrHbm h.wf a bs⟩
theorem postHost (part task : Option Nat) (a : Nat) (bs : List Byte) (bad : Bool) : InForm (s.postHost part task a bs bad) :=
  ⟨memoriesWf_postHost h.wf part task a bs bad⟩

theorem wrOpen (a : Nat) (bs : List Byte) : InForm (s.wrOpen a bs) := ⟨memoriesWf_wrOpen h.wf a bs⟩
theorem writeSeg (g : Seg) (bs : List Byte) : InForm (writeSeg s g bs) := ⟨memoriesWf_writeSeg h.wf g bs⟩
theorem writeSegs (gs : List Seg) (bs : List Byte) : InForm (writeSegs s gs bs) := ⟨memoriesWf_writeSegs h.wf gs bs⟩

end

/-- A change of every core that leaves the scratchpads. -/
theorem mapCores {s : State} (h : InForm s) {f : Nat × Core → Core} (hf : ∀ x, (f x).scr = x.2.scr) :
    InForm { s with cores := s.cores.map fun x => (x.1, f x) } :=
  of_memories h.hbm h.hostMem (by simpa [List.all_map, Function.comp_def, hf] using h.cores) h.dies h.parts

/-- A change of every die that leaves the sync memories. -/
theorem mapDies {s : State} (h : InForm s) {f : Nat × Die → Die} (hf : ∀ x, (f x).sync = x.2.sync) :
    InForm { s with dies := s.dies.map fun x => (x.1, f x) } :=
  of_memories h.hbm h.hostMem h.cores (by simpa [List.all_map, Function.comp_def, hf] using h.dies) h.parts

/-- A fold of steps that keep the form keeps it. -/
theorem foldl {α : Type} {f : State → α → State} (hf : ∀ s x, InForm s → InForm (f s x)) (l : List α) {s : State}
    (h : InForm s) : InForm (l.foldl f s) := ⟨memoriesWf_foldl (fun s x hs => (hf s x ⟨hs⟩).wf) l h.wf⟩

theorem getD {o : Option State} {s : State} (ho : ∀ t, o = some t → InForm t) (h : InForm s) : InForm (o.getD s) := by
  cases o with
  | none => exact h
  | some t => exact ho t rfl

theorem ite {c : Prop} {_ : Decidable c} {a b : State} (ha : InForm a) (hb : InForm b) : InForm (if c then a else b) := by
  split <;> assumption

/-- A word that goes on from an access, or below from one whose bytes are no poison. -/
theorem word {r : ARes} {f : List Seg → State → WRes} (hr : r.Keeps) (hf : ∀ gs t, InForm t → (f gs t).Keeps) :
    (r.word f).Keeps := by
  cases r with
  | ok gs t => exact hf gs t hr
  | trap | walk => exact hr

theorem unpoisoned {s : State} (h : InForm s) {a : Nat} {gs : List Seg} {f : State → WRes}
    (hf : ∀ t, InForm t → (f t).Keeps) : (s.unpoisoned a gs f).Keeps := by
  unfold State.unpoisoned
  split
  · exact h
  · exact hf s h

end InForm
end Machine
end Sys2Proof
end

section
/-! SUPPORT. O25: memory, translation and the hosts' copies keep the form. -/

namespace Sys2Proof
namespace Machine
open Safety

namespace InForm

section
variable {s : State} (h : InForm s)
include h

theorem flushHost (p : PostedByte → Bool) : InForm (s.flushHost p) :=
  of_memories h.hbm (List.foldlRecOn (motive := fun m => Memory.wf m = true) _ _ h.hostMem fun _ hm _ _ => Memory.wf_setByte _ _ hm)
    h.cores h.dies h.parts

theorem dmaWrite (a : Nat) (bs : List Byte) : InForm (s.dmaWrite a bs) := by
  have ht : InForm (if s.blocks.isEmpty then s else Machine.touchCode s true a bs.length) := ite h (h.touchCode ..)
  exact of_memories ht.hbm (Memory.wf_write _ _ ht.hostMem) ht.cores ht.dies ht.parts

theorem signal (p₀ : Nat) : InForm (s.signal p₀) := by
  grind [State.signal, mk_of]

theorem wrInter (p₀ a : Nat) (bs : List Byte) : InForm (s.wrInter p₀ a bs) := by
  grind [State.wrInter, wrOpen]

theorem errRecord (p : Option Nat) (unit sev code loc : Nat) (addr : Word) : InForm (s.errRecord p unit sev code loc addr) := by
  cases p <;> grind [State.errRecord, signal, wrInter, setPart, part, mk_of]

theorem setLeafBit (e : TlbEntry) (bit : Nat) : InForm (setLeafBit s e bit) := foldl (fun _ _ hs => ite hs (hs.wrHbm ..)) _ h

theorem walkDenied (part : Nat) (trail : List Nat) : InForm (s.walkDenied part trail) := foldl (fun _ _ hs => hs.errRecord ..) _ h

theorem walkKeep (d part : Nat) (view : State) (trail : List Nat) : InForm (s.walkKeep d part view trail) := h.setDie _ (h.die _)

theorem walkInstall (g : Agent) (v : Nat) (k : Acc) : (Machine.walkInstall s g v k).Keeps := by
  grind [Machine.walkInstall, setCore, core, setDie, die, setLeafBit, walkDenied, walkKeep, XRes.Keeps, mk_of]

theorem tlbDrop (g : Agent) (e : TlbEntry) : InForm (Machine.tlbDrop s g e) := by
  grind [Machine.tlbDrop, setCore, core, setDie, die]

theorem markDirty (g : Agent) (e : TlbEntry) : InForm (Machine.markDirty s g e).2 := by
  grind [Machine.markDirty, setCore, core, setDie, die, setLeafBit, tlbDrop]

theorem engineWalk (g : Agent) (k : Acc) (v : Nat) : (Machine.engineWalk s g k v).Keeps := by
  grind [Machine.engineWalk, setDie, die, !walkInstall, XRes.Keeps]

theorem xlate (g : Agent) (k : Acc) (v : Nat) : (xlate s g k v).Keeps := by
  unfold Machine.xlate
  extract_lets l1 hit first
  have hfirst : first.Keeps := by grind [!engineWalk, XRes.Keeps]
  clear_value first
  cases first with
  | miss | absent | fault => exact hfirst
  | ok e t =>
    have hd := InForm.markDirty hfirst g e
    grind [!engineWalk, !markDirty, XRes.Keeps]

theorem entryLoc (p₀ : Nat) (e : TlbEntry) (v : Nat) : InForm (Machine.entryLoc s p₀ e v).2 := by
  grind [Machine.entryLoc, errRecord, mk_of]

theorem extRecall {t : State} {l : Loc} {n : Nat} {wr : Bool} (ht : extRecall s l n wr = some t) : InForm t := by
  cases l <;> grind [Machine.extRecall, mk_of]

theorem flagRecall (p o n : Nat) (wr : Bool) : InForm (s.flagRecall p o n wr) := by
  unfold State.flagRecall
  refine ite h (foldl (fun t l ht => ?_) _ h)
  have ht' : InForm { t with freeCtr := t.freeCtr + 8 } := ht.congr rfl rfl rfl rfl rfl
  refine ite (ht'.setPart _ (Memory.wf_write _ _ (ht.part p))) (ite (ht.setPart _ (ht.part p)) ht)

theorem globalSegs (g : Agent) (k : Acc) (fuel v n : Nat) : (globalSegs s g k fuel v n).Keeps := by
  induction fuel generalizing s v n with
  | zero => exact h
  | succ fuel ih => grind [Machine.globalSegs, !xlate, entryLoc, extRecall, RRes.Keeps, XRes.Keeps]

theorem resolve (g : Agent) (k : Acc) (a n : Nat) : (resolve s g k a n).Keeps := by
  unfold Machine.resolve
  split
  case h_2 => grind [!globalSegs, RRes.Keeps]
  case h_4 => exact h.flagRecall ..
  case h_1 | h_3 => trivial
  all_goals exact h

theorem hostCopies (l : Loc) (n : Nat) (wr : Bool) : InForm (s.hostCopies l n wr) := by
  cases l with
  | flag p o => exact h.flagRecall ..
  | ext a => exact foldl (fun t i ht => by grind [writeSeg, mk_of]) _ h
  | _ => exact h

theorem poisonSeg (g : Seg) : InForm (poisonSeg s g) := by
  unfold Machine.poisonSeg
  split
  · exact foldl (fun t i ht => ht.setLine ..) _ h
  · exact h.congr rfl rfl rfl rfl rfl
  · exact h.congr rfl rfl rfl rfl rfl
  · exact h

end

end InForm
end Machine
end Sys2Proof
end

section
/-! SUPPORT. O25: frames and the ends of tasks keep the form. -/

namespace Sys2Proof
namespace Machine
open Safety

namespace InForm

section
variable {s : State} (h : InForm s)
include h

omit h in
theorem getWide_scr (m : Mem) (o : Nat) (c : Core) (l : Slot) (side : SMap Port) : (getWide m o c l side).1.scr = c.scr := by
  refine (foldl_scr _ ?_ _).trans (foldl_scr _ ?_ _)
  · exact fun _ _ => setAccBits_scr ..
  · exact fun _ _ => setWBits_scr ..

theorem restoreFrame (c₀ k : Nat) (m : Mem) (side : Option Side) : InForm (restoreFrame s c₀ k m side) := by
  unfold Machine.restoreFrame
  extract_lets c l p sd calls own l1 l2 b l3 cw ca wide st o
  have hw : cw.scr = c.scr := foldl_scr c (f := fun c i => setWBits c (l3.id.w0 + i) 0) (fun _ _ => setWBits_scr ..) _
  have ha : ca.scr = cw.scr := foldl_scr cw (f := fun c i => setAccBits c (l3.id.acc0 + i) 0) (fun _ _ => setAccBits_scr ..) _
  clear_value ca cw st
  split
  next c1 l4 hwide =>
  have h1 : c1.scr = ca.scr := by
    split at hwide
    · exact (congrArg (fun x => x.1.scr) hwide).symm.trans (getWide_scr ..)
    · exact (congrArg (fun x => x.1.scr) hwide).symm
  extract_lets c2 c3 ow c4 old c5 c6
  have h2 : c2.scr = c1.scr := foldl_scr _ (by exact fun _ _ => rfl) _
  have h3 : c3.scr = c2.scr := foldl_scr _ (by exact fun _ _ => rfl) _
  have h4 : c4.scr = c3.scr := foldl_scr _ (by intro c u; split <;> rfl) _
  have h5 : c5.scr = c4.scr := by
    unfold c5
    split <;> rfl
  have h6 : c6.scr = c5.scr := rfl
  exact (h.setCore c₀ (by rw [h6, h5, h4, h3, h2, h1, ha, hw]; exact h.core c₀)).setSlot ..

theorem updLaunch (p₀ handle : Nat) (f : Launch → Launch) : InForm (s.updLaunch p₀ handle f) := by
  grind [State.updLaunch, mk_of]

theorem launchErr (p₀ handle n : Nat) : InForm (s.launchErr p₀ handle n) := by
  grind [State.launchErr, updLaunch]

theorem podMark : InForm s.podMark := h.congr rfl rfl rfl rfl rfl

theorem drainFaults (part n : Nat) : InForm (s.drainFaults part n) := by
  induction n generalizing s with
  | zero => exact h
  | succ n ih => grind [State.drainFaults, wrInter, setPart, InForm.part, signal]

theorem faultRecord (p₀ : Nat) (addr req : Word) (ctx cause access engine d₀ c₀ : Nat) :
    InForm (s.faultRecord p₀ addr req ctx cause access engine d₀ c₀) := by
  grind [State.faultRecord, setPart, part, drainFaults]

theorem marchSee (part ctx : Nat) (wr : Bool) (fuel a n : Nat) : InForm (s.marchSee part ctx wr fuel a n) := by
  induction fuel generalizing s a n with
  | zero => exact h
  | succ fuel ih => grind [State.marchSee, walkDenied, entryLoc, hostCopies]

theorem marchLook (p₀ ctx a n : Nat) : InForm (s.marchLook p₀ ctx a n) := by
  grind [State.marchLook, marchSee]

theorem marchWrite (p₀ ctx a : Nat) (bs : List Byte) : InForm (s.marchWrite p₀ ctx a bs) := by
  grind [State.marchWrite, writeSegs, marchSee]

theorem updRec (d q : Nat) (f : TRec → TRec) : InForm (s.updRec d q f) := by
  grind [State.updRec, setDie, die]

theorem blurRec (r : TRec) : InForm (s.blurRec r) := by
  grind [State.blurRec, !free, marchWrite]

theorem exactRec (r : TRec) (st : TState) : InForm (s.exactRec r st) := by
  grind [State.exactRec, marchWrite]

theorem enterSram (d q : Nat) : InForm (s.enterSram d q) := by
  grind [State.enterSram, !free, marchWrite, updRec]

theorem readyRec (d q : Nat) : InForm (s.readyRec d q) := by
  grind [State.readyRec, setDie, die, updLaunch, marchLook, blurRec, enterSram]

theorem addRec (d p₀ handle : Nat) (a : Word) (prio : Nat) (coord : BitVec 32) (aff kernel : Word) (cont member : Bool) (held : Option
    (Nat × Nat)) (dep : Nat) : InForm (s.addRec d p₀ handle a prio coord aff kernel cont member held dep) := by
  grind [State.addRec, setDie, die, updLaunch, readyRec, mk_of]

theorem memberGone (p₀ handle : Nat) (coord : BitVec 32) (member isDone : Bool) :
    InForm (s.memberGone p₀ handle coord member isDone) := by
  grind [State.memberGone, setBlock]

theorem raiseEvt (d part : Nat) : InForm (s.raiseEvt d part) := h.setDie _ (h.die d)

theorem writeFrame (c₀ k : Nat) {y : Nat} {t : State} (ht : s.writeFrame c₀ k = some (y, t)) : InForm t := by
  grind [State.writeFrame, setDie, die, writeSegs, marchSee, mk_of, setMarch_sync]

theorem freeCellOf (d part i : Nat) : InForm (s.freeCellOf d part i) := h.setDie _ (h.die d)

theorem dropScales (q : Nat) : InForm (s.dropScales q) := by
  unfold State.dropScales
  exact ite (h.mapCores fun _ => rfl) h

theorem clearSlot (c₀ k : Nat) : InForm (s.clearSlot c₀ k) := by
  grind [State.clearSlot, setSlot]

theorem moveOut {c k : Nat} {st : TState} {t : State} (ht : s.moveOut c k st = some t) : InForm t := by
  grind [State.moveOut, setSlot, writeFrame, setCore, core, dropRoutines_scr, clearSlot, updRec, readyRec]

theorem moveOut_getD (c k : Nat) (st : TState) : InForm ((s.moveOut c k st).getD s) := getD (fun _ ht => h.moveOut ht) h

theorem leaveRoutines (c₀ k : Nat) : InForm (s.leaveRoutines c₀ k) := by
  grind [State.leaveRoutines, setCore, core, setSlot]

theorem endTask (c₀ k : Nat) (st : TState) : InForm (s.endTask c₀ k st) := by
  grind [State.endTask, setDie, die, setSlot, updLaunch, exactRec, memberGone, freeCellOf, dropScales, clearSlot, leaveRoutines]

theorem failTask (c₀ k : Nat) : InForm (s.failTask c₀ k) := by
  grind [State.failTask, launchErr, endTask]

end

end InForm
end Machine
end Sys2Proof
end

section
/-! SUPPORT. O25: March's records, the system registers and the groups of a slot keep the form. -/

namespace Sys2Proof
namespace Machine
open Safety

namespace InForm

section
variable {s : State} (h : InForm s)
include h

theorem markPerf : InForm s.markPerf := by
  grind [State.markPerf, setMe]

theorem noteTrap (c : Cause) (info : Word) : InForm (s.noteTrap c info) := by
  grind [State.noteTrap, setMe]

theorem noteWalk (a : Nat) (k : Acc) : InForm (s.noteWalk a k) := by
  grind [State.noteWalk, setMe]

theorem slotState (c₀ k : Nat) (st : TState) : InForm (s.slotState c₀ k st) := by
  grind [State.slotState, setSlot, updRec]

theorem writeParked (c k : Nat) : InForm (s.writeParked c k) := by
  grind [State.writeParked, setSlot, writeFrame, updRec, moveOut_getD]

theorem parkTask (c₀ k : Nat) : InForm (s.parkTask c₀ k) := by
  grind [State.parkTask, setSlot, slotState, writeParked]

theorem doubleTrap (t : Trap) : InForm (s.doubleTrap t) := by
  grind [State.doubleTrap, errRecord, failTask]

theorem takeTrap (t : Trap) (kind : TKind) (tpc : BitVec 32) : InForm (s.takeTrap t kind tpc) := by
  grind [State.takeTrap, setMe, failTask, parkTask, doubleTrap]

theorem holdTraps (ts : List Trap) : InForm (s.holdTraps ts) := by
  grind [State.holdTraps, setMe]

theorem suspendTask (c₀ k : Nat) (a : Word) (pc : BitVec 32) : InForm (s.suspendTask c₀ k a pc) := by
  grind [State.suspendTask, setDie, die, updLaunch, launchErr, marchLook, marchWrite, exactRec, addRec, clearSlot, endTask]

theorem setHead (p₀ : Nat) (x : BitVec 32) : InForm (s.setHead p₀ x) := by
  grind [State.setHead, setPart, part, drainFaults]

theorem setFltq (p₀ : Nat) (x : Word) : InForm (s.setFltq p₀ x) := by
  grind [State.setFltq, setPart, part, drainFaults]

theorem csrPut (n : Nat) (x : Word) : InForm (s.csrPut n x) := by
  unfold State.csrPut
  split <;> grind [setMe, setPart, part, setFltq, setHead]

theorem landPre (c k : Nat) (st : TState) : InForm (s.landPre c k st) := by
  grind [State.landPre, setSlot, slotState, moveOut_getD]

theorem settleSlot (c k : Nat) : InForm (s.settleSlot c k) := by
  grind [State.settleSlot, setSlot, writeParked, moveOut_getD]

theorem settleSlots : InForm s.settleSlots := foldl (fun _ _ ht => ht.settleSlot _ _) _ h

theorem yieldTask (c₀ k : Nat) : InForm (s.yieldTask c₀ k) := by
  grind [State.yieldTask, setSlot, readyRec, landPre]

theorem leaveSlot (c k : Nat) (pc : BitVec 32) (e : GroupEnd) : InForm (s.leaveSlot c k pc e) := by
  cases e <;> grind [State.leaveSlot, endTask, failTask, suspendTask, yieldTask]

theorem rftReturn : InForm s.rftReturn := by
  grind [State.rftReturn, setMe, slotState, takeTrap, leaveSlot]

theorem afterGroup (g : Group) (due later : List Trap) (point : Bool) : InForm (s.afterGroup g due later point) := by
  grind [State.afterGroup, setMe, slotState, takeTrap, holdTraps, landPre, leaveSlot, rftReturn]

theorem closeWhole (g : Group) (due : List Trap) : InForm (s.closeWhole g due) := by
  grind [State.closeWhole, setMe, tick, afterGroup]

theorem closeBroken (g : Group) (due : List Trap) : InForm (s.closeBroken g due) := by
  unfold State.closeBroken
  split <;> grind [setMe, holdTraps, takeTrap]

theorem closeGroup : InForm (closeGroup s) := by
  unfold Machine.closeGroup
  extract_lets l g broken g1 g2 g3 t
  have ht : InForm t := foldl (fun _ _ hu => hu.csrPut _ _) _ (h.setMe _)
  clear_value t
  split
  extract_lets due u
  have hu : InForm u := (ht.setMe _).tick
  clear_value u
  grind [closeBroken, setMe, takeTrap, holdTraps, closeWhole]

theorem finishWord : InForm (finishWord s) := by
  grind [Machine.finishWord, closeGroup, setMe]

omit h in
theorem runWord {hd : Hdr} {eff : State → WRes} {nul : State → State} (heff : (eff s).Keeps) (hnul : InForm (nul s)) :
    NextInForm (runWord hd s eff nul) := by
  refine NextInForm.next (finishWord (ite ?_ hnul.markPerf))
  cases hr : eff s <;> rw [hr] at heff
  · exact markPerf heff
  · exact noteTrap heff ..
  · exact noteWalk heff ..

theorem runPlain {hd : Hdr} {eff : State → WRes} (heff : (eff s).Keeps) : NextInForm (runPlain hd s eff) := runWord heff h

theorem runScalar (hd : Hdr) (lat : Nat) (dst : RegRef) (f : Slot → Word × Fl) : NextInForm (runScalar hd s lat dst f) :=
  runWord (h.setMe _) (h.setMe _)

theorem runVector (hd : Hdr) (lat : Nat) (cm dst : BitVec 8) (f : Slot → Nat → BitVec 16 → Vec × Fl) :
    NextInForm (runVector hd s lat cm dst f) := NextInForm.next (h.setMe _).markPerf.finishWord

theorem landNow (dst : RegRef) (x : Word) : InForm (s.landNow dst x) := by
  grind [State.landNow, setMe]

theorem await (t : Nat) (dst : RegRef) (op : TagOp) : InForm (s.await t dst op) := by
  grind [State.await, setMe]

theorem patchFrame (d : Nat) (r : TRec) (o : Nat) (bs : List Byte) : InForm (s.patchFrame d r o bs) := by
  grind [State.patchFrame, marchWrite]

theorem complete (o : Owner) (t : Nat) (p : TagRes → Bool) (x : Option (BitVec 4096)) : InForm (s.complete o t p x) := by
  have hpatch (d : Nat) (r : TRec) (v : BitVec 4096) (l : List (Nat × Nat × Nat)) :
      InForm (l.foldl (fun (s : State) (ofs, n, b) => s.patchFrame d r ofs (bytesOfNat n (v.toNat / 2 ^ (8 * b)))) s) :=
    foldl (fun _ _ ht => ht.patchFrame ..) _ h
  unfold State.complete
  split
  · grind [setSlot]
  · extract_lets t'
    split
    · exact h
    · extract_lets u rest
      have hu : InForm u := by
        cases x with
        | none => exact h
        | some y => exact hpatch ..
      exact (hu.patchFrame ..).updRec ..
  · exact h

theorem ownerCtx (o : Owner) (m : BitVec 6) : InForm (s.ownerCtx o m) := by
  grind [State.ownerCtx, setSlot, patchFrame]

theorem ownerOor (o : Owner) (a : Word) : InForm (s.ownerOor o a) := by
  grind [State.ownerOor, setSlot, patchFrame]

theorem deferTrap (o : Owner) (t : Trap) : InForm (s.deferTrap o t) := by
  grind [State.deferTrap, setSlot, takeTrap, patchFrame, mk_of]

theorem endWait (x : Waiter) (w : Wait) (v : Option Word) : InForm (s.endWait x w v) := by
  cases x <;> cases v <;> grind [State.endWait, complete, setSlot, readyRec, patchFrame, updRec]

theorem testWait {x : Waiter} {w : Wait} {v : Option Word} {t : State} (ht : s.testWait x w = some (v, t)) : InForm t := by
  unfold State.testWait at ht
  split at ht <;> grind [setBlock]

theorem watchRecall (w : Wait) : InForm (s.watchRecall w) := by
  grind [State.watchRecall, hostCopies]

theorem tryWait (scan : Nat → Bool) (x : Waiter) (w : Wait) : InForm (s.tryWait scan x w) := by
  unfold State.tryWait
  extract_lets t late die inTime spilled
  have ht : InForm t := h.watchRecall w
  clear_value t
  grind [endWait, testWait]

theorem testWaits (scan : Nat → Bool) : InForm (s.testWaits scan) := foldl (fun _ _ ht => ht.tryWait ..) _ h

theorem endWfe (c k : Nat) : InForm (s.endWfe c k) := by
  grind [State.endWfe, setSlot, readyRec]

theorem testWfe : InForm s.testWfe := foldl (fun _ _ ht => ite (ht.endWfe ..) ht) _ h

theorem retest : InForm s.retest := by
  grind [State.retest, testWaits, testWfe]

theorem ovfWrite (d p₀ ctx i : Nat) : InForm (s.ovfWrite d p₀ ctx i) := by
  grind [State.ovfWrite, marchWrite, mk_of]

theorem startWait (kind : WaitKind) (addr val : Word) (rel : BitVec 2) (loc : Loc) (deadline : Option Nat) (tag : Nat) :
    InForm (s.startWait kind addr val rel loc deadline tag) := by
  unfold State.startWait
  extract_lets d x mon part r table entry place y z t u
  have hz : z.sync = x.sync := by
    unfold z
    split <;> rfl
  have ht : InForm t := h.setDie _ (hz ▸ h.die d)
  have hu : InForm u := ite (ht.ovfWrite ..) ht
  exact hu.setMe _

end

end InForm
end Machine
end Sys2Proof
end

section
/-! SUPPORT. O25: segments, loads, stores, atomics and waits keep the form. -/

namespace Sys2Proof
namespace Machine
open Safety

namespace InForm

section
variable {s : State} (h : InForm s)
include h

theorem segDenied (job seg : Nat) : InForm (s.segDenied job seg) := by
  unfold State.segDenied
  split
  · exact h
  · rename_i j _
    cases interAddr s j.part (j.segTab + 32 * seg) with
    | error => exact h
    | ok a => exact ite h (h.errRecord ..)

theorem segRuns (job : Nat) (e : SegEnt) (k : Acc) (ofs n : Nat) : (Machine.segRuns s job e k ofs n).Keeps := by
  grind [Machine.segRuns, !globalSegs, RRes.Keeps]

theorem segXlate (q : SegAsk) (e : SegEnt) (ofs n : Nat) : (s.segXlate q e ofs n).Keeps := by
  grind [State.segXlate, faultRecord, !segRuns, RRes.Keeps, SegAns.Keeps]

theorem segCheck (q : SegAsk) (e : SegEnt) : (s.segCheck q e).Keeps := by
  grind [State.segCheck, !segXlate, SegAns.Keeps]

theorem segDecide {q : SegAsk} {r : SegAns} (hr : s.segDecide q = r) : r.Keeps := by
  unfold State.segDecide at hr
  subst hr
  cases s.segLookup q.job q.seg with
  | error => exact h
  | ok e => exact h.segCheck q e

theorem useEntry (g : Agent) (k : Acc) (t : TlbEntry) : InForm (s.useEntry g k t) := by
  grind [State.useEntry, setDie, die, setLeafBit, markDirty, mk_of]

theorem planRuns (q : SegAsk) (e : SegEnt) (pages : SMap PagePlan) (fuel ofs n : Nat) : (s.planRuns q e pages fuel ofs n).Keeps := by
  induction fuel generalizing s ofs n with
  | zero => exact h
  | succ fuel ih => grind [State.planRuns, faultRecord, useEntry, !entryLoc, extRecall, SegAns.Keeps]

theorem podAccess {g : Agent} {k : Acc} {seg ofs n a : Nat} {r : ARes} (hr : s.podAccess g k seg ofs n a = r) : r.Keeps := by
  unfold State.podAccess at hr
  extract_lets q at hr
  cases hq : s.segDecide q <;> rw [hq] at hr <;> subst hr <;> exact h.segDecide hq

theorem access (k : Acc) (a n align : Nat) (vector : Bool) : (s.access k a n align vector).Keeps := by
  grind [State.access, !resolve, RRes.Keeps, !podAccess, ARes.Keeps]

theorem noteRange (a : Nat) (segs : List Seg) : InForm (s.noteRange a segs) := by
  grind [State.noteRange, setMe]

theorem readOwn (g : Seg) : InForm (Machine.readOwn s g).2 := by
  grind [Machine.readOwn, mk_of]

theorem readOwns (gs : List Seg) : InForm (readOwns s gs).2 := by
  induction gs generalizing s with
  | nil => exact h
  | cons g gs ih => exact ih (h.readOwn g)

theorem refillQueues : InForm s.refillQueues := by
  grind [State.refillQueues, mk_of]

theorem enqueue (c₀ : Nat) (w : RemoteWord) : InForm (s.enqueue c₀ w) := by
  grind [State.enqueue, setCore, core, setBlock]

theorem sendRemote (w : RemoteWord) : InForm (s.sendRemote w) := by
  grind [State.sendRemote, enqueue]

theorem storeRemote (chip q : Nat) (bs : List Byte) : InForm (s.storeRemote chip q bs) := by
  grind [State.storeRemote, sendRemote]

theorem writeOwn (g : Seg) (bs : List Byte) : InForm (s.writeOwn g bs) := by
  grind [State.writeOwn, postHost, writeSeg, storeRemote]

theorem writeOwns (gs : List Seg) (bs : List Byte) : InForm (s.writeOwns gs bs) := by
  induction gs generalizing s bs with
  | nil => exact h
  | cons g gs ih => exact ih (h.writeOwn ..) _

theorem loadPieces (tag : Nat) (dst : RegRef) (acq : Bool) (ps : List Piece) : InForm (s.loadPieces tag dst acq ps) := by
  unfold State.loadPieces
  extract_lets t bad remote
  have ht : InForm t := foldl (fun _ _ hu => hu.noteRange ..) _ h
  clear_value t bad
  cases bad with
  | some a => exact ht.await ..
  | none =>
    have hread := List.foldlRecOn (motive := fun acc : BitVec 4096 × State => InForm acc.2) ps
      (fun acc p => (patchImage acc.1 p.pos (padTo p.ext (Machine.readOwns acc.2 p.runs).1), (Machine.readOwns acc.2 p.runs).2))
      (b := (regImage t.me t.me.level dst, t)) ht fun acc hacc p _ => hacc.readOwns p.runs
    simp only
    split
    · exact InForm.await hread ..
    · refine InForm.await ?_ ..
      exact List.foldlRecOn (motive := fun acc : List Nat × State => InForm acc.2) _ _ hread fun acc hacc p _ => hacc.sendRemote _

theorem execLd (hd : Hdr) (f : FmtM) : NextInForm (Machine.execLd hd f s) := by
  refine h.runPlain ?_
  grind [loadPieces, !access, ARes.Keeps, WRes.Keeps]

theorem execLoadReturn (c₀ slot tag : Nat) : NextInForm (execLoadReturn c₀ slot tag s) := by
  refine NextInForm.next ?_
  extract_lets l try_ go
  have hgo (v : Level) (r : TagRes) : InForm (go v r) := by grind [setSlot, deferTrap]
  clear_value go
  grind

theorem storeBytes (a align : Nat) (vector : Bool) (bs : List Byte) : (s.storeBytes a align vector bs).Keeps := by
  grind [State.storeBytes, noteRange, writeOwns, !access, ARes.Keeps, WRes.Keeps]

theorem execSt (hd : Hdr) (f : FmtM) : NextInForm (Machine.execSt hd f s) := by
  refine h.runPlain ?_
  grind [!storeBytes]

theorem execLdv (hd : Hdr) (f : FmtM) : NextInForm (Machine.execLdv hd f s) := by
  refine h.runPlain ?_
  grind [loadPieces, !access, ARes.Keeps, WRes.Keeps]

theorem execStv (hd : Hdr) (f : FmtM) : NextInForm (Machine.execStv hd f s) := by
  refine h.runPlain ?_
  grind [!storeBytes]

theorem gatherCheck_ok {k : Acc} {n : Nat} {l : List (Nat × Nat × Nat)} {ps qs : List Piece} {t : State}
    (ht : gatherCheck k n l s ps = .ok (qs, t)) : InForm t := by
  induction l generalizing s ps with
  | nil => grind [Machine.gatherCheck]
  | cons x l ih => grind [Machine.gatherCheck, !access, ARes.Keeps]

theorem gatherCheck_error {k : Acc} {n : Nat} {l : List (Nat × Nat × Nat)} {ps : List Piece} {r : WRes}
    (hr : gatherCheck k n l s ps = .error r) : r.Keeps := by
  induction l generalizing s ps with
  | nil => grind [Machine.gatherCheck]
  | cons x l ih => grind [Machine.gatherCheck, !access, ARes.Keeps, WRes.Keeps]

theorem execVgath (hd : Hdr) (f : FmtG) : NextInForm (execVgath hd f s) := by
  refine h.runPlain ?_
  split
  · next hr => exact h.gatherCheck_error hr
  · next hr => exact (h.gatherCheck_ok hr).loadPieces ..

theorem execVscat (hd : Hdr) (f : FmtG) : NextInForm (execVscat hd f s) := by
  refine h.runPlain ?_
  extract_lets l n
  split
  · next hr => exact h.gatherCheck_error hr
  · next hr => exact foldl (fun _ _ ht => (ht.noteRange ..).writeOwns ..) _ (h.gatherCheck_ok hr)

theorem rmw (o : AtomOp) (segs : List Seg) (n d c : Nat) : InForm (s.rmw o segs n d c).2 := by
  grind [State.rmw, writeSegs]

theorem runAtom (o : AtomOp) (hd : Hdr) (f : FmtAT) : NextInForm (runAtom o hd f s) := by
  refine h.runPlain ?_
  grind [!access, ARes.Keeps, WRes.Keeps, sendRemote, await, noteRange, !rmw]

theorem landRefusals (dst : RegRef) : InForm (s.landRefusals dst) := by
  grind [State.landRefusals, setMe, landNow]

theorem execFence (hd : Hdr) (f : FmtM) : NextInForm (Machine.execFence hd f s) := by
  refine h.runPlain ?_
  grind [landNow, landRefusals, WRes.Keeps]

theorem writeBack (c₀ k a n : Nat) : InForm (s.writeBack c₀ k a n) := by
  grind [State.writeBack, flushHost]

theorem dropReads (c₀ k a n : Nat) : InForm (s.dropReads c₀ k a n) := by
  grind [State.dropReads, mk_of]

theorem runCflush (wb inv : Bool) (hd : Hdr) (f : FmtM) : NextInForm (runCflush wb inv hd f s) := by
  have hstep {t : State} (ht : InForm t) (b m : Nat) : InForm (if wb then t.writeBack t.cur.1 t.cur.2 b m else t) :=
    ite (ht.writeBack ..) ht
  refine h.runPlain ?_
  extract_lets l a n lo len runs
  split
  · exact h
  · split
    · split
      · exact h
      · exact foldl (fun _ x ht => ite ((hstep ht x.1 x.2).dropReads ..) (hstep ht x.1 x.2)) _ h
    · exact h
    · exact h

theorem execPref (hd : Hdr) (f : FmtM) : NextInForm (Machine.execPref hd f s) := by
  refine h.runPlain ?_
  grind [WRes.Keeps]

theorem execFlag (hd : Hdr) (f : FmtAT) : NextInForm (Machine.execFlag hd f s) := by
  refine h.runPlain ?_
  grind [noteRange, !rmw, !access, ARes.Keeps, WRes.Keeps]

theorem runWaitf (hd : Hdr) (f : FmtT) (timed : Bool) : NextInForm (runWaitf hd f s timed) := by
  refine h.runPlain ?_
  grind [!access, ARes.Keeps, WRes.Keeps, noteRange, landNow, startWait, await]

theorem placeMonitor (x : Waiter) (p : MonPlace) (entry : Nat) : InForm (s.placeMonitor x p entry) := by
  cases x with
  | slot => exact h.setSlot ..
  | frame => exact h.updRec ..

theorem undefer (d₀ : Nat) (x : Waiter) : InForm (s.undefer d₀ x) := by
  grind [State.undefer, ovfWrite, placeMonitor]

theorem moveMonitors (die : Nat) : InForm (s.moveMonitors die) :=
  foldl (fun _ _ ht => ht.undefer ..) _ (foldl (fun _ _ ht => ht.placeMonitor ..) _ h)

theorem scan (d₀ : Nat) : InForm (s.scan d₀) := by
  grind [State.scan, setDie, die, testWaits, moveMonitors]

theorem execMonitorScan (d₀ : Nat) : NextInForm (Machine.execMonitorScan d₀ s) := by
  refine NextInForm.next ?_
  grind [scan]

theorem execWaitTimeout (c₀ slot : Nat) : NextInForm (execWaitTimeout c₀ slot s) := by
  refine NextInForm.next ?_
  split
  · split
    · grind [scan, testWait, endWait]
    · exact h
  · exact h

theorem scans : InForm s.scans := foldl (fun _ _ ht => ite (ht.scan _) ht) _ h

end

end InForm
end Machine
end Sys2Proof
end

section
/-! SUPPORT. O25: copies and the words of tasks keep the form. -/

namespace Sys2Proof
namespace Machine
open Safety

namespace InForm

section
variable {s : State} (h : InForm s)
include h

theorem engineAccess (g : Agent) (k : Acc) (a n : Nat) (waits : Option PageWait) : (engineAccess s g k a n waits).Keeps := by
  have hr := h.resolve g k a n
  unfold Machine.engineAccess
  extract_lets evt absent stays
  have habsent (c f x : Nat) {t : State} (ht : InForm t) : (absent c f x t).Keeps := ite ht (ht.faultRecord ..)
  clear_value absent
  grind [RRes.Keeps, ERes.Keeps]

theorem startCopy (f : FmtT) (tag : Nat) (scale : Bool) (d src t lines : Nat) : InForm (s.startCopy f tag scale d src t lines) := by
  grind [State.startCopy, setMyCore, myCore, await]

theorem execCpy (hd : Hdr) (f : FmtT) : NextInForm (Machine.execCpy hd f s) := by
  refine h.runPlain ?_
  grind [startCopy, WRes.Keeps]

theorem execCpyScale (hd : Hdr) (f : FmtT) : NextInForm (Machine.execCpyScale hd f s) := by
  refine h.runPlain ?_
  grind [startCopy, WRes.Keeps]

theorem execCopyIntakeDispatch (c₀ : Nat) : NextInForm (Machine.execCopyIntakeDispatch c₀ s) := by
  refine NextInForm.next ?_
  grind [setCore, core]

theorem setCopy (c₀ id : Nat) (x : CopyCmd) : InForm (s.setCopy c₀ id x) := by
  grind [State.setCopy, setCore, core]

theorem engineRange (o : Owner) (a : Nat) (segs : List Seg) : InForm (s.engineRange o a segs) := by
  grind [State.engineRange, ownerOor]

theorem CopyCmd.stop (x : CopyCmd) (code : BitVec 8) : InForm (Machine.CopyCmd.stop x code s).2.2 := by
  grind [Machine.CopyCmd.stop]

theorem CopyCmd.hold (x : CopyCmd) (waits : Option PageWait) : InForm (Machine.CopyCmd.hold x waits s).2.2 := by
  grind [Machine.CopyCmd.hold]

/-- One run of an engine's write: the state after it stands first. -/
theorem engineWrite_bytes (loc : Nat → Loc) (skip : Nat → Bool) (bs : List (Byte × Nat)) (n : Nat) :
    InForm (bs.foldl (fun (acc : State × Nat) x =>
      if skip x.2 then acc else (Machine.writeSeg acc.1 ⟨loc x.2, 1⟩ [x.1], acc.2 + 1)) (s, n)).1 :=
  List.foldlRecOn (motive := fun acc : State × Nat => InForm acc.1) bs _ h fun acc hacc x _ => by
    split
    · exact hacc
    · exact hacc.writeSeg ..

theorem engineWrite (id : Nat) (agent : RemoteWord) (segs : List Seg) (bs : List Byte) (bad : Bool) (unit : Nat → Bool) :
    InForm (engineWrite s id agent segs bs bad unit).1 := by
  unfold Machine.engineWrite
  extract_lets go
  refine List.foldlRecOn (motive := fun acc : State × Nat × Nat => InForm acc.1) segs go (b := (s, 0, 0)) h fun acc hacc g _ => ?_
  obtain ⟨t, i, n⟩ := acc
  replace hacc : InForm t := hacc
  obtain ⟨l, m⟩ := g
  cases l with
  | oor => exact hacc
  | peer => exact hacc.enqueue ..
  | host => exact hacc.postHost ..
  | sync d o => exact hacc.engineWrite_bytes (fun j => .sync d (o + j)) (fun j => unit (i + j)) _ n
  | flag p o => exact hacc.engineWrite_bytes (fun j => .flag p (o + j)) (fun j => unit (i + j)) _ n
  | _ => exact ite ((hacc.writeSeg _ _).poisonSeg _) (hacc.writeSeg _ _)

theorem sourceRuns_ok {c id skip : Nat} {gs : List Seg} {x y : CopyCmd} {t : State}
    (ht : sourceRuns c id gs skip x s = .ok (y, t)) : InForm t := by
  induction gs generalizing s skip x with
  | nil => grind [Machine.sourceRuns]
  | cons g gs ih => grind [Machine.sourceRuns]

theorem sourceRuns_error {c id skip : Nat} {gs : List Seg} {x : CopyCmd} {r : CopyStep}
    (hr : sourceRuns c id gs skip x s = .error r) : InForm r.2.2 := by
  induction gs generalizing s skip x with
  | nil => grind [Machine.sourceRuns]
  | cons g gs ih => grind [Machine.sourceRuns, enqueue]

theorem copySource_ok {c id a n : Nat} {x y : CopyCmd} {bs : List Byte} {bad : Bool} {t : State}
    (ht : copySource s c id x a n = .ok (bs, bad, y, t)) : InForm t := by
  grind [Machine.copySource, !engineAccess, engineRange, sourceRuns_ok, ERes.Keeps]

theorem copySource_error {c id a n : Nat} {x : CopyCmd} {r : CopyStep} (hr : copySource s c id x a n = .error r) : InForm r.2.2 := by
  grind [Machine.copySource, !engineAccess, engineRange, sourceRuns_error, ERes.Keeps, CopyCmd.stop, CopyCmd.hold]

theorem copyChecked (x : CopyCmd) (bs : List Byte) : InForm (copyChecked x bs s).2.2 := by
  grind [Machine.copyChecked, CopyCmd.stop]

theorem copyRecord (c id : Nat) (x : CopyCmd) : InForm (copyRecord s c id x).2.2 := by
  grind [Machine.copyRecord, copySource_ok, copySource_error, CopyCmd.stop, !copyChecked]

theorem copyBlur (c₀ id : Nat) (x : CopyCmd) (k : Nat) : InForm (copyBlur s c₀ id x k).2.2 := by
  unfold Machine.copyBlur
  split
  · exact h
  · split
    · exact h
    · rename_i g _ _
      have ht : InForm { s with freeCtr := s.freeCtr + g.len } := h.congr rfl rfl rfl rfl rfl
      extract_lets bs
      exact ht.engineWrite id (x.word c₀) [g] bs false fun _ => false

theorem gather (c id : Nat) (y : Layout) (base want fuel : Nat) (x : CopyCmd) : InForm (gather c id y base want fuel s x).2.2 := by
  induction fuel generalizing s x with
  | zero => exact h
  | succ fuel ih =>
    unfold Machine.gather
    split
    · exact h
    · extract_lets i
      split
      · exact h
      · split
        · next hr => exact h.copySource_error hr
        · next hr => exact ih (h.copySource_ok hr) _

theorem copyPiece (c₀ id : Nat) (x : CopyCmd) : InForm (copyPiece s c₀ id x).2.2 := by
  grind [Machine.copyPiece, CopyCmd.stop, CopyCmd.hold, !gather, !engineAccess, ERes.Keeps, engineRange, !engineWrite, copyBlur]

theorem copyEntry (c id : Nat) (x : CopyCmd) : InForm (copyEntry s c id x).2.2 := by
  grind [Machine.copyEntry, copySource_ok, copySource_error, CopyCmd.stop]

theorem copyLine (c₀ id : Nat) (x : CopyCmd) : InForm (copyLine s c₀ id x).2.2 := by
  unfold Machine.copyLine
  extract_lets y a
  split
  · exact h.copyBlur ..
  · have he := h.engineAccess (x.agent c₀) .store a 128 x.waits
    split <;> rename_i heq <;> rw [heq] at he
    · exact h
    · exact he
    · rename_i segs s'
      extract_lets t ready put
      have ht : InForm t := engineRange he ..
      split
      · exact ht
      · have hput (x : CopyCmd) {t : State} (n : Nat) (hu : InForm t) : InForm (put x t n).1 := hu.engineWrite ..
        clear_value put
        have hg := ht.gather c₀ id y (128 * x.pos) 128 129 { x with waits := waitsAfter x.waits a 128 }
        split <;> rename_i heq' <;> rw [heq'] at hg
        · split
          · exact hput _ _ hg
          · exact hg
        · exact foldl (fun t g ht => by split <;> grind [setLine]) _ (hput _ 128 hg)

theorem copyStep (c₀ id : Nat) (x : CopyCmd) : InForm (Machine.copyStep s c₀ id x).2.2 := by
  grind [Machine.copyStep, !copyRecord, !copyPiece, !copyEntry, !copyLine]

theorem copyRun (c id fuel : Nat) (x : CopyCmd) : InForm (copyRun c id fuel s x).2 := by
  induction fuel generalizing s x with
  | zero => exact h
  | succ fuel ih =>
    have hx := h.copyStep c id x
    unfold Machine.copyRun
    split <;> rename_i heq <;> rw [heq] at hx
    · exact ih hx _
    · exact hx

theorem execCopyLineFill (c₀ cmd : Nat) : NextInForm (Machine.execCopyLineFill c₀ cmd s) := by
  refine NextInForm.next ?_
  grind [setCopy, !copyStep]

theorem endCopy (c₀ id : Nat) (x : CopyCmd) : InForm (s.endCopy c₀ id x) := by
  grind [State.endCopy, setCore, core, updRec, complete]

theorem execCpyCompletion (c₀ cmd : Nat) : NextInForm (Machine.execCpyCompletion c₀ cmd s) := by
  refine NextInForm.next ?_
  grind [setCopy, !copyRun, endCopy]

theorem recordAccess (a n align : Nat) (k : Acc) : (s.recordAccess a n align k).Keeps := by
  grind [State.recordAccess, !access, ARes.Keeps]

theorem execSpawn (hd : Hdr) (f : FmtT) : NextInForm (Machine.execSpawn hd f s) := by
  refine h.runPlain ?_
  grind [writeSegs, launchErr, addRec, !recordAccess, WRes.Keeps, word, unpoisoned]

theorem execSpawnL (hd : Hdr) (f : FmtT) : NextInForm (Machine.execSpawnL hd f s) := by
  refine h.runPlain ?_
  grind [!recordAccess, mk_of, WRes.Keeps, word]

theorem depOp (p₀ ctx handle a : Nat) (add : Option Nat) : InForm (s.depOp p₀ ctx handle a add) := by
  grind [State.depOp, launchErr, marchWrite, readyRec]

theorem runDep (hd : Hdr) (f : FmtT) (add : Slot → Option Nat) : NextInForm (runDep hd f s add) :=
  h.runPlain (word (h.recordAccess ..) fun _ _ ht => ht.unpoisoned fun _ hu => hu.depOp ..)

theorem endWith (e : GroupEnd) : InForm (s.endWith e) := by
  grind [State.endWith, setMe]

theorem execSuspSuspend (hd : Hdr) (f : FmtT) : NextInForm (Machine.execSuspSuspend hd f s) := by
  refine h.runPlain ?_
  grind [endWith, !recordAccess, WRes.Keeps, word]

theorem execSuspYield (hd : Hdr) (_f : FmtT) : NextInForm (Machine.execSuspYield hd _f s) := by
  refine h.runPlain ?_
  grind [endWith, WRes.Keeps]

theorem execSuspFinish (hd : Hdr) (_f : FmtT) : NextInForm (Machine.execSuspFinish hd _f s) := by
  refine h.runPlain ?_
  grind [endWith, WRes.Keeps]

theorem barArrive (b : Nat) : InForm (s.barArrive b) := by
  grind [State.barArrive, setBlock]

theorem barWait (b : Nat) : InForm (s.barWait b) := by
  grind [State.barWait, startWait]

theorem execBarArrive (hd : Hdr) (f : FmtT) : NextInForm (Machine.execBarArrive hd f s) := by
  refine h.runPlain ?_
  grind [barArrive, WRes.Keeps]

theorem execBarWait (hd : Hdr) (f : FmtT) : NextInForm (Machine.execBarWait hd f s) := by
  refine h.runPlain ?_
  grind [barWait, WRes.Keeps]

theorem execBarBoth (hd : Hdr) (f : FmtT) : NextInForm (Machine.execBarBoth hd f s) := by
  refine h.runPlain ?_
  grind [barArrive, barWait, WRes.Keeps]

theorem runGetc (hd : Hdr) (f : FmtT) (v : State → Nat) : NextInForm (runGetc hd f s v) := h.runPlain (h.landNow ..)

end

end InForm
end Machine
end Sys2Proof
end

section
/-! SUPPORT. O25: the mailbox, the August queue and rings keep the form. -/

namespace Sys2Proof
namespace Machine
open Safety

namespace InForm

section
variable {s : State} (h : InForm s)
include h

theorem runRemote (hd : Hdr) (f : FmtF) (ask : Slot → RemoteAsk) (op : Nat) (mk : Slot → RemoteWord → RemoteWord) :
    NextInForm (runRemote hd f s ask op mk) := by
  refine h.runPlain ?_
  grind [await, sendRemote, WRes.Keeps]

theorem refuse (o : Owner) (code : Nat) : InForm (s.refuse o code) := by
  grind [State.refuse, setSlot, updRec, ownerCtx]

theorem post (x : Word) : InForm (s.post x) := by
  grind [State.post, setBlock]

theorem execMbxPost (hd : Hdr) (f : FmtT) : NextInForm (Machine.execMbxPost hd f s) := by
  refine h.runPlain ?_
  grind [post, WRes.Keeps]

theorem execMbxPostnb (hd : Hdr) (f : FmtT) : NextInForm (Machine.execMbxPostnb hd f s) := by
  refine h.runPlain ?_
  grind [landNow, post, WRes.Keeps]

theorem execMbxTake (hd : Hdr) (f : FmtT) : NextInForm (Machine.execMbxTake hd f s) := by
  refine h.runPlain ?_
  grind [setBlock, landNow, await, startWait, WRes.Keeps]

theorem execMbxStatus (hd : Hdr) (f : FmtT) : NextInForm (Machine.execMbxStatus hd f s) := by
  refine h.runPlain ?_
  grind [landNow, WRes.Keeps]

theorem execRack (hd : Hdr) (f : FmtT) : NextInForm (Machine.execRack hd f s) := by
  refine h.runPlain ?_
  grind [landRefusals, WRes.Keeps]

theorem testWatches : InForm s.testWatches := by
  grind [State.testWatches, mk_of]

theorem execQpost (hd : Hdr) (f : FmtF) : NextInForm (Machine.execQpost hd f s) := by
  refine h.runPlain ?_
  grind [setBlock, setMe, noteRange, refuse, !access, ARes.Keeps, WRes.Keeps]

theorem completionPair (q : QEntry) (code : Nat) : InForm (s.completionPair q code) := by
  grind [State.completionPair, writeSeg, ownerOor, !rmw]

theorem closeEntry (b no code : Nat) (q : QEntry) : InForm (s.closeEntry b no code q) := by
  grind [State.closeEntry, setBlock, marchLook, depOp, completionPair]

theorem endEntry (b no code : Nat) : InForm (s.endEntry b no code) := by
  grind [State.endEntry, setBlock, closeEntry]

theorem endHeld (b : Nat) : InForm (s.endHeld b) :=
  ite h (foldl (fun _ _ ht => by split <;> grind [closeEntry]) _ h)

theorem fire (b no : Nat) (q : QEntry) (late skew : Bool) : InForm (s.fire b no q late skew) := by
  grind [State.fire, setCore, core, setBlock, ownerCtx, endEntry]

theorem execQpostEntryFire (block entry : Nat) : NextInForm (Machine.execQpostEntryFire block entry s) := by
  refine NextInForm.next ?_
  grind [fire]

theorem execQpostTimedFire (block entry : Nat) : NextInForm (Machine.execQpostTimedFire block entry s) := by
  refine NextInForm.next ?_
  grind [fire]

theorem setRing (f : FmtT) (x : Word) : InForm (s.setRing f x) := by
  grind [State.setRing, setMyCore, myCore]

theorem setSlotLines (w : Word) (p : BitVec 2 → Bool) (x : BitVec 2) : InForm (s.setSlotLines w p x) :=
  foldl (fun _ _ ht => ite (ht.setLine ..) ht) _ h

theorem execRingBind (hd : Hdr) (f : FmtT) : NextInForm (Machine.execRingBind hd f s) := by
  refine h.runPlain ?_
  grind [setRing, WRes.Keeps]

theorem execRingGet (hd : Hdr) (f : FmtT) : NextInForm (Machine.execRingGet hd f s) := by
  refine h.runPlain ?_
  grind [landNow, await, startWait, WRes.Keeps]

theorem runCommit (hd : Hdr) (f : FmtT) (eos : Bool) : NextInForm (runCommit hd f s eos) := by
  refine h.runPlain ?_
  grind [setSlotLines, setRing, WRes.Keeps]

theorem execRingFree (hd : Hdr) (f : FmtT) : NextInForm (Machine.execRingFree hd f s) := by
  refine h.runPlain ?_
  grind [setRing, setSlotLines, WRes.Keeps]

theorem execRingStat (hd : Hdr) (f : FmtT) : NextInForm (Machine.execRingStat hd f s) := by
  refine h.runPlain ?_
  grind [landNow, WRes.Keeps]

end

end InForm
end Machine
end Sys2Proof
end

section
/-! SUPPORT. O25: the words of the engines keep the form. -/

namespace Sys2Proof
namespace Machine
open Safety

namespace InForm

section
variable {s : State} (h : InForm s)
include h

theorem setRun (c u : Nat) (r : Option Routine) : InForm (s.setRun c u r) := h.setCore c (h.core c)

theorem dropGhost (o : Owner) : InForm (s.dropGhost o) := by
  grind [State.dropGhost, clearSlot]

theorem endRoutine (c₀ u : Nat) (r : Routine) (token : Word) : InForm (s.endRoutine c₀ u r token) := by
  grind [State.endRoutine, complete, setRun, dropGhost]

theorem dropAhead (o : Owner) (u : Nat) : InForm (s.dropAhead o u) := by
  grind [State.dropAhead, setSlot]

theorem routineFault (c₀ u : Nat) (c : Cause) : InForm (s.routineFault c₀ u c) := by
  grind [State.routineFault, deferTrap, endRoutine, dropAhead]

omit h in
/-- The word of an engine goes on as its effect keeps the form. -/
theorem runEng {hd : Hdr} {f : FmtE} {eff : Eng → State → GRes} (h : InForm s) (heff : ∀ g, (eff g s).Keeps) :
    NextInForm (runEng hd f s eff) := by
  refine NextInForm.next ?_
  split
  · next c u _ =>
    split
    · exact h
    · next r _ =>
      have he := heff (r.eng u)
      generalize eff (r.eng u) s = x at he
      cases x with
      | ok t => exact setRun he ..
      | fault c i t => exact routineFault he ..
      | walk a k t => exact he
      | stall => exact h
  · split
    · have he := heff (s.me.eng f.wu.toNat)
      generalize eff (s.me.eng f.wu.toNat) s = x at he
      cases x with
      | ok t => exact (markPerf he).finishWord
      | fault c i t => exact (noteTrap he ..).finishWord
      | walk a k t => exact (noteWalk he ..).finishWord
      | stall => exact h
    · exact h.markPerf.finishWord

theorem padRead {a n align : Nat} {eff : List Byte → State → GRes} (heff : ∀ bs t, InForm t → (eff bs t).Keeps) :
    (s.padRead a n align eff).Keeps := by
  unfold State.padRead
  split
  · exact h
  · split
    · exact h
    · exact heff _ _ (h.noteRange ..)

theorem padWrite (a : Nat) (segs : List Seg) (bs : List Byte) : InForm (s.padWrite a segs bs) := by
  grind [State.padWrite, writeSegs, noteRange]

theorem setCfg (g : Eng) (v : BitVec 32) : (Machine.setCfg g v s).Keeps := by
  grind [Machine.setCfg, setMe, GRes.Keeps]

theorem execWcfg (hd : Hdr) (f : FmtE) : NextInForm (Machine.execWcfg hd f s) := by
  refine h.runEng fun g => ?_
  grind [!setCfg]

theorem execWcfgEg (hd : Hdr) (f : FmtE) : NextInForm (Machine.execWcfgEg hd f s) := by
  refine h.runEng fun g => ?_
  grind [!setCfg]

theorem runPack (limb rev : Bool) (hd : Hdr) (f : FmtE) : NextInForm (runPack limb rev hd f s) :=
  h.runEng fun _ => h.padRead fun _ _ ht => ht.setMyCore ht.myCore

theorem runDigits (m : DigitMode) (mac : Bool) (hd : Hdr) (f : FmtE) : NextInForm (runDigits m mac hd f s) := by
  refine h.runEng fun g => ?_
  grind [digitProduct_scr, setMyCore, myCore, setMe, GRes.Keeps]

theorem portFree (hd : Word) : InForm (s.portFree hd).2 := by
  grind [State.portFree, setSlotLines]

theorem portDone (key : Nat) (p : Port) (skip : Bool) (pos n : Nat) : InForm (s.portDone key p skip pos n) := by
  grind [State.portDone, setMe, !portFree]

theorem portAhead (key : Nat) (p : Port) (hd : Word) (pos line : Nat) : InForm (s.portAhead key p hd pos line) := by
  grind [State.portAhead, setMe]

theorem spend (t : Tile) : InForm (s.spend t) := by
  grind [State.spend, mk_of]

theorem setTile (n u : Nat) (t : Tile) (f : BitVec 6) : InForm (s.setTile n u t f) :=
  (h.spend (s.tile n)).setMyCore (h.spend (s.tile n)).myCore

theorem noteAdded (n : Nat) : InForm (s.noteAdded n) := by
  grind [State.noteAdded, setRun]

theorem outerEnter (g : Eng) (f : FmtE) (e : FtEnt) (clear sparse : Bool) (pa pb : Port) (a b : Bool × Word × Nat) :
    (Machine.outerEnter g f e clear sparse s pa pb a b).Keeps := by
  grind [Machine.outerEnter, setMyCore, myCore, portDone, setTile, noteAdded, GRes.Keeps]

theorem outerWord (g : Eng) (f : FmtE) (clear sparse : Bool) : (outerWord g f clear sparse s).Keeps := by
  unfold Machine.outerWord
  split
  · exact h
  · extract_lets l pa pb noEntry
    split
    · exact h
    · exact h
    · trivial
    · trivial
    · split
      · split
        · trivial
        · exact h
      · exact h.outerEnter ..

theorem runOuter (clear sparse : Bool) (hd : Hdr) (f : FmtE) : NextInForm (Machine.runOuter clear sparse hd f s) := by
  grind [Machine.runOuter, runEng, !outerWord]

theorem isat (u : Nat) (on : Bool) : InForm (s.isat u on) := ite (h.setMyCore h.myCore) h

theorem runExtrDigits (limb : Bool) (hd : Hdr) (f : FmtE) : NextInForm (runExtrDigits limb hd f s) := by
  refine h.runEng fun g => ?_
  grind [padWrite, isat, GRes.Keeps]

theorem execExtrDigs (hd : Hdr) (f : FmtE) : NextInForm (Machine.execExtrDigs hd f s) := by
  refine h.runEng fun g => ?_
  grind [landNow, GRes.Keeps]

theorem runExtrTile (clr : Bool) (hd : Hdr) (f : FmtE) : NextInForm (runExtrTile clr hd f s) := by
  refine h.runEng fun g => ?_
  extract_lets l
  split
  · exact h
  · split
    · exact h
    · split
      · exact h
      · exact foldl (fun _ _ ht => ht.padWrite ..) _ (h.setTile ..)

theorem execWclr (hd : Hdr) (f : FmtE) : NextInForm (Machine.execWclr hd f s) := by
  refine h.runEng fun g => ?_
  grind [setMyCore, myCore, GRes.Keeps]

theorem execWmov (hd : Hdr) (f : FmtE) : NextInForm (execWmov hd f s) := by
  unfold Machine.execWmov
  generalize engFile f.ed = n
  generalize List.range 96 = l
  generalize List.range 192 = l'
  refine h.runEng fun g => ?_
  split
  · exact h.setMyCore h.myCore
  · exact h.setMyCore h.myCore
  · extract_lets id c i j
    clear_value i j
    split
    exact ite (h.setTile ..) ((h.setTile ..).setTile ..)

theorem bindPort (key : Nat) (p : Port) : InForm (Machine.bindPort key p s) := by
  grind [Machine.bindPort, setMe]

theorem runSbind (port : Nat) (hd : Hdr) (f : FmtE) : NextInForm (runSbind port hd f s) := by
  refine h.runEng fun g => ?_
  grind [bindPort, GRes.Keeps]

theorem execSbindUnbind (hd : Hdr) (f : FmtE) : NextInForm (Machine.execSbindUnbind hd f s) := by
  refine h.runEng fun g => ?_
  grind [bindPort, GRes.Keeps]

theorem execMpld (hd : Hdr) (f : FmtE) : NextInForm (Machine.execMpld hd f s) := by
  refine h.runEng fun g => ?_
  grind [setMe, GRes.Keeps]

theorem execFtld (hd : Hdr) (f : FmtE) : NextInForm (Machine.execFtld hd f s) := by
  refine h.runEng fun g => ?_
  grind [setMyCore, myCore, GRes.Keeps]

theorem execScld (hd : Hdr) (f : FmtE) : NextInForm (execScld hd f s) := by
  refine h.runEng fun g => ?_
  split
  · exact h
  · exact h.setMyCore h.myCore

theorem execScldRd (hd : Hdr) (f : FmtE) : NextInForm (Machine.execScldRd hd f s) := by
  refine h.runEng fun g => ?_
  grind [landNow, GRes.Keeps]

theorem execMetaqPush (hd : Hdr) (f : FmtE) : NextInForm (Machine.execMetaqPush hd f s) := by
  refine h.runEng fun g => ?_
  grind [setMyCore, myCore, landNow, !padRead, GRes.Keeps]

theorem execMetaqClear (hd : Hdr) (f : FmtE) : NextInForm (Machine.execMetaqClear hd f s) := by
  refine h.runEng fun g => ?_
  grind [setMyCore, myCore, GRes.Keeps]

theorem execWstat (hd : Hdr) (f : FmtE) : NextInForm (Machine.execWstat hd f s) := by
  refine h.runEng fun g => ?_
  grind [landNow, GRes.Keeps]

theorem execWstatClr (hd : Hdr) (f : FmtE) : NextInForm (execWstatClr hd f s) := h.runEng fun _ => h.setMyCore h.myCore

end

end InForm
end Machine
end Sys2Proof
end

section
/-! SUPPORT. O25: the fetch of a group and the routines of the sequencers keep the form. -/

namespace Sys2Proof
namespace Machine
open Safety

namespace InForm

section
variable {s : State} (h : InForm s)
include h

theorem fetchWords (g : Agent) (base : Word) (first fuel pc : Nat) : (fetchWords s g base first fuel pc).Keeps := by
  induction fuel generalizing s pc with
  | zero => exact h
  | succ fuel ih =>
    have hr := h.resolve g .exec (base + BitVec.ofNat 64 (10 * pc)).toNat 10
    unfold Machine.fetchWords
    extract_lets a
    split <;> rename_i heq <;> rw [heq] at hr
    · exact h
    · exact h
    · exact hr
    · split
      · exact hr
      · split
        · exact hr
        · exact hr
        · extract_lets w
          split
          · exact hr
          · have hw := ih hr (pc + 1)
            split
            · next heq => rw [heq] at hw; exact hw
            · exact hw

theorem fetchGroup : (Machine.fetchGroup s).Keeps := by
  grind [Machine.fetchGroup, !fetchWords]

theorem loadStore (tag a n pos : Nat) (words : Bool) : (loadStore tag a n pos words s).Keeps := by
  unfold Machine.loadStore
  split
  · exact h
  · split
    · exact h
    · split
      · exact h
      · have ha := h.access .load a n 2 true
        split <;> rename_i heq <;> rw [heq] at ha
        · exact ha
        · exact ha
        · rename_i segs t
          split
          · exact ha
          · extract_lets t' id put
            have hput (o : Nat) (bs : List Byte) {t : State} (ht : InForm t) : InForm (put t o bs) :=
              ht.setMyCore (by grind [landStore_scr, patchEntries_scr, myCore])
            clear_value put
            refine List.foldlRecOn (motive := fun acc : State × Nat => InForm acc.1) segs _ (noteRange ha ..) fun acc hacc g _ => ?_
            split
            · have hload (n : Nat) : InForm (acc.1.setMyCore { acc.1.myCore with loading := n }) := hacc.setMyCore hacc.myCore
              exact ((hload _).sendRemote _).await ..
            · exact hput _ _ (hacc.readOwn g)

theorem execMldr (hd : Hdr) (f : FmtE) : NextInForm (Machine.execMldr hd f s) := by
  refine h.runEng fun g => ?_
  grind [!loadStore, GRes.Keeps]

theorem execMldrEntries (hd : Hdr) (f : FmtE) : NextInForm (Machine.execMldrEntries hd f s) := by
  refine h.runEng fun g => ?_
  grind [!loadStore]

theorem execMcall (hd : Hdr) (f : FmtE) : NextInForm (execMcall hd f s) := by
  refine h.runEng fun g => ?_
  grind [landNow, setMyCore, myCore, setWm_scr, startRoutine_scr, GRes.Keeps, await]

theorem execRoutineStart (c₀ wm : Nat) : NextInForm (execRoutineStart c₀ wm s) :=
  NextInForm.next (h.setCore c₀ (by rw [startRoutine_scr]; exact h.core c₀))

omit h in
theorem runSeq {eff : Eng → Routine → State → Except Cause (Routine × State)} (h : InForm s)
    (heff : ∀ g r r' t, eff g r s = .ok (r', t) → InForm t) : NextInForm (runSeq s eff) := by
  refine NextInForm.next ?_
  split
  · exact h.takeTrap ..
  · split
    · exact h
    · split
      · next hr => exact (heff _ _ _ _ hr).setRun ..
      · exact h.routineFault ..

theorem execMloop (u0 : Hdr) (f : FmtE) : NextInForm (Machine.execMloop u0 f s) := by
  refine h.runSeq fun g r r' t ht => ?_
  grind

theorem execMjmp (u0 : Hdr) (f : FmtE) : NextInForm (Machine.execMjmp u0 f s) := by
  refine h.runSeq fun g r r' t ht => ?_
  grind

theorem closeAdded (u : Nat) (ns : List Nat) : InForm (s.closeAdded u ns) := foldl (fun _ _ ht => ht.setTile ..) _ h

theorem execMret (u0 : Hdr) (u1 : FmtE) : NextInForm (Machine.execMret u0 u1 s) := by
  refine h.runSeq fun g r r' t ht => ?_
  grind [closeAdded]

theorem execRoutineCompletion (c₀ wm : Nat) : NextInForm (Machine.execRoutineCompletion c₀ wm s) := by
  refine NextInForm.next ?_
  grind [endRoutine]

theorem execStreamFetch (c₀ wm port : Nat) : NextInForm (execStreamFetch c₀ wm port s) := by
  refine NextInForm.next ?_
  split
  · exact h
  · extract_lets cur s' p go
    have hs : InForm s' := h.congr rfl rfl rfl rfl rfl
    have hgo (f : FmtE) (sparse : Bool) : InForm (go f sparse) := by grind [portAhead, mk_of]
    clear_value go
    split
    · exact h
    · split
      · exact hgo ..
      · exact hgo ..
      · exact hgo ..
      · exact hgo ..
      · exact h

end

end InForm
end Machine
end Sys2Proof
end

section
/-! SUPPORT. O25: egress and the packets that arrive keep the form. -/

namespace Sys2Proof
namespace Machine
open Safety

namespace InForm

section
variable {s : State} (h : InForm s)
include h

theorem setLink (i : Nat) (x : Link) : InForm (s.setLink i x) := by
  grind [State.setLink, mk_of]

theorem sendData (i vc : Nat) : InForm (s.sendData i vc) := by
  grind [State.sendData, setLink, mk_of]

theorem sendControl (i kind : Nat) (args : List Nat) : InForm (s.sendControl i kind args) := by
  grind [State.sendControl, setLink]

theorem linkSend (chip : Nat) (p : Packet) {t : State} (ht : s.linkSend chip p = some t) : InForm t := by
  grind [State.linkSend, mk_of]

theorem flushLink (i fuel : Nat) : InForm (s.flushLink i fuel) := by
  induction fuel generalizing s with
  | zero => exact h
  | succ fuel ih =>
    unfold State.flushLink
    extract_lets l
    split
    · exact h
    · split
      · exact ih (h.setLink ..)
      · split
        · exact ih (h.sendData ..)
        · exact ite (h.setLink ..) h

theorem flushLinks : InForm s.flushLinks := ite h (foldl (fun _ _ ht => ht.flushLink ..) _ h)

theorem landBytes (o : Owner) (t seq pos : Nat) (bs : List Byte) : InForm (s.landBytes o t seq pos bs) := by
  unfold State.landBytes
  extract_lets p
  split
  · extract_lets l
    split
    · exact h
    · split <;> exact h.setSlot ..
  · split
    · exact h
    · exact InForm.complete (foldl (fun _ _ ht => foldl (fun _ _ hu => ite (hu.patchFrame ..) hu) _ ht) _ h) ..
  · exact h

theorem updWord (c₀ seq : Nat) (f : RemoteWord → RemoteWord) : InForm (s.updWord c₀ seq f) := by
  grind [State.updWord, setBlock]

theorem landFetch (w : RemoteWord) (bs : List Byte) (poison : Bool) : InForm (s.landFetch w bs poison) := by
  grind [State.landFetch, setSlot]

theorem serveRead (w : RemoteWord) (bs : List Byte) (poison : Bool) (code : Nat) : InForm (s.serveRead w bs poison code) := by
  unfold State.serveRead
  split
  · extract_lets c
    split
    · exact h.setCore _ (h.core _)
    · exact h
  · exact h.updWord ..
  iterate 2
    extract_lets c c' t
    have hc : c'.scr = (s.core w.core).scr := by grind [landStore_scr, patchEntries_scr]
    have ht : InForm t := (h.setCore _ (by simpa [hc] using h.core w.core)).complete ..
    exact ite (ht.deferTrap ..) ht
  · exact h.landFetch ..
  · grind [complete, deferTrap, landBytes]

theorem ackCopy (w : RemoteWord) (code : Nat) : InForm (s.ackCopy w code) := by
  grind [State.ackCopy, setCore, core]

theorem endRemote (w : RemoteWord) (code : Nat) : InForm (s.endRemote w code) := by
  grind [State.endRemote, setCore, core, complete, refuse, endEntry, endHeld, serveRead, ackCopy]

theorem setTx (k : Nat) (x : TxPair) : InForm (s.setTx k x) := by
  grind [State.setTx, mk_of]

theorem popWord (k : Nat) (pseq : BitVec 32) {y : RemoteWord} {t : State} (ht : s.popWord k pseq = some (y, t)) : InForm t := by
  grind [State.popWord, setTx]

theorem linkSend_getD (chip : Nat) (p : Packet) : InForm ((s.linkSend chip p).getD s) := getD (fun _ ht => h.linkSend _ _ ht) h

theorem ackCore (p : Packet) (chip code : Nat) : InForm (s.ackCore p chip code) := by
  grind [State.ackCore, linkSend_getD, endRemote, popWord]

theorem endRound (r : Round) (code : Nat) : InForm (s.endRound r code) :=
  foldl (fun _ _ ht => ht.ackCore ..) _ (h.congr rfl rfl rfl rfl rfl)

theorem roundAck (id i code : Nat) : InForm (s.roundAck id i code) := by
  grind [State.roundAck, endRound, mk_of]

theorem ackWord (p : Packet) (chip code : Nat) : InForm (s.ackWord p chip code) := by
  grind [State.ackWord, popWord, ackCore, roundAck]

theorem wordRuns (q : SegAsk) (e : SegEnt) (pages : SMap PagePlan) (l : List (Nat × Nat)) : (s.wordRuns q e pages l).Keeps := by
  induction l generalizing s with
  | nil => exact h
  | cons x l ih =>
    unfold State.wordRuns
    split
    · exact h
    · have hp := h.planRuns q e pages (x.2 / 2 ^ 16 + 2) x.1 x.2
      split <;> rename_i heq
      · rw [heq] at hp
        have hw := ih hp
        split
        · next heq => rw [heq] at hw; exact hw
        · exact hw
      · exact hp

theorem applyRed (ty : BitVec 4) (runs : List Seg) (bs : List Byte) : InForm (s.applyRed ty runs bs) :=
  foldl (fun _ _ ht => ht.rmw ..) _ h

theorem fillLines (eos : Bool) (runs : List Seg) : InForm (s.fillLines eos runs) := foldl (fun _ _ ht => ht.setLine ..) _ h

theorem respArrives (p : Packet) : InForm (s.respArrives p) := by
  grind [State.respArrives, serveRead, endRemote, setTx, popWord]

theorem applyWord (q : SegAsk) (ps : List Packet) (runs flag : List Seg) : InForm (s.applyWord q ps runs flag) := by
  unfold State.applyWord
  extract_lets p z bs signal self n bad
  have hsignal {t : State} (ht : InForm t) : InForm (signal t) := ite ht (ht.rmw ..)
  split
  · exact (hsignal (h.applyRed ..)).ackWord ..
  · exact (h.rmw ..).ackWord ..
  iterate 2
    split
    next x t hx =>
      have ht : InForm t := by grind [!rmw]
      exact foldl (fun _ _ ht => ite (ht.respArrives _) (ht.linkSend_getD ..)) _ ht
  · exact (hsignal (ite ((h.writeSegs ..).fillLines ..) (h.writeSegs ..))).ackWord ..

theorem finishCollected (ps : List Packet) (x : RxPair) : (s.finishCollected ps x).Keeps := by
  unfold State.finishCollected
  extract_lets p z no q f sig parts
  have hno (c : Nat) {t : State} (ht : InForm t) : (no c t).Keeps := ht.ackWord ..
  clear_value no
  split
  · exact hno _ h
  · next e _ =>
    split
    · split
      · exact hno _ h
      · have hw := h.wordRuns q e x.pages parts
        split <;> rename_i heq <;> rw [heq] at hw
        · exact hno _ hw
        · exact hw
        · split
          · exact applyWord hw ..
          · have hf := segXlate hw { q with acc := .atomic } e f 8
            split <;> rename_i heq <;> rw [heq] at hf
            · exact hno _ hf
            · exact hf
            · exact applyWord hf ..
    · exact hno _ h

theorem setRx (k : Nat) (x : RxPair) : InForm (s.setRx k x) := by
  grind [State.setRx, mk_of]

theorem decideWord {x y : RxPair} {p : Packet} {t : State} (ht : s.decideWord x p = (y, t)) : InForm t := by
  unfold State.decideWord at ht
  grind [segDenied]

theorem portPacket {p : Packet} {r : Got} (hr : s.portPacket p = r) : r.Keeps := by
  unfold State.portPacket at hr
  grind [decideWord, !finishCollected, setRx, Got.Keeps]

theorem drainPair {proc : State → Packet → Got} (hproc : ∀ s p r, InForm s → proc s p = r → r.Keeps) (k fuel : Nat) :
    InForm (State.drainPair proc k fuel s) := by
  induction fuel generalizing s with
  | zero => exact h
  | succ fuel ih =>
    unfold State.drainPair
    extract_lets x
    split
    · exact h
    · next p _ =>
      extract_lets t
      have hp := hproc t p _ (h.setRx ..) rfl
      split <;> rename_i heq <;> rw [heq] at hp
      · exact ih hp
      · exact setRx hp ..

theorem portTakes {proc : State → Packet → Got} (hproc : ∀ s p r, InForm s → proc s p = r → r.Keeps) (p : Packet) :
    InForm (State.portTakes proc s p) := ite h ((h.setRx ..).drainPair hproc ..)

theorem switchSend (chip : Nat) (p : Packet) : InForm (s.switchSend chip p) := by
  grind [State.switchSend, linkSend, ackWord, portTakes, !portPacket]

theorem combine (r : Round) (members : List Nat) : InForm (s.combine r members) :=
  foldl (fun _ _ ht => foldl (fun _ _ hu => hu.switchSend ..) _ (ht.setTx ..)) _ (h.congr rfl rfl rfl rfl rfl)

theorem expireRounds (job group limit : Nat) : InForm (s.expireRounds job group limit) :=
  foldl (fun _ _ ht => ite (ht.endRound ..) ht) _ h

theorem contribute {ps : List Packet} {r : Got} (hr : s.contribute ps = r) : r.Keeps := by
  unfold State.contribute at hr
  extract_lets p z job group at hr
  split at hr
  · grind [ackCore, Got.Keeps]
  · next g _ =>
    have ht := h.expireRounds job group g.timeout
    grind [endRound, combine, Got.Keeps, mk_of]

theorem anyPacket {p : Packet} {r : Got} (hr : s.anyPacket p = r) : r.Keeps := by
  unfold State.anyPacket at hr
  split at hr
  · exact h.portPacket hr
  · extract_lets k x ps at hr
    subst hr
    split
    · exact h.setRx ..
    · split <;> rename_i heq
      · exact setRx (h.contribute heq) ..
      · exact h.contribute heq

theorem settle : InForm s.settle := foldl (fun _ _ ht => ht.drainPair (fun _ _ _ hs hr => hs.anyPacket hr) ..) _ h

theorem route (chip : Nat) (p : Packet) : InForm (s.route chip p) := by
  grind [State.route, linkSend, ackWord, portTakes, !anyPacket]

theorem arrives (p : Packet) : InForm (s.arrives p) := by
  have hport : InForm (State.portTakes State.anyPacket s p) := h.portTakes (fun _ _ _ hs hr => hs.anyPacket hr) p
  grind [State.arrives, linkSend_getD, endRemote, popWord, roundAck, respArrives]

theorem pullSource (parts : List (Nat × Nat)) (fuel : Nat) (w : RemoteWord) : (pullSource parts fuel w s).Keeps := by
  induction fuel generalizing s w with
  | zero => exact h
  | succ fuel ih => grind [Machine.pullSource, !engineAccess, engineRange, ERes.Keeps, Pull.Keeps]

theorem transmit (w : RemoteWord) (chip : Nat) : InForm (s.transmit w chip) := foldl (fun _ _ ht => ht.route ..) _ (h.setTx ..)

theorem askPeer (w : RemoteWord) (chip q n : Nat) : InForm (s.askPeer w chip q n) := by
  grind [State.askPeer, setCore, core, updWord, transmit]

/-- What a pull leaves for a queue to do: end the word, keep it, ask a chip, or send it on. -/
theorem egress (b : Nat) (src : EgressSrc) : InForm (s.egress b src) := by
  unfold State.egress
  split
  · exact h
  · next w _ =>
    extract_lets refuse send copy ps fuel
    have hrefuse (c : Nat) {t : State} (ht : InForm t) : InForm (refuse c t) := (ht.setBlock ..).endRemote ..
    clear_value refuse
    have hsend (w : RemoteWord) {t : State} (ht : InForm t) : InForm (send w t) := by grind [updWord, transmit, setBlock]
    clear_value send
    split
    · exact hrefuse _ h
    · have hp := h.pullSource ps fuel w
      split <;> rename_i heq <;> rw [heq] at hp
      · exact hrefuse _ hp
      · exact updWord hp ..
      · exact (updWord hp ..).askPeer ..
      · next x t =>
        split
        · extract_lets x y ps fuel t
          split
          · exact hrefuse _ hp
          · split
            · exact hrefuse _ (updWord hp ..)
            · have hq := (updWord hp x.core x.seq fun _ => x).pullSource ps fuel x
              split <;> rename_i heq <;> rw [heq] at hq
              · exact hrefuse _ hq
              · exact updWord hq ..
              · exact (updWord hq ..).askPeer ..
              · exact hsend _ hq
        · exact hsend _ hp

theorem execEgressAccept (block : Nat) (src : EgressSrc) : NextInForm (Machine.execEgressAccept block src s) := by
  refine NextInForm.next ?_
  grind [settle, egress]

theorem packetEvent (op : BitVec 8) (p : Packet) : NextInForm (packetEvent op p s) := NextInForm.next (h.arrives _).settle

theorem execPutPkt (p : Packet) : NextInForm (Machine.execPutPkt p s) := by
  grind [Machine.execPutPkt, packetEvent]

theorem execRedPkt (p : Packet) : NextInForm (Machine.execRedPkt p s) := by
  grind [Machine.execRedPkt, packetEvent]

theorem execSemPkt (p : Packet) : NextInForm (Machine.execSemPkt p s) := by
  grind [Machine.execSemPkt, packetEvent]

theorem execMcredContribution (p : Packet) : NextInForm (Machine.execMcredContribution p s) := by
  grind [Machine.execMcredContribution, packetEvent]

theorem execMcdata (p : Packet) : NextInForm (Machine.execMcdata p s) := by
  grind [Machine.execMcdata, packetEvent]

theorem execReadPkt (p : Packet) : NextInForm (Machine.execReadPkt p s) := by
  grind [Machine.execReadPkt, packetEvent]

theorem execAtomic (p : Packet) : NextInForm (Machine.execAtomic p s) := by
  grind [Machine.execAtomic, packetEvent]

theorem execRespPkt (p : Packet) : NextInForm (Machine.execRespPkt p s) := by
  grind [Machine.execRespPkt, packetEvent]

theorem execAckPkt (p : Packet) : NextInForm (Machine.execAckPkt p s) := by
  grind [Machine.execAckPkt, packetEvent]

theorem execMcredRoundTimeout (job group : Nat) : NextInForm (Machine.execMcredRoundTimeout job group s) := by
  refine NextInForm.next ?_
  grind [expireRounds, settle]

end

end InForm
end Machine
end Sys2Proof
end

section
/-! SUPPORT. O25: the hosts' queues and extents keep the form. -/

namespace Sys2Proof
namespace Machine
open Safety

namespace InForm

section
variable {s : State} (h : InForm s)
include h

omit h in
theorem cpWrite {port : Nat} {f : State → State} (h : InForm s) (hf : InForm (f s)) : InForm (s.cpWrite port f) :=
  ite hf (h.congr rfl rfl rfl rfl rfl)

theorem setOwner (owner : Nat) : InForm (s.setOwner owner) := by
  grind [State.setOwner, mk_of]

theorem execCpsem (port : Nat) (value : BitVec 64) (other : Option (BitVec 64)) : NextInForm (Machine.execCpsem port value other s) := by
  refine NextInForm.next ?_
  grind [setOwner]

theorem execHostLinkDown (port : Nat) : NextInForm (Machine.execHostLinkDown port s) := by
  refine NextInForm.next ?_
  grind [setOwner, mk_of]

omit h in
theorem regionWrite {fn p₀ : Nat} {f : State → State} (h : InForm s) (hf : InForm (f s)) : InForm (s.regionWrite fn p₀ f) :=
  ite (h.cpWrite hf) h

theorem execEvtdoor (port p₀ : Nat) : NextInForm (execEvtdoor port p₀ s) :=
  NextInForm.next (h.regionWrite (foldl (fun _ _ ht => ht.raiseEvt ..) _ h))

theorem setQif (i : Nat) (x : Qif) : InForm (s.setQif i x) := by
  grind [State.setQif, mk_of]

theorem msix (port p₀ vec : Nat) : InForm (s.msix port p₀ vec) := by
  grind [State.msix, mk_of]

theorem refusePacket (i : Nat) (pasid : BitVec 20) (status : Nat) : InForm (s.refusePacket i pasid status) := by
  grind [State.refusePacket, setQif, msix]

theorem execQerrClear (port q : Nat) : NextInForm (Machine.execQerrClear port q s) := by
  refine NextInForm.next ?_
  grind [cpWrite, setQif]

theorem dmaNote (port : Nat) (pasid : BitVec 20) (a : Nat) : InForm (s.dmaNote port pasid a) := by
  grind [State.dmaNote, mk_of]

theorem dmaWrites (l : List (Nat × Nat)) (bs : List Byte) : InForm (s.dmaWrites l bs) := by
  induction l generalizing s bs with
  | nil => exact h
  | cons x l ih => exact ih (h.dmaWrite ..) _

theorem completePacket (i status : Nat) (result : Nat) : InForm (s.completePacket i status result) := by
  grind [State.completePacket, setQif, msix, dmaNote, dmaWrites]

theorem packetLaunch (i : Nat) (p : ReqPacket) : InForm (s.packetLaunch i p) := by
  grind [State.packetLaunch, setQif, mk_of]

theorem packetDepsig (i : Nat) (p : ReqPacket) : InForm (s.packetDepsig i p) := by
  grind [State.packetDepsig, depOp, setQif, completePacket, !resolve, RRes.Keeps]

theorem addAt (l : Loc) (x : Word) : InForm (s.addAt l x) := by
  grind [State.addAt, writeSeg]

theorem packetFlagadd (i : Nat) (p : ReqPacket) : InForm (s.packetFlagadd i p) := by
  grind [State.packetFlagadd, completePacket, addAt]

theorem runQueue (i fuel : Nat) : InForm (State.runQueue i fuel s) := by
  induction fuel generalizing s with
  | zero => exact h
  | succ fuel ih =>
    unfold State.runQueue
    extract_lets x
    split
    · refine ih ?_
      split
      · exact h.packetLaunch ..
      · exact h.packetDepsig ..
      · exact h.packetFlagadd ..
      · exact h.completePacket ..
    · exact h

theorem resumeQueues : InForm s.resumeQueues := foldl (fun _ _ ht => ite ((ht.setQif ..).runQueue ..) ht) _ h

theorem packetIn (i : Nat) (p : ReqPacket) : InForm (s.packetIn i p) := by
  grind [State.packetIn, setQif, refusePacket, runQueue]

theorem execLaunchReq (port q : Nat) (p : ReqPacket) : NextInForm (Machine.execLaunchReq port q p s) := by
  refine NextInForm.next ?_
  grind [packetIn]

theorem execDepsig (port q : Nat) (p : ReqPacket) : NextInForm (Machine.execDepsig port q p s) := by
  refine NextInForm.next ?_
  grind [packetIn]

theorem execFlagadd (port q : Nat) (p : ReqPacket) : NextInForm (Machine.execFlagadd port q p s) := by
  refine NextInForm.next ?_
  grind [packetIn]

theorem execPacketNop (port q : Nat) (p : ReqPacket) : NextInForm (Machine.execPacketNop port q p s) := by
  refine NextInForm.next ?_
  grind [packetIn]

theorem execAtsInvalidation (port : Nat) (pasid : BitVec 20) (page : BitVec 64) :
    NextInForm (Machine.execAtsInvalidation port pasid page s) := by
  refine NextInForm.next ?_
  grind [mk_of]

theorem extErr (x : Nat) (m : BitVec 5) : InForm (s.extErr x m) := by
  grind [State.extErr, setExt]

theorem reply (r : HostReply) : InForm (s.reply r) := by
  grind [State.reply, mk_of]

theorem readView (host x line v : Nat) : InForm (s.readView host x line v) := by
  grind [State.readView, reply]

theorem hostWrite (host x line ofs : Nat) (bs : List Byte) : InForm (s.hostWrite host x line ofs bs) := by
  grind [State.hostWrite, writeSeg, extErr, reply]

theorem extPerform (host x line : Nat) (k : HostAccess) : InForm (s.extPerform host x line k) := by
  cases k with
  | read | readOwn => exact (h.setExt ..).reply ..
  | write => exact (h.setExt ..).hostWrite ..
  | writeBack => exact ite ((h.setExt ..).hostWrite ..) (h.reply ..)

theorem extServe (host x line : Nat) (k : HostAccess) : InForm (s.extServe host x line k) := by
  unfold State.extServe
  extract_lets e
  split
  · exact h.readView ..
  · exact (h.extErr ..).reply ..
  · exact (h.extErr ..).reply ..
  · exact ite (h.extPerform ..) (h.setExt ..)

theorem execHostExtentAccess (host ext line : Nat) (kind : HostAccess) :
    NextInForm (Machine.execHostExtentAccess host ext line kind s) := by
  refine NextInForm.next ?_
  grind [errRecord, reply, extServe]

theorem recallLines (x : Nat) (all : Bool) : InForm (s.recallLines x all) := by
  grind [State.recallLines, setExt]

theorem tryPins (x : Nat) : InForm (s.tryPins x) := by
  grind [State.tryPins, setExt, recallLines]

theorem endRecalls (x : Nat) : InForm (s.endRecalls x) := by
  have hserve {t : State} (ht : InForm t) (l : List Recall) :
      InForm (l.foldl (fun s r => match r.req with | some (h, k) => s.extServe h x r.line k | none => s) t) :=
    foldl (fun _ _ ht => by split; exacts [ht.extServe .., ht]) _ ht
  exact (((hserve (h.setExt ..) _).tryPins _).settle).resumeQueues

theorem execRecallResponse (x line host : Nat) (dirty : Option (List (BitVec 8))) :
    NextInForm (execRecallResponse x line host dirty s) := by
  refine NextInForm.next ?_
  refine ite h (InForm.endRecalls ?_ _)
  split
  · exact ite (InForm.extErr (h.setExt ..) ..) (InForm.writeSeg (h.setExt ..) ..)
  · exact h.setExt ..

theorem execRecallTimeout (ext line : Nat) : NextInForm (Machine.execRecallTimeout ext line s) := by
  refine NextInForm.next ?_
  grind [errRecord, setExt, endRecalls]

theorem execSnapviewPin (host ext : Nat) : NextInForm (Machine.execSnapviewPin host ext s) := by
  refine NextInForm.next ?_
  grind [setExt, tryPins]

theorem execSnapviewUnpin (host ext : Nat) : NextInForm (Machine.execSnapviewUnpin host ext s) := by
  refine NextInForm.next ?_
  grind [settle, resumeQueues, setExt]

theorem snapRetry : InForm s.snapRetry := ite h (foldl (fun _ _ ht => ht.writeSeg ..) _ (h.congr rfl rfl rfl rfl rfl))

theorem revoke (x : Nat) : InForm (s.revoke x) := by
  grind [State.revoke, setExt, recallLines]

theorem execExtentRevoke (port ext : Nat) : NextInForm (Machine.execExtentRevoke port ext s) := by
  refine NextInForm.next ?_
  grind [cpWrite, revoke]

theorem execDrainTimeout (x : Nat) : NextInForm (execDrainTimeout x s) :=
  NextInForm.next (ite h (foldl (fun _ _ ht => ht.reply _) _ (h.setExt ..)))

theorem zeroHbm (a n : Nat) : InForm (s.zeroHbm a n) := by
  have ht := h.touchCode false a n
  exact of_memories (Memory.wf_clear a n ht.hbm) ht.hostMem ht.cores ht.dies ht.parts

theorem zeroVersions (e : Extent) : InForm (s.zeroVersions e) := foldl (fun _ _ ht => ht.zeroHbm ..) _ h

theorem execExtentZeroing (ext : Nat) : NextInForm (Machine.execExtentZeroing ext s) := by
  refine NextInForm.next ?_
  grind [errRecord, setExt, recallLines, zeroHbm, zeroVersions, mk_of]

theorem execHostFlagAccess (host p₀ ofs : Nat) (kind : HostAccess) : NextInForm (execHostFlagAccess host p₀ ofs kind s) := by
  have hset (p : Partition) (hp : p.flagRam = (s.part p₀).flagRam) : InForm (s.setPart p₀ p) := h.setPart p₀ (hp ▸ h.part p₀)
  have hwrite (p : Partition) (a : Nat) (bs : List Byte) (hp : p.flagRam = Memory.write (s.part p₀).flagRam a bs) :
      InForm (s.setPart p₀ p) := h.setPart p₀ (hp ▸ Memory.wf_write a bs (h.part p₀))
  refine NextInForm.next ?_
  split
  · exact h.reply _
  · extract_lets p a line away
    split
    · exact InForm.reply (hset _ (by rfl)) _
    · exact InForm.reply (hset _ (by rfl)) _
    · exact InForm.reply (hwrite _ _ _ (by rfl)) _
    · exact ite (InForm.reply (hwrite _ _ _ (by rfl)) _) (h.reply _)

end

end InForm
end Machine
end Sys2Proof
end

section
/-! SUPPORT. O25: links and the regions of Equinox keep the form. -/

namespace Sys2Proof
namespace Machine
open Safety

namespace InForm

section
variable {s : State} (h : InForm s)
include h

theorem closeRekey (i : Nat) : InForm (s.closeRekey i) := by
  grind [State.closeRekey, setLink, sendControl]

theorem reroute (p : Packet) : InForm (s.reroute p) := by
  grind [State.reroute, linkSend_getD, ackWord]

theorem noteParent : InForm s.noteParent := by
  grind [State.noteParent, mk_of]

theorem fenceLink (i : Nat) : InForm (s.fenceLink i) := by
  unfold State.fenceLink
  extract_lets l back t fab u
  have ht : InForm t := h.setLink ..
  have hu : InForm u := InForm.noteParent (ht.congr rfl rfl rfl rfl rfl)
  exact foldl (fun _ _ ht => ht.reroute _) _ (hu.free.errRecord ..)

theorem execLaneFailure (link lane : Nat) (rx : Bool) : NextInForm (Machine.execLaneFailure link lane s rx) := by
  refine NextInForm.next ?_
  grind [setLink, settle, fenceLink]

theorem attemptFails (i : Nat) : InForm (s.attemptFails i) := by
  grind [State.attemptFails, setLink, settle, fenceLink]

theorem execRetrainTimeout (link : Nat) : NextInForm (Machine.execRetrainTimeout link s) := by
  refine NextInForm.next ?_
  grind [attemptFails]

theorem execRetrainingComplete (link : Nat) (lanes : List Nat) (ports : List Nat) (rxLanes : List Nat) :
    NextInForm (Machine.execRetrainingComplete link lanes s ports rxLanes) := by
  refine NextInForm.next ?_
  grind [setLink, settle, fenceLink, attemptFails]

theorem goBack (i : Nat) (seq : BitVec 10) : InForm (s.goBack i seq) := by
  grind [State.goBack, setLink]

theorem eraseOldKey (i : Nat) : InForm (s.eraseOldKey i) := by
  grind [State.eraseOldKey, setLink]

theorem exchange (t1 t2 t3 t4 : Nat) : InForm (s.exchange t1 t2 t3 t4) := by
  grind [State.exchange, !free, podMark, mk_of]

theorem control (i : Nat) (c : Nat × List Nat) : InForm (s.control i c) := by
  unfold State.control
  split
  · exact h.goBack ..
  · exact h.eraseOldKey ..
  · exact h.sendControl ..
  · exact ite (h.exchange ..) h
  · exact h

theorem execNakFlit (link : Nat) (seq : BitVec 10) : NextInForm (Machine.execNakFlit link seq s) := by
  refine NextInForm.next ?_
  grind [goBack]

theorem execKeydone (link : Nat) : NextInForm (Machine.execKeydone link s) := by
  refine NextInForm.next ?_
  grind [eraseOldKey]

theorem execTimeSyncExchange (t1 t2 t3 t4 : Nat) : NextInForm (Machine.execTimeSyncExchange t1 t2 t3 t4 s) := by
  refine NextInForm.next ?_
  grind [exchange]

theorem trackParent : InForm s.trackParent := by
  grind [State.trackParent, sendControl, noteParent, mk_of]

theorem discard (i : Nat) (tag : Bool) : InForm (s.discard i tag) := by
  grind [State.discard, setLink, sendControl]

theorem execFlitReceive (i : Nat) (flit : Flit) : NextInForm (execFlitReceive i flit s) := by
  refine NextInForm.next ?_
  extract_lets l good
  split
  · exact h
  · split
    · exact h.discard ..
    · split
      · exact h.discard ..
      · extract_lets plain vc
        split
        extract_lets t u
        have ht : InForm t := (h.setLink ..).closeRekey _
        have hu : InForm u := by
          unfold u
          split
          · split
            · exact ht.control ..
            · exact ht
          · exact ht
        exact (foldl (fun _ _ hv => hv.arrives _) _ hu).settle

theorem installKey (link : Nat) (tx : Bool) (key : BitVec 256) (salt : BitVec 32) : InForm (s.installKey link tx key salt) := by
  grind [State.installKey, setLink, closeRekey]

theorem execEquinoxBatchUpdate (block rslot : Nat) : NextInForm (Machine.execEquinoxBatchUpdate block rslot s) := by
  refine NextInForm.next ?_
  grind [setBlock]

theorem setRslot (i : Nat) (r : RSlot) : InForm (s.setRslot i r) := by
  grind [State.setRslot, setBlock]

theorem closeRegion : InForm s.closeRegion := by
  grind [State.closeRegion, setMe]

theorem spoilRegion : InForm s.spoilRegion := by
  grind [State.spoilRegion, setRslot]

theorem blurRegion : InForm s.blurRegion := by
  grind [State.blurRegion, setMe, setMyCore, myCore, mk_of]

theorem openRegion (region mode : Nat) (smp : Option ApxSample) : InForm (s.openRegion region mode smp) := by
  grind [State.openRegion, setMe]

theorem apxEntry : InForm s.apxEntry := by
  grind [State.apxEntry, closeRegion, spoilRegion]

theorem landHeld (fuel : Nat) : InForm (State.landHeld fuel s) := by
  induction fuel generalizing s with
  | zero => exact h
  | succ fuel ih => exact ite h (ih (h.setMe _))

theorem execApxb (hd : Hdr) (f : FmtE) : NextInForm (Machine.execApxb hd f s) := by
  refine h.runPlain ?_
  grind [setMe, setRslot, blurRegion, openRegion, apxEntry, landHeld, WRes.Keeps]

theorem execApxe (hd : Hdr) (f : FmtE) : NextInForm (Machine.execApxe hd f s) := by
  refine h.runPlain ?_
  grind [setRslot, closeRegion, spoilRegion, WRes.Keeps]

theorem execApxc (hd : Hdr) (_f : FmtE) : NextInForm (Machine.execApxc hd _f s) := by
  refine h.runPlain ?_
  grind [closeRegion, WRes.Keeps]

theorem execApxsRd (hd : Hdr) (f : FmtE) : NextInForm (Machine.execApxsRd hd f s) := by
  refine h.runPlain ?_
  grind [landNow, WRes.Keeps]

theorem execApxsWr (hd : Hdr) (f : FmtE) : NextInForm (Machine.execApxsWr hd f s) := by
  refine h.runPlain ?_
  grind [setRslot, WRes.Keeps]

theorem execApxsInv (hd : Hdr) (f : FmtE) : NextInForm (Machine.execApxsInv hd f s) := by
  refine h.runPlain ?_
  grind [setRslot, WRes.Keeps]

end

end InForm
end Machine
end Sys2Proof
end

section
/-! SUPPORT. O25: launches, Spring and Fall keep the form. -/

namespace Sys2Proof
namespace Machine
open Safety

namespace InForm

section
variable {s : State} (h : InForm s)
include h

theorem makeGang (p₀ : Nat) (bs : List Byte) (hd : Header) (handle g : Nat) : InForm (s.makeGang p₀ bs hd handle g) :=
  foldl (fun _ _ ht => (ht.marchWrite ..).addRec ..) _ h

theorem makeLaunch {i : Intake} {bs : List Byte} {hd : Header} {n : Nat} {t : State} (ht : s.makeLaunch i bs hd = some (n, t)) :
    InForm t := by
  unfold State.makeLaunch at ht
  extract_lets f n x t u ready at ht
  have hu : InForm u := foldl (fun _ _ hu => hu.makeGang ..) _ (h.congr rfl rfl rfl rfl rfl)
  grind

theorem intakeDone (i : Intake) (status result : Nat) : InForm (s.intakeDone i status result) := by
  grind [State.intakeDone, completePacket, runQueue]

theorem execLaunchIntake : NextInForm (execLaunchIntake s) := by
  refine NextInForm.next ?_
  split
  · exact h
  · next i rest _ =>
    split
    · exact h
    · extract_lets t
      have ht : InForm t := h.congr rfl rfl rfl rfl rfl
      clear_value t
      split
      · exact ht.intakeDone ..
      · next bs _ =>
        extract_lets a refuse
        have hrefuse (c : Nat) : InForm (refuse c) := InForm.intakeDone (ite ht (ht.marchWrite ..)) ..
        clear_value refuse
        grind [makeLaunch, intakeDone]

theorem raiseFlag (p₀ ctx : Nat) (a : Word) : InForm (s.raiseFlag p₀ ctx a) := by
  unfold State.raiseFlag
  split
  · next g _ =>
    have ht : InForm (g.foldl (fun s x => s.hostCopies x.loc x.len true) s) := foldl (fun _ _ ht => ht.hostCopies ..) _ h
    exact ite ht (ht.writeSegs ..)
  · exact h

theorem freeLaunch (handle : Nat) : InForm (s.freeLaunch handle) := by
  have hcores : InForm (s.cores.foldl (fun s (i, c) => if (c.region handle).isSome then
      s.setCore i { c with regions := c.regions.filter fun r => r.handle ≠ handle } else s) s) :=
    List.foldlRecOn (motive := InForm) _ _ h fun t ht x hx => ite (ht.setCore _ (List.all_eq_true.1 h.cores x hx)) ht
  exact List.foldlRecOn (motive := InForm) _ _ hcores fun t ht x hx => ite (ht.setDie _ (List.all_eq_true.1 hcores.dies x hx)) ht

theorem tryComplete (handle : Nat) : InForm (s.tryComplete handle) := by
  grind [State.tryComplete, updLaunch, marchWrite, msix, raiseFlag, freeLaunch]

theorem execLaunchCompletion (handle : Nat) : NextInForm (Machine.execLaunchCompletion handle s) := by
  refine NextInForm.next ?_
  grind [tryComplete]

theorem writeSf (p₀ stack n w : Nat) (x : Word) : InForm (s.writeSf p₀ stack n w x) := by
  grind [State.writeSf, mk_of]

theorem endSf (k : Nat) (r : SfRec) (code : Nat) (flag : Bool) : InForm (s.endSf k r code flag) := by
  grind [State.endSf, addAt, mk_of]

theorem bindSf (k : Nat) (r : SfRec) (c₀ base handle scratch : Nat) : InForm (s.bindSf k r c₀ base handle scratch) := by
  grind [State.bindSf, endSf, mk_of]

theorem bindRecords (c₀ p₀ handle job scratch : Nat) (coord : BitVec 32) :
    InForm (s.bindRecords c₀ p₀ handle job scratch coord) := by
  unfold State.bindRecords
  split
  · exact h
  · exact foldl (fun _ _ ht => ite (ht.bindSf ..) ht) _ h

theorem sfRuns (g : Agent) (k : Acc) (stack : Nat) (r : SfRec) (fuel q n : Nat) : (sfRuns g k stack r fuel q n s).Keeps := by
  induction fuel generalizing s q n with
  | zero => exact h
  | succ fuel ih =>
    unfold Machine.sfRuns
    split
    · exact h
    · split
      next a row _ =>
      extract_lets m
      have he := h.engineAccess g k a m r.waits
      clear_value m
      split
      · exact h
      · split <;> rename_i heq <;> rw [heq] at he
        · exact h
        · exact he
        · split
          · exact he
          · have hr := ih he (q + m) (n - m)
            split
            · next heq => rw [heq] at hr; exact hr
            · exact hr

theorem execSpringFill (stack rec : Nat) : NextInForm (Machine.execSpringFill stack rec s) := by
  refine NextInForm.next ?_
  grind [setLine, writeSeg, endSf, !sfRuns, SfRes.Keeps, mk_of]

theorem drainLines (c₀ first n i : Nat) (runs : List (List Seg)) : InForm (drainLines c₀ first n i runs s) := by
  induction n generalizing s i runs with
  | zero => exact h
  | succ n ih => exact ih (ite (foldl (fun _ _ ht => ht.poisonSeg _) _ (h.writeSegs ..)) (h.writeSegs ..)) ..

theorem slotRuns_ok {g : Agent} {stack : Nat} {r : SfRec} {n q : Nat} {l : List (List Seg)} {t : State}
    (ht : slotRuns g stack r n q s = .ok (l, t)) : InForm t := by
  induction n generalizing s q l with
  | zero => grind [slotRuns]
  | succ n ih => grind [slotRuns, !sfRuns, SfRes.Keeps]

theorem slotRuns_error {g : Agent} {stack : Nat} {r : SfRec} {n q : Nat} {x : SfRes}
    (hx : slotRuns g stack r n q s = .error x) : x.Keeps := by
  induction n generalizing s q with
  | zero => grind [slotRuns]
  | succ n ih => grind [slotRuns, !sfRuns, SfRes.Keeps]

theorem execFallDrain (stack rec : Nat) : NextInForm (execFallDrain stack rec s) := by
  have hput {t : State} (ht : InForm t) (k : Nat) (r : SfRec) : InForm { t with sf := Sparse.put t.sf k r } :=
    ht.congr rfl rfl rfl rfl rfl
  refine NextInForm.next ?_
  extract_lets k
  split
  · exact h
  · next r _ =>
    split
    · next core base handle _ _ =>
      split
      · exact h.endSf ..
      · extract_lets lines sb first st
        split
        · exact h
        · split
          · next hr => exact InForm.endSf (h.slotRuns_error hr) ..
          · next hr => exact hput (h.slotRuns_error hr) ..
          · next hr => exact h.slotRuns_error hr
          · next runs t hr =>
            extract_lets u v
            have hv : InForm v := foldl (fun _ _ hw => hw.setLine ..) _ ((h.slotRuns_ok hr).drainLines ..)
            clear_value v
            split
            · exact hv.endSf ..
            · split
              · exact hv.endSf ..
              · exact hput hv ..
    · exact h

end

end InForm
end Machine
end Sys2Proof
end

section
/-! SUPPORT. O25: the system words keep the form. -/

namespace Sys2Proof
namespace Machine
open Safety

namespace InForm

section
variable {s : State} (h : InForm s)
include h

omit h in
theorem runSys {hd : Hdr} {legal : Level → Bool} {eff : State → WRes} (h : InForm s) (heff : (eff s).Keeps) :
    NextInForm (runSys hd s legal eff) := by
  unfold Machine.runSys
  split
  · exact h.runPlain heff
  · exact NextInForm.next (h.takeTrap ..)

theorem execCsrRd (hd : Hdr) (f : FmtC) : NextInForm (Machine.execCsrRd hd f s) := by
  refine h.runSys ?_
  grind [landNow, WRes.Keeps]

theorem runCsr (hd : Hdr) (f : FmtC) (v : Word → Word → Word) : NextInForm (runCsr hd f s v) := h.runSys (h.setMe _)

theorem leaveWith (e : GroupEnd) : InForm (s.leaveWith e) := by
  grind [State.leaveWith, setMe]

theorem execRft (hd : Hdr) : NextInForm (Machine.execRft hd s) := by
  refine h.runSys ?_
  grind [leaveWith, WRes.Keeps]

theorem execHalt (hd : Hdr) : NextInForm (Machine.execHalt hd s) := by
  refine h.runSys ?_
  grind [setMyCore, myCore, leaveWith, WRes.Keeps]

theorem execWfe (hd : Hdr) : NextInForm (Machine.execWfe hd s) := by
  refine h.runSys ?_
  grind [setMe, WRes.Keeps]

theorem execWfeTimeout (c₀ slot : Nat) : NextInForm (Machine.execWfeTimeout c₀ slot s) := by
  refine NextInForm.next ?_
  grind [endWfe]

theorem writeBackPart (p₀ a n : Nat) : InForm (s.writeBackPart p₀ a n) := by
  grind [State.writeBackPart, flushHost]

theorem dropXlate (p₀ : Nat) (p : TlbEntry → Bool) : InForm (s.dropXlate p₀ p) := by
  unfold State.dropXlate
  extract_lets hit t keep cs ds
  have ht : InForm t := foldl (fun _ _ ht => ht.writeBackPart ..) _ h
  have hcores := ht.mapCores (f := fun x => { x.2 with tlb := keep x.2.tlb }) fun _ => rfl
  have hdies := hcores.mapDies (f := fun x => { x.2 with l2tlb := keep x.2.l2tlb, wcache := x.2.wcache.filter fun l => l.part ≠ p₀ })
    fun _ => rfl
  exact hdies.congr rfl rfl rfl rfl rfl

theorem runTlbi (hd : Hdr) (f : FmtRR) (p : Slot → TlbEntry → Bool) : NextInForm (runTlbi hd f s p) :=
  h.runSys ((h.dropXlate ..).landNow ..)

theorem ctxHeld (k : Acc) (a n : Nat) {y : Nat} {t : State} (ht : s.ctxHeld k a n = some (y, t)) : InForm t := by
  grind [State.ctxHeld, !resolve, RRes.Keeps]

theorem ctxAccess {k : Acc} {a n fuel : Nat} {gs : List Seg} {t : State} (ht : s.ctxAccess k a n fuel = some (gs, t)) : InForm t := by
  induction fuel generalizing s with
  | zero => simp [State.ctxAccess] at ht
  | succ fuel ih => grind [State.ctxAccess, !resolve, RRes.Keeps, !walkInstall, XRes.Keeps]

theorem ctxStatus (f : FmtRR) (x : Word) : (s.ctxStatus f x).Keeps := by
  grind [State.ctxStatus, landNow, WRes.Keeps]

theorem execCtxSave (hd : Hdr) (f : FmtRR) : NextInForm (execCtxSave hd f s) := by
  refine h.runSys ?_
  extract_lets a
  split
  · exact h.ctxStatus ..
  · split
    split
    · next hw => exact h.ctxHeld _ _ _ hw
    · split
      · exact h.ctxStatus ..
      · next segs t ht =>
        extract_lets u
        have hu : InForm u := (h.ctxAccess ht).congr rfl rfl rfl rfl rfl
        exact ((hu.noteRange ..).writeOwns ..).ctxStatus ..

theorem waitPlace (m : Mem) {y : Loc} {t : State} (ht : s.waitPlace m = some (y, t)) : InForm t := by
  grind [State.waitPlace, ctxAccess]

theorem restoreWait (m : Mem) (loc : Loc) : InForm (s.restoreWait m loc) := by
  grind [State.restoreWait, setMe, startWait]

theorem execCtxRestore (hd : Hdr) (f : FmtRR) : NextInForm (execCtxRestore hd f s) := by
  refine h.runSys ?_
  extract_lets a
  split
  · exact h.ctxStatus ..
  · split
    · next hw => exact h.ctxHeld _ _ _ hw
    · split
      · exact h.ctxStatus ..
      · split
        · exact h.ctxStatus ..
        · extract_lets head n
          split
          · exact h.ctxStatus ..
          · split
            · next hw => exact h.ctxHeld _ _ _ hw
            · split
              · exact h.ctxStatus ..
              · next segs t ht =>
                have ht := h.ctxAccess ht
                split
                · exact h.ctxStatus ..
                · have hread := ht.readOwns segs
                  split
                  next bs u hu =>
                  rw [hu] at hread
                  extract_lets m c
                  have hc : InForm (u.setMyCore c) := setMyCore hread (by unfold c; rw [dropRoutines_scr]; exact myCore hread)
                  clear_value c
                  split
                  · exact h.ctxStatus ..
                  · exact h.ctxStatus ..
                  · split
                    · exact h.ctxStatus ..
                    · split
                      · exact h.ctxStatus ..
                      · next loc v hv =>
                        have hv := hc.waitPlace _ hv
                        exact (((hv.noteRange ..).restoreFrame ..).restoreWait ..).ctxStatus ..

theorem walkDone (c₀ slot : Nat) : InForm (s.walkDone c₀ slot) := by
  grind [State.walkDone, setSlot]

theorem execPageWalkComplete (c₀ slot : Nat) : NextInForm (Machine.execPageWalkComplete c₀ slot s) := by
  refine NextInForm.next ?_
  grind [setSlot, setMe, faultRecord, takeTrap, closeBroken, walkDone, !walkInstall, XRes.Keeps, mk_of]

theorem execResultLanding (c₀ slot : Nat) : NextInForm (execResultLanding c₀ slot s) :=
  NextInForm.next (ite h (foldl (fun _ _ ht => ht.deferTrap ..) _ (h.setSlot ..).tick))

theorem execFltqptrHeadWrite (p₀ : Nat) (value : BitVec 32) : NextInForm (Machine.execFltqptrHeadWrite p₀ value s) := by
  refine NextInForm.next ?_
  grind [setHead]

theorem execFltqbaseWrite (p₀ : Nat) (value : BitVec 64) : NextInForm (Machine.execFltqbaseWrite p₀ value s) := by
  refine NextInForm.next ?_
  grind [setFltq]

end

end InForm
end Machine
end Sys2Proof
end

section
/-! SUPPORT. O25: March's decisions and commands keep the form. -/

namespace Sys2Proof
namespace Machine
open Safety

namespace InForm

section
variable {s : State} (h : InForm s)
include h

theorem bindRegion {b : Nat} {x : Launch} {r : Nat} {bs : List Byte} {t : State} (ht : s.bindRegion b x r bs = some t) : InForm t := by
  unfold State.bindRegion at ht
  extract_lets bl mine idle pick at ht
  clear_value pick
  cases pick <;> grind [setBlock]

theorem bindRegions {b : Nat} {x : Launch} {t : State} (ht : s.bindRegions b x = some t) : InForm t := by
  have hfold (l : List (List Byte × Nat)) : ∀ o : Option State, (∀ t, o = some t → InForm t) → ∀ t,
      l.foldl (fun o (bs, r) => o.bind fun s => s.bindRegion b x r bs) o = some t → InForm t := by
    induction l with
    | nil => exact fun _ ho => ho
    | cons y l ih =>
      refine fun o ho => ih _ fun t ht => ?_
      obtain ⟨u, hu, ht⟩ := Option.bind_eq_some_iff.1 ht
      exact (ho u hu).bindRegion ht
  unfold State.bindRegions at ht
  split at ht
  · grind
  · split at ht
    · simp at ht
    · exact hfold _ _ (by grind) _ ht

theorem placeFor {d c k : Nat} {x : Launch} {r : TRec} {t : State} (ht : s.placeFor d x r = some (c, k, t)) : InForm t := by
  have hmap {b c' k' : Nat} {y : Launch} (hb : ((s.bindRegions b y).map fun s => (c', k', s)) = some (c, k, t)) : InForm t := by
    obtain ⟨u, hu, hut⟩ := Option.map_eq_some_iff.1 hb
    simp only [Prod.mk.injEq] at hut
    exact hut.2.2 ▸ h.bindRegions hu
  unfold State.placeFor at ht
  extract_lets y at ht
  split at ht
  · split at ht
    · exact hmap ht
    · simp at ht
  · obtain ⟨c, _, hc⟩ := List.exists_of_findSome?_eq_some ht
    split at hc
    · split at hc
      · exact hmap hc
      · simp at hc
    · simp at hc

theorem failRec (d : Nat) (r : TRec) (err : Nat) : InForm (s.failRec d r err) := by
  grind [State.failRec, setDie, die, updLaunch, launchErr, marchWrite, exactRec, memberGone, freeCellOf]

theorem giveRegion (c : Nat) (x : Launch) : InForm (s.giveRegion c x) := by
  unfold State.giveRegion
  extract_lets co
  split
  · exact h
  · split
    · exact h
    · exact h.setCore c (Memory.wf_clear _ _ (h.core c))

theorem clearRanges (c : Nat) (i : TaskId) : InForm (s.clearRanges c i) := by
  grind [State.clearRanges, setCore, core]

theorem goOn (c k : Nat) : InForm (s.goOn c k) := by
  grind [State.goOn, setMe, takeTrap, mk_of]

theorem seat (d : Nat) (r : TRec) (c k : Nat) (st : TState) : InForm (s.seat d r c k st) := by
  grind [State.seat, updRec]

theorem dispatchTo (d : Nat) (launch : Launch) (r : TRec) (c k : Nat) : InForm (s.dispatchTo d launch r c k) := by
  grind [State.dispatchTo, setSlot, restoreFrame, marchLook, freeCellOf, bindRecords, failRec, giveRegion, clearRanges, goOn, seat]

theorem gangPlace {d b : Nat} {x : Launch} {lead : TRec} {rs : List TRec} {l : List (TRec × Nat × Nat)} {t : State}
    (ht : s.gangPlace d x lead rs = some (b, l, t)) : InForm t := by
  have hfold (b : Nat) (l : List TRec) : ∀ o : Option State, (∀ t, o = some t → InForm t) → ∀ t,
      l.foldl (fun o r => o.bind fun s => s.bindRegions b (asPlaced x r)) o = some t → InForm t := by
    induction l with
    | nil => exact fun _ ho => ho
    | cons r l ih =>
      refine fun o ho => ih _ fun t ht => ?_
      obtain ⟨u, hu, ht⟩ := Option.bind_eq_some_iff.1 ht
      exact (ho u hu).bindRegions ht
  unfold State.gangPlace at ht
  obtain ⟨c, _, hc⟩ := List.exists_of_findSome?_eq_some ht
  split at hc
  · obtain ⟨u, hu, hut⟩ := Option.map_eq_some_iff.1 hc
    simp only [Prod.mk.injEq] at hut
    exact hut.2.2 ▸ hfold _ _ _ (by grind) u hu
  · simp at hc

theorem seatGang (b : Nat) (x : Launch) (lead : TRec) (rs : List TRec) : InForm (s.seatGang b x lead rs) := by
  grind [State.seatGang, setBlock]

theorem dispatchGang (d b : Nat) (x : Launch) (lead : TRec) (l : List (TRec × Nat × Nat)) : InForm (s.dispatchGang d b x lead l) :=
  foldl (fun _ _ ht => ite (ht.updRec ..) (ht.dispatchTo ..)) _ (h.seatGang ..)

theorem tryWork {d : Nat} {w : Work} {t : State} (ht : s.tryWork d w = some t) : InForm t := by
  unfold State.tryWork at ht
  extract_lets r done at ht
  have hdone {t : State} (ht : InForm t) : InForm (done t) := ite (ht.setDie _ (ht.die d)) ht
  clear_value done
  split at ht
  · split at ht
    · simp at ht
    · extract_lets l u v z at ht
      have hv : InForm v := (h.setSlot ..).updRec ..
      have hz : InForm z := by
        unfold z
        split
        · exact hv.bindRecords ..
        · exact hv
      exact Option.some.inj ht ▸ (hdone hz).goOn ..
  · simp at ht
  · next x _ _ =>
    split at ht
    · obtain ⟨⟨b, l, u⟩, hu, rfl⟩ := Option.map_eq_some_iff.1 ht
      exact hdone ((h.gangPlace hu).dispatchGang ..)
    · obtain ⟨⟨c, k, u⟩, hu, rfl⟩ := Option.map_eq_some_iff.1 ht
      have hu := h.placeFor hu
      refine hdone (InForm.dispatchTo ?_ ..)
      split
      · exact hu.setDie d (hu.die d)
      · exact hu

theorem requestSlot (c k : Nat) : InForm (s.requestSlot c k) := by
  grind [State.requestSlot, setSlot]

theorem request (d : Nat) (r : TRec) : InForm (s.request d r) := by
  unfold State.request
  split
  · exact h
  · exact ite (ite (foldl (fun _ _ ht => ht.requestSlot ..) _ h) (h.requestSlot ..)) h

theorem makeRoom (d : Nat) (w : Work) : InForm (s.makeRoom d w) := by
  unfold State.makeRoom
  extract_lets p
  split
  · next hb =>
    obtain ⟨y, _, hy⟩ := Option.bind_eq_some_iff.1 hb
    exact h.moveOut hy
  · split
    · exact h.request ..
    · exact h

theorem dieDecision (d₀ : Nat) : InForm (s.dieDecision d₀) := by
  have hreserve {t : State} (ht : InForm t) (r : Option (Nat × Target)) : InForm (t.setDie d₀ { t.die d₀ with reserve := r }) :=
    ht.setDie d₀ (ht.die d₀)
  unfold State.dieDecision
  extract_lets x
  split
  · exact ite (hreserve h _) h
  · next w rest _ =>
    extract_lets t du u v
    have ht : InForm t := ite (hreserve h _) h
    split
    · next hw => exact ht.tryWork hw
    · have hu : InForm u := by
        unfold u
        split
        · exact hreserve ht _
        · exact ht
      have hv : InForm v := hu.makeRoom ..
      refine getD (fun z hz => ?_) hv
      obtain ⟨y, _, hy⟩ := List.exists_of_findSome?_eq_some hz
      exact hv.tryWork hy

theorem execDispatchDecision (d₀ : Nat) : NextInForm (Machine.execDispatchDecision d₀ s) := by
  refine NextInForm.next ?_
  grind [setDie, die, dieDecision]

theorem execReadyRecordRefill (d₀ : Nat) : NextInForm (Machine.execReadyRecordRefill d₀ s) := by
  refine NextInForm.next ?_
  grind [updRec]

theorem execPriorityAging (d₀ : Nat) (rec : Nat) : NextInForm (Machine.execPriorityAging d₀ rec s) := by
  refine NextInForm.next ?_
  grind [updRec]

theorem updMarch (d p₀ : Nat) (f : MarchRegs → MarchRegs) : InForm (s.updMarch d p₀ f) := by
  grind [State.updMarch, setDie, die, setMarch_sync]

theorem execPreempt (d₀ p₀ : Nat) (rec : BitVec 64) (port : Nat) : NextInForm (Machine.execPreempt d₀ p₀ rec s port) := by
  refine NextInForm.next ?_
  grind [regionWrite, request, updMarch]

theorem execPreemptWindowExpiry (c₀ slot : Nat) : NextInForm (execPreemptWindowExpiry c₀ slot s) := by
  refine NextInForm.next ?_
  extract_lets l edge
  split
  · exact ite h (ite ((h.setSlot ..).slotState ..) (h.moveOut_getD ..))
  · exact h

theorem memberOut (d : Nat) (r : TRec) (c k : Nat) {t : State} (ht : s.memberOut d r c k = some t) : InForm t := by
  grind [State.memberOut, updRec, freeCellOf, moveOut]

theorem execGangFrameWrite (d₀ launch gang : Nat) : NextInForm (execGangFrameWrite d₀ launch gang s) := by
  have hfold (l : List (TRec × Nat × Nat)) : ∀ o : Option State, (∀ t, o = some t → InForm t) → ∀ t,
      l.foldl (fun o (y, c, k) => o.bind fun s => s.memberOut d₀ y c k) o = some t → InForm t := by
    induction l with
    | nil => exact fun _ ho => ho
    | cons y l ih =>
      refine fun o ho => ih _ fun t ht => ?_
      obtain ⟨u, hu, ht⟩ := Option.bind_eq_some_iff.1 ht
      exact (ho u hu).memberOut _ _ _ _ ht
  refine NextInForm.next ?_
  split
  · exact h
  · extract_lets seats asked still out
    have hout : ∀ t, out = some t → InForm t := hfold seats _ (by grind)
    clear_value out
    split
    · exact h
    · split
      · exact h
      · next t =>
        have ht : InForm t := hout t rfl
        extract_lets u
        have hu : InForm u := foldl (fun _ _ hv => hv.updRec ..) _ ht
        split
        · exact hu.setBlock ..
        · exact hu

theorem execResume (d₀ p₀ : Nat) (rec : BitVec 64) (port : Nat) : NextInForm (Machine.execResume d₀ p₀ rec s port) := by
  refine NextInForm.next ?_
  grind [setSlot, updRec, readyRec, raiseEvt, freeCellOf, regionWrite, updMarch]

theorem killOn (d p₀ handle : Nat) : InForm (s.killOn d p₀ handle) := by
  unfold State.killOn
  exact InForm.updLaunch (foldl (fun t r ht => by grind [freeCellOf, failTask, failRec]) _ h) ..

theorem execLaunchkill (d₀ p₀ : Nat) (handle : BitVec 64) (port : Nat) : NextInForm (Machine.execLaunchkill d₀ p₀ handle s port) := by
  refine NextInForm.next ?_
  grind [regionWrite, updMarch, killOn]

end

end InForm
end Machine
end Sys2Proof
end

section
/-! SUPPORT. O25: the control plane, firmware, errors and boot keep the form. -/

namespace Sys2Proof
namespace Machine
open Safety

namespace InForm

section
variable {s : State} (h : InForm s)
include h

theorem zeroBlock (b : Nat) : InForm (s.zeroBlock b) := foldl (fun _ _ ht => ht.setCore _ rfl) _ (h.setBlock ..)

theorem zeroUnit (u : Nat) : InForm (s.zeroUnit u) := (h.zeroHbm ..).congr rfl rfl rfl rfl rfl

theorem zeroShares (p₀ : Nat) : InForm (s.zeroShares p₀) :=
  foldl (fun _ d ht => ht.setDie d (Memory.wf_clear _ _ (ht.die d))) _ h

theorem dropTlb (p₀ : Nat) : InForm (s.dropTlb p₀) := by
  have hcores := h.mapCores (f := fun x => { x.2 with tlb := x.2.tlb.filter fun e => e.part ≠ p₀ }) fun _ => rfl
  have hdies := hcores.mapDies (f := fun x => { x.2 with
    l2tlb := x.2.l2tlb.filter (fun e => e.part ≠ p₀), wcache := x.2.wcache.filter fun e => e.part ≠ p₀ }) fun _ => rfl
  exact hdies.congr rfl rfl rfl rfl rfl

theorem zeroDie (d : Nat) : InForm (s.zeroDie d) := h.setDie d rfl

theorem dropTask (c k : Nat) : InForm (s.dropTask c k) := by
  grind [State.dropTask, endTask]

theorem setFence (on : Bool) (u : FenceUnit) : InForm (s.setFence on u) := by
  cases u with
  | core c => exact h.setCore c (h.core c)
  | block => exact h.setBlock ..
  | die d => exact h.setDie d (h.die d)
  | link => exact ite (h.fenceLink _) (h.setLink ..)
  | unit => exact h.congr rfl rfl rfl rfl rfl

theorem fence (u : FenceUnit) : InForm (s.fence u) := by
  grind [State.fence, setFence, mk_of]

theorem fenceTasks (u : FenceUnit) : InForm (s.fenceTasks u) := by
  cases u with
  | core | block => exact foldl (fun _ _ ht => ht.dropTask ..) _ h
  | die d => exact foldl (fun _ _ ht => by split; exacts [ht.dropTask .., ht.failRec ..]) _ h
  | _ => exact h

theorem zero (u : FenceUnit) : InForm (s.zero u) := by
  unfold State.zero
  split
  · exact h.setCore _ rfl
  · exact h.zeroBlock _
  · exact h.zeroDie _
  · exact h
  · exact h.zeroUnit _

theorem disown (u : FenceUnit) : InForm (s.disown u) := by
  cases u <;> grind [State.disown, setBlock, setPart, part]

theorem leave (free : Bool) (u : FenceUnit) : InForm (s.leave free u) := by
  cases u with
  | link => exact h.congr rfl rfl rfl rfl rfl
  | _ => exact (h.setFence true _).congr rfl rfl rfl rfl rfl

theorem unfence (u : FenceUnit) : InForm (s.unfence u) := by
  grind [State.unfence, setFence, mk_of]

theorem leaveOne (x : FenceUnit × Bool) : InForm (s.leaveOne x) := by
  grind [State.leaveOne, dropTlb, zero, disown, unfence, mk_of]

theorem zeroQifs (p₀ : Nat) : InForm (s.zeroQifs p₀) := by
  grind [State.zeroQifs, mk_of]

theorem zeroPart (p₀ : Nat) : InForm (s.zeroPart p₀) := by
  have ht : InForm (((s.zeroShares p₀).dropTlb p₀).zeroQifs p₀) := ((h.zeroShares p₀).dropTlb p₀).zeroQifs p₀
  exact (ht.mapDies (f := fun x => { x.2 with regs := Sparse.del x.2.regs p₀ }) fun _ => rfl).congr rfl rfl rfl rfl rfl

theorem endPart (p₀ : Nat) (removed : Bool) : InForm (s.endPart p₀ removed) := by
  have ht := h.zeroPart p₀
  unfold State.endPart
  generalize s.zeroPart p₀ = t at ht
  have hparts : ((Sparse.del t.parts p₀).all fun p => Memory.wf p.2.flagRam) = true :=
    List.all_eq_true.2 fun x hx => List.all_eq_true.1 ht.parts x (Sparse.mem_del hx)
  split
  · exact of_memories ht.hbm ht.hostMem ht.cores ht.dies hparts
  · exact ht.setPart _ rfl

theorem killPart (p₀ : Nat) : InForm (s.killPart p₀) :=
  foldl (fun _ _ ht => (foldl (fun _ _ hu => hu.killOn ..) _ ht).tryComplete _) _ h

theorem killFrozen : InForm s.killFrozen := foldl (fun _ _ ht => ht.killPart _) _ h

theorem freeLeaving : InForm s.freeLeaving := by
  unfold State.freeLeaving
  split
  · exact h
  · extract_lets t wait u
    have ht : InForm t := foldl (fun _ _ ht => foldl (fun _ _ hu => hu.tryComplete _) _ ht) _ h
    have hu : InForm u := foldl (fun _ _ hv => ite hv (hv.leaveOne _)) _ ht
    exact foldl (fun _ x hv => ite hv (ite hv ((hv.endPart x.1 x.2).congr rfl rfl rfl rfl rfl))) _ hu

theorem stopPart (p₀ : Nat) (removed : Bool) : InForm (s.stopPart p₀ removed) := by
  unfold State.stopPart
  extract_lets fw t u bs v us
  have ht : InForm t := h.congr rfl rfl rfl rfl rfl
  have hv : InForm v := foldl (fun _ _ hv => hv.leave ..) _ (ht.killPart p₀)
  exact (foldl (fun _ _ hw => hw.leave ..) _ hv).freeLeaving

theorem tdiError (p₀ : Nat) : InForm (s.tdiError p₀) := by
  grind [State.tdiError, setPart, part, killPart]

omit h in
theorem frozenWrite {ps : List Nat} {changes : Bool} {f : State → State} (h : InForm s) (hf : InForm (f s)) :
    InForm (s.frozenWrite ps changes f) := ite (foldl (fun _ _ ht => ht.tdiError _) _ h) hf

theorem writeExtent (x w : Nat) (v : Word) : InForm (s.writeExtent x w v) := by
  unfold State.writeExtent
  extract_lets e f
  split
  · split
    · split
      · exact ite (h.setExt ..) h
      · exact h
    · exact h.setExt ..
    · exact h.setExt ..
    · exact h
  · exact ite (h.revoke _) h

theorem writeReg (reg : HostReg) (v : Word) : InForm (s.writeReg reg v) := by
  unfold State.writeReg
  split
  · exact h.updMarch ..
  iterate 2
    refine h.frozenWrite ?_
    exact h.setQif ..
  · exact h.congr rfl rfl rfl rfl rfl
  · refine h.frozenWrite ?_
    exact h.congr rfl rfl rfl rfl rfl
  · exact h.congr rfl rfl rfl rfl rfl
  · exact h.writeExtent ..
  · exact h.writeSf ..
  · exact ite h (h.congr rfl rfl rfl rfl rfl)

theorem execRegisterWrite (port : Nat) (reg : HostReg) (value : BitVec 64) : NextInForm (Machine.execRegisterWrite port reg value s) := by
  refine NextInForm.next ?_
  grind [settle, cpWrite, regionWrite, writeReg]

theorem freeBytes (n : Nat) : InForm (s.freeBytes n).2 := by
  grind [State.freeBytes, mk_of]

theorem fwReply (x : Serving) : InForm (s.fwReply x) := by
  grind [State.fwReply, signal, mk_of]

theorem answer (x : Serving) : InForm (s.answer x) := by
  grind [State.answer, fwReply, mk_of]

theorem answerServed : InForm s.answerServed := by
  grind [State.answerServed, answer]

omit h in
theorem mailbox {port : Nat} {x : Serving} {ok : Bool} {f : State → State} (h : InForm s) (hf : InForm (f s)) :
    InForm (s.mailbox port x ok f) :=
  h.cpWrite (ite h (ite (h.congr rfl rfl rfl rfl rfl) (ite (hf.answer _) (h.answer _))))

theorem own (p₀ : Nat) (us : List FenceUnit) : InForm (s.own p₀ us) :=
  foldl (fun t u ht => by
    have hz := ht.zero u
    cases u with
    | block => exact hz.setBlock ..
    | unit => exact hz.setPart _ (hz.part p₀)
    | _ => exact hz) _ h

theorem assignPart (port : Nat) (q : AssignReq) : InForm (s.assignPart port q) := by
  unfold State.assignPart
  extract_lets n p inc fw t
  have ht : InForm t := (h.setPart q.part (x := p) rfl).congr rfl rfl rfl rfl rfl
  exact ((ht.zeroShares _).dropTlb _).own ..

theorem execAssign (port : Nat) (req : AssignReq) : NextInForm (Machine.execAssign port req s) := by
  refine NextInForm.next ?_
  grind [mailbox, assignPart]

theorem execGrow (port p₀ : Nat) (blocks : BitVec 128) (units : List Nat) (zero : Bool) :
    NextInForm (Machine.execGrow port p₀ blocks units s zero) := by
  refine NextInForm.next ?_
  grind [mailbox, own]

theorem execShrink (port p₀ : Nat) (blocks : BitVec 128) (units : List Nat) (zero : Bool) :
    NextInForm (execShrink port p₀ blocks units s zero) :=
  NextInForm.next (h.mailbox (foldl (fun _ _ ht => ht.leave ..) _ h).freeLeaving)

theorem execRemove (port p₀ : Nat) (zero : Bool) : NextInForm (Machine.execRemove port p₀ s zero) := by
  refine NextInForm.next ?_
  grind [stopPart, mailbox]

theorem execDebugpol (port p₀ : Nat) (policy : PolicyBlob) (zero : Bool) : NextInForm (Machine.execDebugpol port p₀ policy s zero) := by
  refine NextInForm.next ?_
  grind [setPart, part, mailbox]

theorem execImageReq (port : Nat) (image : FwImage) (zero : Bool) : NextInForm (Machine.execImageReq port image s zero) := by
  refine NextInForm.next ?_
  grind [mailbox, mk_of]

theorem liftFence (u : FenceUnit) : InForm (s.liftFence u) := by
  grind [State.liftFence, leave, freeLeaving, mk_of]

theorem execFwFence (port : Nat) (unit : FenceUnit) (lift : Bool) (zero : Bool) :
    NextInForm (Machine.execFwFence port unit lift s zero) := by
  refine NextInForm.next ?_
  grind [settle, fence, fenceTasks, mailbox, liftFence]

theorem execFwStatus (port : Nat) (zero : Bool) : NextInForm (Machine.execFwStatus port s zero) := by
  refine NextInForm.next ?_
  grind [mailbox]

theorem execLockInterface (p₀ : Nat) : NextInForm (Machine.execLockInterface p₀ s) := by
  refine NextInForm.next ?_
  grind [setPart, part, dropTlb]

theorem execStartInterface (p₀ : Nat) : NextInForm (Machine.execStartInterface p₀ s) := by
  refine NextInForm.next ?_
  grind [setPart, part]

theorem execStopInterface (p₀ : Nat) : NextInForm (Machine.execStopInterface p₀ s) := by
  refine NextInForm.next ?_
  grind [stopPart]

theorem execGetDeviceInterfaceState (p₀ : Nat) : NextInForm (Machine.execGetDeviceInterfaceState p₀ s) := by
  refine NextInForm.next ?_
  grind [mk_of]

theorem execGetDeviceInterfaceReport (p₀ : Nat) : NextInForm (Machine.execGetDeviceInterfaceReport p₀ s) := by
  refine NextInForm.next ?_
  grind [mk_of]

theorem errCode (u : ErrUnit) : InForm (s.errCode u).2 := by
  cases u with
  | scratchLine | hbmLine => exact h
  | _ => exact h.free

theorem errorEvent (u : ErrUnit) (sev : Nat) : InForm (s.errorEvent u sev) := foldl (fun _ _ ht => ht.errRecord ..) _ (h.errCode u)

theorem contain (u : ErrUnit) : InForm (s.contain u).2 := by
  unfold State.contain
  split <;> dsimp only
  · exact h.setLine ..
  · exact h.congr rfl rfl rfl rfl rfl
  · exact h.dropTask ..
  iterate 3 exact (h.fence _).fenceTasks _
  · exact h.fence _
  · exact foldl (fun _ _ ht => ht.reply _) _ ((h.fence _).setExt ..)

theorem execUncorrectedError (unit : ErrUnit) : NextInForm (Machine.execUncorrectedError unit s) := by
  refine NextInForm.next ?_
  grind [settle, errorEvent, !contain]

theorem execCorrectedError (unit : ErrUnit) : NextInForm (Machine.execCorrectedError unit s) := by
  refine NextInForm.next ?_
  grind [errorEvent, mk_of]

theorem execPatrolScrub (u0 : ErrUnit) : NextInForm (Machine.execPatrolScrub u0 s) := by
  refine NextInForm.next ?_
  grind []

theorem spdmAnswers (ses code : Nat) (msg : BitVec 384) (ok : Spdm → Bool) (f : BitVec 384 → Spdm → Spdm) (more : List (BitVec 384)) :
    InForm (s.spdmAnswers ses code msg ok f more) := by
  grind [State.spdmAnswers, mk_of]

theorem spdmMessage (ses code : Nat) (msg : BitVec 384) (ok : Spdm → Bool) (f : BitVec 384 → Spdm → Spdm) (more : List (BitVec 384)) :
    NextInForm (s.spdmMessage ses code msg ok f more) := NextInForm.next (h.spdmAnswers ..)

theorem execGetVersion (ses : Nat) (msg : BitVec 384) : NextInForm (Machine.execGetVersion ses msg s) := by
  grind [Machine.execGetVersion, spdmMessage]

theorem execGetCapabilities (ses : Nat) (msg : BitVec 384) : NextInForm (Machine.execGetCapabilities ses msg s) := by
  grind [Machine.execGetCapabilities, spdmMessage]

theorem execNegotiateAlgorithms (ses : Nat) (msg : BitVec 384) : NextInForm (Machine.execNegotiateAlgorithms ses msg s) := by
  grind [Machine.execNegotiateAlgorithms, spdmMessage]

theorem execGetDigests (ses : Nat) (msg : BitVec 384) : NextInForm (Machine.execGetDigests ses msg s) := by
  grind [Machine.execGetDigests, spdmMessage]

theorem execGetCertificate (ses : Nat) (msg : BitVec 384) : NextInForm (Machine.execGetCertificate ses msg s) := by
  grind [Machine.execGetCertificate, spdmMessage]

theorem execChallenge (ses : Nat) (msg : BitVec 384) : NextInForm (Machine.execChallenge ses msg s) := by
  grind [Machine.execChallenge, spdmMessage]

theorem execGetMeasurements (ses index : Nat) (msg : BitVec 384) : NextInForm (Machine.execGetMeasurements ses index msg s) := by
  grind [Machine.execGetMeasurements, spdmMessage]

theorem execKeyExchange (ses : Nat) (msg : BitVec 384) : NextInForm (Machine.execKeyExchange ses msg s) := by
  grind [Machine.execKeyExchange, spdmMessage]

theorem execFinish (ses : Nat) (msg : BitVec 384) : NextInForm (Machine.execFinish ses msg s) := by
  grind [Machine.execFinish, spdmMessage]

theorem execKeyUpdate (link : Nat) (tx : Bool) (key : BitVec 256) (salt : BitVec 32) (ses : Nat) :
    NextInForm (Machine.execKeyUpdate link tx key salt s ses) := by
  refine NextInForm.next ?_
  grind [installKey, spdmAnswers]

theorem execHeartbeat (ses : Nat) (msg : BitVec 384) : NextInForm (Machine.execHeartbeat ses msg s) := by
  grind [Machine.execHeartbeat, spdmMessage]

theorem execEndSession (ses : Nat) (msg : BitVec 384) : NextInForm (Machine.execEndSession ses msg s) := by
  grind [Machine.execEndSession, spdmMessage]

theorem setClock (mhz : Nat) : InForm (s.setClock mhz) := by
  grind [State.setClock, podMark, mk_of]

theorem execGovernorLower (power junction : Nat) : NextInForm (Machine.execGovernorLower power junction s) := by
  refine NextInForm.next ?_
  grind [setClock]

theorem execGovernorRaise (power junction : Nat) : NextInForm (Machine.execGovernorRaise power junction s) := by
  refine NextInForm.next ?_
  grind [setClock]

theorem execThermalShutdown (junction : Nat) : NextInForm (Machine.execThermalShutdown junction s) := by
  refine NextInForm.next ?_
  grind [mk_of]

theorem testUnit (ok : Bool) (f : FenceUnit) (u : ErrUnit) : InForm (s.testUnit ok f u) := by
  grind [State.testUnit, fence, errorEvent]

theorem appoint (boot b : Nat) : InForm (s.appoint boot b) := by
  grind [State.appoint, setBlock, fence]

theorem selfTests (boot : Nat) : InForm (s.selfTests boot) :=
  foldl (fun _ _ ht => ht.appoint ..) _ (foldl (fun _ _ ht => ht.testUnit ..) _
    (foldl (fun _ _ ht => ht.testUnit ..) _ (foldl (fun _ _ ht => ht.testUnit ..) _ h)))

theorem recordFenced : InForm s.recordFenced := foldl (fun _ _ ht => ht.free.errRecord ..) _ h

theorem bringUp (i : FwImage) : InForm (s.bringUp i) := by
  grind [State.bringUp, selfTests, recordFenced, mk_of]

theorem boot : InForm s.boot := by
  grind [State.boot, bringUp, mk_of]

theorem afterReset : InForm s.afterReset := of_memories rfl h.hostMem rfl rfl rfl

theorem execResetDev : NextInForm (Machine.execResetDev s) := by
  refine NextInForm.next ?_
  grind [!freeBytes, boot, afterReset, mk_of]

theorem execRecoveryImageLoad (_port : Nat) (image : FwImage) : NextInForm (Machine.execRecoveryImageLoad _port image s) := by
  refine NextInForm.next ?_
  grind [bringUp]

end

end InForm
end Machine
end Sys2Proof
end

section
/-! SUPPORT. O25: control flow, scalar words and vector words keep the form. -/

namespace Sys2Proof
namespace Machine
open Safety

namespace InForm

section
variable {s : State} (h : InForm s)
include h

theorem branchTo (t : BitVec 32) : InForm (s.branchTo t) := by
  grind [State.branchTo, setMe]

theorem withBubble : InForm s.withBubble := by
  grind [State.withBubble, setMe]

theorem execBr (hd : Hdr) (f : FmtB) : NextInForm (execBr hd f s) := h.withBubble.runPlain (h.withBubble.branchTo _)

theorem execJmp (hd : Hdr) (f : FmtRR) : NextInForm (execJmp hd f s) := h.withBubble.runPlain (h.withBubble.branchTo _)

theorem execCall (hd : Hdr) (f : FmtRR) : NextInForm (Machine.execCall hd f s) := by
  refine runWord ?_ ?_
  all_goals grind [setMe, branchTo, withBubble, WRes.Keeps]

theorem countReturn : InForm s.countReturn := by
  grind [State.countReturn, setPart, part]

theorem execRet (hd : Hdr) (f : FmtRR) : NextInForm (execRet hd f s) :=
  h.withBubble.runPlain (h.withBubble.countReturn.branchTo _)

theorem execLoopI (hd : Hdr) (f : FmtL) : NextInForm (Machine.execLoopI hd f s) := by
  refine runWord ?_ ?_
  all_goals grind [setMe, branchTo, WRes.Keeps]

theorem execBrkl (hd : Hdr) : NextInForm (execBrkl hd s) := by
  refine h.withBubble.runPlain ?_
  have ht := h.withBubble
  extract_lets l
  split
  · exact ht.setMe _
  · exact ht

theorem execRpt (hd : Hdr) (f : FmtP) : NextInForm (Machine.execRpt hd f s) := by
  refine h.runPlain ?_
  grind [setMe, WRes.Keeps]

theorem execTrap (hd : Hdr) (f : FmtRR) : NextInForm (Machine.execTrap hd f s) := by
  refine h.runPlain ?_
  grind [setMe, WRes.Keeps]

theorem runFp (o : FpOp) (lat : Nat) (hd : Hdr) (f : FmtRR) : NextInForm (Machine.runFp o lat hd f s) := by
  grind [Machine.runFp, runScalar]

theorem runInt (o : IntOp) (hd : Hdr) (f : RRI) : NextInForm (Machine.runInt o hd f s) := by
  grind [Machine.runInt, runScalar]

theorem execNop (hd : Hdr) : NextInForm (Machine.execNop hd s) := by
  refine h.runPlain ?_
  grind [WRes.Keeps]

theorem runBits (hd : Hdr) (f : FmtRR) (g : Slot → Nat → Nat → Int) : NextInForm (Machine.runBits hd f s g) := by
  grind [Machine.runBits, runScalar]

theorem runPlog (hd : Hdr) (f : FmtRR) (op : Bool → Bool → Bool) : NextInForm (Machine.runPlog hd f s op) := by
  grind [Machine.runPlog, runScalar]

theorem runElems (hd : Hdr) (lat w : Nat) (f : FmtRR) (g : Slot → Nat → Nat → Nat × Fl) :
    NextInForm (Machine.runElems hd s lat w f g) := by
  grind [Machine.runElems, runVector]

theorem runLanes (hd : Hdr) (f : FmtRR) (g : Slot → Nat → Nat → Lane) : NextInForm (Machine.runLanes hd s f g) := by
  grind [Machine.runLanes, runVector]

theorem runMask (hd : Hdr) (lat : Nat) (f : FmtRR) (g : Slot → Nat → BitVec 16 → (Nat → Bool) × Fl) :
    NextInForm (runMask hd s lat f g) := NextInForm.next (h.setMe _).markPerf.finishWord

theorem runVInt (o : IntOp) (sat : Bool) (hd : Hdr) (f : FmtRR) : NextInForm (Machine.runVInt o sat hd f s) := by
  grind [Machine.runVInt, runElems]

theorem execVmad (hd : Hdr) (f : FmtRR) : NextInForm (Machine.execVmad hd f s) := by
  grind [Machine.execVmad, runElems]

theorem execVcmp (hd : Hdr) (cc : Cc) (f : FmtRR) : NextInForm (Machine.execVcmp hd cc f s) := by
  grind [Machine.execVcmp, runMask]

theorem execVfcmp (hd : Hdr) (cc : Cc) (f : FmtRR) : NextInForm (Machine.execVfcmp hd cc f s) := by
  grind [Machine.execVfcmp, runMask]

theorem runVplog (hd : Hdr) (f : FmtRR) (op : Bool → Bool → Bool) : NextInForm (Machine.runVplog hd f s op) := by
  grind [Machine.runVplog, runMask]

theorem runVFp (o : FpOp) (hd : Hdr) (f : FmtRR) : NextInForm (Machine.runVFp o hd f s) := by
  grind [Machine.runVFp, runElems]

theorem runVsf (o : SfOp) (hd : Hdr) (f : FmtRR) : NextInForm (Machine.runVsf o hd f s) := by
  grind [Machine.runVsf, runElems]

theorem execVcvt (hd : Hdr) (f : FmtRR) : NextInForm (Machine.execVcvt hd f s) := by
  grind [Machine.execVcvt, runElems]

theorem runBs (hd : Hdr) (f : FmtRR) (bad : Slot → Nat → Bool) (g : Slot → Nat → BsPair) : NextInForm (runBs hd f s bad g) := by
  unfold Machine.runBs
  extract_lets l
  split
  · exact NextInForm.next (h.noteTrap ..).finishWord
  · exact NextInForm.next (h.setMe _).markPerf.finishWord

theorem execVcvtBsPack (hd : Hdr) (f : FmtRR) : NextInForm (Machine.execVcvtBsPack hd f s) := by
  grind [Machine.execVcvtBsPack, runBs]

theorem execVcvtBsUnpack (hd : Hdr) (f : FmtRR) : NextInForm (Machine.execVcvtBsUnpack hd f s) := by
  grind [Machine.execVcvtBsUnpack, runBs]

theorem runVred (hd : Hdr) (f : FmtRR) (iop : Int → Int → Int) (fop : FpOp) (iid : Int) (fid : Nat) :
    NextInForm (Machine.runVred hd f s iop fop iid fid) := by
  grind [Machine.runVred, runVector]

theorem execVsplat (hd : Hdr) (f : FmtRR) : NextInForm (Machine.execVsplat hd f s) := by
  grind [Machine.execVsplat, runElems]

theorem execVext (hd : Hdr) (f : FmtRR) : NextInForm (Machine.execVext hd f s) := by
  refine NextInForm.next ?_
  grind [setMe, markPerf, finishWord]

theorem execViota (hd : Hdr) (f : FmtRR) : NextInForm (Machine.execViota hd f s) := by
  grind [Machine.execViota, runElems]

end

end InForm
end Machine
end Sys2Proof
end

section
/-! SUPPORT. O25: every instruction keeps the form. -/

namespace Sys2Proof
namespace Machine
open Safety

namespace InForm

section
variable {s : State} (h : InForm s)
include h

theorem exec (i : Instr) : NextInForm (exec i s) := by
  cases i with
  | nop hd => exact h.execNop hd
  | add hd f => exact (h.runInt .. : NextInForm (Machine.execAdd hd f s))
  | sub hd f => exact (h.runInt .. : NextInForm (Machine.execSub hd f s))
  | mul hd f => exact (h.runInt .. : NextInForm (Machine.execMul hd f s))
  | mulHi hd f => exact (h.runInt .. : NextInForm (Machine.execMulHi hd f s))
  | divI hd f => exact (h.runInt .. : NextInForm (Machine.execDivI hd f s))
  | divRem hd f => exact (h.runInt .. : NextInForm (Machine.execDivRem hd f s))
  | andI hd f => exact (h.runInt .. : NextInForm (Machine.execAndI hd f s))
  | orI hd f => exact (h.runInt .. : NextInForm (Machine.execOrI hd f s))
  | xorI hd f => exact (h.runInt .. : NextInForm (Machine.execXorI hd f s))
  | andn hd f => exact (h.runInt .. : NextInForm (Machine.execAndn hd f s))
  | shl hd f => exact (h.runInt .. : NextInForm (Machine.execShl hd f s))
  | shr hd f => exact (h.runInt .. : NextInForm (Machine.execShr hd f s))
  | sra hd f => exact (h.runInt .. : NextInForm (Machine.execSra hd f s))
  | rot hd f => exact (h.runInt .. : NextInForm (Machine.execRot hd f s))
  | minI hd f => exact (h.runInt .. : NextInForm (Machine.execMinI hd f s))
  | maxI hd f => exact (h.runInt .. : NextInForm (Machine.execMaxI hd f s))
  | cmp hd cc f => exact (h.runScalar .. : NextInForm (Machine.execCmp hd cc f s))
  | sel hd f => exact (h.runScalar .. : NextInForm (Machine.execSel hd f s))
  | movi hd f => exact (h.runScalar .. : NextInForm (Machine.execMovi hd f s))
  | movhi hd f => exact (h.runScalar .. : NextInForm (Machine.execMovhi hd f s))
  | lea hd f => exact (h.runScalar .. : NextInForm (Machine.execLea hd f s))
  | fcmp hd cc f => exact (h.runScalar .. : NextInForm (Machine.execFcmp hd cc f s))
  | fcvt hd f => exact (h.runScalar .. : NextInForm (Machine.execFcvt hd f s))
  | bitsClz hd f => exact (h.runBits .. : NextInForm (Machine.execBitsClz hd f s))
  | bitsCtz hd f => exact (h.runBits .. : NextInForm (Machine.execBitsCtz hd f s))
  | bitsPopc hd f => exact (h.runBits .. : NextInForm (Machine.execBitsPopc hd f s))
  | bitsBrev hd f => exact (h.runBits .. : NextInForm (Machine.execBitsBrev hd f s))
  | bitsBfx hd f => exact (h.runBits .. : NextInForm (Machine.execBitsBfx hd f s))
  | bitsBfi hd f => exact (h.runBits .. : NextInForm (Machine.execBitsBfi hd f s))
  | bitsAbs hd f => exact (h.runBits .. : NextInForm (Machine.execBitsAbs hd f s))
  | bitsNeg hd f => exact (h.runBits .. : NextInForm (Machine.execBitsNeg hd f s))
  | plogAnd hd f => exact (h.runPlog .. : NextInForm (Machine.execPlogAnd hd f s))
  | plogOr hd f => exact (h.runPlog .. : NextInForm (Machine.execPlogOr hd f s))
  | plogXor hd f => exact (h.runPlog .. : NextInForm (Machine.execPlogXor hd f s))
  | plogAndn hd f => exact (h.runPlog .. : NextInForm (Machine.execPlogAndn hd f s))
  | fadd hd f => exact (h.runFp .. : NextInForm (Machine.execFadd hd f s))
  | faddSub hd f => exact (h.runFp .. : NextInForm (Machine.execFaddSub hd f s))
  | fmul hd f => exact (h.runFp .. : NextInForm (Machine.execFmul hd f s))
  | fma hd f => exact (h.runFp .. : NextInForm (Machine.execFma hd f s))
  | fmaFms hd f => exact (h.runFp .. : NextInForm (Machine.execFmaFms hd f s))
  | fmaFnma hd f => exact (h.runFp .. : NextInForm (Machine.execFmaFnma hd f s))
  | fdiv hd f => exact (h.runFp .. : NextInForm (Machine.execFdiv hd f s))
  | fdivSqrt hd f => exact (h.runFp .. : NextInForm (Machine.execFdivSqrt hd f s))
  | fmin hd f => exact (h.runFp .. : NextInForm (Machine.execFmin hd f s))
  | fmax hd f => exact (h.runFp .. : NextInForm (Machine.execFmax hd f s))
  | br hd f => exact h.execBr hd f
  | jmp hd f => exact h.execJmp hd f
  | call hd f => exact h.execCall hd f
  | ret hd f => exact h.execRet hd f
  | loopI hd f => exact h.execLoopI hd f
  | brkl hd => exact h.execBrkl hd
  | rpt hd f => exact h.execRpt hd f
  | trap hd f => exact h.execTrap hd f
  | resultLanding core slot => exact h.execResultLanding core slot
  | vadd hd f => exact (h.runVInt .. : NextInForm (Machine.execVadd hd f s))
  | vsub hd f => exact (h.runVInt .. : NextInForm (Machine.execVsub hd f s))
  | vmul hd f => exact (h.runVInt .. : NextInForm (Machine.execVmul hd f s))
  | vmulHi hd f => exact (h.runVInt .. : NextInForm (Machine.execVmulHi hd f s))
  | vlogAnd hd f => exact (h.runVInt .. : NextInForm (Machine.execVlogAnd hd f s))
  | vlogOr hd f => exact (h.runVInt .. : NextInForm (Machine.execVlogOr hd f s))
  | vlogXor hd f => exact (h.runVInt .. : NextInForm (Machine.execVlogXor hd f s))
  | vlogAndn hd f => exact (h.runVInt .. : NextInForm (Machine.execVlogAndn hd f s))
  | vshShl hd f => exact (h.runVInt .. : NextInForm (Machine.execVshShl hd f s))
  | vshShr hd f => exact (h.runVInt .. : NextInForm (Machine.execVshShr hd f s))
  | vshSra hd f => exact (h.runVInt .. : NextInForm (Machine.execVshSra hd f s))
  | vshRot hd f => exact (h.runVInt .. : NextInForm (Machine.execVshRot hd f s))
  | vmin hd f => exact (h.runVInt .. : NextInForm (Machine.execVmin hd f s))
  | vmax hd f => exact (h.runVInt .. : NextInForm (Machine.execVmax hd f s))
  | vmad hd f => exact h.execVmad hd f
  | vcmp hd cc f => exact h.execVcmp hd cc f
  | vsel hd f => exact (h.runLanes .. : NextInForm (Machine.execVsel hd f s))
  | vshuf hd f => exact (h.runLanes .. : NextInForm (Machine.execVshuf hd f s))
  | vrng hd f => exact (h.runLanes .. : NextInForm (Machine.execVrng hd f s))
  | vpcnt hd f => exact (h.runLanes .. : NextInForm (Machine.execVpcnt hd f s))
  | vfadd hd f => exact (h.runVFp .. : NextInForm (Machine.execVfadd hd f s))
  | vfaddSub hd f => exact (h.runVFp .. : NextInForm (Machine.execVfaddSub hd f s))
  | vfmul hd f => exact (h.runVFp .. : NextInForm (Machine.execVfmul hd f s))
  | vfma hd f => exact (h.runVFp .. : NextInForm (Machine.execVfma hd f s))
  | vfmaFms hd f => exact (h.runVFp .. : NextInForm (Machine.execVfmaFms hd f s))
  | vfmaFnma hd f => exact (h.runVFp .. : NextInForm (Machine.execVfmaFnma hd f s))
  | vfmin hd f => exact (h.runVFp .. : NextInForm (Machine.execVfmin hd f s))
  | vfmax hd f => exact (h.runVFp .. : NextInForm (Machine.execVfmax hd f s))
  | vfcmp hd cc f => exact h.execVfcmp hd cc f
  | vsfRcp hd f => exact (h.runVsf .. : NextInForm (Machine.execVsfRcp hd f s))
  | vsfRsqrt hd f => exact (h.runVsf .. : NextInForm (Machine.execVsfRsqrt hd f s))
  | vsfExp2 hd f => exact (h.runVsf .. : NextInForm (Machine.execVsfExp2 hd f s))
  | vsfLog2 hd f => exact (h.runVsf .. : NextInForm (Machine.execVsfLog2 hd f s))
  | vsfSin hd f => exact (h.runVsf .. : NextInForm (Machine.execVsfSin hd f s))
  | vsfCos hd f => exact (h.runVsf .. : NextInForm (Machine.execVsfCos hd f s))
  | vsfTanh hd f => exact (h.runVsf .. : NextInForm (Machine.execVsfTanh hd f s))
  | vsfSigm hd f => exact (h.runVsf .. : NextInForm (Machine.execVsfSigm hd f s))
  | vcvt hd f => exact h.execVcvt hd f
  | vcvtBsPack hd f => exact h.execVcvtBsPack hd f
  | vcvtBsUnpack hd f => exact h.execVcvtBsUnpack hd f
  | vredAdd hd f => exact (h.runVred .. : NextInForm (Machine.execVredAdd hd f s))
  | vredMin hd f => exact (h.runVred .. : NextInForm (Machine.execVredMin hd f s))
  | vredMax hd f => exact (h.runVred .. : NextInForm (Machine.execVredMax hd f s))
  | vxcp hd f => exact (h.runVector .. : NextInForm (Machine.execVxcp hd f s))
  | vsplat hd f => exact h.execVsplat hd f
  | vext hd f => exact h.execVext hd f
  | viota hd f => exact h.execViota hd f
  | vplogAnd hd f => exact (h.runVplog .. : NextInForm (Machine.execVplogAnd hd f s))
  | vplogOr hd f => exact (h.runVplog .. : NextInForm (Machine.execVplogOr hd f s))
  | vplogXor hd f => exact (h.runVplog .. : NextInForm (Machine.execVplogXor hd f s))
  | vplogAndn hd f => exact (h.runVplog .. : NextInForm (Machine.execVplogAndn hd f s))
  | ld hd f => exact h.execLd hd f
  | loadReturn core slot tag => exact h.execLoadReturn core slot tag
  | st hd f => exact h.execSt hd f
  | ldv hd f => exact h.execLdv hd f
  | stv hd f => exact h.execStv hd f
  | vgath hd f => exact h.execVgath hd f
  | vscat hd f => exact h.execVscat hd f
  | atomAdd hd f => exact (h.runAtom .. : NextInForm (Machine.execAtomAdd hd f s))
  | atomAnd hd f => exact (h.runAtom .. : NextInForm (Machine.execAtomAnd hd f s))
  | atomOr hd f => exact (h.runAtom .. : NextInForm (Machine.execAtomOr hd f s))
  | atomXor hd f => exact (h.runAtom .. : NextInForm (Machine.execAtomXor hd f s))
  | atomMin hd f => exact (h.runAtom .. : NextInForm (Machine.execAtomMin hd f s))
  | atomMax hd f => exact (h.runAtom .. : NextInForm (Machine.execAtomMax hd f s))
  | atomSwap hd f => exact (h.runAtom .. : NextInForm (Machine.execAtomSwap hd f s))
  | atomCas hd f => exact (h.runAtom .. : NextInForm (Machine.execAtomCas hd f s))
  | atomFadd hd f => exact (h.runAtom .. : NextInForm (Machine.execAtomFadd hd f s))
  | atomBfadd hd f => exact (h.runAtom .. : NextInForm (Machine.execAtomBfadd hd f s))
  | fence hd f => exact h.execFence hd f
  | flagI hd f => exact h.execFlag hd f
  | waitf hd f => exact (h.runWaitf .. : NextInForm (Machine.execWaitf hd f s))
  | waitfT hd f => exact (h.runWaitf .. : NextInForm (Machine.execWaitfT hd f s))
  | waitTimeout core slot => exact h.execWaitTimeout core slot
  | monitorScan die => exact h.execMonitorScan die
  | cflushWb hd f => exact (h.runCflush .. : NextInForm (Machine.execCflushWb hd f s))
  | cflushInv hd f => exact (h.runCflush .. : NextInForm (Machine.execCflushInv hd f s))
  | cflushWbinv hd f => exact (h.runCflush .. : NextInForm (Machine.execCflushWbinv hd f s))
  | pref hd f => exact h.execPref hd f
  | cpy hd f => exact h.execCpy hd f
  | cpyScale hd f => exact h.execCpyScale hd f
  | copyIntakeDispatch core => exact h.execCopyIntakeDispatch core
  | copyLineFill core cmd => exact h.execCopyLineFill core cmd
  | cpyCompletion core cmd => exact h.execCpyCompletion core cmd
  | ringBind hd f => exact h.execRingBind hd f
  | ringGet hd f => exact h.execRingGet hd f
  | ringCommit hd f => exact (h.runCommit .. : NextInForm (Machine.execRingCommit hd f s))
  | ringEos hd f => exact (h.runCommit .. : NextInForm (Machine.execRingEos hd f s))
  | ringFree hd f => exact h.execRingFree hd f
  | ringStat hd f => exact h.execRingStat hd f
  | spawn hd f => exact h.execSpawn hd f
  | spawnL hd f => exact h.execSpawnL hd f
  | depAdd hd f => exact (h.runDep .. : NextInForm (Machine.execDepAdd hd f s))
  | depSignal hd f => exact (h.runDep .. : NextInForm (Machine.execDepSignal hd f s))
  | suspSuspend hd f => exact h.execSuspSuspend hd f
  | suspYield hd f => exact h.execSuspYield hd f
  | suspFinish hd f => exact h.execSuspFinish hd f
  | barArrive hd f => exact h.execBarArrive hd f
  | barWait hd f => exact h.execBarWait hd f
  | barBoth hd f => exact h.execBarBoth hd f
  | getcCoord hd f => exact (h.runGetc .. : NextInForm (Machine.execGetcCoord hd f s))
  | getcShape hd f => exact (h.runGetc .. : NextInForm (Machine.execGetcShape hd f s))
  | getcLaunch hd f => exact (h.runGetc .. : NextInForm (Machine.execGetcLaunch hd f s))
  | getcCore hd f => exact (h.runGetc .. : NextInForm (Machine.execGetcCore hd f s))
  | rput hd f => exact (h.runRemote .. : NextInForm (Machine.execRput hd f s))
  | rputSig hd f => exact (h.runRemote .. : NextInForm (Machine.execRputSig hd f s))
  | rcopy hd f => exact (h.runRemote .. : NextInForm (Machine.execRcopy hd f s))
  | rcopySig hd f => exact (h.runRemote .. : NextInForm (Machine.execRcopySig hd f s))
  | rsem hd f => exact (h.runRemote .. : NextInForm (Machine.execRsem hd f s))
  | rred hd f => exact (h.runRemote .. : NextInForm (Machine.execRred hd f s))
  | mcred hd f => exact (h.runRemote .. : NextInForm (Machine.execMcred hd f s))
  | qpost hd f => exact h.execQpost hd f
  | qpostEntryFire block entry => exact h.execQpostEntryFire block entry
  | qpostTimedFire block entry => exact h.execQpostTimedFire block entry
  | mbxPost hd f => exact h.execMbxPost hd f
  | mbxTake hd f => exact h.execMbxTake hd f
  | mbxStatus hd f => exact h.execMbxStatus hd f
  | mbxPostnb hd f => exact h.execMbxPostnb hd f
  | rack hd f => exact h.execRack hd f
  | egressAccept block src => exact h.execEgressAccept block src
  | wcfg hd f => exact h.execWcfg hd f
  | wcfgEg hd f => exact h.execWcfgEg hd f
  | pack hd f => exact (h.runPack .. : NextInForm (Machine.execPack hd f s))
  | packRev hd f => exact (h.runPack .. : NextInForm (Machine.execPackRev hd f s))
  | packLimb hd f => exact (h.runPack .. : NextInForm (Machine.execPackLimb hd f s))
  | wmulConv hd f => exact (h.runDigits .. : NextInForm (Machine.execWmulConv hd f s))
  | wmulCorr hd f => exact (h.runDigits .. : NextInForm (Machine.execWmulCorr hd f s))
  | wmulLimb hd f => exact (h.runDigits .. : NextInForm (Machine.execWmulLimb hd f s))
  | wmacConv hd f => exact (h.runDigits .. : NextInForm (Machine.execWmacConv hd f s))
  | wmacCorr hd f => exact (h.runDigits .. : NextInForm (Machine.execWmacCorr hd f s))
  | wmacLimb hd f => exact (h.runDigits .. : NextInForm (Machine.execWmacLimb hd f s))
  | wmulOuter hd f => exact (h.runOuter .. : NextInForm (Machine.execWmulOuter hd f s))
  | wmulOuterSp hd f => exact (h.runOuter .. : NextInForm (Machine.execWmulOuterSp hd f s))
  | wmacOuter hd f => exact (h.runOuter .. : NextInForm (Machine.execWmacOuter hd f s))
  | wmacOuterSp hd f => exact (h.runOuter .. : NextInForm (Machine.execWmacOuterSp hd f s))
  | streamFetch core wm port => exact h.execStreamFetch core wm port
  | extrDigm hd f => exact (h.runExtrDigits .. : NextInForm (Machine.execExtrDigm hd f s))
  | extrLimb hd f => exact (h.runExtrDigits .. : NextInForm (Machine.execExtrLimb hd f s))
  | extrDigs hd f => exact h.execExtrDigs hd f
  | extrTile hd f => exact (h.runExtrTile .. : NextInForm (Machine.execExtrTile hd f s))
  | extrTileClr hd f => exact (h.runExtrTile .. : NextInForm (Machine.execExtrTileClr hd f s))
  | wclr hd f => exact h.execWclr hd f
  | wmov hd f => exact h.execWmov hd f
  | sbindA hd f => exact (h.runSbind .. : NextInForm (Machine.execSbindA hd f s))
  | sbindB hd f => exact (h.runSbind .. : NextInForm (Machine.execSbindB hd f s))
  | sbindUnbind hd f => exact h.execSbindUnbind hd f
  | mcall hd f => exact h.execMcall hd f
  | routineStart core wm => exact h.execRoutineStart core wm
  | routineCompletion core wm => exact h.execRoutineCompletion core wm
  | mpld hd f => exact h.execMpld hd f
  | mldr hd f => exact h.execMldr hd f
  | mldrEntries hd f => exact h.execMldrEntries hd f
  | ftld hd f => exact h.execFtld hd f
  | scld hd f => exact h.execScld hd f
  | scldRd hd f => exact h.execScldRd hd f
  | metaqPush hd f => exact h.execMetaqPush hd f
  | metaqClear hd f => exact h.execMetaqClear hd f
  | wstat hd f => exact h.execWstat hd f
  | wstatClr hd f => exact h.execWstatClr hd f
  | mloop hd f => exact h.execMloop hd f
  | mjmp hd f => exact h.execMjmp hd f
  | mret hd f => exact h.execMret hd f
  | apxb hd f => exact h.execApxb hd f
  | apxe hd f => exact h.execApxe hd f
  | apxc hd f => exact h.execApxc hd f
  | apxsRd hd f => exact h.execApxsRd hd f
  | apxsWr hd f => exact h.execApxsWr hd f
  | apxsInv hd f => exact h.execApxsInv hd f
  | equinoxBatchUpdate block rslot => exact h.execEquinoxBatchUpdate block rslot
  | csrRd hd f => exact h.execCsrRd hd f
  | csrWr hd f => exact (h.runCsr .. : NextInForm (Machine.execCsrWr hd f s))
  | csrSet hd f => exact (h.runCsr .. : NextInForm (Machine.execCsrSet hd f s))
  | csrClr hd f => exact (h.runCsr .. : NextInForm (Machine.execCsrClr hd f s))
  | rft hd => exact h.execRft hd
  | tlbiAll hd f => exact (h.runTlbi .. : NextInForm (Machine.execTlbiAll hd f s))
  | tlbiAddr hd f => exact (h.runTlbi .. : NextInForm (Machine.execTlbiAddr hd f s))
  | tlbiCtx hd f => exact (h.runTlbi .. : NextInForm (Machine.execTlbiCtx hd f s))
  | ctxSave hd f => exact h.execCtxSave hd f
  | ctxRestore hd f => exact h.execCtxRestore hd f
  | wfe hd => exact h.execWfe hd
  | wfeTimeout core slot => exact h.execWfeTimeout core slot
  | halt hd => exact h.execHalt hd
  | pageWalkComplete core slot => exact h.execPageWalkComplete core slot
  | launchIntake => exact h.execLaunchIntake
  | launchCompletion handle => exact h.execLaunchCompletion handle
  | dispatchDecision die => exact h.execDispatchDecision die
  | readyRecordRefill die => exact h.execReadyRecordRefill die
  | priorityAging die rec => exact h.execPriorityAging die rec
  | preempt die part rec port => exact h.execPreempt die part rec port
  | preemptWindowExpiry core slot => exact h.execPreemptWindowExpiry core slot
  | gangFrameWrite die launch gang => exact h.execGangFrameWrite die launch gang
  | resume die part rec port => exact h.execResume die part rec port
  | launchkill die part handle port => exact h.execLaunchkill die part handle port
  | registerWrite port reg value => exact h.execRegisterWrite port reg value
  | springFill stack rec => exact h.execSpringFill stack rec
  | fallDrain stack rec => exact h.execFallDrain stack rec
  | flitReceive link flit => exact h.execFlitReceive link flit
  | nakFlit link seq => exact h.execNakFlit link seq
  | keydone link => exact h.execKeydone link
  | laneFailure link lane rx => exact h.execLaneFailure link lane rx
  | retrainTimeout link => exact h.execRetrainTimeout link
  | putPkt pkt => exact h.execPutPkt pkt
  | redPkt pkt => exact h.execRedPkt pkt
  | semPkt pkt => exact h.execSemPkt pkt
  | mcredContribution pkt => exact h.execMcredContribution pkt
  | mcredRoundTimeout job group => exact h.execMcredRoundTimeout job group
  | mcdata pkt => exact h.execMcdata pkt
  | readPkt pkt => exact h.execReadPkt pkt
  | atomic pkt => exact h.execAtomic pkt
  | respPkt pkt => exact h.execRespPkt pkt
  | ackPkt pkt => exact h.execAckPkt pkt
  | timeSyncExchange t1 t2 t3 t4 => exact h.execTimeSyncExchange t1 t2 t3 t4
  | cpsem port value other => exact h.execCpsem port value other
  | hostLinkDown port => exact h.execHostLinkDown port
  | evtdoor port part => exact h.execEvtdoor port part
  | qerrClear port q => exact h.execQerrClear port q
  | fltqptrHeadWrite part value => exact h.execFltqptrHeadWrite part value
  | fltqbaseWrite part value => exact h.execFltqbaseWrite part value
  | launchReq port q pkt => exact h.execLaunchReq port q pkt
  | depsig port q pkt => exact h.execDepsig port q pkt
  | flagadd port q pkt => exact h.execFlagadd port q pkt
  | packetNop port q pkt => exact h.execPacketNop port q pkt
  | atsInvalidation port pasid page => exact h.execAtsInvalidation port pasid page
  | hostFlagAccess host part ofs kind => exact h.execHostFlagAccess host part ofs kind
  | hostExtentAccess host ext line kind => exact h.execHostExtentAccess host ext line kind
  | snapviewPin host ext => exact h.execSnapviewPin host ext
  | snapviewUnpin host ext => exact h.execSnapviewUnpin host ext
  | extentRevoke port ext => exact h.execExtentRevoke port ext
  | drainTimeout ext => exact h.execDrainTimeout ext
  | recallTimeout ext line => exact h.execRecallTimeout ext line
  | extentZeroing ext => exact h.execExtentZeroing ext
  | assign port req => exact h.execAssign port req
  | grow port part blocks units zero => exact h.execGrow port part blocks units zero
  | shrink port part blocks units zero => exact h.execShrink port part blocks units zero
  | remove port part zero => exact h.execRemove port part zero
  | debugpol port part policy zero => exact h.execDebugpol port part policy zero
  | imageReq port image zero => exact h.execImageReq port image zero
  | fwFence port unit lift zero => exact h.execFwFence port unit lift zero
  | fwStatus port zero => exact h.execFwStatus port zero
  | lockInterface part => exact h.execLockInterface part
  | stopInterface part => exact h.execStopInterface part
  | startInterface part => exact h.execStartInterface part
  | getDeviceInterfaceState part => exact h.execGetDeviceInterfaceState part
  | getDeviceInterfaceReport part => exact h.execGetDeviceInterfaceReport part
  | getVersion ses msg => exact h.execGetVersion ses msg
  | getCapabilities ses msg => exact h.execGetCapabilities ses msg
  | negotiateAlgorithms ses msg => exact h.execNegotiateAlgorithms ses msg
  | getDigests ses msg => exact h.execGetDigests ses msg
  | getCertificate ses msg => exact h.execGetCertificate ses msg
  | challenge ses msg => exact h.execChallenge ses msg
  | getMeasurements ses index msg => exact h.execGetMeasurements ses index msg
  | keyExchange ses msg => exact h.execKeyExchange ses msg
  | finish ses msg => exact h.execFinish ses msg
  | keyUpdate link tx key salt ses => exact h.execKeyUpdate link tx key salt ses
  | heartbeat ses msg => exact h.execHeartbeat ses msg
  | endSession ses msg => exact h.execEndSession ses msg
  | resetDev => exact h.execResetDev
  | recoveryImageLoad port image => exact h.execRecoveryImageLoad port image
  | governorLower power junction => exact h.execGovernorLower power junction
  | governorRaise power junction => exact h.execGovernorRaise power junction
  | thermalShutdown junction => exact h.execThermalShutdown junction
  | patrolScrub unit => exact h.execPatrolScrub unit
  | correctedError unit => exact h.execCorrectedError unit
  | uncorrectedError unit => exact h.execUncorrectedError unit
  | retrainingComplete link lanes ports rxLanes => exact h.execRetrainingComplete link lanes ports rxLanes
  | recallResponse ext line host dirty => exact h.execRecallResponse ext line host dirty

end

end InForm
end Machine
end Sys2Proof
end

section
/-! SUPPORT. O25: turns and steps keep the form. -/

namespace Sys2Proof
namespace Machine
open Safety

namespace InForm

section
variable {s : State} (h : InForm s)
include h

theorem groupTrap (c : Cause) (info : Word) (pc : BitVec 32) : InForm (s.groupTrap c info pc) := by
  grind [State.groupTrap, takeTrap]

theorem sideEffects (ws : List (Nat × Instr)) : InForm (s.sideEffects ws) := by
  grind [State.sideEffects, spoilRegion]

theorem consume (xs : List (Nat × Instr)) : InForm (s.consume xs) := by
  unfold State.consume
  extract_lets q p
  exact ite (h.mapCores fun x => takeScales_scr x.2 p) h

theorem setStale (on : Bool) : InForm (s.setStale on) := by
  grind [State.setStale, setMe]

theorem issueGroup (ws : List IWord) (is : List Instr) : InForm (s.issueGroup ws is) := by
  grind [State.issueGroup, setMe, sideEffects, consume]

theorem askFetch (a : Nat) (segs : List Seg) : InForm (s.askFetch a segs) := by
  grind [State.askFetch, setMe, sendRemote]

theorem openGroup : s.openGroup.Keeps := by
  have hf := h.fetchGroup
  unfold State.openGroup
  split <;> rename_i heq <;> rw [heq] at hf
  · exact askFetch hf ..
  · exact setMe hf _
  · exact groupTrap hf ..
  · rename_i ws t
    extract_lets l
    split
    · exact groupTrap hf ..
    · extract_lets xs
      split
      · exact hf
      · split
        · exact groupTrap hf ..
        · split
          · exact hf
          · exact issueGroup hf ..

theorem reopen (g : Group) : (s.reopen g).Keeps := by
  grind [State.reopen, setMe, sideEffects, consume, setStale, Opened.Keeps]

theorem freeze {t : State} (ht : s.freeze = some t) : InForm t := by
  have he := h.execPreemptWindowExpiry s.cur.1 s.cur.2
  unfold State.freeze at ht
  grind [NextInForm.inForm]

theorem openRepeat (i : Instr) : (s.openRepeat i).Keeps := by
  grind [State.openRepeat, setMe, setStale, freeze, Opened.Keeps]

theorem openSlot : s.openSlot.Keeps := by
  grind [State.openSlot, freeze, !openGroup, Opened.Keeps, !reopen, !openRepeat]

theorem rotate : InForm s.rotate := by
  grind [State.rotate, mk_of]

theorem startCounts : InForm s.startCounts := by
  unfold State.startCounts
  extract_lets due
  exact ite h (h.mapCores (f := fun x => { x.2 with slots := x.2.slots.map fun (k, l) =>
    (k, if due x.1 l then { l with pre := l.pre.map fun (p : PreReq) => p.go s.cycle } else l) }) fun _ => rfl)

theorem after : InForm s.after := by
  grind [State.after, settleSlots, retest, refillQueues, scans, testWatches, flushLinks, snapRetry, trackParent, killFrozen,
     freeLeaving, answerServed, startCounts]

theorem routineTurn (c u : Nat) : NextInForm (routineTurn c u s) := by
  unfold Machine.routineTurn
  split
  · exact NextInForm.next h
  · next r _ =>
    split
    · exact NextInForm.next h
    · extract_lets t
      have ht : InForm t := h.congr rfl rfl rfl rfl rfl
      clear_value t
      have hrun : NextInForm (match t.routineWord r with | .ok i => Machine.exec i t | .error x => .next (t.routineFault c u x)) := by
        split
        · exact ht.exec _
        · exact NextInForm.next (ht.routineFault ..)
      split
      · next v hv => exact NextInForm.next ((hrun.inForm hv).congr rfl rfl rfl rfl rfl)
      · next o hno => exact ⟨fun {v} hv => absurd hv (hno v)⟩

end

/-- What an agent does next keeps the form. -/
def ChoreKeeps : Chore → Prop
  | .inl f => ∀ s, InForm s → NextInForm (f s)
  | .inr _ => True

/-- What each of a list's agents does next keeps the form. -/
def ChoresKeep (l : List Chore) : Prop := ∀ x ∈ l, ChoreKeeps x

namespace ChoresKeep

theorem nil : ChoresKeep [] := by simp [ChoresKeep]

theorem cons {x : Chore} {l : List Chore} (hx : ChoreKeeps x) (hl : ChoresKeep l) : ChoresKeep (x :: l) :=
  List.forall_mem_cons.2 ⟨hx, hl⟩

theorem append {l m : List Chore} (hl : ChoresKeep l) (hm : ChoresKeep m) : ChoresKeep (l ++ m) :=
  List.forall_mem_append.2 ⟨hl, hm⟩

theorem flatMap {α : Type} {f : α → List Chore} (hf : ∀ a, ChoresKeep (f a)) (l : List α) :
    ChoresKeep (l.flatMap f) := fun x hx => by
  obtain ⟨a, _, ha⟩ := List.mem_flatMap.1 hx
  exact hf a x ha

theorem map {α : Type} {f : α → Chore} (hf : ∀ a, ChoreKeeps (f a)) (l : List α) : ChoresKeep (l.map f) :=
  List.forall_mem_map.2 fun a _ => hf a

theorem filterMap {α : Type} {f : α → Option Chore} (hf : ∀ a, ∀ x ∈ f a, ChoreKeeps x) (l : List α) :
    ChoresKeep (l.filterMap f) := fun x hx => by
  obtain ⟨a, _, ha⟩ := List.mem_filterMap.1 hx
  exact hf a x ha

theorem ite {p : Prop} {_ : Decidable p} {l : List Chore} (hl : ChoresKeep l) : ChoresKeep (if p then l else []) := by
  split
  exacts [hl, nil]

end ChoresKeep

/-- A device event as what an agent does next. -/
theorem choreKeeps_event (i : Instr) : ChoreKeeps (.inl (Machine.exec i)) := fun _ hs => hs.exec i

theorem tagTurns_keep (c k t : Nat) (r : TagRes) : ChoresKeep (tagTurns c k t r) := by
  unfold tagTurns
  split
  · exact .cons (choreKeeps_event (.loadReturn c k t)) .nil
  · next id _ => exact .cons (choreKeeps_event (.copyIntakeDispatch c)) (.cons (choreKeeps_event (.copyLineFill c id))
      (.cons (choreKeeps_event (.cpyCompletion c id)) .nil))
  · next u _ => exact .cons (choreKeeps_event (.routineStart c u)) (.cons trivial (.cons (choreKeeps_event (.streamFetch c u 0))
      (.cons (choreKeeps_event (.streamFetch c u 1)) (.cons (choreKeeps_event (.routineCompletion c u)) .nil))))
  · exact .nil

theorem egressTurns_keep (b : Nat) : ChoresKeep (egressTurns b) :=
  .cons (choreKeeps_event (.egressAccept b .august)) (.cons (choreKeeps_event (.egressAccept b .mailbox))
    (.cons (choreKeeps_event (.egressAccept b .fired)) .nil))

theorem slotTurns_keep (s : State) (c k : Nat) : ChoresKeep (s.slotTurns c k) :=
  .append (.append (.append (.ite (.cons (choreKeeps_event (.pageWalkComplete c k)) .nil))
    (.flatMap (fun _ => .flatMap (fun _ => tagTurns_keep _ _ _ _) _) _)) (egressTurns_keep _))
    (.ite (.cons (choreKeeps_event (.resultLanding c k)) .nil))

theorem coreTurns_keep (y : Core) (c : Nat) : ChoresKeep (y.turns c) := by
  unfold Core.turns
  refine .append (.append (.append (.flatMap (fun z => ?slots) _) (.cons (choreKeeps_event (.copyIntakeDispatch c)) .nil))
    (.flatMap (fun z => ?copies) _)) (.flatMap (fun z => ?routines) _)
  case slots =>
    exact .append (.append (.append (.ite (.cons (choreKeeps_event (.pageWalkComplete c z.1)) .nil))
      (.flatMap (fun _ => .flatMap (fun _ => tagTurns_keep _ _ _ _) _) _))
      (.cons (choreKeeps_event (.waitTimeout c z.1)) (.cons (choreKeeps_event (.wfeTimeout c z.1)) .nil)))
      (.ite (.cons (choreKeeps_event (.preemptWindowExpiry c z.1)) .nil))
  case copies => exact .cons (choreKeeps_event (.copyLineFill c z.1)) (.cons (choreKeeps_event (.cpyCompletion c z.1)) .nil)
  case routines =>
    exact .cons (choreKeeps_event (.routineStart c z.1)) (.cons trivial (.cons (choreKeeps_event (.streamFetch c z.1 0))
      (.cons (choreKeeps_event (.streamFetch c z.1 1)) (.cons (choreKeeps_event (.routineCompletion c z.1)) .nil))))

theorem idleTurns_keep (s : State) : ChoresKeep s.idleTurns := by
  unfold State.idleTurns
  refine .append (.append (.append (.append (.append (.append (.append (.cons (choreKeeps_event .launchIntake) .nil)
    (.flatMap (fun d => ?dies) _)) (.flatMap (fun _ => coreTurns_keep _ _) _)) (.flatMap (fun b => ?blocks) _))
    (.map (fun (l : Launch) => choreKeeps_event (.launchCompletion l.handle)) _)) (.flatMap (fun r => ?records) _))
    (.filterMap (fun l => ?links) _)) (.flatMap (fun e => ?extents) _)
  case dies =>
    refine .append (.cons (choreKeeps_event (.dispatchDecision d.1)) (.cons (choreKeeps_event (.readyRecordRefill d.1)) .nil))
      (.filterMap (fun r x hx => ?_) _)
    split at hx
    · exact Option.some.inj hx ▸ choreKeeps_event (.gangFrameWrite d.1 r.handle (s.gangOf r.part r.handle r.coord).1)
    · simp at hx
  case blocks =>
    exact .append (.append (egressTurns_keep _) (.flatMap (fun (y : Nat × QEntry) => .cons (choreKeeps_event (.qpostEntryFire b.1 y.1))
      (.cons (choreKeeps_event (.qpostTimedFire b.1 y.1)) .nil)) _))
      (.map (fun (y : Nat × RSlot) => choreKeeps_event (.equinoxBatchUpdate b.1 y.1)) _)
  case records =>
    exact .cons (choreKeeps_event (.springFill (r.1 / 256) (r.1 % 256)))
      (.cons (choreKeeps_event (.fallDrain (r.1 / 256) (r.1 % 256))) .nil)
  case links =>
    intro x hx
    split at hx
    · exact Option.some.inj hx ▸ choreKeeps_event (.retrainTimeout l.1)
    · simp at hx
  case extents =>
    exact .cons (choreKeeps_event (.drainTimeout e.1)) (.cons (choreKeeps_event (.extentZeroing e.1))
      (.map (fun (r : Recall) => choreKeeps_event (.recallTimeout e.1 r.line)) _))

section
variable {s : State} (h : InForm s)
include h

theorem chore {x : Chore} (hx : ChoreKeeps x) {t : State} (ht : Machine.chore s x = some t) : InForm t := by
  unfold Machine.chore at ht
  split at ht
  · next u hu =>
    have hu : InForm u := by
      cases x with
      | inl f => exact (hx s h).inForm hu
      | inr y => exact (h.routineTurn ..).inForm hu
    grind
  · simp at ht

theorem waitTurn : NextInForm (waitTurn s) := by
  unfold Machine.waitTurn
  split
  · next t ht =>
    obtain ⟨x, hx, ht⟩ := List.exists_of_findSome?_eq_some ht
    refine NextInForm.next (h.chore ?_ ht)
    rcases List.mem_append.1 hx with hx | hx
    · exact slotTurns_keep _ _ _ _ hx
    · split at hx
      · exact idleTurns_keep _ _ hx
      · simp at hx
  · exact NextInForm.next h.rotate.tick

omit h in
theorem issueBy {run : Instr → State → Host.Outcome State Fault Refusal} (hrun : ∀ i t, InForm t → NextInForm (run i t))
    (h : InForm s) :
    NextInForm (issueBy run s) := by
  have ho := h.openSlot
  unfold Machine.issueBy
  split <;> rename_i heq <;> rw [heq] at ho
  · exact NextInForm.next ho
  · exact waitTurn ho
  · split
    · exact h.waitTurn
    · exact hrun _ _ ho

theorem foresee (i : Instr) : InForm (foresee i s) := by
  unfold Machine.foresee
  split
  · exact ite (h.setMe _) h
  · exact h

theorem issueTurn : NextInForm (issueTurn s) := issueBy (fun _ _ ht => (ht.foresee _).exec _) h

theorem nextChore {t : State} (ht : s.nextChore = some t) : InForm t := by
  unfold State.nextChore at ht
  obtain ⟨x, hx, ht⟩ := List.exists_of_findSome?_eq_some ht
  exact h.chore (idleTurns_keep _ _ (List.mem_rotate.1 hx)) ht

theorem idleTurn : NextInForm (idleTurn s) := by
  unfold Machine.idleTurn
  split
  · next ht => exact NextInForm.next (h.nextChore ht)
  · exact NextInForm.next h.tick

theorem runTurn (t : Turn) : NextInForm (runTurn s t) := by
  unfold Machine.runTurn
  split
  · split
    · exact InForm.issueTurn (h.congr rfl rfl rfl rfl rfl)
    · exact NextInForm.next h
  · exact h.routineTurn ..
  · exact NextInForm.next h.tick
  · split
    · exact NextInForm.next h
    · exact h.exec _

theorem defaultTurn : NextInForm (defaultTurn s) := by
  unfold Machine.defaultTurn
  split
  · exact NextInForm.next h.boot
  · split
    · next t ht =>
      have ht : InForm t := by
        split at ht
        · exact h.nextChore ht
        · simp at ht
      exact NextInForm.next (ht.congr rfl rfl rfl rfl rfl)
    · split
      · exact h.issueTurn
      · split
        · exact InForm.issueTurn (h.congr rfl rfl rfl rfl rfl)
        · exact h.idleTurn

theorem turn : NextInForm (turn s) := by
  unfold Machine.turn
  split
  · next rest _ =>
    have ht : InForm { s with agenda := rest } := h.congr rfl rfl rfl rfl rfl
    exact ht.runTurn _
  · exact h.defaultTurn

theorem step {t : State} (ht : step s = .next t) : InForm t := by
  unfold Machine.step at ht
  split at ht
  · simp at ht
  · split at ht
    · next u hu => exact Host.Outcome.next.inj ht ▸ (h.turn.inForm hu).after
    · next hno => exact absurd ht (hno t)

end

end InForm
end Machine
end Sys2Proof
end

section
namespace Sys2Proof

/-- Settles O25: a step is a turn and what follows it, and each of the functions that they are made of keeps the form of every memory. -/
theorem stepKeepsMemories : Obligations.StepKeepsMemories := fun _ _ hs ht => (Machine.InForm.step ⟨hs⟩ ht).wf

end Sys2Proof
end
